-- ==== Sys2Proof/Word.lean ====
section
/-! DEFINITION. The word types of the device: bytes, 32-bit register words and 64-bit words (R8, R75). -/

namespace Sys2Proof

/-- A byte of memory. -/
abbrev Byte := BitVec 8
/-- A 32-bit register or structure word. -/
abbrev Word := BitVec 32
/-- A 64-bit word of a packet, a counter pair or an address pair. -/
abbrev DWord := BitVec 64

end Sys2Proof
end

