-- ==== Sys2Proof/Syntax.lean ====
section
/-! DEFINITION. The commands and events the block takes, one constructor per row of spec/opcode_table.json.  The table gives
its rows no bits and no operands, so an operand is whatever the rule of the row needs from outside the device: which unit the
event is at, what arrived, what a sensor read.  Everything else is read from the state. -/

namespace Sys2Proof

/-- Compute die d (R13). -/
abbrev DieIx := Fin 16
/-- Face of a die (R13). -/
abbrev FaceIx := Fin 64
/-- Bench of a face (R13). -/
abbrev BenchIx := Fin 16
/-- Memory controller or Crucible of a die (R13). -/
abbrev CtlIx := Fin 8
/-- Channel of a stack (R207). -/
abbrev ChanIx := Fin 32
/-- Link of the device (R271). -/
abbrev LinkIx := Fin 128

/-- Requester of a register access (R373, R376). -/
inductive Requester where
  | host | foreman | dieCtl
deriving DecidableEq, Repr

/-- A fabric packet: the fields of the header flit (R281) and the bytes of its data flits. -/
structure Packet where
  type   : Nat
  rsp    : Bool := false
  ord    : Bool := false
  ak     : Bool := false
  poison : Bool := false
  vc     : Nat := 0
  src    : Nat
  dst    : Nat
  hops   : Nat := 0
  dl     : Bool := false
  esc    : Bool := false
  detour : Bool := false
  status : Nat := 0
  tag    : Nat := 0
  args   : Nat := 0
  addr   : Nat := 0
  ext    : Nat := 0
  data   : List Byte := []
deriving DecidableEq, Repr

/-- How a PCIe completion ends (R358). -/
inductive CplStatus where
  | ok | unsupported | abort | poisoned
deriving DecidableEq, Repr

/-- A read of host memory that a completion answers (R358): one in flight with a tag, or those that a unit of the device makes in the
4 KiB page at a host-window offset from then on. -/
inductive CplFor where
  | tag (t : Nat)
  | page (o : Nat)
deriving DecidableEq, Repr

/-- What a register access addresses: BAR0, BAR4, the function's configuration space, or in it the size field of BAR2 (R360, R361,
R393). -/
inductive RegSpace where
  | bar0 | bar4 | config | rebar
deriving DecidableEq, Repr
/-- A read of a register: of 4 or 8 bytes at an offset of its space (R367). -/
structure RegRead where
  space : RegSpace := .bar0
  off   : Nat
  size  : Nat := 4
deriving DecidableEq, Repr
/-- Who writes a register, and what the other requesters write there in the same PCLK cycle (R376). -/
structure Writer where
  who  : Requester
  also : List (Requester × Nat) := []
deriving DecidableEq, Repr

/-- The error pattern of one beat: symbol number and difference (R212). -/
abbrev BeatErr := List (Nat × Nat)

/-- A bench, with the bits in error in the store word that the command reads there (R215). -/
structure BenchRead where
  bench : BenchIx
  word  : Nat := 0
deriving DecidableEq, Repr

/-- What a command brings to the Crucibles, with the bits in error in the staging entries it reads: entry, then one mask a word
(R215, R325). -/
structure EntryRead (α : Type) where
  val : α
  ue  : List (Nat × List Nat) := []
deriving DecidableEq, Repr

/-- What an optional bit error of a protected word hit (R215, R224). -/
inductive LineErr where
  | none
  /-- 80-bit mask of the bits in error in a data word of the line. -/
  | data (mask : Nat)
  /-- 80-bit mask of the bits in error in the line's tag word. -/
  | tag (mask : Nat)
deriving DecidableEq, Repr

/-- The identity flits of a link check (R274), absent when nothing answers. -/
structure LinkId where
  dev  : Nat
  link : Nat
  port : Nat
  crc  : Nat
deriving DecidableEq, Repr

/-- How the decision engine of an input pin or sensor saw a level. -/
abbrev Level := Bool

/-- What an SPDM request asks, as far as the spec gives it an effect (R409 to R411). -/
inductive SpdmReq where
  | getVersion
  | getCapabilities
  /-- NEGOTIATE_ALGORITHMS: what the requester supports, as the standard's bit sets. -/
  | negotiateAlgorithms (asym hash dhe aead : Nat)
  | getDigests
  | getCertificate (slot off len : Nat)
  | getMeasurement (index : Nat)
  | openSession
  | closeSession
  /-- IDE_KM programs the keys of the selective stream, or starts it for the root port's range of requester IDs. -/
  | ideKeys
  | ideStart (ridLo ridHi : Nat)
  /-- Any other request of the standard. -/
  | other (msg : List Byte)
deriving DecidableEq, Repr

/-- An MCTP message over the sideband (R414). -/
inductive MctpMsg where
  | control (msg : List Byte)
  | spdm (req : SpdmReq)
  /-- A command word of mailbox 2 or 15, its block inline, for CFG_WRITE and FW_WRITE the image, and for CFG_SET whether the record reads
  back good. -/
  | command (m word : Nat) (blk image : List Byte) (good : Bool)
deriving DecidableEq, Repr

/-- What a private debug instruction reaches (R413): a register, read or written, or the Foreman itself. -/
inductive DebugOp where
  | read (off : Nat)
  | write (off : Nat) (v : Word)
  | foreman (code : Nat)
deriving DecidableEq, Repr

/-- Instructions of the test port (R413): the four of IEEE 1149.1 with what is shifted in, and Norern's private ones. -/
inductive JtagOp where
  | bypass (tdi : Bool)
  | idcode
  | sample (load : Nat)
  | extest (pins : Nat)
  | debug (op : DebugOp) (tdi : Bool)
deriving DecidableEq, Repr

/-- A hardware fault met in a pass: a column sum left the window (R42), or a word of a bench store was read with the bits of an 80-bit
mask in error (R71, R215). -/
inductive PassErr where
  | none | winOvf
  | store (word : Nat)
deriving DecidableEq, Repr

/-- A face that claims, with the other faces of its die that claim in the same ACLK cycle (R27, R349). -/
structure Claimer where
  face : FaceIx
  also : List FaceIx := []
deriving DecidableEq, Repr

/-- An arbiter with low-priority requesters (R351): a memory controller's command queue, a link die's bucket port, a link output, the
die-mesh port toward LD2. -/
inductive Arbiter where
  | memQueue (d : DieIx) (c : CtlIx)
  | bucketPort (k : Fin 4)
  | linkOut (l : LinkIx)
  | tracePort
deriving DecidableEq, Repr
/-- A low-priority requester (R351): MIG packets are those of one arrival link, or of the device itself. -/
inductive LowReq where
  | scrub | sweep | stagingBack | ledgerBack
  | mig (from_ : Option LinkIx)
  | trace
deriving DecidableEq, Repr

/-- One command or event.  The first word of each docstring is the row's mnemonic. -/
inductive Instr where
  /-- STEP_RUN R23: the command block read for the word of mailbox 0. -/
  | stepRun (blk : List Byte)
  /-- STEP_STOP R25 -/
  | stepStop
  /-- STEP_START R169 -/
  | stepStart
  /-- MICROSTEP_START R173 -/
  | microstepStart
  /-- INPUT_FILL_POLL R173 -/
  | inputFillPoll
  /-- FACE_CLAIM R27 -/
  | faceClaim (d : DieIx) (f : Claimer)
  /-- FACE_CLAIM_DISABLE R28 -/
  | faceClaimDisable (d : DieIx) (f : FaceIx) (q : Requester)
  /-- DESC_NOP R20 -/
  | descNop (d : DieIx) (f : FaceIx)
  /-- DESC_GEMM R68 -/
  | descGemm (d : DieIx) (f : FaceIx)
  /-- DESC_VEC_LAYER_DATA R465 -/
  | descVecLayerData (d : DieIx) (f : FaceIx)
  /-- DESC_VEC_PLAIN R465 -/
  | descVecPlain (d : DieIx) (f : FaceIx)
  /-- DESC_VEC_GRADIENT_PAIR R186 -/
  | descVecGradientPair (d : DieIx) (f : FaceIx)
  /-- DESC_SEND R308 -/
  | descSend (d : DieIx) (f : FaceIx)
  /-- DESC_ATTN_FWD R184 -/
  | descAttnFwd (d : DieIx) (f : FaceIx)
  /-- DESC_ATTN_BWD_KV R185 -/
  | descAttnBwdKv (d : DieIx) (f : FaceIx)
  /-- DESC_ATTN_BWD_Q R185 -/
  | descAttnBwdQ (d : DieIx) (f : FaceIx)
  /-- DESC_WCOPY_MEASURE R159 -/
  | descWcopyMeasure (d : DieIx) (f : FaceIx)
  /-- DESC_WCOPY_MAKE R159 -/
  | descWcopyMake (d : DieIx) (f : FaceIx)
  /-- DESC_WCOPY_PUBLISH R161 -/
  | descWcopyPublish (d : DieIx) (f : FaceIx)
  /-- DESC_OPT R194 -/
  | descOpt (d : DieIx) (f : FaceIx)
  /-- DESC_COMPLETE R31 -/
  | descComplete (d : DieIx) (f : FaceIx)
  /-- TALLY_INCREMENT R29: the oldest increment in flight toward tally t of die d lands. -/
  | tallyIncrement (d : DieIx) (t : Fin 256)
  /-- TALLY_ACK R31 -/
  | tallyAck (d : DieIx) (f : FaceIx)
  /-- PASS_ACCEPT R47, with the 80-bit error mask of the worst word of the face store that fills the pass's stages (R215). -/
  | passAccept (d : DieIx) (f : FaceIx) (b : BenchRead)
  /-- PASS_WAVE0 R51: both stages hold the oldest waiting pass from ACLK cycle `cycle` on; with the hardware fault it meets. -/
  | passWave0 (d : DieIx) (f : FaceIx) (b : BenchIx) (cycle : Nat) (err : PassErr)
  /-- SIDE_LANE_START R63: the activation stage of the oldest waiting pass that the side lane has not started is full in ACLK
  cycle `cycle`. -/
  | sideLaneStart (d : DieIx) (f : FaceIx) (b : BenchIx) (cycle : Nat)
  /-- LATE_ADD R65: the oldest completed late entry of the bench, with the 80-bit error mask of the word that the add reads (R71). -/
  | lateAdd (d : DieIx) (f : FaceIx) (b : BenchRead)
  /-- PARK_RELEASE R66: the oldest released park entry of the bench, with the 80-bit error mask of the word read (R71). -/
  | parkRelease (d : DieIx) (f : FaceIx) (b : BenchIx) (word : Nat)
  /-- SHADOW_UNIT R146 -/
  | shadowUnit (d : DieIx) (f : FaceIx) (b : BenchIx)
  /-- BENCH_DISABLE R73 -/
  | benchDisable (d : DieIx) (f : FaceIx) (b : BenchIx) (q : Requester)
  /-- PLANISH_ROW R112, with the 80-bit error mask of the worst word read from the row buffer and the sign store (R122). -/
  | planishRow (d : DieIx) (f : FaceIx) (word : Nat)
  /-- ROTATE_ROW R106: with the same. -/
  | rotateRow (d : DieIx) (f : FaceIx) (word : Nat)
  /-- SIGN_FILL R108 -/
  | signFill (d : DieIx) (f : FaceIx)
  /-- SIGN_FILL_DONE R108 -/
  | signFillDone (d : DieIx) (f : FaceIx)
  /-- ASSAY_RECORD_MERGE R140 -/
  | assayRecordMerge (d : DieIx)
  /-- PACKAGE_BARRIER_CLOSE R330 -/
  | packageBarrierClose (c : Fin 15)
  /-- ASSAY_SUM R150 -/
  | assaySum (p : Packet)
  /-- ASSAY_ACK R151 -/
  | assayAck (p : Packet)
  /-- STEERING_DECISION R154 -/
  | steeringDecision
  /-- STEER_ENTRY_WRITE R167: word w of entry l. -/
  | steerEntryWrite (l : Fin 4096) (w : Fin 8) (v : Word) (q : Requester)
  /-- C15_ARRIVE R197 -/
  | c15Arrive
  /-- BAR_PACKET R341 -/
  | barPacket (p : Packet)
  /-- BAR_RESEND R343: the oldest returned packet waiting for its 10 µs timer. -/
  | barResend
  /-- PHASE_WATCHDOG R348 -/
  | phaseWatchdog
  /-- C15_WATCHDOG R199 -/
  | c15Watchdog
  /-- STEP_ABANDON R199 -/
  | stepAbandon (q : Requester)
  /-- STEP_HOLD R204 -/
  | stepHold (q : Requester)
  /-- DC_READ_NORMAL R221: n bytes at DRAM address a, within one line. -/
  | dcReadNormal (a n : Nat) (e : LineErr)
  /-- DC_READ_KEEP R221 -/
  | dcReadKeep (a n : Nat) (e : LineErr)
  /-- DC_READ_STREAM R221 -/
  | dcReadStream (a n : Nat) (e : LineErr)
  /-- DC_READ_LASTUSE R221 -/
  | dcReadLastuse (a n : Nat) (e : LineErr)
  /-- DC_WRITE_NORMAL R221 -/
  | dcWriteNormal (a : Nat) (v : List Byte) (poison : Bool) (e : LineErr)
  /-- DC_WRITE_KEEP R221 -/
  | dcWriteKeep (a : Nat) (v : List Byte) (poison : Bool) (e : LineErr)
  /-- DC_WRITE_STREAM R221 -/
  | dcWriteStream (a : Nat) (v : List Byte) (poison : Bool) (e : LineErr)
  /-- DC_WRITE_LASTUSE R221 -/
  | dcWriteLastuse (a : Nat) (v : List Byte) (poison : Bool) (e : LineErr)
  /-- DRAM_READ_DONE R213: the burst at DRAM address a returns with these error patterns, one per beat. -/
  | dramReadDone (a : Nat) (errs : List BeatErr)
  /-- MEND_COMPLETE R264: the oldest mend ends; the bytes are those of a remote source, absent when it failed. -/
  | mendComplete (fetched : Option (List Byte))
  /-- REFRESH_DUE R231: with requests waiting or not. -/
  | refreshDue (d : DieIx) (ch : ChanIx) (busy : Bool)
  /-- REFRESH_POSTPONED_ISSUE R231 -/
  | refreshPostponedIssue (d : DieIx) (ch : ChanIx)
  /-- ROW_IDLE_PRECHARGE R209: a bank (SID × 16 + bank in SID) of a channel. -/
  | rowIdlePrecharge (d : DieIx) (ch : ChanIx) (bank : Fin 128)
  /-- PATROL_SCRUB R232: the next burst of a channel, with its error patterns, and whether a write to it came between the
  scrub read and the scrub write. -/
  | patrolScrub (d : DieIx) (ch : ChanIx) (errs : List BeatErr) (written : Bool)
  /-- THERMAL_READING R233: the eight die temperatures of stack d in °C. -/
  | thermalReading (d : DieIx) (temps : List Nat)
  /-- GRACE_LIMIT R235 -/
  | graceLimit (d : DieIx)
  /-- DC_FLUSH R225 -/
  | dcFlush (d : DieIx) (c : CtlIx) (q : Requester)
  /-- DC_FLUSH_DONE R225 -/
  | dcFlushDone (d : DieIx) (c : CtlIx)
  /-- STREAM_LINE_READ R228: the 256-bit descriptor the face sequencer loads first, when it loads one (R226), and how many
  ring lines the consumer has finished with. -/
  | streamLineRead (d : DieIx) (f : FaceIx) (x : Fin 8) (load : Option Nat) (freed : Nat)
  /-- STREAM_LINE_RETURN R230: the line read with this number returns (out of order is allowed). -/
  | streamLineReturn (d : DieIx) (f : FaceIx) (x : Fin 8) (line : Nat) (ended : Bool)
  /-- STREAM_LINE_STORE R229: with the descriptor the face sequencer loads first, when it loads one. -/
  | streamLineStore (d : DieIx) (f : FaceIx) (x : Fin 8) (load : Option Nat)
  /-- STREAM_STORE_ACK R229 -/
  | streamStoreAck (d : DieIx) (f : FaceIx) (x : Fin 8)
  /-- OBJ_CREATE R242: the command block read for the word of mailbox 1. -/
  | objCreate (blk : List Byte)
  /-- OBJ_FREE R243 -/
  | objFree (blk : List Byte)
  /-- REGION_ADD R242 -/
  | regionAdd (blk : List Byte)
  /-- REGION_DEL R242 -/
  | regionDel (blk : List Byte)
  /-- RESERVE R242 -/
  | reserve (blk : List Byte)
  /-- EVACUATE R265 -/
  | evacuate (blk : List Byte)
  /-- EVACUATE_DONE R265 -/
  | evacuateDone
  /-- ALIAS_SET R266 -/
  | aliasSet (blk : List Byte)
  /-- OBJECT_RESOLVE R250: object address, whether the access is a write, the requesting face when it is local, and whether the
  ledger cache's entry held an uncorrectable error (R293). -/
  | objectResolve (oa : Nat) (write : Bool) (face : Option (Fin 1024)) (ue : Bool)
  /-- STALE_REPLY R251 -/
  | staleReply (p : Packet)
  /-- AGE_SWEEP R255 -/
  | ageSweep
  /-- MIG_DATA R282 -/
  | migData (p : Packet)
  /-- MIG_DONE R282 -/
  | migDone (p : Packet)
  /-- MOVE_SWITCH R259: the oldest move whose data has arrived. -/
  | moveSwitch
  /-- FRAME_MAP_REBUILD_DONE R267: of global channel g. -/
  | frameMapRebuildDone (g : Fin 512)
  /-- LED_LOOKUP R282: with the same error. -/
  | ledLookup (p : Packet) (ue : Bool)
  /-- LED_PROXY_ANSWER R282 -/
  | ledProxyAnswer (p : Packet)
  /-- LED_REPLICA_ADD R282 -/
  | ledReplicaAdd (p : Packet)
  /-- LED_REPLICA_DROP R282 -/
  | ledReplicaDrop (p : Packet)
  /-- LED_POISON_NOTICE R282 -/
  | ledPoisonNotice (p : Packet)
  /-- LED_PLACE_SPILL R282 -/
  | ledPlaceSpill (p : Packet)
  /-- LED_FREE_NOTICE R282 -/
  | ledFreeNotice (p : Packet)
  /-- LED_ENTRY_TRANSFER R282 -/
  | ledEntryTransfer (p : Packet)
  /-- LINK_DETECT_DONE R273: the far end's receiver was detected or not. -/
  | linkDetectDone (l : LinkIx) (found : Bool)
  /-- LINK_TRAIN_DONE R273: with the PAM4 eye measured. -/
  | linkTrainDone (l : LinkIx) (passed : Bool) (eyeH eyeW : Nat)
  /-- LINK_CHECK R274: what the far end sent. -/
  | linkCheck (l : LinkIx) (far : Option LinkId)
  /-- LINK_HEALTH_CHECK R275: the once-a-second check, with the eye measured; `hour` when an hour ends. -/
  | linkHealthCheck (l : LinkIx) (eyeH eyeW : Nat) (hour : Bool)
  /-- LINK_RETRAIN R273 -/
  | linkRetrain (l : LinkIx) (q : Requester)
  /-- LINK_ENABLE_WRITE R273 -/
  | linkEnableWrite (l : LinkIx) (en : Bool) (q : Requester)
  /-- SEQ_FLIT_RECEIVE R278: 32 data bytes, the flit's sequence number and the 80-bit error mask of each of its four words. -/
  | seqFlitReceive (l : LinkIx) (vc : Fin 9) (bytes : List Byte) (seq : Fin 4096) (errs : List Nat)
  /-- LCTL_RECEIVE R277: a control flit. -/
  | lctlReceive (l : LinkIx) (kind : Fin 16) (ack : Fin 4096) (nak : Bool) (cred : List Nat) (errs : List Nat)
  /-- LCTL_SEND R277 -/
  | lctlSend (l : LinkIx)
  /-- NAK_REPEAT R278 -/
  | nakRepeat (l : LinkIx)
  /-- LINK_DOWN R280 -/
  | linkDown (l : LinkIx)
  /-- RESYNC R284 -/
  | resync (p : Packet)
  /-- PACKET_FORWARD R289: a whole packet, received on a link or sent by this device. -/
  | packetForward (p : Packet) (fromLink : Option LinkIx)
  /-- ESC_WAIT R289 -/
  | escWait (p : Packet)
  /-- DELIVERY_FAIL_RESPONSE R283 -/
  | deliveryFailResponse (p : Packet)
  /-- RD R282 -/
  | rd (p : Packet)
  /-- RD_RESPONSE R282 -/
  | rdResponse (p : Packet)
  /-- WR R282 -/
  | wr (p : Packet)
  /-- WR_RESPONSE R229 -/
  | wrResponse (p : Packet)
  /-- ACC R313: at Crucible c of die d. -/
  | acc (d : DieIx) (c : CtlIx) (p : EntryRead Packet)
  /-- ACCB R313 -/
  | accb (d : DieIx) (c : CtlIx) (p : EntryRead Packet)
  /-- JOB_DONE R316 -/
  | jobDone (p : EntryRead Packet)
  /-- CRU_DEADLINE R317 -/
  | cruDeadline (job : EntryRead (Fin 4096))
  /-- DBL R386 -/
  | dbl (p : Packet)
  /-- MBOX_FWD R384 -/
  | mboxFwd (p : Packet)
  /-- FAULT_FWD R440 -/
  | faultFwd (p : Packet)
  /-- ARB_AGING_PROMOTE R351 -/
  | arbAgingPromote (arbiter : Arbiter) (requester : LowReq)
  /-- PCIE_NOFLIT_RETRY R356 -/
  | pcieNoflitRetry
  /-- D3HOT_ENTRY R357 -/
  | d3hotEntry
  /-- D0_RETURN R357 -/
  | d0Return
  /-- BAR2_READ R361 -/
  | bar2Read (off n : Nat) (ide : Bool)
  /-- BAR2_WRITE R361 -/
  | bar2Write (off : Nat) (v : List Byte) (poison ide : Bool)
  /-- PEER_WINDOW_ACCESS R363: a read of n bytes, or a write of `v`. -/
  | peerWindowAccess (off n : Nat) (v : Option (List Byte))
  /-- PCIE_COMPLETION R358: for the outstanding request with this tag, or for the reads of a page by the device's own units. -/
  | pcieCompletion (tag : CplFor) (st : CplStatus) (v : List Byte)
  /-- PCIE_COMPLETION_TIMEOUT R358: likewise. -/
  | pcieCompletionTimeout (tag : CplFor)
  /-- REGISTER_WRITE R368: space and offset, access size in bytes and value. -/
  | registerWrite (q : Writer) (space : RegSpace) (off size : Nat) (v : DWord)
  /-- SEQUENCE_CLEAR R370 -/
  | sequenceClear (q : Requester) (off : Nat) (v : Word)
  /-- SUMMARY_READ R371: and a read of any other register (R367, R368). -/
  | summaryRead (q : Requester) (a : RegRead)
  /-- BIT_ALIAS_WRITE R374: bit b of the register at offset off. -/
  | bitAliasWrite (q : Requester) (off : Nat) (b : Fin 32) (v : Bool)
  /-- PAIR_LO_READ R373 -/
  | pairLoRead (q : Requester) (off : Nat)
  /-- PAIR_HI_READ R373 -/
  | pairHiRead (q : Requester) (off : Nat)
  /-- PAIR_LO_WRITE R373 -/
  | pairLoWrite (q : Requester) (off : Nat) (v : Word)
  /-- PAIR_HI_WRITE R373 -/
  | pairHiWrite (q : Requester) (off : Nat) (v : Word)
  /-- GUARD_FIRST_HALF R372 -/
  | guardFirstHalf (q : Writer) (off : Nat) (v : Word)
  /-- GUARD_PAIR_EXPIRE R372 -/
  | guardPairExpire (q : Requester)
  /-- SPR_KEY_WRITE R180: the second half of the guarded pair of key word j. -/
  | sprKeyWrite (q : Requester) (j : Fin 4) (v : Word)
  /-- REG_PARITY_SCRUB R375: the mismatch found, by register offset. -/
  | regParityScrub (off : Nat)
  /-- H2F_WRITE R378 -/
  | h2fWrite (m : Fin 16) (v : Word)
  /-- F2H_READ R378 -/
  | f2hRead (m : Fin 16)
  /-- MAILBOX_TIMEOUT R382: of mailbox m, or of die mailbox m − 16 (R385). -/
  | mailboxTimeout (m : Fin 32)
  /-- PING R379: the Foreman takes the word of mailbox m. -/
  | ping (m : Fin 16)
  /-- MAILBOX_FORWARD R384 -/
  | mailboxForward (m : Fin 16)
  /-- FORWARD_ANSWER_TIMEOUT R384 -/
  | forwardAnswerTimeout (m : Fin 16)
  /-- H2D_WRITE R385 -/
  | h2dWrite (d : DieIx) (v : Word)
  /-- D2H_READ R385 -/
  | d2hRead (d : DieIx)
  /-- DIE_PING R385 -/
  | diePing (d : DieIx)
  /-- DIE_FLUSH R385 -/
  | dieFlush (d : DieIx)
  /-- DIE_QUIESCE R385 -/
  | dieQuiesce (d : DieIx)
  /-- DB_COUNT_READ R386 -/
  | dbCountRead (j : Fin 64)
  /-- POWER_ON_RESET R388 -/
  | powerOnReset
  /-- FUNDAMENTAL_RESET R388: PERST_N, or a Hot Reset on the link. -/
  | fundamentalReset (hot : Bool)
  /-- WARM_RESET R389 -/
  | warmReset (q : Requester) (v : Word)
  /-- FIRMWARE_START R391 -/
  | firmwareStart
  /-- DOMAIN_POWER_GOOD R392 -/
  | domainPowerGood (pd : Fin 123)
  /-- POWER_GOOD_TIMEOUT R394 -/
  | powerGoodTimeout (pd : Fin 123)
  /-- DRAM_CHANNEL_TRAINED R236 -/
  | dramChannelTrained (d : DieIx) (ch : ChanIx) (passed : Bool)
  /-- LEDGER_CLEAR_DONE R391 -/
  | ledgerClearDone
  /-- CFG_GET R406: the command block read for the word of mailbox 2. -/
  | cfgGet (blk : List Byte)
  /-- CFG_SET R406: and whether the record's read-back is good (R403). -/
  | cfgSet (blk : List Byte) (good : Bool)
  /-- CFG_WRITE R406: the command block and the image in host memory. -/
  | cfgWrite (blk image : List Byte)
  /-- CFG_COMPACT R406 -/
  | cfgCompact (blk : List Byte)
  /-- FW_WRITE R406: the command block and the image in host memory. -/
  | fwWrite (blk image : List Byte)
  /-- SVN_COMMIT R408 -/
  | svnCommit (blk : List Byte)
  /-- KEY_REVOKE R408 -/
  | keyRevoke (blk : List Byte)
  /-- DBG_LOCK_SET R406 -/
  | dbgLockSet (blk : List Byte)
  /-- NVM_WRITE_DONE R408 -/
  | nvmWriteDone (failed : Bool)
  /-- NVM_ERASE_DONE R404 -/
  | nvmEraseDone
  /-- SPDM_REQUEST R409: over DOE (false) or MCTP (true). -/
  | spdmRequest (mctp : Bool) (req : SpdmReq)
  /-- IDE_STREAM_STOP R412 -/
  | ideStreamStop
  /-- SMBUS_MCTP_MESSAGE R414 -/
  | smbusMctpMessage (msg : MctpMsg)
  /-- JTAG_INSTRUCTION R413 -/
  | jtagInstruction (op : JtagOp)
  /-- HALLMARK_SAMPLE R421: of die d's engine; `skip` when the sample buffer was taken. -/
  | hallmarkSample (d : DieIx) (skip : Bool)
  /-- RING_CONSUMER_WRITE R425 -/
  | ringConsumerWrite (hallmark : Bool) (v : Word) (q : Requester)
  /-- TRACE_LINK_DETECT R427 -/
  | traceLinkDetect (found : Bool)
  /-- TRACE_ENABLE_WRITE R443 -/
  | traceEnableWrite (v : Word) (q : Requester)
  /-- TRC_MARK_WRITE R429 -/
  | trcMarkWrite (v : Word) (q : Requester)
  /-- DUMP_END R433 -/
  | dumpEnd
  /-- FAULT_LOG R442 -/
  | faultLog (blk : List Byte)
  /-- DUMP_NOW R442 -/
  | dumpNow (blk : List Byte)
  /-- FAULT_LIMIT_WINDOW R439 -/
  | faultLimitWindow
  /-- OP_SET R460 -/
  | opSet (blk : List Byte)
  /-- LIMIT_SET R460 -/
  | limitSet (blk : List Byte)
  /-- PWR_GET R460 -/
  | pwrGet (blk : List Byte)
  /-- GOVERNOR_TICK R452 -/
  | governorTick
  /-- POINT_RAMP_DONE R450 -/
  | pointRampDone
  /-- COOL_OK_CHANGE R453 -/
  | coolOkChange (level : Level)
  /-- PWR_CAP_ASSERT R454 -/
  | pwrCapAssert
  /-- PWR_CAP_RELEASE R454 -/
  | pwrCapRelease
  /-- CAP_DEADLINE R454 -/
  | capDeadline
  /-- REGULATOR_POLL R449: READ_VOUT in mV and READ_IOUT in A, absent when the read fails, and the regulator's power-good. -/
  | regulatorPoll (r : Fin 16) (rd : Option (Nat × Nat)) (good : Bool)
  /-- PMB_ALERT R449 -/
  | pmbAlert (status : List Nat)
  /-- DIE_TEMP_READING R455 -/
  | dieTempReading (temps : List Nat)
  /-- THERMTRIP R456 -/
  | thermtrip (sensor : Nat)
  /-- RAIL_FAULT R448 -/
  | railFault (rail : Nat)
  /-- REFCLK_LOSS R458 -/
  | refclkLoss
  /-- PERST_N_DEASSERT R393 -/
  | perstNDeassert
  /-- PCIE_READY_DEADLINE R347 -/
  | pcieReadyDeadline
  /-- PCIE_LINK_UP R355 -/
  | pcieLinkUp (width rate : Nat) (l0p flit : Bool)
  /-- PCIE_LINK_DOWN R362 -/
  | pcieLinkDown
  /-- STANDBY_SUPPLY_LOSS R448 -/
  | standbySupplyLoss
  /-- HOT_CAP_WINDOW R233 -/
  | hotCapWindow (d : DieIx) (ch : ChanIx)
  /-- UNIT_IDLE_GATE R74 -/
  | unitIdleGate (unit : Nat)
  /-- DOMAIN_IDLE_GATING R459 -/
  | domainIdleGating (pd : Fin 123) (gate : Bool)
  /-- RESYNC_RESPONSE R280 -/
  | resyncResponse (p : Packet)
deriving DecidableEq, Repr

end Sys2Proof
end

