-- ==== Sys2Proof/Decode.lean ====
section
/-! DEFINITION. The table of commands gives its rows no bits, so no word spells a command. -/

namespace Sys2Proof

/-- The command a word spells: the opcode table gives no row any bits. -/
def decodeTableWord (_nbits _w : Nat) : Option Instr := none

end Sys2Proof
end

