-- ==== Sys2Proof/Config.lean ====
section
/-! DEFINITION. What the spec leaves open: the terms a vector routine is written in, and uninterpreted constants.  Nothing can evaluate them, so a statement that mentions
one holds whatever the hardware does there.  Each is named in a row of notes/assumptions/. -/

namespace Sys2Proof.Machine

/-! ### what a vector routine is made of (R96, R98, R465) -/

/-- A compare of R96. -/
inductive VecCmp where
  | eq | ne | lt | gt
deriving DecidableEq, Repr, Inhabited
/-- A transcendental lane of R98. -/
inductive VecLane where
  | exp2 | log2 | exp | log | recip | rsqrt | tanh | sigmoid | sin | cos
deriving DecidableEq, Repr, Inhabited
/-- An operation on two FP32 numbers. -/
inductive VecOp where
  | add | sub | mul | div | min | max
deriving DecidableEq, Repr, Inhabited
/-- How an element of a routine's output row is computed from its input row. -/
inductive VecTerm where
  /-- An FP32 image of the routine's own. -/
  | image (c : Nat)
  /-- Element k of the input row, of that row sorted, and the row's largest finite magnitude. -/
  | elem (k : Nat)
  | sorted (k : Nat)
  | amax
  /-- The FP32 number at byte o of the second operand. -/
  | aux (o : Nat)
  | lane (op : VecLane) (t : VecTerm)
  | sqrt (t : VecTerm)
  | op (o : VecOp) (t u : VecTerm)
  /-- t × u + v, rounded once. -/
  | fma (t u v : VecTerm)
  /-- v where t compares so to u, else w. -/
  | sel (c : VecCmp) (t u v w : VecTerm)
deriving DecidableEq, Repr, Inhabited

end Sys2Proof.Machine

namespace Sys2Proof.Config

open Sys2Proof.Machine (VecLane VecTerm)

/-- NaN image (sign and mantissa field) of an FP32 operation on a NaN operand or an invalid operation, of the two operand
images: R95 keeps payloads, and IEEE 754 does not say which operand's. DESIGN CHOICE, log 23. -/
opaque nanImage : Nat → Nat → Nat

/-- Does the anchor of a MEMBER have a host path and no fatal fault, at the n-th look (R7)? DESIGN CHOICE, log 112. -/
opaque anchorPath : Nat → Bool

/-- The SCLK cycle count PKG_TIME shows at the n-th time it is looked at: the model has no clock. DESIGN CHOICE, log 126. -/
opaque pkgTime : Nat → Nat

/-- A word of a queue-counter set (R416 to R419), by register address, at the n-th look: the sets count clock cycles. DESIGN CHOICE, log 145. -/
opaque queueCounter : Nat → Nat → Nat
opaque queueEdge : Nat → Bool

/-- Byte at an object address that another device holds, and whether its data returns poisoned, at the n-th look. DESIGN CHOICE, log 74. -/
opaque remoteByte : Nat → Nat → Byte
opaque remotePoison : Nat → Nat → Bool

/-- Answer of a spill peer to the n-th place-and-spill request: 0 refuses, f + 1 accepts; f names the frame, and where the granule may
go elsewhere its bits from 28 on the device (0 the peer, else number plus 1) and bit 41 a host region. DESIGN CHOICE, log 73. -/
opaque spillAnswer : Nat → Nat → Nat

/-- Power of a site in mW as the governor estimates it from its activity counters, at the n-th estimate (R449). DESIGN CHOICE, log 155. -/
opaque siteEstimate : Nat → Nat → Nat

/-- The 16 bytes a failed journal append leaves in its record, at the n-th such append (R403). DESIGN CHOICE, log 133. -/
opaque badRecord : Nat → Nat

/-- Whether the n-th erase of a bank fails (R407): NVM_ERASE_DONE does not say. DESIGN CHOICE, log 188. -/
opaque eraseFailed : Nat → Bool

/-- Is the n-th Configuration Request of a start still answered with Retry Status (R393), and a word of the function's configuration space
that the PCIe standard fills in (R355), by its offset at the n-th look? DESIGN CHOICE, log 185. -/
opaque cfgRetry : Nat → Bool
opaque pcieConfig : Nat → Nat → Nat

/-- STATUS of the n-th mailbox command whose block could not be read (R381, R358): no rule gives it. DESIGN CHOICE, log 184. -/
opaque blockLost : Nat → Nat

/-- SHA-256 of the boot ROM (R410), and what the SPDM, IDE and MCTP standards fill in: signatures, responses and control
answers, at the n-th such message. DESIGN CHOICE, log 141. -/
opaque romDigest : Nat
opaque spdmAnswer : Nat → List Byte
opaque mctpControl : Nat → List Byte

/-- IDCODE of the test port, and what a pin sample shifts out at the n-th sample (R413). DESIGN CHOICE, log 141. -/
opaque jtagIdcode : Nat
opaque jtagSample : Nat → Nat

/-- ACLK cycles a descriptor ran, as DESC_END shows them, at the n-th such packet (R429), and VALUE of the doorbell a hallmark
rings at the n-th ring (R425). DESIGN CHOICE, log 147, 148. -/
opaque descCycles : Nat → Nat
opaque hallmarkValue : Nat → Nat

/-- Per-tensor scale the device writes where amax / QMAX is not a normal number (R83). DESIGN CHOICE, log 25. -/
opaque tinyScale : Nat → Nat

/-- A vector routine other than 0 (R465), at the n-th descriptor that runs it: what element i of its output row r is made of, and the
width of its output rows. DESIGN CHOICE, log 30. -/
opaque vecElem : Nat → Nat → Nat → VecTerm
opaque vecWidth : Nat → Nat

/-- The transcendental lanes (R98), by operation and FP32 image, and beta^t of R194 for the image of beta. DESIGN CHOICE, log 24. -/
opaque lane : VecLane → Nat → Nat
opaque betaPow : Nat → Nat → Nat

/-- Distance in bytes between token rows of an attention tensor (R183 gives no head count), by object address. DESIGN CHOICE, log 48. -/
opaque attnRow : Nat → Nat

/-- Bench of a gang that counts the passes and truncated products of an attention tile, at the n-th tile (R41, R184). DESIGN CHOICE, log 49. -/
opaque attnBench : Nat → Nat
/-- ACLK cycle from which the stages of the first of its passes are full. DESIGN CHOICE, log 49. -/
opaque attnReady : Nat → Nat

/-- Byte i of a store of codes that are no accumulator elements into a gradient accumulator, after the first microstep (R189), at the
n-th such store. DESIGN CHOICE, log 175. -/
opaque codeSum : Nat → Nat → Byte

/-- Place in the face store (64-byte units) of a tile of the n-th pass that no stream ring holds: 0 activation, 1 weight, 2 output,
3 outlier list (R47). DESIGN CHOICE, log 19. -/
opaque tileBase : Nat → Nat → Nat

end Sys2Proof.Config
end

