-- ==== Sys2Proof/Machine/Bits.lean ====
section
/-! DEFINITION. Bit fields and byte order: every register and memory structure is little-endian (R8). -/

namespace Sys2Proof.Machine

/-- Field of `w` bits at bit `lo` of `v`. -/
def bits (v lo w : Nat) : Nat := v / 2 ^ lo % 2 ^ w
/-- Bit `i` of `v`. -/
def bit (v i : Nat) : Bool := v / 2 ^ i % 2 == 1
/-- `v` with the field of `w` bits at `lo` replaced by `x`. -/
def setBits (v lo w x : Nat) : Nat := v % 2 ^ lo + x % 2 ^ w * 2 ^ lo + v / 2 ^ (lo + w) * 2 ^ (lo + w)
/-- One bit as a number. -/
def b2n (b : Bool) : Nat := if b then 1 else 0
/-- Two's complement value of a `w`-bit field. -/
def sx (w v : Nat) : Int := if v % 2 ^ w < 2 ^ (w - 1) then (v % 2 ^ w : Nat) else ((v % 2 ^ w : Nat) : Int) - 2 ^ w
/-- The `w`-bit two's complement image of an integer. -/
def wrapInt (w : Nat) (x : Int) : Nat := (x % (2 ^ w : Int)).toNat

/-- Little-endian value of a list of bytes. -/
def leNat : List Byte → Nat
  | [] => 0
  | b :: l => b.toNat + 256 * leNat l
/-- The low `n` bytes of `v`, little-endian. -/
def leBytes : Nat → Nat → List Byte
  | 0, _ => []
  | n + 1, v => BitVec.ofNat 8 v :: leBytes n (v / 256)

/-- Round `n` up to a multiple of `m`. -/
def roundUp (n m : Nat) : Nat := (n + m - 1) / m * m
/-- Ceiling of the quotient. -/
def ceilDiv (n m : Nat) : Nat := (n + m - 1) / m
/-- Saturating sum in `w` bits. -/
def satAdd (w a b : Nat) : Nat := if a + b < 2 ^ w then a + b else 2 ^ w - 1

/-- The numbers of the set bits of `v` below `n`, rising. -/
def bitsOf (n v : Nat) : List Nat := (List.range n).filter (fun i => bit v i)

/-- Update position `i` of a list. -/
def listSet {α : Type} (l : List α) (i : Nat) (v : α) : List α := l.set i v

/-- Element `i` of a list, or the default. -/
def listGet {α : Type} (d : α) (l : List α) (i : Nat) : α := l.getD i d

end Sys2Proof.Machine
end

