-- ==== Sys2Proof/Machine/Fp.lean ====
section
/-! DEFINITION. Numbers: exact values, the tensor formats of R76 to R80, rounding (R90, R91, R468) and IEEE 754 binary32
arithmetic (R98). -/

namespace Sys2Proof.Machine

/-- A value: NaN with its FP32 mantissa image, an infinity, or the exact number ±m × 2^e (a zero keeps its sign). -/
inductive FV where
  | nan (neg : Bool) (pay : Nat)
  | inf (neg : Bool)
  | fin (neg : Bool) (m : Nat) (e : Int)
deriving DecidableEq, Repr

/-- Rounding modes of R90; `sr r` is stochastic with the 16-bit value r (R91). -/
inductive Rnd where
  | ne | tz | up | sr (r : Nat)
deriving DecidableEq, Repr

/-- Shift left by an integer amount, dropping bits on a right shift. -/
def shl (m : Nat) (k : Int) : Nat := if 0 ≤ k then m * 2 ^ k.toNat else m / 2 ^ (-k).toNat

/-- The magnitude m × 2^e in units of 2^u, rounded by R90 (`neg` is the sign the mode Up looks at). -/
def roundUnits (r : Rnd) (neg : Bool) (m : Nat) (e u : Int) : Nat :=
  if u ≤ e then
    match r with
    | .sr _ => m * 2 ^ (e - u).toNat
    | _ => m * 2 ^ (e - u).toNat
  else
    let k := (u - e).toNat
    let q := m / 2 ^ k
    let rem := m % 2 ^ k
    match r with
    | .ne => if 2 ^ k < 2 * rem ∨ (2 * rem = 2 ^ k ∧ q % 2 = 1) then q + 1 else q
    | .tz => q
    | .up => if rem ≠ 0 ∧ neg = false then q + 1 else q
    | .sr v => (shl m (16 - (k : Int)) + v % 65536) / 65536

/-- A binary floating-point layout: exponent and mantissa widths, bias, and the largest finite magnitude code. -/
structure FpLay where
  eb   : Nat
  mb   : Nat
  bias : Nat
  maxC : Nat
  /-- Magnitude code of Inf, where the format has one. -/
  infC : Option Nat
  /-- Canonical NaN magnitude code, where the format has NaN. -/
  nanC : Option Nat
deriving DecidableEq, Repr

/-- Tensor element formats (R76 to R80). -/
inductive Fmt where
  | fp4 | e4m3 | e5m2 | bf16 | e8m15 | fp32 | int4 | int8 | int16
deriving DecidableEq, Repr

/-- Element width in bits (R75). -/
def Fmt.width : Fmt → Nat
  | .fp4 => 4 | .e4m3 => 8 | .e5m2 => 8 | .bf16 => 16 | .e8m15 => 24 | .fp32 => 32 | .int4 => 4 | .int8 => 8 | .int16 => 16

/-- The layouts of R76 to R79; none for an integer format. -/
def Fmt.lay : Fmt → Option FpLay
  | .fp4   => some ⟨2, 1, 1, 7, none, none⟩
  | .e4m3  => some ⟨4, 3, 7, 0x7E, none, some 0x7F⟩
  | .e5m2  => some ⟨5, 2, 15, 0x7B, some 0x7C, some 0x7E⟩
  | .bf16  => some ⟨8, 7, 127, 0x7F7F, some 0x7F80, some 0x7FC0⟩
  | .e8m15 => some ⟨8, 15, 127, 0x7F7FFF, some 0x7F8000, some 0x7FC000⟩
  | .fp32  => some ⟨8, 23, 127, 0x7F7FFFFF, some 0x7F800000, some 0x7FC00000⟩
  | _ => none

/-- Largest value of an element format as a scale choice uses it (R85, R88): 6, 448, 57344, or 1.0. -/
def Fmt.qmax : Fmt → Nat
  | .fp4 => 6 | .e4m3 => 448 | .e5m2 => 57344 | _ => 1

/-- Value of a floating-point code. -/
def fpDecode (L : FpLay) (c : Nat) : FV :=
  let neg := bit c (L.eb + L.mb)
  let mag := c % 2 ^ (L.eb + L.mb)
  let e := mag / 2 ^ L.mb
  let m := mag % 2 ^ L.mb
  if L.maxC < mag then
    if L.infC = some mag then .inf neg else .nan neg (m * 2 ^ (23 - L.mb))
  else if e = 0 then .fin neg m (1 - (L.bias : Int) - L.mb)
  else .fin neg (m + 2 ^ L.mb) ((e : Int) - L.bias - L.mb)

/-- Value of an element code (R76 to R80); `sgn` is the signedness of an integer format. -/
def fmtDecode (f : Fmt) (sgn : Bool) (c : Nat) : FV :=
  match f.lay with
  | some L => fpDecode L c
  | none =>
    let w := f.width
    let v := c % 2 ^ w
    if sgn && 2 ^ (w - 1) ≤ v then .fin true (2 ^ w - v) 0 else .fin false v 0

/-- Assay counts of one conversion (R93). -/
structure ConvCnt where
  sat  : Nat := 0
  und  : Nat := 0
  nan  : Nat := 0
  inf  : Nat := 0
  flag : Bool := false
deriving DecidableEq, Repr

/-- Magnitude code of m × 2^e (m ≠ 0) rounded onto the grid of `L`, the grid going on above the largest value (R468). -/
def fpMagCode (L : FpLay) (r : Rnd) (neg : Bool) (m : Nat) (e : Int) : Nat :=
  let emin : Int := 1 - L.bias
  let top : Int := (Nat.log2 m : Int) + e
  let ex := if top < emin then emin else top
  (ex - emin).toNat * 2 ^ L.mb + roundUnits r neg m e (ex - L.mb)

/-- Conversion into a floating-point format with its assay counts (R92, R93, R468, ZMODE by R94 and R95). -/
def fpConvert (L : FpLay) (zm : Bool) (r : Rnd) : FV → Nat × ConvCnt
  | .nan neg pay =>
    match L.nanC with
    | none => (0, { nan := 1, flag := true })
    | some c =>
      if zm then
        let m := if L.infC = none then 2 ^ L.mb - 1 else (pay / 2 ^ (23 - L.mb)) % 2 ^ L.mb ||| 2 ^ (L.mb - 1)
        (b2n neg * 2 ^ (L.eb + L.mb) + (2 ^ L.eb - 1) * 2 ^ L.mb + m, { nan := 1 })
      else (c, { nan := 1 })
  | .inf neg =>
    let s := b2n neg * 2 ^ (L.eb + L.mb)
    match L.infC with
    | some c => (s + c, { inf := 1 })
    | none => (s + L.maxC, { sat := 1, inf := 1 })
  | .fin neg m e =>
    let s := b2n neg * 2 ^ (L.eb + L.mb)
    if m = 0 then (if zm then s else 0, {})
    else
      let c := fpMagCode L r neg m e
      if c = 0 then (if zm then s else 0, { und := 1 })
      else if L.maxC < c then
        match L.infC with
        | some ic => (s + ic, { sat := 1 })
        | none => (s + L.maxC, { sat := 1 })
      else (s + c, {})

/-- Conversion into an integer format (R92): nearest even, range limits. -/
def intConvert (w : Nat) (sgn : Bool) : FV → Nat × ConvCnt
  | .nan _ _ => (0, { nan := 1, flag := true })
  | .inf neg =>
    (if neg then (if sgn then 2 ^ (w - 1) else 0) else (if sgn then 2 ^ (w - 1) - 1 else 2 ^ w - 1), { sat := 1, inf := 1 })
  | .fin neg m e =>
    let q := roundUnits .ne neg m e 0
    let lim := if neg then (if sgn then 2 ^ (w - 1) else 0) else (if sgn then 2 ^ (w - 1) - 1 else 2 ^ w - 1)
    if lim < q then (if neg then (2 ^ w - lim) % 2 ^ w else lim, { sat := 1 })
    else (if neg then (2 ^ w - q) % 2 ^ w else q, if q = 0 ∧ m ≠ 0 then { und := 1 } else {})

/-- Conversion of a value into an element format. -/
def fmtConvert (f : Fmt) (sgn zm : Bool) (r : Rnd) (v : FV) : Nat × ConvCnt :=
  match f.lay with
  | some L => fpConvert L zm r v
  | none => intConvert f.width sgn v

/-! ### binary32 -/

/-- The binary32 layout. -/
def lay32 : FpLay := ⟨8, 23, 127, 0x7F7FFFFF, some 0x7F800000, some 0x7FC00000⟩
/-- Value of an FP32 image. -/
def fv32 (c : Nat) : FV := fpDecode lay32 c
/-- FP32 image of a value, nearest even, NaN sign and payload kept. -/
def f32 (v : FV) : Nat := (fpConvert lay32 true .ne v).1
/-- FP32 image under a rounding mode. -/
def f32r (r : Rnd) (v : FV) : Nat := (fpConvert lay32 true r v).1

/-- The image ZMODE stores (R94, R95): canonical NaN and +0 in native mode. -/
def f32Store (zm : Bool) (c : Nat) : Nat := (fpConvert lay32 zm .ne (fv32 c)).1

/-- Is the value a NaN? Finite? -/
def FV.isNan : FV → Bool
  | .nan _ _ => true
  | _ => false
def FV.isFin : FV → Bool
  | .fin _ _ _ => true
  | _ => false
def FV.isZero : FV → Bool
  | .fin _ 0 _ => true
  | _ => false
def FV.neg? : FV → Bool
  | .nan n _ => n
  | .inf n => n
  | .fin n _ _ => n
def FV.negate : FV → FV
  | .nan n p => .nan (!n) p
  | .inf n => .inf (!n)
  | .fin n m e => .fin (!n) m e
/-- The subtrahend of a difference, as an addend: a NaN keeps its sign (R95). -/
def FV.minus : FV → FV
  | .nan n p => .nan n p
  | x => x.negate
def FV.abs : FV → FV
  | .nan _ p => .nan false p
  | .inf _ => .inf false
  | .fin _ m e => .fin false m e

/-- The NaN an operation gives: a lone NaN operand keeps its sign and payload (R95); of two, or of an invalid operation, sign and
payload are uninterpreted (`Config.nanImage`). -/
def FV.nanOf : FV → FV → FV
  | .nan n p, .nan n' p' =>
    let i := Config.nanImage (f32 (.nan n p)) (f32 (.nan n' p'))
    .nan (bit i 31) (i % 2 ^ 23)
  | .nan n p, _ => .nan n p
  | _, .nan n p => .nan n p
  | a, b =>
    let i := Config.nanImage (f32 a) (f32 b)
    .nan (bit i 31) (i % 2 ^ 23)

/-- Signed integer of ±m × 2^e in units of 2^u, for u ≤ e. -/
def finInt (neg : Bool) (m : Nat) (e u : Int) : Int :=
  let v : Int := (m * 2 ^ (e - u).toNat : Nat)
  if neg then -v else v

/-- An exact value from an integer and an exponent; zero takes the given sign. -/
def fvOfInt (zneg : Bool) (x : Int) (e : Int) : FV :=
  if x = 0 then .fin zneg 0 e else .fin (decide (x < 0)) x.natAbs e

/-- Exact sum: an exact zero sum of unlike signs is +0, of two −0 is −0 (IEEE 754, nearest even). -/
def FV.add : FV → FV → FV
  | .inf a, .inf b => if a = b then .inf a else FV.nanOf (.inf a) (.inf b)
  | .inf a, .fin _ _ _ => .inf a
  | .fin _ _ _, .inf b => .inf b
  | .fin n m e, .fin n' m' e' =>
    let u := if e ≤ e' then e else e'
    fvOfInt (n && n') (finInt n m e u + finInt n' m' e' u) u
  | a, b => FV.nanOf a b

/-- Exact product. -/
def FV.mul : FV → FV → FV
  | .fin n m e, .fin n' m' e' => .fin (n != n') (m * m') (e + e')
  | .inf a, .inf b => .inf (a != b)
  | .inf a, .fin n m e => if m = 0 then FV.nanOf (.inf a) (.fin n m e) else .inf (a != n)
  | .fin n m e, .inf b => if m = 0 then FV.nanOf (.fin n m e) (.inf b) else .inf (n != b)
  | a, b => FV.nanOf a b

/-- Quotient with 96 bits beyond the divisor's and a sticky last bit, so that one rounding of it into any format is the
rounding of the exact quotient. -/
def FV.div : FV → FV → FV
  | .fin n m e, .fin n' m' e' =>
    if m' = 0 then (if m = 0 then FV.nanOf (.fin n m e) (.fin n' m' e') else .inf (n != n'))
    else
      let k := 96 + Nat.log2 m'
      let num := m * 2 ^ k
      .fin (n != n') (2 * (num / m') + b2n (num % m' != 0)) (e - e' - k - 1)
  | .inf a, .fin n _ _ => .inf (a != n)
  | .fin n _ e, .inf b => .fin (n != b) 0 e
  | a, b => FV.nanOf a b

/-- Integer square root by `k` bits, most significant first. -/
def isqrtBits : Nat → Nat → Nat → Nat
  | 0, _, r => r
  | k + 1, n, r => if (r + 2 ^ k) * (r + 2 ^ k) ≤ n then isqrtBits k n (r + 2 ^ k) else isqrtBits k n r

/-- Square root with a sticky last bit. -/
def FV.sqrt : FV → FV
  | .nan n p => .nan n p
  | .inf true => FV.nanOf (.inf true) (.inf true)
  | .inf false => .inf false
  | .fin n m e =>
    if m = 0 then .fin n 0 e
    else if n then FV.nanOf (.fin n m e) (.fin n m e)
    else
      let m1 := if e % 2 = 0 then m else 2 * m
      let e1 := if e % 2 = 0 then e else e - 1
      let N := m1 * 2 ^ 128
      let r := isqrtBits (Nat.log2 N / 2 + 1) N 0
      .fin false (2 * r + b2n (r * r != N)) ((e1 - 128) / 2 - 1)

/-- FP32 operations: exact, then one rounding to nearest even (R98). -/
def f32Add (a b : Nat) : Nat := f32 ((fv32 a).add (fv32 b))
def f32Sub (a b : Nat) : Nat := f32 ((fv32 a).add (fv32 b).minus)
def f32Mul (a b : Nat) : Nat := f32 ((fv32 a).mul (fv32 b))
def f32Div (a b : Nat) : Nat := f32 ((fv32 a).div (fv32 b))
def f32Sqrt (a : Nat) : Nat := f32 (fv32 a).sqrt
def f32Fma (a b c : Nat) : Nat := f32 (((fv32 a).mul (fv32 b)).add (fv32 c))

/-- Exact comparison a ≤ b of finite values. -/
def FV.leFin : FV → FV → Bool
  | .fin n m e, .fin n' m' e' =>
    let u := if e ≤ e' then e else e'
    decide (finInt n m e u ≤ finInt n' m' e' u)
  | _, _ => false
def FV.ltFin (a b : FV) : Bool := a.isFin && b.isFin && !(b.leFin a)

/-- Larger of two finite magnitudes; NaN and Inf are ignored (R89, R96). -/
def amax2 (a b : FV) : FV :=
  let x := if a.isFin then a.abs else .fin false 0 0
  let y := if b.isFin then b.abs else .fin false 0 0
  if x.leFin y then y else x

/-- amax of a list of values over its finite elements (R89). -/
def amaxOf (l : List FV) : FV := l.foldl amax2 (.fin false 0 0)

/-! ### scale choice (R86 to R89, R467) -/

/-- Value of a UE8M0 code (R81). -/
def ue8m0 (c : Nat) : FV := if c % 256 = 255 then .nan false (2 ^ 22) else .fin false 1 ((c % 256 : Nat) - 127)
/-- Value of an E4M3 code. -/
def e4m3 (c : Nat) : FV := fpDecode ⟨4, 3, 7, 0x7E, none, some 0x7F⟩ c

/-- Result of a scale choice: the code and its assay counts. -/
structure ScalePick where
  code : Nat
  cnt  : ConvCnt
deriving DecidableEq, Repr

/-- Least UE8M0 exponent x with amax ≤ 2^x × den, clamped (R86, R89, R467); `den` is a positive finite value. -/
def pickBlock (amax den : FV) : ScalePick :=
  match amax, den with
  | .fin _ m e, .fin _ m' e' =>
    if m = 0 then ⟨0x7F, {}⟩
    else if m' = 0 then ⟨254, { sat := 1 }⟩
    else
      -- ceil(log2(m × 2^e / (m' × 2^e'))): one above or at the difference of the leading places
      let x0 : Int := (Nat.log2 m : Int) + e - (Nat.log2 m' + e')
      let ok (x : Int) : Bool := (FV.fin false m e).leFin (.fin false m' (e' + x))
      let x := if ok (x0 - 1) then x0 - 1 else if ok x0 then x0 else x0 + 1
      if x < -127 then ⟨0, { und := 1 }⟩
      else if 127 < x then ⟨254, { sat := 1 }⟩
      else ⟨(x + 127).toNat, {}⟩
  | _, _ => ⟨0x7F, {}⟩

/-- Least E4M3 code c with amax ≤ den × c, clamped to [2^−9, 448] (R86, R89, R467). -/
def pickE4m3 (amax den : FV) : ScalePick :=
  match amax, den with
  | .fin _ m e, .fin _ m' e' =>
    if m = 0 then ⟨0x38, {}⟩
    else
      let ok (c : Nat) : Bool := (FV.fin false m e).leFin ((FV.fin false m' e').mul (e4m3 c))
      -- codes 0x01 to 0x7E rise with their value: a bisection over them
      let rec go : Nat → Nat → Nat → Nat
        | 0, _, hi => hi
        | k + 1, lo, hi => if hi ≤ lo + 1 then hi else
          let mid := (lo + hi) / 2
          if ok mid then go k lo mid else go k mid hi
      if !(ok 0x7E) then ⟨0x7E, { sat := 1 }⟩
      else
        let c := go 8 0 0x7E
        -- below the smallest step: the exact quotient is less than 2^-9
        let exact := (FV.fin false m e).leFin ((FV.fin false m' e').mul (.fin false 1 (-9)))
        let eq := ((FV.fin false m' e').mul (.fin false 1 (-9))).leFin (.fin false m e)
        ⟨c, if exact && !eq then { und := 1 } else {}⟩
  | _, _ => ⟨0x38, {}⟩

/-- Per-tensor scale amax / QMAX in FP32, nearest even; 1.0 for an amax of 0 (R86, R88, R89, R467).  A quotient below the normal
range is no scale the device writes (R83): a free positive normal value stands there. -/
def pickTensor (amax qmax : FV) : Nat :=
  if amax.isZero then 0x3F800000
  else
    let q := f32 (amax.div qmax)
    if q < 0x00800000 then 0x00800000 + Config.tinyScale q % 0x7F000000 else q

/-- Counts add. -/
def ConvCnt.plus (a b : ConvCnt) : ConvCnt :=
  ⟨a.sat + b.sat, a.und + b.und, a.nan + b.nan, a.inf + b.inf, a.flag || b.flag⟩

/-- A natural number as a value. -/
def fvNat (n : Nat) : FV := .fin false n 0

end Sys2Proof.Machine
end

