-- ==== Sys2Proof/Machine/Map.lean ====
section
/-! DEFINITION. Sparse maps: sorted lists of key and value in one canonical form, with a default for an unlisted key.
Registers, memory and the typed records of the units are held in them. -/

namespace Sys2Proof.Machine

/-- The value at key `k`; `d` gives what an unlisted key reads as. -/
def mapGet {α : Type} (d : Nat → α) (k : Nat) : List (Nat × α) → α
  | [] => d k
  | (j, v) :: l => if j = k then v else mapGet d k l

/-- Insert before the first larger key. -/
def mapInsert {α : Type} (k : Nat) (v : α) : List (Nat × α) → List (Nat × α)
  | [] => [(k, v)]
  | (j, w) :: l => if k < j then (k, v) :: (j, w) :: l else (j, w) :: mapInsert k v l

/-- Remove every entry of key `k`. -/
def mapErase {α : Type} (k : Nat) (l : List (Nat × α)) : List (Nat × α) := l.filter (fun e => e.1 != k)

/-- Set key `k` to `v`; setting the default removes the entry. -/
def mapSet {α : Type} [DecidableEq α] (d : Nat → α) (k : Nat) (v : α) (l : List (Nat × α)) : List (Nat × α) :=
  if v = d k then mapErase k l else mapInsert k v (mapErase k l)

/-- The canonical form: keys strictly rising, and no entry equal to the default of its key. -/
def mapWf {α : Type} [DecidableEq α] (d : Nat → α) : List (Nat × α) → Bool
  | [] => true
  | (k, v) :: l => decide (v ≠ d k) && l.all (fun e => decide (k < e.1)) && mapWf d l

/-- Keys of a finite set held as a strictly rising list. -/
def setInsert (k : Nat) : List Nat → List Nat
  | [] => [k]
  | j :: l => if k < j then k :: j :: l else if k = j then j :: l else j :: setInsert k l

/-- Remove a key from a set. -/
def setErase (k : Nat) (l : List Nat) : List Nat := l.filter (fun j => j != k)

/-- Strictly rising. -/
def setWf : List Nat → Bool
  | [] => true
  | k :: l => l.all (fun j => decide (k < j)) && setWf l

end Sys2Proof.Machine
end

