-- ==== Sys2Proof/Machine/Regs.lean ====
section
/-! DEFINITION. The register map: one address per register, one row per register table of the spec, with each field's
place, access code (R368) and reset value (a reserved field ignores writes, R9).  The rows follow the tables of spec/ chapter by chapter; an address is the BAR0
offset of R364, and a BAR4 register (R377) stands at `bar4Base` plus its BAR4 offset. -/

namespace Sys2Proof.Machine

/-- Access codes of R368. -/
inductive Access where
  | rw | ro | rc | sq | wg | mr
deriving DecidableEq, Repr

/-- The place of a field in its register: lowest bit and width. -/
structure Fld where
  lo : Nat
  w  : Nat
deriving DecidableEq, Repr

/-- One field of a register: place, access code and reset value. -/
structure FieldSpec where
  lo    : Nat
  w     : Nat
  acc   : Access
  reset : Nat
deriving DecidableEq, Repr

/-- One register, or `count` registers `stride` bytes apart, at offset `off` of its area. -/
structure RegSpec where
  name   : String
  off    : Nat
  stride : Nat
  count  : Nat
  /-- 1 for the low word of a pair, 2 for the high word (R373), else 0. -/
  pair   : Nat
  fields : List FieldSpec
deriving DecidableEq, Repr

/-- Where BAR4 stands in the register key space (a key of the model: R377 gives only BAR4 offsets). -/
def bar4Base : Nat := 0x100000000
/-- Die base of R364. -/
def dieBase (d : Nat) : Nat := 0x1000000 + d * 0x100000
/-- Face base of R13. -/
def faceBase (d f : Nat) : Nat := dieBase d + 0x40000 + f * 0x1000
/-- Link-die base of R294. -/
def ldBase (k : Nat) : Nat := 0x2000000 + k * 0x100000
/-- Base of a face's queue counter set (R419). -/
def qcFace (d f q : Nat) : Nat := dieBase d + 0xC0000 + f * 0x400 + q * 0x80
/-- Base of a die's queue counter set (R419). -/
def qcDie (d i : Nat) : Nat := dieBase d + 0xD0000 + i * 0x80
/-- Base of a link die's queue counter set (R419). -/
def qcLd (k i : Nat) : Nat := ldBase k + 0x30000 + i * 0x80

/-! ### PKG block, R364, R444, R461 -/

def PKG_ID : Nat := 0x0
abbrev PKG_ID_DEVICE : Fld := ⟨0, 16⟩
abbrev PKG_ID_STEPPING : Fld := ⟨16, 8⟩
def PKG_ROLE : Nat := 0x4
abbrev PKG_ROLE_ROLE : Fld := ⟨0, 2⟩
abbrev PKG_ROLE_DEVID : Fld := ⟨2, 12⟩
abbrev PKG_ROLE_HOST_PATH : Fld := ⟨14, 1⟩
def PKG_EVENT_SUM : Nat := 0x8
abbrev PKG_EVENT_SUM_DIE : Fld := ⟨0, 16⟩
abbrev PKG_EVENT_SUM_LINK : Fld := ⟨16, 4⟩
abbrev PKG_EVENT_SUM_STEP : Fld := ⟨20, 1⟩
abbrev PKG_EVENT_SUM_PLC : Fld := ⟨21, 1⟩
abbrev PKG_EVENT_SUM_CRU : Fld := ⟨22, 1⟩
abbrev PKG_EVENT_SUM_AON : Fld := ⟨23, 1⟩
abbrev PKG_EVENT_SUM_HIF : Fld := ⟨24, 1⟩
abbrev PKG_EVENT_SUM_TRC : Fld := ⟨25, 1⟩
abbrev PKG_EVENT_SUM_PKG : Fld := ⟨26, 1⟩
abbrev PKG_EVENT_SUM_MBX : Fld := ⟨27, 1⟩
def PKG_FAULT_SUM : Nat := 0xc
abbrev PKG_FAULT_SUM_CORRECTED : Fld := ⟨0, 1⟩
abbrev PKG_FAULT_SUM_REQUEST_ENDED : Fld := ⟨1, 1⟩
abbrev PKG_FAULT_SUM_JOB_ENDED : Fld := ⟨2, 1⟩
abbrev PKG_FAULT_SUM_STEP_ABORTED : Fld := ⟨3, 1⟩
abbrev PKG_FAULT_SUM_DEVICE_FATAL : Fld := ⟨4, 1⟩
def PKG_CFGPAR_ADDR : Nat := 0x10
abbrev PKG_CFGPAR_ADDR_OFFSET : Fld := ⟨0, 26⟩
abbrev PKG_CFGPAR_ADDR_VALID : Fld := ⟨26, 1⟩
def PKG_CFGPAR_CNT : Nat := 0x14
abbrev PKG_CFGPAR_CNT_COUNT : Fld := ⟨0, 16⟩
def PKG_GUARD : Nat := 0x18
abbrev PKG_GUARD_SEQ : Fld := ⟨0, 8⟩
abbrev PKG_GUARD_GUARD_ERR : Fld := ⟨8, 1⟩
def PKG_GUARD_ADDR : Nat := 0x1c
abbrev PKG_GUARD_ADDR_OFFSET : Fld := ⟨0, 26⟩
abbrev PKG_GUARD_ADDR_REQ : Fld := ⟨26, 2⟩
abbrev PKG_GUARD_ADDR_CAUSE : Fld := ⟨28, 3⟩
def PKG_RACE_ADDR : Nat := 0x20
abbrev PKG_RACE_ADDR_OFFSET : Fld := ⟨0, 26⟩
abbrev PKG_RACE_ADDR_HOST : Fld := ⟨26, 1⟩
abbrev PKG_RACE_ADDR_FOREMAN : Fld := ⟨27, 1⟩
abbrev PKG_RACE_ADDR_DIECTL : Fld := ⟨28, 1⟩
def PKG_RACE_CNT : Nat := 0x24
abbrev PKG_RACE_CNT_COUNT : Fld := ⟨0, 16⟩
def PKG_SQ_MISS : Nat := 0x28
abbrev PKG_SQ_MISS_COUNT : Fld := ⟨0, 16⟩
def PKG_PD_STAT (i : Nat) : Nat := 0x40 + i * 4
abbrev PKG_PD_STAT_ON : Fld := ⟨0, 32⟩
def PKG_SCRATCH (i : Nat) : Nat := 0x50 + i * 4
abbrev PKG_SCRATCH_DATA : Fld := ⟨0, 32⟩
def PKG_TIME_LO : Nat := 0x60
abbrev PKG_TIME_LO_COUNT : Fld := ⟨0, 32⟩
def PKG_TIME_HI : Nat := 0x64
abbrev PKG_TIME_HI_COUNT : Fld := ⟨0, 32⟩
def FR_RING_LO : Nat := 0x100
abbrev FR_RING_LO_SIZE : Fld := ⟨0, 5⟩
abbrev FR_RING_LO_ADDR : Fld := ⟨12, 20⟩
def FR_RING_HI : Nat := 0x104
abbrev FR_RING_HI_ADDR : Fld := ⟨0, 12⟩
abbrev FR_RING_HI_V : Fld := ⟨12, 1⟩
def FR_PROD : Nat := 0x108
abbrev FR_PROD_COUNT : Fld := ⟨0, 32⟩
def FR_CONS : Nat := 0x10c
abbrev FR_CONS_COUNT : Fld := ⟨0, 32⟩
def FR_CFG : Nat := 0x110
abbrev FR_CFG_LIMIT : Fld := ⟨0, 8⟩
def FR_SUPPR : Nat := 0x114
abbrev FR_SUPPR_CORRECTED : Fld := ⟨0, 8⟩
abbrev FR_SUPPR_REQUEST_ENDED : Fld := ⟨8, 8⟩
abbrev FR_SUPPR_JOB_ENDED : Fld := ⟨16, 8⟩
abbrev FR_SUPPR_STEP_ABORTED : Fld := ⟨24, 8⟩
def FR_DROP : Nat := 0x118
abbrev FR_DROP_COUNT : Fld := ⟨0, 16⟩
def PWR_CTRL : Nat := 0x200
abbrev PWR_CTRL_GOV_EN : Fld := ⟨0, 1⟩
abbrev PWR_CTRL_THROT_EN : Fld := ⟨1, 1⟩
def PWR_REQ : Nat := 0x204
abbrev PWR_REQ_POINT : Fld := ⟨0, 2⟩
abbrev PWR_REQ_ALLOW_P1 : Fld := ⟨2, 1⟩
def PWR_LIMIT : Nat := 0x208
abbrev PWR_LIMIT_SW_LIM : Fld := ⟨0, 9⟩
abbrev PWR_LIMIT_PCAP_LIM : Fld := ⟨16, 9⟩
def PWR_STAT : Nat := 0x20c
abbrev PWR_STAT_POINT : Fld := ⟨0, 2⟩
abbrev PWR_STAT_DUTY : Fld := ⟨2, 5⟩
abbrev PWR_STAT_COOL_OK : Fld := ⟨7, 1⟩
abbrev PWR_STAT_PWR_CAP : Fld := ⟨8, 1⟩
abbrev PWR_STAT_LIMITER : Fld := ⟨9, 3⟩
abbrev PWR_STAT_TRANS : Fld := ⟨12, 1⟩
def PWR_EVENT : Nat := 0x210
abbrev PWR_EVENT_SEQ : Fld := ⟨0, 8⟩
abbrev PWR_EVENT_POINT : Fld := ⟨8, 1⟩
abbrev PWR_EVENT_COOL : Fld := ⟨9, 1⟩
abbrev PWR_EVENT_CAP : Fld := ⟨10, 1⟩
abbrev PWR_EVENT_CAP_LATE : Fld := ⟨11, 1⟩
abbrev PWR_EVENT_TJ_THROT : Fld := ⟨12, 1⟩
abbrev PWR_EVENT_TSTATE : Fld := ⟨13, 1⟩
abbrev PWR_EVENT_TELEM : Fld := ⟨14, 1⟩
abbrev PWR_EVENT_CFG_PARITY : Fld := ⟨15, 1⟩
def PWR_READ : Nat := 0x214
abbrev PWR_READ_AVG : Fld := ⟨0, 16⟩
abbrev PWR_READ_PEAK : Fld := ⟨16, 16⟩
def PWR_TEMP : Nat := 0x218
abbrev PWR_TEMP_TJ_MAX : Fld := ⟨0, 8⟩
abbrev PWR_TEMP_SENSOR : Fld := ⟨16, 8⟩
def PWR_ENERGY_LO : Nat := 0x220
abbrev PWR_ENERGY_LO_COUNT : Fld := ⟨0, 32⟩
def PWR_ENERGY_HI : Nat := 0x224
abbrev PWR_ENERGY_HI_COUNT : Fld := ⟨0, 32⟩
def PWR_RAIL (i : Nat) : Nat := 0x240 + i * 4
abbrev PWR_RAIL_IOUT : Fld := ⟨0, 10⟩
abbrev PWR_RAIL_VOUT : Fld := ⟨10, 10⟩
abbrev PWR_RAIL_PGOOD : Fld := ⟨20, 1⟩

def pkgRegs1 : List RegSpec := [
  ⟨"PKG_ID", 0x0, 0, 1, 0, [⟨0, 16, .ro, 0xb16⟩, ⟨16, 8, .ro, 1⟩, ⟨24, 8, .ro, 0⟩]⟩,
  ⟨"PKG_ROLE", 0x4, 0, 1, 0, [⟨0, 2, .mr, 0⟩, ⟨2, 12, .mr, 0⟩, ⟨14, 1, .mr, 0⟩, ⟨15, 17, .ro, 0⟩]⟩,
  ⟨"PKG_EVENT_SUM", 0x8, 0, 1, 0, [⟨0, 16, .rc, 0⟩, ⟨16, 4, .rc, 0⟩, ⟨20, 1, .rc, 0⟩, ⟨21, 1, .rc, 0⟩, ⟨22, 1, .rc, 0⟩, ⟨23, 1, .rc, 0⟩, ⟨24, 1, .rc, 0⟩, ⟨25, 1, .rc, 0⟩, ⟨26, 1, .rc, 0⟩, ⟨27, 1, .rc, 0⟩, ⟨28, 4, .ro, 0⟩]⟩,
  ⟨"PKG_FAULT_SUM", 0xc, 0, 1, 0, [⟨0, 1, .rc, 0⟩, ⟨1, 1, .rc, 0⟩, ⟨2, 1, .rc, 0⟩, ⟨3, 1, .rc, 0⟩, ⟨4, 1, .rc, 0⟩, ⟨5, 27, .ro, 0⟩]⟩,
  ⟨"PKG_CFGPAR_ADDR", 0x10, 0, 1, 0, [⟨0, 26, .ro, 0⟩, ⟨26, 1, .ro, 0⟩, ⟨27, 5, .ro, 0⟩]⟩,
  ⟨"PKG_CFGPAR_CNT", 0x14, 0, 1, 0, [⟨0, 16, .ro, 0⟩, ⟨16, 16, .ro, 0⟩]⟩,
  ⟨"PKG_GUARD", 0x18, 0, 1, 0, [⟨0, 8, .sq, 0⟩, ⟨8, 1, .sq, 0⟩, ⟨9, 23, .ro, 0⟩]⟩,
  ⟨"PKG_GUARD_ADDR", 0x1c, 0, 1, 0, [⟨0, 26, .ro, 0⟩, ⟨26, 2, .ro, 0⟩, ⟨28, 3, .ro, 0⟩, ⟨31, 1, .ro, 0⟩]⟩,
  ⟨"PKG_RACE_ADDR", 0x20, 0, 1, 0, [⟨0, 26, .ro, 0⟩, ⟨26, 1, .ro, 0⟩, ⟨27, 1, .ro, 0⟩, ⟨28, 1, .ro, 0⟩, ⟨29, 3, .ro, 0⟩]⟩,
  ⟨"PKG_RACE_CNT", 0x24, 0, 1, 0, [⟨0, 16, .ro, 0⟩, ⟨16, 16, .ro, 0⟩]⟩,
  ⟨"PKG_SQ_MISS", 0x28, 0, 1, 0, [⟨0, 16, .ro, 0⟩, ⟨16, 16, .ro, 0⟩]⟩,
  ⟨"PKG_PD_STAT", 0x40, 4, 4, 0, [⟨0, 32, .mr, 0⟩]⟩,
  ⟨"PKG_SCRATCH", 0x50, 4, 4, 0, [⟨0, 32, .rw, 0⟩]⟩,
  ⟨"PKG_TIME_LO", 0x60, 0, 1, 1, [⟨0, 32, .mr, 0⟩]⟩,
  ⟨"PKG_TIME_HI", 0x64, 0, 1, 2, [⟨0, 32, .mr, 0⟩]⟩,
  ⟨"FR_RING_LO", 0x100, 0, 1, 1, [⟨0, 5, .rw, 6⟩, ⟨5, 7, .ro, 0⟩, ⟨12, 20, .rw, 0⟩]⟩,
  ⟨"FR_RING_HI", 0x104, 0, 1, 2, [⟨0, 12, .rw, 0⟩, ⟨12, 1, .rw, 0⟩, ⟨13, 19, .ro, 0⟩]⟩,
  ⟨"FR_PROD", 0x108, 0, 1, 0, [⟨0, 32, .mr, 0⟩]⟩,
  ⟨"FR_CONS", 0x10c, 0, 1, 0, [⟨0, 32, .rw, 0⟩]⟩,
  ⟨"FR_CFG", 0x110, 0, 1, 0, [⟨0, 8, .rw, 0x40⟩, ⟨8, 24, .ro, 0⟩]⟩,
  ⟨"FR_SUPPR", 0x114, 0, 1, 0, [⟨0, 8, .ro, 0⟩, ⟨8, 8, .ro, 0⟩, ⟨16, 8, .ro, 0⟩, ⟨24, 8, .ro, 0⟩]⟩,
  ⟨"FR_DROP", 0x118, 0, 1, 0, [⟨0, 16, .ro, 0⟩, ⟨16, 16, .ro, 0⟩]⟩,
  ⟨"PWR_CTRL", 0x200, 0, 1, 0, [⟨0, 1, .rw, 1⟩, ⟨1, 1, .rw, 1⟩, ⟨2, 30, .ro, 0⟩]⟩,
  ⟨"PWR_REQ", 0x204, 0, 1, 0, [⟨0, 2, .rw, 1⟩, ⟨2, 1, .rw, 0⟩, ⟨3, 29, .ro, 0⟩]⟩]
def pkgRegs2 : List RegSpec := [
  ⟨"PWR_LIMIT", 0x208, 0, 1, 0, [⟨0, 9, .rw, 0x1f4⟩, ⟨9, 7, .ro, 0⟩, ⟨16, 9, .rw, 0xfa⟩, ⟨25, 7, .ro, 0⟩]⟩,
  ⟨"PWR_STAT", 0x20c, 0, 1, 0, [⟨0, 2, .mr, 2⟩, ⟨2, 5, .mr, 0x10⟩, ⟨7, 1, .mr, 0⟩, ⟨8, 1, .mr, 0⟩, ⟨9, 3, .mr, 0⟩, ⟨12, 1, .mr, 0⟩, ⟨13, 19, .ro, 0⟩]⟩,
  ⟨"PWR_EVENT", 0x210, 0, 1, 0, [⟨0, 8, .sq, 0⟩, ⟨8, 1, .sq, 0⟩, ⟨9, 1, .sq, 0⟩, ⟨10, 1, .sq, 0⟩, ⟨11, 1, .sq, 0⟩, ⟨12, 1, .sq, 0⟩, ⟨13, 1, .sq, 0⟩, ⟨14, 1, .sq, 0⟩, ⟨15, 1, .sq, 0⟩, ⟨16, 16, .ro, 0⟩]⟩,
  ⟨"PWR_READ", 0x214, 0, 1, 0, [⟨0, 16, .mr, 0⟩, ⟨16, 16, .mr, 0⟩]⟩,
  ⟨"PWR_TEMP", 0x218, 0, 1, 0, [⟨0, 8, .mr, 0⟩, ⟨8, 8, .ro, 0⟩, ⟨16, 8, .mr, 0⟩, ⟨24, 8, .ro, 0⟩]⟩,
  ⟨"PWR_ENERGY_LO", 0x220, 0, 1, 1, [⟨0, 32, .mr, 0⟩]⟩,
  ⟨"PWR_ENERGY_HI", 0x224, 0, 1, 2, [⟨0, 32, .mr, 0⟩]⟩,
  ⟨"PWR_RAIL", 0x240, 4, 16, 0, [⟨0, 10, .mr, 0⟩, ⟨10, 10, .mr, 0⟩, ⟨20, 1, .mr, 0⟩, ⟨21, 11, .ro, 0⟩]⟩]
def pkgRegs : List RegSpec := pkgRegs1 ++ pkgRegs2

/-! ### AON block (R415) -/

def AON_BOOT_STAT : Nat := 0x100000 + 0x0
abbrev AON_BOOT_STAT_STAGE : Fld := ⟨0, 4⟩
abbrev AON_BOOT_STAT_FW_SLOT : Fld := ⟨4, 1⟩
abbrev AON_BOOT_STAT_KEY_SLOT : Fld := ⟨5, 2⟩
abbrev AON_BOOT_STAT_FAIL : Fld := ⟨7, 4⟩
def AON_FW_VER : Nat := 0x100000 + 0x4
abbrev AON_FW_VER_VERSION : Fld := ⟨0, 32⟩
def AON_CFG_STAT : Nat := 0x100000 + 0x8
abbrev AON_CFG_STAT_DEFAULTS : Fld := ⟨0, 1⟩
abbrev AON_CFG_STAT_BANK : Fld := ⟨1, 1⟩
abbrev AON_CFG_STAT_COMPACTING : Fld := ⟨2, 1⟩
abbrev AON_CFG_STAT_HELD : Fld := ⟨3, 1⟩
abbrev AON_CFG_STAT_RECORDS : Fld := ⟨4, 16⟩
def AON_CFG_GEN : Nat := 0x100000 + 0xc
abbrev AON_CFG_GEN_GEN : Fld := ⟨0, 32⟩
def AON_CFG_SEQ : Nat := 0x100000 + 0x10
abbrev AON_CFG_SEQ_SEQ : Fld := ⟨0, 32⟩
def AON_RST_CTRL : Nat := 0x100000 + 0x14
abbrev AON_RST_CTRL_WARM : Fld := ⟨0, 1⟩
def AON_RST_CAUSE : Nat := 0x100000 + 0x1c
abbrev AON_RST_CAUSE_CAUSE : Fld := ⟨0, 2⟩
abbrev AON_RST_CAUSE_WARMS : Fld := ⟨8, 8⟩
def AON_FUSE_KEYS : Nat := 0x100000 + 0x20
abbrev AON_FUSE_KEYS_PROG : Fld := ⟨0, 4⟩
abbrev AON_FUSE_KEYS_REV : Fld := ⟨4, 4⟩
def AON_FUSE_SEC : Nat := 0x100000 + 0x24
abbrev AON_FUSE_SEC_DBG_LOCK : Fld := ⟨0, 1⟩
abbrev AON_FUSE_SEC_SVN : Fld := ⟨1, 7⟩
def AON_EVENT : Nat := 0x100000 + 0x28
abbrev AON_EVENT_SEQ : Fld := ⟨0, 8⟩
abbrev AON_EVENT_BOOT_ALT : Fld := ⟨8, 1⟩
abbrev AON_EVENT_CFG_DEFAULTS : Fld := ⟨9, 1⟩
abbrev AON_EVENT_CFG_BANK_BAD : Fld := ⟨10, 1⟩
abbrev AON_EVENT_JOURNAL_TRUNC : Fld := ⟨11, 1⟩
abbrev AON_EVENT_NVM_ERR : Fld := ⟨12, 1⟩
abbrev AON_EVENT_COMPACT_DONE : Fld := ⟨13, 1⟩
abbrev AON_EVENT_COMPACT_ABANDONED : Fld := ⟨14, 1⟩
abbrev AON_EVENT_FUSE : Fld := ⟨15, 1⟩
def AON_SPDM_STAT : Nat := 0x100000 + 0x2c
abbrev AON_SPDM_STAT_SESSIONS : Fld := ⟨0, 2⟩
abbrev AON_SPDM_STAT_IDE_KEYS : Fld := ⟨2, 1⟩

def aonRegs : List RegSpec := [
  ⟨"AON_BOOT_STAT", 0x0, 0, 1, 0, [⟨0, 4, .mr, 0⟩, ⟨4, 1, .mr, 0⟩, ⟨5, 2, .mr, 0⟩, ⟨7, 4, .mr, 0⟩, ⟨11, 21, .ro, 0⟩]⟩,
  ⟨"AON_FW_VER", 0x4, 0, 1, 0, [⟨0, 32, .mr, 0⟩]⟩,
  ⟨"AON_CFG_STAT", 0x8, 0, 1, 0, [⟨0, 1, .mr, 0⟩, ⟨1, 1, .mr, 0⟩, ⟨2, 1, .mr, 0⟩, ⟨3, 1, .mr, 0⟩, ⟨4, 16, .mr, 0⟩, ⟨20, 12, .ro, 0⟩]⟩,
  ⟨"AON_CFG_GEN", 0xc, 0, 1, 0, [⟨0, 32, .mr, 0⟩]⟩,
  ⟨"AON_CFG_SEQ", 0x10, 0, 1, 0, [⟨0, 32, .mr, 0⟩]⟩,
  ⟨"AON_RST_CTRL", 0x14, 0, 1, 0, [⟨0, 1, .wg, 0⟩, ⟨1, 31, .wg, 0⟩]⟩,
  ⟨"AON_RST_CAUSE", 0x1c, 0, 1, 0, [⟨0, 2, .mr, 0⟩, ⟨2, 6, .ro, 0⟩, ⟨8, 8, .mr, 0⟩, ⟨16, 16, .ro, 0⟩]⟩,
  ⟨"AON_FUSE_KEYS", 0x20, 0, 1, 0, [⟨0, 4, .mr, 0⟩, ⟨4, 4, .mr, 0⟩, ⟨8, 24, .ro, 0⟩]⟩,
  ⟨"AON_FUSE_SEC", 0x24, 0, 1, 0, [⟨0, 1, .mr, 0⟩, ⟨1, 7, .mr, 0⟩, ⟨8, 24, .ro, 0⟩]⟩,
  ⟨"AON_EVENT", 0x28, 0, 1, 0, [⟨0, 8, .sq, 0⟩, ⟨8, 1, .sq, 0⟩, ⟨9, 1, .sq, 0⟩, ⟨10, 1, .sq, 0⟩, ⟨11, 1, .sq, 0⟩, ⟨12, 1, .sq, 0⟩, ⟨13, 1, .sq, 0⟩, ⟨14, 1, .sq, 0⟩, ⟨15, 1, .sq, 0⟩, ⟨16, 16, .ro, 0⟩]⟩,
  ⟨"AON_SPDM_STAT", 0x2c, 0, 1, 0, [⟨0, 2, .mr, 0⟩, ⟨2, 1, .mr, 0⟩, ⟨3, 29, .ro, 0⟩]⟩]

/-! ### HIF block (R364) -/

def HIF_CTRL : Nat := 0x200000 + 0x0
abbrev HIF_CTRL_DMA_EN : Fld := ⟨0, 1⟩
abbrev HIF_CTRL_PEER_EN : Fld := ⟨1, 1⟩
abbrev HIF_CTRL_FWD_EN : Fld := ⟨2, 1⟩
def HIF_STAT : Nat := 0x200000 + 0x4
abbrev HIF_STAT_WIDTH : Fld := ⟨0, 5⟩
abbrev HIF_STAT_RATE : Fld := ⟨5, 2⟩
abbrev HIF_STAT_LINK_UP : Fld := ⟨7, 1⟩
abbrev HIF_STAT_FLIT : Fld := ⟨8, 1⟩
abbrev HIF_STAT_L0P : Fld := ⟨9, 1⟩
abbrev HIF_STAT_D3HOT : Fld := ⟨10, 1⟩
abbrev HIF_STAT_IDE : Fld := ⟨11, 1⟩
abbrev HIF_STAT_BAR2_SIZE : Fld := ⟨12, 3⟩
def HIF_EVENT : Nat := 0x200000 + 0x8
abbrev HIF_EVENT_SEQ : Fld := ⟨0, 8⟩
abbrev HIF_EVENT_LINK_DOWN : Fld := ⟨8, 1⟩
abbrev HIF_EVENT_CPL_TIMEOUT : Fld := ⟨9, 1⟩
abbrev HIF_EVENT_CPL_ERR : Fld := ⟨10, 1⟩
abbrev HIF_EVENT_POISON_RX : Fld := ⟨11, 1⟩
abbrev HIF_EVENT_BAR2_BAD : Fld := ⟨12, 1⟩
abbrev HIF_EVENT_SIZE : Fld := ⟨13, 1⟩
abbrev HIF_EVENT_PD_ACCESS : Fld := ⟨14, 1⟩
abbrev HIF_EVENT_PEER_FAIL : Fld := ⟨15, 1⟩
abbrev HIF_EVENT_D3_STEP : Fld := ⟨16, 1⟩
abbrev HIF_EVENT_NOFLIT : Fld := ⟨17, 1⟩
abbrev HIF_EVENT_CFG_PARITY : Fld := ⟨18, 1⟩
def HIF_WIN_BASE : Nat := 0x200000 + 0xc
abbrev HIF_WIN_BASE_ADDR : Fld := ⟨0, 14⟩
def HIF_HWIN_BASE_LO : Nat := 0x200000 + 0x10
abbrev HIF_HWIN_BASE_LO_ADDR : Fld := ⟨16, 16⟩
def HIF_HWIN_BASE_HI : Nat := 0x200000 + 0x14
abbrev HIF_HWIN_BASE_HI_ADDR : Fld := ⟨0, 32⟩
def HIF_PEER_SEL : Nat := 0x200000 + 0x18
abbrev HIF_PEER_SEL_DEV : Fld := ⟨0, 12⟩
abbrev HIF_PEER_SEL_V : Fld := ⟨12, 1⟩
def HIF_CPL_TO : Nat := 0x200000 + 0x1c
abbrev HIF_CPL_TO_MS : Fld := ⟨0, 8⟩
def HIF_RING_LO (i : Nat) : Nat := 0x200000 + 0x40 + i * 8
abbrev HIF_RING_LO_ADDR : Fld := ⟨17, 15⟩
def HIF_RING_HI (i : Nat) : Nat := 0x200000 + 0x44 + i * 8
abbrev HIF_RING_HI_ADDR : Fld := ⟨0, 12⟩
abbrev HIF_RING_HI_V : Fld := ⟨12, 1⟩
def HIF_RD_BYTES_LO : Nat := 0x200000 + 0xc0
abbrev HIF_RD_BYTES_LO_COUNT : Fld := ⟨0, 32⟩
def HIF_RD_BYTES_HI : Nat := 0x200000 + 0xc4
abbrev HIF_RD_BYTES_HI_COUNT : Fld := ⟨0, 32⟩
def HIF_WR_BYTES_LO : Nat := 0x200000 + 0xc8
abbrev HIF_WR_BYTES_LO_COUNT : Fld := ⟨0, 32⟩
def HIF_WR_BYTES_HI : Nat := 0x200000 + 0xcc
abbrev HIF_WR_BYTES_HI_COUNT : Fld := ⟨0, 32⟩

def hifRegs : List RegSpec := [
  ⟨"HIF_CTRL", 0x0, 0, 1, 0, [⟨0, 1, .rw, 1⟩, ⟨1, 1, .rw, 1⟩, ⟨2, 1, .rw, 1⟩, ⟨3, 29, .ro, 0⟩]⟩,
  ⟨"HIF_STAT", 0x4, 0, 1, 0, [⟨0, 5, .mr, 0⟩, ⟨5, 2, .mr, 0⟩, ⟨7, 1, .mr, 0⟩, ⟨8, 1, .mr, 0⟩, ⟨9, 1, .mr, 0⟩, ⟨10, 1, .mr, 0⟩, ⟨11, 1, .mr, 0⟩, ⟨12, 3, .mr, 2⟩, ⟨15, 17, .ro, 0⟩]⟩,
  ⟨"HIF_EVENT", 0x8, 0, 1, 0, [⟨0, 8, .sq, 0⟩, ⟨8, 1, .sq, 0⟩, ⟨9, 1, .sq, 0⟩, ⟨10, 1, .sq, 0⟩, ⟨11, 1, .sq, 0⟩, ⟨12, 1, .sq, 0⟩, ⟨13, 1, .sq, 0⟩, ⟨14, 1, .sq, 0⟩, ⟨15, 1, .sq, 0⟩, ⟨16, 1, .sq, 0⟩, ⟨17, 1, .sq, 0⟩, ⟨18, 1, .sq, 0⟩, ⟨19, 13, .ro, 0⟩]⟩,
  ⟨"HIF_WIN_BASE", 0xc, 0, 1, 0, [⟨0, 14, .rw, 0⟩, ⟨14, 18, .ro, 0⟩]⟩,
  ⟨"HIF_HWIN_BASE_LO", 0x10, 0, 1, 1, [⟨0, 16, .ro, 0⟩, ⟨16, 16, .rw, 0⟩]⟩,
  ⟨"HIF_HWIN_BASE_HI", 0x14, 0, 1, 2, [⟨0, 32, .rw, 0⟩]⟩,
  ⟨"HIF_PEER_SEL", 0x18, 0, 1, 0, [⟨0, 12, .rw, 0⟩, ⟨12, 1, .rw, 0⟩, ⟨13, 19, .ro, 0⟩]⟩,
  ⟨"HIF_CPL_TO", 0x1c, 0, 1, 0, [⟨0, 8, .rw, 0xa⟩, ⟨8, 24, .ro, 0⟩]⟩,
  ⟨"HIF_RING_LO", 0x40, 8, 16, 1, [⟨0, 17, .ro, 0⟩, ⟨17, 15, .rw, 0⟩]⟩,
  ⟨"HIF_RING_HI", 0x44, 8, 16, 2, [⟨0, 12, .rw, 0⟩, ⟨12, 1, .rw, 0⟩, ⟨13, 19, .ro, 0⟩]⟩,
  ⟨"HIF_RD_BYTES_LO", 0xc0, 0, 1, 1, [⟨0, 32, .mr, 0⟩]⟩,
  ⟨"HIF_RD_BYTES_HI", 0xc4, 0, 1, 2, [⟨0, 32, .mr, 0⟩]⟩,
  ⟨"HIF_WR_BYTES_LO", 0xc8, 0, 1, 1, [⟨0, 32, .mr, 0⟩]⟩,
  ⟨"HIF_WR_BYTES_HI", 0xcc, 0, 1, 2, [⟨0, 32, .mr, 0⟩]⟩]

/-! ### STEP block: step control (R204), steering (R166, R167), package barriers (R354) -/

def STEER_CTRL : Nat := 0x300000 + 0x1000
abbrev STEER_CTRL_EN : Fld := ⟨0, 1⟩
abbrev STEER_CTRL_FREEZE : Fld := ⟨1, 1⟩
abbrev STEER_CTRL_SHADOW_EN : Fld := ⟨2, 1⟩
def STEER_THR : Nat := 0x300000 + 0x1004
abbrev STEER_THR_SHT : Fld := ⟨0, 6⟩
abbrev STEER_THR_SATT : Fld := ⟨8, 6⟩
abbrev STEER_THR_UNDT : Fld := ⟨16, 6⟩
abbrev STEER_THR_OVFT : Fld := ⟨24, 6⟩
def STEER_DEMOTE : Nat := 0x300000 + 0x1008
abbrev STEER_DEMOTE_STEPS : Fld := ⟨0, 9⟩
abbrev STEER_DEMOTE_DMARG : Fld := ⟨12, 4⟩
abbrev STEER_DEMOTE_UW_LO : Fld := ⟨16, 6⟩
abbrev STEER_DEMOTE_UW_HI : Fld := ⟨24, 6⟩
def STEER_BUDGET : Nat := 0x300000 + 0x100c
abbrev STEER_BUDGET_PROMO_BUDGET : Fld := ⟨0, 6⟩
abbrev STEER_BUDGET_STORM_FRAC : Fld := ⟨8, 8⟩
def STEER_STAT : Nat := 0x300000 + 0x1010
abbrev STEER_STAT_BUSY : Fld := ⟨0, 1⟩
abbrev STEER_STAT_HELD : Fld := ⟨1, 1⟩
abbrev STEER_STAT_ELIGIBLE : Fld := ⟨2, 13⟩
abbrev STEER_STAT_PENDING : Fld := ⟨15, 13⟩
def STEER_LAST_STEP : Nat := 0x300000 + 0x1014
abbrev STEER_LAST_STEP_STEP : Fld := ⟨0, 32⟩
def STEER_LASTCNT : Nat := 0x300000 + 0x1018
abbrev STEER_LASTCNT_PROMOTED : Fld := ⟨0, 6⟩
abbrev STEER_LASTCNT_REQUESTED : Fld := ⟨6, 13⟩
abbrev STEER_LASTCNT_DEMOTED : Fld := ⟨19, 13⟩
def STEER_EVENT : Nat := 0x300000 + 0x101c
abbrev STEER_EVENT_SEQ : Fld := ⟨0, 8⟩
abbrev STEER_EVENT_STORM : Fld := ⟨8, 1⟩
abbrev STEER_EVENT_SUM_LATE : Fld := ⟨9, 1⟩
abbrev STEER_EVENT_SUM_SHORT : Fld := ⟨10, 1⟩
abbrev STEER_EVENT_AT_FINEST : Fld := ⟨11, 1⟩
abbrev STEER_EVENT_WRITE_DROP : Fld := ⟨12, 1⟩
abbrev STEER_EVENT_CFG_PARITY : Fld := ⟨13, 1⟩
def ASSAY_BASE_LO : Nat := 0x300000 + 0x1020
abbrev ASSAY_BASE_LO_ADDR : Fld := ⟨16, 16⟩
def ASSAY_BASE_HI : Nat := 0x300000 + 0x1024
abbrev ASSAY_BASE_HI_ADDR : Fld := ⟨0, 16⟩
def STEP_CTRL : Nat := 0x300000 + 0x0
abbrev STEP_CTRL_EN : Fld := ⟨0, 1⟩
abbrev STEP_CTRL_EARLY_ABORT : Fld := ⟨1, 1⟩
abbrev STEP_CTRL_ABANDON : Fld := ⟨2, 1⟩
def STEP_STAT : Nat := 0x300000 + 0x4
abbrev STEP_STAT_ACTIVE : Fld := ⟨0, 1⟩
abbrev STEP_STAT_NEXT : Fld := ⟨1, 1⟩
abbrev STEP_STAT_RUNNING : Fld := ⟨2, 1⟩
abbrev STEP_STAT_PHASE : Fld := ⟨3, 6⟩
abbrev STEP_STAT_MICRO : Fld := ⟨9, 8⟩
abbrev STEP_STAT_FIN : Fld := ⟨17, 1⟩
abbrev STEP_STAT_C15_WAIT : Fld := ⟨18, 1⟩
abbrev STEP_STAT_IN_WAIT : Fld := ⟨19, 1⟩
abbrev STEP_STAT_HOLD : Fld := ⟨20, 1⟩
def STEP_NUM : Nat := 0x300000 + 0x8
abbrev STEP_NUM_STEP : Fld := ⟨0, 32⟩
def STEP_LEFT : Nat := 0x300000 + 0xc
abbrev STEP_LEFT_COUNT : Fld := ⟨0, 32⟩
def STEP_COMMITS : Nat := 0x300000 + 0x10
abbrev STEP_COMMITS_COUNT : Fld := ⟨0, 32⟩
def STEP_ABORTS : Nat := 0x300000 + 0x14
abbrev STEP_ABORTS_COUNT : Fld := ⟨0, 32⟩
def STEP_EVENT : Nat := 0x300000 + 0x18
abbrev STEP_EVENT_SEQ : Fld := ⟨0, 8⟩
abbrev STEP_EVENT_LOSS_NF : Fld := ⟨8, 1⟩
abbrev STEP_EVENT_ABORT : Fld := ⟨9, 1⟩
abbrev STEP_EVENT_C15_WDOG : Fld := ⟨10, 1⟩
abbrev STEP_EVENT_KEY_DROP : Fld := ⟨11, 1⟩
abbrev STEP_EVENT_WRITE_DROP : Fld := ⟨12, 1⟩
abbrev STEP_EVENT_CFG_PARITY : Fld := ⟨13, 1⟩
def STEP_LAST_ABORT : Nat := 0x300000 + 0x1c
abbrev STEP_LAST_ABORT_STEP : Fld := ⟨0, 32⟩
def STEP_ABORT_CAUSE : Nat := 0x300000 + 0x20
abbrev STEP_ABORT_CAUSE_CAUSE : Fld := ⟨0, 4⟩
abbrev STEP_ABORT_CAUSE_LAYER : Fld := ⟨4, 12⟩
abbrev STEP_ABORT_CAUSE_PHASE : Fld := ⟨16, 6⟩
abbrev STEP_ABORT_CAUSE_MICRO : Fld := ⟨22, 8⟩
def STEP_C15_WDOG : Nat := 0x300000 + 0x24
abbrev STEP_C15_WDOG_LIMIT : Fld := ⟨0, 16⟩
def STEP_GMICRO_LO : Nat := 0x300000 + 0x28
abbrev STEP_GMICRO_LO_COUNT : Fld := ⟨0, 32⟩
def STEP_GMICRO_HI : Nat := 0x300000 + 0x2c
abbrev STEP_GMICRO_HI_COUNT : Fld := ⟨0, 32⟩
def SPR_KEY (i : Nat) : Nat := 0x300000 + 0x40 + i * 8
abbrev SPR_KEY_KEY : Fld := ⟨0, 32⟩
def BAR_GRP (i : Nat) : Nat := 0x300000 + 0x2000 + i * 8
abbrev BAR_GRP_X0 : Fld := ⟨0, 4⟩
abbrev BAR_GRP_X1 : Fld := ⟨4, 4⟩
abbrev BAR_GRP_Y0 : Fld := ⟨8, 4⟩
abbrev BAR_GRP_Y1 : Fld := ⟨12, 4⟩
abbrev BAR_GRP_Z0 : Fld := ⟨16, 4⟩
abbrev BAR_GRP_Z1 : Fld := ⟨20, 4⟩
abbrev BAR_GRP_EN : Fld := ⟨24, 1⟩
def BAR_GID (i : Nat) : Nat := 0x300000 + 0x2004 + i * 8
abbrev BAR_GID_GID : Fld := ⟨0, 16⟩
def BAR_PSTAT : Nat := 0x300000 + 0x2080
abbrev BAR_PSTAT_CLOSED : Fld := ⟨0, 16⟩
abbrev BAR_PSTAT_FABRIC : Fld := ⟨16, 16⟩
def BAR_PEVENT : Nat := 0x300000 + 0x2084
abbrev BAR_PEVENT_SEQ : Fld := ⟨0, 8⟩
abbrev BAR_PEVENT_LOST : Fld := ⟨8, 1⟩
abbrev BAR_PEVENT_GROUP_BAD : Fld := ⟨9, 1⟩
abbrev BAR_PEVENT_DISCARD : Fld := ⟨10, 1⟩
abbrev BAR_PEVENT_NOTICE_RX : Fld := ⟨11, 1⟩
abbrev BAR_PEVENT_WRITE_DROP : Fld := ⟨12, 1⟩
abbrev BAR_PEVENT_CFG_PARITY : Fld := ⟨13, 1⟩
def BAR_EPOCH : Nat := 0x300000 + 0x2088
abbrev BAR_EPOCH_EPOCH : Fld := ⟨0, 32⟩
def BAR_LOST : Nat := 0x300000 + 0x208c
abbrev BAR_LOST_CH : Fld := ⟨0, 4⟩
abbrev BAR_LOST_DEV : Fld := ⟨4, 12⟩
abbrev BAR_LOST_STAGE : Fld := ⟨16, 2⟩
def BAR_DISC_LO : Nat := 0x300000 + 0x2090
abbrev BAR_DISC_LO_COUNT : Fld := ⟨0, 32⟩
def BAR_DISC_HI : Nat := 0x300000 + 0x2094
abbrev BAR_DISC_HI_COUNT : Fld := ⟨0, 32⟩
def ARB_PROMO_LO : Nat := 0x300000 + 0x2098
abbrev ARB_PROMO_LO_COUNT : Fld := ⟨0, 32⟩
def ARB_PROMO_HI : Nat := 0x300000 + 0x209c
abbrev ARB_PROMO_HI_COUNT : Fld := ⟨0, 32⟩
def STEER_ENTRY_W0 (i : Nat) : Nat := 0x300000 + 0x40000 + i * 32
abbrev STEER_ENTRY_W0_VALID : Fld := ⟨0, 1⟩
abbrev STEER_ENTRY_W0_FINE : Fld := ⟨1, 2⟩
abbrev STEER_ENTRY_W0_FLOCK : Fld := ⟨3, 1⟩
abbrev STEER_ENTRY_W0_FLOOR : Fld := ⟨4, 2⟩
abbrev STEER_ENTRY_W0_PENDING : Fld := ⟨6, 1⟩
abbrev STEER_ENTRY_W0_SLOT : Fld := ⟨7, 1⟩
abbrev STEER_ENTRY_W0_RUN : Fld := ⟨8, 9⟩
def STEER_ENTRY_W1 (i : Nat) : Nat := 0x300000 + 0x40004 + i * 32
abbrev STEER_ENTRY_W1_PEND_STEP : Fld := ⟨0, 32⟩
def STEER_ENTRY_W2 (i : Nat) : Nat := 0x300000 + 0x40008 + i * 32
abbrev STEER_ENTRY_W2_SEV : Fld := ⟨0, 32⟩
def STEER_ENTRY_W3 (i : Nat) : Nat := 0x300000 + 0x4000c + i * 32
abbrev STEER_ENTRY_W3_UW : Fld := ⟨0, 32⟩
def STEER_ENTRY_W4 (i : Nat) : Nat := 0x300000 + 0x40010 + i * 32
abbrev STEER_ENTRY_W4_WAMAX : Fld := ⟨0, 32⟩
def STEER_ENTRY_W5 (i : Nat) : Nat := 0x300000 + 0x40014 + i * 32
abbrev STEER_ENTRY_W5_LAST_CHANGE : Fld := ⟨0, 32⟩
def STEER_ENTRY_W6 (i : Nat) : Nat := 0x300000 + 0x40018 + i * 32
abbrev STEER_ENTRY_W6_LAST_DIR : Fld := ⟨0, 2⟩
def STEER_ENTRY_W7 (i : Nat) : Nat := 0x300000 + 0x4001c + i * 32
abbrev STEER_ENTRY_W7_WAMAX_STEP : Fld := ⟨0, 32⟩

def stepRegs1 : List RegSpec := [
  ⟨"STEER_CTRL", 0x1000, 0, 1, 0, [⟨0, 1, .rw, 1⟩, ⟨1, 1, .rw, 0⟩, ⟨2, 1, .rw, 1⟩, ⟨3, 29, .ro, 0⟩]⟩,
  ⟨"STEER_THR", 0x1004, 0, 1, 0, [⟨0, 6, .rw, 5⟩, ⟨6, 2, .ro, 0⟩, ⟨8, 6, .rw, 0xc⟩, ⟨14, 2, .ro, 0⟩, ⟨16, 6, .rw, 4⟩, ⟨22, 2, .ro, 0⟩, ⟨24, 6, .rw, 0xa⟩, ⟨30, 2, .ro, 0⟩]⟩,
  ⟨"STEER_DEMOTE", 0x1008, 0, 1, 0, [⟨0, 9, .rw, 0x100⟩, ⟨9, 3, .ro, 0⟩, ⟨12, 4, .rw, 2⟩, ⟨16, 6, .rw, 0x10⟩, ⟨22, 2, .ro, 0⟩, ⟨24, 6, .rw, 6⟩, ⟨30, 2, .ro, 0⟩]⟩,
  ⟨"STEER_BUDGET", 0x100c, 0, 1, 0, [⟨0, 6, .rw, 4⟩, ⟨6, 2, .ro, 0⟩, ⟨8, 8, .rw, 0x80⟩, ⟨16, 16, .ro, 0⟩]⟩,
  ⟨"STEER_STAT", 0x1010, 0, 1, 0, [⟨0, 1, .mr, 0⟩, ⟨1, 1, .mr, 0⟩, ⟨2, 13, .mr, 0⟩, ⟨15, 13, .mr, 0⟩, ⟨28, 4, .ro, 0⟩]⟩,
  ⟨"STEER_LAST_STEP", 0x1014, 0, 1, 0, [⟨0, 32, .mr, 0xffffffff⟩]⟩,
  ⟨"STEER_LASTCNT", 0x1018, 0, 1, 0, [⟨0, 6, .mr, 0⟩, ⟨6, 13, .mr, 0⟩, ⟨19, 13, .mr, 0⟩]⟩,
  ⟨"STEER_EVENT", 0x101c, 0, 1, 0, [⟨0, 8, .sq, 0⟩, ⟨8, 1, .sq, 0⟩, ⟨9, 1, .sq, 0⟩, ⟨10, 1, .sq, 0⟩, ⟨11, 1, .sq, 0⟩, ⟨12, 1, .sq, 0⟩, ⟨13, 1, .sq, 0⟩, ⟨14, 18, .ro, 0⟩]⟩,
  ⟨"ASSAY_BASE_LO", 0x1020, 0, 1, 1, [⟨0, 16, .ro, 0⟩, ⟨16, 16, .rw, 0⟩]⟩,
  ⟨"ASSAY_BASE_HI", 0x1024, 0, 1, 2, [⟨0, 16, .rw, 0⟩, ⟨16, 16, .ro, 0⟩]⟩,
  ⟨"STEP_CTRL", 0x0, 0, 1, 0, [⟨0, 1, .rw, 1⟩, ⟨1, 1, .rw, 1⟩, ⟨2, 1, .rw, 0⟩, ⟨3, 29, .ro, 0⟩]⟩,
  ⟨"STEP_STAT", 0x4, 0, 1, 0, [⟨0, 1, .mr, 0⟩, ⟨1, 1, .mr, 0⟩, ⟨2, 1, .mr, 0⟩, ⟨3, 6, .mr, 0⟩, ⟨9, 8, .mr, 0⟩, ⟨17, 1, .mr, 1⟩, ⟨18, 1, .mr, 0⟩, ⟨19, 1, .mr, 0⟩, ⟨20, 1, .mr, 0⟩, ⟨21, 11, .ro, 0⟩]⟩,
  ⟨"STEP_NUM", 0x8, 0, 1, 0, [⟨0, 32, .rw, 0⟩]⟩,
  ⟨"STEP_LEFT", 0xc, 0, 1, 0, [⟨0, 32, .mr, 0⟩]⟩,
  ⟨"STEP_COMMITS", 0x10, 0, 1, 0, [⟨0, 32, .rw, 0⟩]⟩,
  ⟨"STEP_ABORTS", 0x14, 0, 1, 0, [⟨0, 32, .mr, 0⟩]⟩,
  ⟨"STEP_EVENT", 0x18, 0, 1, 0, [⟨0, 8, .sq, 0⟩, ⟨8, 1, .sq, 0⟩, ⟨9, 1, .sq, 0⟩, ⟨10, 1, .sq, 0⟩, ⟨11, 1, .sq, 0⟩, ⟨12, 1, .sq, 0⟩, ⟨13, 1, .sq, 0⟩, ⟨14, 18, .ro, 0⟩]⟩,
  ⟨"STEP_LAST_ABORT", 0x1c, 0, 1, 0, [⟨0, 32, .mr, 0xffffffff⟩]⟩,
  ⟨"STEP_ABORT_CAUSE", 0x20, 0, 1, 0, [⟨0, 4, .mr, 0⟩, ⟨4, 12, .mr, 0⟩, ⟨16, 6, .mr, 0⟩, ⟨22, 8, .mr, 0⟩, ⟨30, 2, .ro, 0⟩]⟩,
  ⟨"STEP_C15_WDOG", 0x24, 0, 1, 0, [⟨0, 16, .rw, 0x2710⟩, ⟨16, 16, .ro, 0⟩]⟩,
  ⟨"STEP_GMICRO_LO", 0x28, 0, 1, 1, [⟨0, 32, .rw, 0⟩]⟩,
  ⟨"STEP_GMICRO_HI", 0x2c, 0, 1, 2, [⟨0, 32, .rw, 0⟩]⟩,
  ⟨"SPR_KEY", 0x40, 8, 4, 0, [⟨0, 32, .wg, 0⟩]⟩,
  ⟨"BAR_GRP", 0x2000, 8, 16, 0, [⟨0, 4, .rw, 0⟩, ⟨4, 4, .rw, 0⟩, ⟨8, 4, .rw, 0⟩, ⟨12, 4, .rw, 0⟩, ⟨16, 4, .rw, 0⟩, ⟨20, 4, .rw, 0⟩, ⟨24, 1, .rw, 0⟩, ⟨25, 7, .ro, 0⟩]⟩]
def stepRegs2 : List RegSpec := [
  ⟨"BAR_GID", 0x2004, 8, 16, 0, [⟨0, 16, .rw, 0⟩, ⟨16, 16, .ro, 0⟩]⟩,
  ⟨"BAR_PSTAT", 0x2080, 0, 1, 0, [⟨0, 16, .mr, 0⟩, ⟨16, 16, .mr, 0⟩]⟩,
  ⟨"BAR_PEVENT", 0x2084, 0, 1, 0, [⟨0, 8, .sq, 0⟩, ⟨8, 1, .sq, 0⟩, ⟨9, 1, .sq, 0⟩, ⟨10, 1, .sq, 0⟩, ⟨11, 1, .sq, 0⟩, ⟨12, 1, .sq, 0⟩, ⟨13, 1, .sq, 0⟩, ⟨14, 18, .ro, 0⟩]⟩,
  ⟨"BAR_EPOCH", 0x2088, 0, 1, 0, [⟨0, 32, .mr, 0⟩]⟩,
  ⟨"BAR_LOST", 0x208c, 0, 1, 0, [⟨0, 4, .mr, 0⟩, ⟨4, 12, .mr, 0⟩, ⟨16, 2, .mr, 0⟩, ⟨18, 14, .ro, 0⟩]⟩,
  ⟨"BAR_DISC_LO", 0x2090, 0, 1, 1, [⟨0, 32, .mr, 0⟩]⟩,
  ⟨"BAR_DISC_HI", 0x2094, 0, 1, 2, [⟨0, 32, .mr, 0⟩]⟩,
  ⟨"ARB_PROMO_LO", 0x2098, 0, 1, 1, [⟨0, 32, .mr, 0⟩]⟩,
  ⟨"ARB_PROMO_HI", 0x209c, 0, 1, 2, [⟨0, 32, .mr, 0⟩]⟩,
  ⟨"STEER_ENTRY_W0", 0x40000, 32, 4096, 0, [⟨0, 1, .rw, 0⟩, ⟨1, 2, .rw, 0⟩, ⟨3, 1, .rw, 0⟩, ⟨4, 2, .ro, 0⟩, ⟨6, 1, .ro, 0⟩, ⟨7, 1, .ro, 0⟩, ⟨8, 9, .ro, 0⟩, ⟨17, 15, .ro, 0⟩]⟩,
  ⟨"STEER_ENTRY_W1", 0x40004, 32, 4096, 0, [⟨0, 32, .ro, 0⟩]⟩,
  ⟨"STEER_ENTRY_W2", 0x40008, 32, 4096, 0, [⟨0, 32, .ro, 0⟩]⟩,
  ⟨"STEER_ENTRY_W3", 0x4000c, 32, 4096, 0, [⟨0, 32, .ro, 0⟩]⟩,
  ⟨"STEER_ENTRY_W4", 0x40010, 32, 4096, 0, [⟨0, 32, .ro, 0⟩]⟩,
  ⟨"STEER_ENTRY_W5", 0x40014, 32, 4096, 0, [⟨0, 32, .ro, 0⟩]⟩,
  ⟨"STEER_ENTRY_W6", 0x40018, 32, 4096, 0, [⟨0, 2, .ro, 0⟩, ⟨2, 30, .ro, 0⟩]⟩,
  ⟨"STEER_ENTRY_W7", 0x4001c, 32, 4096, 0, [⟨0, 32, .ro, 0⟩]⟩]
def stepRegs : List RegSpec := stepRegs1 ++ stepRegs2

/-! ### PLC block (R269) -/

def PLC_CTRL : Nat := 0x400000 + 0x0
abbrev PLC_CTRL_EVICT_EN : Fld := ⟨0, 1⟩
abbrev PLC_CTRL_PULL_EN : Fld := ⟨1, 1⟩
abbrev PLC_CTRL_RCOPY_EN : Fld := ⟨2, 1⟩
abbrev PLC_CTRL_MEND_EN : Fld := ⟨3, 1⟩
def PLC_STAT : Nat := 0x400000 + 0x4
abbrev PLC_STAT_READY : Fld := ⟨0, 1⟩
abbrev PLC_STAT_EVACUATING : Fld := ⟨1, 1⟩
abbrev PLC_STAT_EVACUATED : Fld := ⟨2, 1⟩
abbrev PLC_STAT_EVICTING : Fld := ⟨3, 1⟩
abbrev PLC_STAT_CUT : Fld := ⟨4, 8⟩
abbrev PLC_STAT_MOVES : Fld := ⟨12, 6⟩
def PLC_EVENT : Nat := 0x400000 + 0x8
abbrev PLC_EVENT_SEQ : Fld := ⟨0, 8⟩
abbrev PLC_EVENT_POISON : Fld := ⟨8, 1⟩
abbrev PLC_EVENT_MEND_OK : Fld := ⟨9, 1⟩
abbrev PLC_EVENT_MEND_FAIL : Fld := ⟨10, 1⟩
abbrev PLC_EVENT_LEDGER_FULL : Fld := ⟨11, 1⟩
abbrev PLC_EVENT_NO_SPACE : Fld := ⟨12, 1⟩
abbrev PLC_EVENT_STALE_LIMIT : Fld := ⟨13, 1⟩
abbrev PLC_EVENT_EVAC_DONE : Fld := ⟨14, 1⟩
abbrev PLC_EVENT_CFG_PARITY : Fld := ⟨15, 1⟩
abbrev PLC_EVENT_LEDGER_UE : Fld := ⟨16, 1⟩
def PLC_FREE : Nat := 0x400000 + 0xc
abbrev PLC_FREE_FRAMES : Fld := ⟨0, 26⟩
def PLC_WATER : Nat := 0x400000 + 0x10
abbrev PLC_WATER_LOW : Fld := ⟨0, 16⟩
abbrev PLC_WATER_HIGH : Fld := ⟨16, 16⟩
def PLC_SPILL01 : Nat := 0x400000 + 0x14
abbrev PLC_SPILL01_PEER0 : Fld := ⟨0, 12⟩
abbrev PLC_SPILL01_V0 : Fld := ⟨12, 1⟩
abbrev PLC_SPILL01_PEER1 : Fld := ⟨16, 12⟩
abbrev PLC_SPILL01_V1 : Fld := ⟨28, 1⟩
def PLC_SPILL23 : Nat := 0x400000 + 0x18
abbrev PLC_SPILL23_PEER2 : Fld := ⟨0, 12⟩
abbrev PLC_SPILL23_V2 : Fld := ⟨12, 1⟩
abbrev PLC_SPILL23_PEER3 : Fld := ⟨16, 12⟩
abbrev PLC_SPILL23_V3 : Fld := ⟨28, 1⟩
def PLC_RETIRED : Nat := 0x400000 + 0x1c
abbrev PLC_RETIRED_FRAMES : Fld := ⟨0, 26⟩
def PLC_EVICT_LO : Nat := 0x400000 + 0x20
abbrev PLC_EVICT_LO_COUNT : Fld := ⟨0, 32⟩
def PLC_EVICT_HI : Nat := 0x400000 + 0x24
abbrev PLC_EVICT_HI_COUNT : Fld := ⟨0, 32⟩
def PLC_MOVE_LO : Nat := 0x400000 + 0x28
abbrev PLC_MOVE_LO_COUNT : Fld := ⟨0, 32⟩
def PLC_MOVE_HI : Nat := 0x400000 + 0x2c
abbrev PLC_MOVE_HI_COUNT : Fld := ⟨0, 32⟩
def PLC_MEND_LO : Nat := 0x400000 + 0x30
abbrev PLC_MEND_LO_COUNT : Fld := ⟨0, 32⟩
def PLC_MEND_HI : Nat := 0x400000 + 0x34
abbrev PLC_MEND_HI_COUNT : Fld := ⟨0, 32⟩
def PLC_ALIAS (i : Nat) : Nat := 0x400000 + 0x40 + i * 4
abbrev PLC_ALIAS_OWNER : Fld := ⟨0, 12⟩
abbrev PLC_ALIAS_SERVE : Fld := ⟨12, 12⟩
abbrev PLC_ALIAS_V : Fld := ⟨24, 1⟩
def PLC_REGION_W0 (i : Nat) : Nat := 0x400000 + 0x1000 + i * 16
abbrev PLC_REGION_W0_BASE_LO : Fld := ⟨0, 32⟩
def PLC_REGION_W1 (i : Nat) : Nat := 0x400000 + 0x1004 + i * 16
abbrev PLC_REGION_W1_BASE_HI : Fld := ⟨0, 12⟩
def PLC_REGION_W2 (i : Nat) : Nat := 0x400000 + 0x1008 + i * 16
abbrev PLC_REGION_W2_LEN : Fld := ⟨0, 28⟩
def PLC_REGION_W3 (i : Nat) : Nat := 0x400000 + 0x100c + i * 16
abbrev PLC_REGION_W3_USED : Fld := ⟨0, 28⟩
abbrev PLC_REGION_W3_V : Fld := ⟨28, 1⟩

def plcRegs : List RegSpec := [
  ⟨"PLC_CTRL", 0x0, 0, 1, 0, [⟨0, 1, .rw, 1⟩, ⟨1, 1, .rw, 1⟩, ⟨2, 1, .rw, 1⟩, ⟨3, 1, .rw, 1⟩, ⟨4, 28, .ro, 0⟩]⟩,
  ⟨"PLC_STAT", 0x4, 0, 1, 0, [⟨0, 1, .mr, 0⟩, ⟨1, 1, .mr, 0⟩, ⟨2, 1, .mr, 0⟩, ⟨3, 1, .mr, 0⟩, ⟨4, 8, .mr, 0⟩, ⟨12, 6, .mr, 0⟩, ⟨18, 14, .ro, 0⟩]⟩,
  ⟨"PLC_EVENT", 0x8, 0, 1, 0, [⟨0, 8, .sq, 0⟩, ⟨8, 1, .sq, 0⟩, ⟨9, 1, .sq, 0⟩, ⟨10, 1, .sq, 0⟩, ⟨11, 1, .sq, 0⟩, ⟨12, 1, .sq, 0⟩, ⟨13, 1, .sq, 0⟩, ⟨14, 1, .sq, 0⟩, ⟨15, 1, .sq, 0⟩, ⟨16, 1, .sq, 0⟩, ⟨17, 15, .ro, 0⟩]⟩,
  ⟨"PLC_FREE", 0xc, 0, 1, 0, [⟨0, 26, .mr, 0⟩, ⟨26, 6, .ro, 0⟩]⟩,
  ⟨"PLC_WATER", 0x10, 0, 1, 0, [⟨0, 16, .rw, 0x40⟩, ⟨16, 16, .rw, 0x80⟩]⟩,
  ⟨"PLC_SPILL01", 0x14, 0, 1, 0, [⟨0, 12, .rw, 0⟩, ⟨12, 1, .rw, 0⟩, ⟨13, 3, .ro, 0⟩, ⟨16, 12, .rw, 0⟩, ⟨28, 1, .rw, 0⟩, ⟨29, 3, .ro, 0⟩]⟩,
  ⟨"PLC_SPILL23", 0x18, 0, 1, 0, [⟨0, 12, .rw, 0⟩, ⟨12, 1, .rw, 0⟩, ⟨13, 3, .ro, 0⟩, ⟨16, 12, .rw, 0⟩, ⟨28, 1, .rw, 0⟩, ⟨29, 3, .ro, 0⟩]⟩,
  ⟨"PLC_RETIRED", 0x1c, 0, 1, 0, [⟨0, 26, .mr, 0⟩, ⟨26, 6, .ro, 0⟩]⟩,
  ⟨"PLC_EVICT_LO", 0x20, 0, 1, 1, [⟨0, 32, .mr, 0⟩]⟩,
  ⟨"PLC_EVICT_HI", 0x24, 0, 1, 2, [⟨0, 32, .mr, 0⟩]⟩,
  ⟨"PLC_MOVE_LO", 0x28, 0, 1, 1, [⟨0, 32, .mr, 0⟩]⟩,
  ⟨"PLC_MOVE_HI", 0x2c, 0, 1, 2, [⟨0, 32, .mr, 0⟩]⟩,
  ⟨"PLC_MEND_LO", 0x30, 0, 1, 1, [⟨0, 32, .mr, 0⟩]⟩,
  ⟨"PLC_MEND_HI", 0x34, 0, 1, 2, [⟨0, 32, .mr, 0⟩]⟩,
  ⟨"PLC_ALIAS", 0x40, 4, 16, 0, [⟨0, 12, .rw, 0⟩, ⟨12, 12, .rw, 0⟩, ⟨24, 1, .rw, 0⟩, ⟨25, 7, .ro, 0⟩]⟩,
  ⟨"PLC_REGION_W0", 0x1000, 16, 64, 0, [⟨0, 32, .mr, 0⟩]⟩,
  ⟨"PLC_REGION_W1", 0x1004, 16, 64, 0, [⟨0, 12, .mr, 0⟩, ⟨12, 20, .ro, 0⟩]⟩,
  ⟨"PLC_REGION_W2", 0x1008, 16, 64, 0, [⟨0, 28, .mr, 0⟩, ⟨28, 4, .ro, 0⟩]⟩,
  ⟨"PLC_REGION_W3", 0x100c, 16, 64, 0, [⟨0, 28, .mr, 0⟩, ⟨28, 1, .mr, 0⟩, ⟨29, 3, .ro, 0⟩]⟩]

/-! ### CRU block (R328) and the job directory (R297) -/

def CRU_GCTRL : Nat := 0x500000 + 0x0
abbrev CRU_GCTRL_EN : Fld := ⟨0, 1⟩
abbrev CRU_GCTRL_WIT_DEF : Fld := ⟨1, 4⟩
def CRU_GSTAT : Nat := 0x500000 + 0x4
abbrev CRU_GSTAT_OPEN : Fld := ⟨0, 13⟩
abbrev CRU_GSTAT_CHECKED : Fld := ⟨13, 1⟩
def CRU_GEVENT : Nat := 0x500000 + 0x8
abbrev CRU_GEVENT_SEQ : Fld := ⟨0, 8⟩
abbrev CRU_GEVENT_DIR_BAD : Fld := ⟨8, 1⟩
abbrev CRU_GEVENT_DEADLINE : Fld := ⟨9, 1⟩
abbrev CRU_GEVENT_MISMATCH : Fld := ⟨10, 1⟩
abbrev CRU_GEVENT_NF : Fld := ⟨11, 1⟩
abbrev CRU_GEVENT_CUT : Fld := ⟨12, 1⟩
abbrev CRU_GEVENT_WRITE_DROP : Fld := ⟨13, 1⟩
abbrev CRU_GEVENT_CFG_PARITY : Fld := ⟨14, 1⟩
def CRU_DIR_BAD : Nat := 0x500000 + 0xc
abbrev CRU_DIR_BAD_JOB : Fld := ⟨0, 12⟩
abbrev CRU_DIR_BAD_REASON : Fld := ⟨12, 4⟩
def DIR_W0 (i : Nat) : Nat := 0x500000 + 0x40000 + i * 64
abbrev DIR_W0_VALID : Fld := ⟨0, 1⟩
abbrev DIR_W0_RECV : Fld := ⟨1, 1⟩
abbrev DIR_W0_LINK : Fld := ⟨2, 1⟩
abbrev DIR_W0_CONTRIB : Fld := ⟨3, 1⟩
abbrev DIR_W0_COPY : Fld := ⟨4, 1⟩
abbrev DIR_W0_SLOT : Fld := ⟨8, 12⟩
abbrev DIR_W0_TARGET : Fld := ⟨20, 12⟩
def DIR_W1 (i : Nat) : Nat := 0x500000 + 0x40004 + i * 64
abbrev DIR_W1_NEXP : Fld := ⟨0, 8⟩
abbrev DIR_W1_NSLOT : Fld := ⟨8, 8⟩
abbrev DIR_W1_NBKUP : Fld := ⟨16, 5⟩
def DIR_W2 (i : Nat) : Nat := 0x500000 + 0x40008 + i * 64
abbrev DIR_W2_K : Fld := ⟨0, 32⟩
def DIR_W3 (i : Nat) : Nat := 0x500000 + 0x4000c + i * 64
abbrev DIR_W3_N : Fld := ⟨0, 24⟩
def DIR_W4 (i : Nat) : Nat := 0x500000 + 0x40010 + i * 64
abbrev DIR_W4_SHARD_BLK : Fld := ⟨0, 16⟩
abbrev DIR_W4_CRU0 : Fld := ⟨16, 7⟩
def DIR_W5 (i : Nat) : Nat := 0x500000 + 0x40014 + i * 64
abbrev DIR_W5_NEXT : Fld := ⟨0, 12⟩
abbrev DIR_W5_NEXT_SLOT : Fld := ⟨12, 12⟩
def DIR_W6 (i : Nat) : Nat := 0x500000 + 0x40018 + i * 64
abbrev DIR_W6_POL : Fld := ⟨12, 20⟩
def DIR_W7 (i : Nat) : Nat := 0x500000 + 0x4001c + i * 64
def DIR_W8 (i : Nat) : Nat := 0x500000 + 0x40020 + i * 64
abbrev DIR_W8_RES_LO : Fld := ⟨0, 32⟩
def DIR_W9 (i : Nat) : Nat := 0x500000 + 0x40024 + i * 64
abbrev DIR_W9_RES_HI : Fld := ⟨0, 32⟩
def DIR_W10 (i : Nat) : Nat := 0x500000 + 0x40028 + i * 64
abbrev DIR_W10_AREA_LO : Fld := ⟨0, 32⟩
def DIR_W11 (i : Nat) : Nat := 0x500000 + 0x4002c + i * 64
abbrev DIR_W11_AREA_HI : Fld := ⟨0, 32⟩
def DIR_W12 (i : Nat) : Nat := 0x500000 + 0x40030 + i * 64
abbrev DIR_W12_JSTATE : Fld := ⟨0, 3⟩
abbrev DIR_W12_DL : Fld := ⟨3, 1⟩
abbrev DIR_W12_MISMATCH : Fld := ⟨4, 1⟩
abbrev DIR_W12_NF : Fld := ⟨5, 1⟩
abbrev DIR_W12_STEP : Fld := ⟨16, 16⟩
def DIR_W13 (i : Nat) : Nat := 0x500000 + 0x40034 + i * 64
abbrev DIR_W13_SHORT : Fld := ⟨0, 24⟩
def DIR_W14 (i : Nat) : Nat := 0x500000 + 0x40038 + i * 64
abbrev DIR_W14_QUARB : Fld := ⟨0, 24⟩
def DIR_W15 (i : Nat) : Nat := 0x500000 + 0x4003c + i * 64
abbrev DIR_W15_ESCB : Fld := ⟨0, 24⟩

def cruRegs : List RegSpec := [
  ⟨"CRU_GCTRL", 0x0, 0, 1, 0, [⟨0, 1, .rw, 1⟩, ⟨1, 4, .rw, 0xa⟩, ⟨5, 27, .ro, 0⟩]⟩,
  ⟨"CRU_GSTAT", 0x4, 0, 1, 0, [⟨0, 13, .mr, 0⟩, ⟨13, 1, .mr, 0⟩, ⟨14, 18, .ro, 0⟩]⟩,
  ⟨"CRU_GEVENT", 0x8, 0, 1, 0, [⟨0, 8, .sq, 0⟩, ⟨8, 1, .sq, 0⟩, ⟨9, 1, .sq, 0⟩, ⟨10, 1, .sq, 0⟩, ⟨11, 1, .sq, 0⟩, ⟨12, 1, .sq, 0⟩, ⟨13, 1, .sq, 0⟩, ⟨14, 1, .sq, 0⟩, ⟨15, 17, .ro, 0⟩]⟩,
  ⟨"CRU_DIR_BAD", 0xc, 0, 1, 0, [⟨0, 12, .mr, 0⟩, ⟨12, 4, .mr, 0⟩, ⟨16, 16, .ro, 0⟩]⟩,
  ⟨"DIR_W0", 0x40000, 64, 4096, 0, [⟨0, 1, .rw, 0⟩, ⟨1, 1, .rw, 0⟩, ⟨2, 1, .rw, 0⟩, ⟨3, 1, .rw, 0⟩, ⟨4, 1, .rw, 0⟩, ⟨5, 3, .ro, 0⟩, ⟨8, 12, .rw, 0⟩, ⟨20, 12, .rw, 0⟩]⟩,
  ⟨"DIR_W1", 0x40004, 64, 4096, 0, [⟨0, 8, .rw, 0⟩, ⟨8, 8, .rw, 0⟩, ⟨16, 5, .rw, 0⟩, ⟨21, 11, .ro, 0⟩]⟩,
  ⟨"DIR_W2", 0x40008, 64, 4096, 0, [⟨0, 32, .rw, 0⟩]⟩,
  ⟨"DIR_W3", 0x4000c, 64, 4096, 0, [⟨0, 24, .rw, 0⟩, ⟨24, 8, .ro, 0⟩]⟩,
  ⟨"DIR_W4", 0x40010, 64, 4096, 0, [⟨0, 16, .rw, 0⟩, ⟨16, 7, .rw, 0⟩, ⟨23, 9, .ro, 0⟩]⟩,
  ⟨"DIR_W5", 0x40014, 64, 4096, 0, [⟨0, 12, .rw, 0⟩, ⟨12, 12, .rw, 0⟩, ⟨24, 8, .ro, 0⟩]⟩,
  ⟨"DIR_W6", 0x40018, 64, 4096, 0, [⟨0, 12, .ro, 0⟩, ⟨12, 20, .rw, 0⟩]⟩,
  ⟨"DIR_W7", 0x4001c, 64, 4096, 0, [⟨0, 32, .ro, 0⟩]⟩,
  ⟨"DIR_W8", 0x40020, 64, 4096, 0, [⟨0, 32, .rw, 0⟩]⟩,
  ⟨"DIR_W9", 0x40024, 64, 4096, 0, [⟨0, 32, .rw, 0⟩]⟩,
  ⟨"DIR_W10", 0x40028, 64, 4096, 0, [⟨0, 32, .rw, 0⟩]⟩,
  ⟨"DIR_W11", 0x4002c, 64, 4096, 0, [⟨0, 32, .rw, 0⟩]⟩,
  ⟨"DIR_W12", 0x40030, 64, 4096, 0, [⟨0, 3, .mr, 0⟩, ⟨3, 1, .mr, 0⟩, ⟨4, 1, .mr, 0⟩, ⟨5, 1, .mr, 0⟩, ⟨6, 10, .mr, 0⟩, ⟨16, 16, .mr, 0⟩]⟩,
  ⟨"DIR_W13", 0x40034, 64, 4096, 0, [⟨0, 24, .mr, 0⟩, ⟨24, 8, .mr, 0⟩]⟩,
  ⟨"DIR_W14", 0x40038, 64, 4096, 0, [⟨0, 24, .mr, 0⟩, ⟨24, 8, .mr, 0⟩]⟩,
  ⟨"DIR_W15", 0x4003c, 64, 4096, 0, [⟨0, 24, .mr, 0⟩, ⟨24, 8, .mr, 0⟩]⟩]

/-! ### die common and die barrier registers (R31, R353, R371) -/

def DIE_GANG_MAP_LO (d : Nat) : Nat := dieBase d + 0x100
abbrev DIE_GANG_MAP_LO_MAP : Fld := ⟨0, 32⟩
def DIE_GANG_MAP_HI (d : Nat) : Nat := dieBase d + 0x104
abbrev DIE_GANG_MAP_HI_MAP : Fld := ⟨0, 32⟩
def DIE_WORK_STAT (d : Nat) : Nat := dieBase d + 0x108
abbrev DIE_WORK_STAT_PHASE : Fld := ⟨0, 6⟩
abbrev DIE_WORK_STAT_ACTIVE : Fld := ⟨6, 1⟩
abbrev DIE_WORK_STAT_WINDOW : Fld := ⟨7, 9⟩
abbrev DIE_WORK_STAT_DONE : Fld := ⟨16, 16⟩
def DIE_WORK_EVENT (d : Nat) : Nat := dieBase d + 0x10c
abbrev DIE_WORK_EVENT_SEQ : Fld := ⟨0, 8⟩
abbrev DIE_WORK_EVENT_DESC_BAD : Fld := ⟨8, 1⟩
abbrev DIE_WORK_EVENT_DESC_STREAM_CLASH : Fld := ⟨9, 1⟩
abbrev DIE_WORK_EVENT_WDOG : Fld := ⟨10, 1⟩
def DIE_WORK_BADIDX (d : Nat) : Nat := dieBase d + 0x110
abbrev DIE_WORK_BADIDX_INDEX : Fld := ⟨0, 20⟩
def DIE_TALLY (d i : Nat) : Nat := dieBase d + 0x1000 + i * 4
abbrev DIE_TALLY_COUNT : Fld := ⟨0, 32⟩
def BAR_CTRL (d : Nat) : Nat := dieBase d + 0x80000
abbrev BAR_CTRL_SPIN_EN : Fld := ⟨0, 1⟩
def BAR_STAT (d : Nat) : Nat := dieBase d + 0x80004
abbrev BAR_STAT_ARRIVED : Fld := ⟨0, 16⟩
abbrev BAR_STAT_CLOSED : Fld := ⟨16, 16⟩
def BAR_EVENT (d : Nat) : Nat := dieBase d + 0x80008
abbrev BAR_EVENT_SEQ : Fld := ⟨0, 8⟩
abbrev BAR_EVENT_BARIN_REJ : Fld := ⟨8, 1⟩
abbrev BAR_EVENT_CFG_PARITY : Fld := ⟨9, 1⟩
def BAR_CH (d i : Nat) : Nat := dieBase d + 0x80100 + i * 4
abbrev BAR_CH_PEND : Fld := ⟨0, 9⟩
abbrev BAR_CH_LISTED : Fld := ⟨9, 1⟩
abbrev BAR_CH_DIE_ARR : Fld := ⟨10, 1⟩
abbrev BAR_CH_PKG_AND : Fld := ⟨11, 1⟩
abbrev BAR_CH_SPIN : Fld := ⟨12, 1⟩
def DIE_EVENT_SUM (d : Nat) : Nat := dieBase d + 0x0
abbrev DIE_EVENT_SUM_WORK : Fld := ⟨0, 1⟩
abbrev DIE_EVENT_SUM_BAR : Fld := ⟨1, 1⟩
abbrev DIE_EVENT_SUM_MC : Fld := ⟨2, 8⟩
abbrev DIE_EVENT_SUM_CRU : Fld := ⟨10, 8⟩
abbrev DIE_EVENT_SUM_QUAD : Fld := ⟨18, 4⟩
def DIE_FACE_SUM_0 (d : Nat) : Nat := dieBase d + 0x8
abbrev DIE_FACE_SUM_0_FACE : Fld := ⟨0, 32⟩
def DIE_FACE_SUM_1 (d : Nat) : Nat := dieBase d + 0xc
abbrev DIE_FACE_SUM_1_FACE : Fld := ⟨0, 32⟩

def dieRegs : List RegSpec := [
  ⟨"DIE_GANG_MAP_LO", 0x100, 0, 1, 1, [⟨0, 32, .mr, 0xffffffff⟩]⟩,
  ⟨"DIE_GANG_MAP_HI", 0x104, 0, 1, 2, [⟨0, 32, .mr, 0xffffffff⟩]⟩,
  ⟨"DIE_WORK_STAT", 0x108, 0, 1, 0, [⟨0, 6, .mr, 0⟩, ⟨6, 1, .mr, 0⟩, ⟨7, 9, .mr, 0⟩, ⟨16, 16, .mr, 0⟩]⟩,
  ⟨"DIE_WORK_EVENT", 0x10c, 0, 1, 0, [⟨0, 8, .sq, 0⟩, ⟨8, 1, .sq, 0⟩, ⟨9, 1, .sq, 0⟩, ⟨10, 1, .sq, 0⟩, ⟨11, 21, .ro, 0⟩]⟩,
  ⟨"DIE_WORK_BADIDX", 0x110, 0, 1, 0, [⟨0, 20, .ro, 0⟩, ⟨20, 12, .ro, 0⟩]⟩,
  ⟨"DIE_TALLY", 0x1000, 4, 256, 0, [⟨0, 32, .mr, 0⟩]⟩,
  ⟨"BAR_CTRL", 0x80000, 0, 1, 0, [⟨0, 1, .rw, 1⟩, ⟨1, 31, .ro, 0⟩]⟩,
  ⟨"BAR_STAT", 0x80004, 0, 1, 0, [⟨0, 16, .mr, 0⟩, ⟨16, 16, .mr, 0⟩]⟩,
  ⟨"BAR_EVENT", 0x80008, 0, 1, 0, [⟨0, 8, .sq, 0⟩, ⟨8, 1, .sq, 0⟩, ⟨9, 1, .sq, 0⟩, ⟨10, 22, .ro, 0⟩]⟩,
  ⟨"BAR_CH", 0x80100, 4, 16, 0, [⟨0, 9, .mr, 0⟩, ⟨9, 1, .mr, 0⟩, ⟨10, 1, .mr, 0⟩, ⟨11, 1, .mr, 0⟩, ⟨12, 1, .mr, 0⟩, ⟨13, 19, .ro, 0⟩]⟩,
  ⟨"DIE_EVENT_SUM", 0x0, 0, 1, 0, [⟨0, 1, .rc, 0⟩, ⟨1, 1, .rc, 0⟩, ⟨2, 8, .rc, 0⟩, ⟨10, 8, .rc, 0⟩, ⟨18, 4, .rc, 0⟩, ⟨22, 10, .ro, 0⟩]⟩,
  ⟨"DIE_FACE_SUM_0", 0x8, 0, 1, 0, [⟨0, 32, .rc, 0⟩]⟩,
  ⟨"DIE_FACE_SUM_1", 0xc, 0, 1, 0, [⟨0, 32, .rc, 0⟩]⟩]

/-! ### memory controller and die-cache registers (R237) -/

def MC_CTRL (d c : Nat) : Nat := dieBase d + 0x10000 + c * 0x1000 + 0x0
abbrev MC_CTRL_SCRUB_EN : Fld := ⟨0, 1⟩
abbrev MC_CTRL_PAGE_OPEN : Fld := ⟨1, 1⟩
abbrev MC_CTRL_GRACE_EN : Fld := ⟨2, 1⟩
def MC_STAT (d c : Nat) : Nat := dieBase d + 0x10000 + c * 0x1000 + 0x4
abbrev MC_STAT_READY : Fld := ⟨0, 4⟩
abbrev MC_STAT_TSTATE : Fld := ⟨4, 2⟩
abbrev MC_STAT_CAPPED : Fld := ⟨6, 1⟩
abbrev MC_STAT_GRACE : Fld := ⟨7, 1⟩
abbrev MC_STAT_REF_POST : Fld := ⟨16, 16⟩
def MC_EVENT (d c : Nat) : Nat := dieBase d + 0x10000 + c * 0x1000 + 0x8
abbrev MC_EVENT_SEQ : Fld := ⟨0, 8⟩
abbrev MC_EVENT_CE : Fld := ⟨8, 1⟩
abbrev MC_EVENT_UE : Fld := ⟨9, 1⟩
abbrev MC_EVENT_POISON_RD : Fld := ⟨10, 1⟩
abbrev MC_EVENT_TSTATE : Fld := ⟨11, 1⟩
abbrev MC_EVENT_REF_FORCED : Fld := ⟨12, 1⟩
abbrev MC_EVENT_KEEP_DENY : Fld := ⟨13, 1⟩
abbrev MC_EVENT_CACHE_UE : Fld := ⟨14, 1⟩
abbrev MC_EVENT_GRACE_END : Fld := ⟨15, 1⟩
abbrev MC_EVENT_ENDED : Fld := ⟨16, 1⟩
abbrev MC_EVENT_CFG_PARITY : Fld := ⟨17, 1⟩
def MC_THERM (d c : Nat) : Nat := dieBase d + 0x10000 + c * 0x1000 + 0xc
abbrev MC_THERM_TEMP : Fld := ⟨0, 8⟩
abbrev MC_THERM_PEAK : Fld := ⟨8, 8⟩
abbrev MC_THERM_HOT_SID : Fld := ⟨16, 3⟩
def MC_GRACE (d c : Nat) : Nat := dieBase d + 0x10000 + c * 0x1000 + 0x10
abbrev MC_GRACE_LIMIT : Fld := ⟨0, 6⟩
abbrev MC_GRACE_LEFT : Fld := ⟨16, 6⟩
def MC_SCRUB (d c : Nat) : Nat := dieBase d + 0x10000 + c * 0x1000 + 0x14
abbrev MC_SCRUB_PERIOD : Fld := ⟨0, 8⟩
def MC_ERR_INFO (d c : Nat) : Nat := dieBase d + 0x10000 + c * 0x1000 + 0x18
abbrev MC_ERR_INFO_CH : Fld := ⟨0, 2⟩
abbrev MC_ERR_INFO_KIND : Fld := ⟨2, 1⟩
abbrev MC_ERR_INFO_SRC : Fld := ⟨3, 1⟩
abbrev MC_ERR_INFO_NSYM : Fld := ⟨4, 2⟩
abbrev MC_ERR_INFO_SYM0 : Fld := ⟨6, 7⟩
abbrev MC_ERR_INFO_SYM1 : Fld := ⟨13, 7⟩
abbrev MC_ERR_INFO_SYM2 : Fld := ⟨20, 7⟩
abbrev MC_ERR_INFO_VALID : Fld := ⟨27, 1⟩
def MC_ERR_ADDR_LO (d c : Nat) : Nat := dieBase d + 0x10000 + c * 0x1000 + 0x20
abbrev MC_ERR_ADDR_LO_ADDR : Fld := ⟨0, 32⟩
def MC_ERR_ADDR_HI (d c : Nat) : Nat := dieBase d + 0x10000 + c * 0x1000 + 0x24
abbrev MC_ERR_ADDR_HI_ADDR : Fld := ⟨0, 16⟩
def MC_CE_LO (d c : Nat) : Nat := dieBase d + 0x10000 + c * 0x1000 + 0x28
abbrev MC_CE_LO_COUNT : Fld := ⟨0, 32⟩
def MC_CE_HI (d c : Nat) : Nat := dieBase d + 0x10000 + c * 0x1000 + 0x2c
abbrev MC_CE_HI_COUNT : Fld := ⟨0, 32⟩
def MC_UE_LO (d c : Nat) : Nat := dieBase d + 0x10000 + c * 0x1000 + 0x30
abbrev MC_UE_LO_COUNT : Fld := ⟨0, 32⟩
def MC_UE_HI (d c : Nat) : Nat := dieBase d + 0x10000 + c * 0x1000 + 0x34
abbrev MC_UE_HI_COUNT : Fld := ⟨0, 32⟩
def DC_CTRL (d c : Nat) : Nat := dieBase d + 0x10000 + c * 0x1000 + 0x100
abbrev DC_CTRL_KEEP_MAX : Fld := ⟨0, 5⟩
abbrev DC_CTRL_FLUSH : Fld := ⟨8, 1⟩
def DC_HIT_LO (d c : Nat) : Nat := dieBase d + 0x10000 + c * 0x1000 + 0x108
abbrev DC_HIT_LO_COUNT : Fld := ⟨0, 32⟩
def DC_HIT_HI (d c : Nat) : Nat := dieBase d + 0x10000 + c * 0x1000 + 0x10c
abbrev DC_HIT_HI_COUNT : Fld := ⟨0, 32⟩
def DC_MISS_LO (d c : Nat) : Nat := dieBase d + 0x10000 + c * 0x1000 + 0x110
abbrev DC_MISS_LO_COUNT : Fld := ⟨0, 32⟩
def DC_MISS_HI (d c : Nat) : Nat := dieBase d + 0x10000 + c * 0x1000 + 0x114
abbrev DC_MISS_HI_COUNT : Fld := ⟨0, 32⟩

def mcRegs : List RegSpec := [
  ⟨"MC_CTRL", 0x0, 0, 1, 0, [⟨0, 1, .rw, 1⟩, ⟨1, 1, .rw, 1⟩, ⟨2, 1, .rw, 1⟩, ⟨3, 29, .ro, 0⟩]⟩,
  ⟨"MC_STAT", 0x4, 0, 1, 0, [⟨0, 4, .mr, 0⟩, ⟨4, 2, .mr, 0⟩, ⟨6, 1, .mr, 0⟩, ⟨7, 1, .mr, 0⟩, ⟨8, 8, .ro, 0⟩, ⟨16, 16, .mr, 0⟩]⟩,
  ⟨"MC_EVENT", 0x8, 0, 1, 0, [⟨0, 8, .sq, 0⟩, ⟨8, 1, .sq, 0⟩, ⟨9, 1, .sq, 0⟩, ⟨10, 1, .sq, 0⟩, ⟨11, 1, .sq, 0⟩, ⟨12, 1, .sq, 0⟩, ⟨13, 1, .sq, 0⟩, ⟨14, 1, .sq, 0⟩, ⟨15, 1, .sq, 0⟩, ⟨16, 1, .sq, 0⟩, ⟨17, 1, .sq, 0⟩, ⟨18, 14, .ro, 0⟩]⟩,
  ⟨"MC_THERM", 0xc, 0, 1, 0, [⟨0, 8, .mr, 0⟩, ⟨8, 8, .mr, 0⟩, ⟨16, 3, .mr, 0⟩, ⟨19, 13, .ro, 0⟩]⟩,
  ⟨"MC_GRACE", 0x10, 0, 1, 0, [⟨0, 6, .rw, 0x32⟩, ⟨6, 10, .ro, 0⟩, ⟨16, 6, .mr, 0⟩, ⟨22, 10, .ro, 0⟩]⟩,
  ⟨"MC_SCRUB", 0x14, 0, 1, 0, [⟨0, 8, .rw, 0x18⟩, ⟨8, 24, .ro, 0⟩]⟩,
  ⟨"MC_ERR_INFO", 0x18, 0, 1, 0, [⟨0, 2, .mr, 0⟩, ⟨2, 1, .mr, 0⟩, ⟨3, 1, .mr, 0⟩, ⟨4, 2, .mr, 0⟩, ⟨6, 7, .mr, 0⟩, ⟨13, 7, .mr, 0⟩, ⟨20, 7, .mr, 0⟩, ⟨27, 1, .mr, 0⟩, ⟨28, 4, .ro, 0⟩]⟩,
  ⟨"MC_ERR_ADDR_LO", 0x20, 0, 1, 1, [⟨0, 32, .mr, 0⟩]⟩,
  ⟨"MC_ERR_ADDR_HI", 0x24, 0, 1, 2, [⟨0, 16, .mr, 0⟩, ⟨16, 16, .ro, 0⟩]⟩,
  ⟨"MC_CE_LO", 0x28, 0, 1, 1, [⟨0, 32, .mr, 0⟩]⟩,
  ⟨"MC_CE_HI", 0x2c, 0, 1, 2, [⟨0, 32, .mr, 0⟩]⟩,
  ⟨"MC_UE_LO", 0x30, 0, 1, 1, [⟨0, 32, .mr, 0⟩]⟩,
  ⟨"MC_UE_HI", 0x34, 0, 1, 2, [⟨0, 32, .mr, 0⟩]⟩,
  ⟨"DC_CTRL", 0x100, 0, 1, 0, [⟨0, 5, .rw, 8⟩, ⟨5, 3, .ro, 0⟩, ⟨8, 1, .rw, 0⟩, ⟨9, 23, .ro, 0⟩]⟩,
  ⟨"DC_HIT_LO", 0x108, 0, 1, 1, [⟨0, 32, .mr, 0⟩]⟩,
  ⟨"DC_HIT_HI", 0x10c, 0, 1, 2, [⟨0, 32, .mr, 0⟩]⟩,
  ⟨"DC_MISS_LO", 0x110, 0, 1, 1, [⟨0, 32, .mr, 0⟩]⟩,
  ⟨"DC_MISS_HI", 0x114, 0, 1, 2, [⟨0, 32, .mr, 0⟩]⟩]

/-! ### Crucible registers (R329) -/

def CRU_CTRL (d c : Nat) : Nat := dieBase d + 0x20000 + c * 0x2000 + 0x0
abbrev CRU_CTRL_EN : Fld := ⟨0, 1⟩
abbrev CRU_CTRL_IDLE_GATE : Fld := ⟨1, 1⟩
def CRU_STAT (d c : Nat) : Nat := dieBase d + 0x20000 + c * 0x2000 + 0x4
abbrev CRU_STAT_PARTS : Fld := ⟨0, 9⟩
abbrev CRU_STAT_STAGED : Fld := ⟨9, 13⟩
abbrev CRU_STAT_CLOSING : Fld := ⟨22, 1⟩
abbrev CRU_STAT_PSTOP : Fld := ⟨23, 1⟩
def CRU_EVENT (d c : Nat) : Nat := dieBase d + 0x20000 + c * 0x2000 + 0x8
abbrev CRU_EVENT_SEQ : Fld := ⟨0, 8⟩
abbrev CRU_EVENT_QUAR : Fld := ⟨8, 1⟩
abbrev CRU_EVENT_NANP : Fld := ⟨9, 1⟩
abbrev CRU_EVENT_DUP : Fld := ⟨10, 1⟩
abbrev CRU_EVENT_LATE : Fld := ⟨11, 1⟩
abbrev CRU_EVENT_STALE : Fld := ⟨12, 1⟩
abbrev CRU_EVENT_BAD : Fld := ⟨13, 1⟩
abbrev CRU_EVENT_FULL : Fld := ⟨14, 1⟩
abbrev CRU_EVENT_STORE_UE : Fld := ⟨15, 1⟩
abbrev CRU_EVENT_POISON_IN : Fld := ⟨16, 1⟩
abbrev CRU_EVENT_WIT_MISMATCH : Fld := ⟨17, 1⟩
abbrev CRU_EVENT_WIT_SKIP : Fld := ⟨18, 1⟩
abbrev CRU_EVENT_ESC : Fld := ⟨19, 1⟩
abbrev CRU_EVENT_CFG_PARITY : Fld := ⟨20, 1⟩
def CRU_BADINFO (d c : Nat) : Nat := dieBase d + 0x20000 + c * 0x2000 + 0xc
abbrev CRU_BADINFO_JOB : Fld := ⟨0, 12⟩
abbrev CRU_BADINFO_REASON : Fld := ⟨12, 4⟩
abbrev CRU_BADINFO_SLOT : Fld := ⟨16, 12⟩
def CRU_ADDS_LO (d c : Nat) : Nat := dieBase d + 0x20000 + c * 0x2000 + 0x10
abbrev CRU_ADDS_LO_COUNT : Fld := ⟨0, 32⟩
def CRU_ADDS_HI (d c : Nat) : Nat := dieBase d + 0x20000 + c * 0x2000 + 0x14
abbrev CRU_ADDS_HI_COUNT : Fld := ⟨0, 32⟩
def CRU_APPLIED_LO (d c : Nat) : Nat := dieBase d + 0x20000 + c * 0x2000 + 0x18
abbrev CRU_APPLIED_LO_COUNT : Fld := ⟨0, 32⟩
def CRU_APPLIED_HI (d c : Nat) : Nat := dieBase d + 0x20000 + c * 0x2000 + 0x1c
abbrev CRU_APPLIED_HI_COUNT : Fld := ⟨0, 32⟩
def CRU_DISCARD_LO (d c : Nat) : Nat := dieBase d + 0x20000 + c * 0x2000 + 0x20
abbrev CRU_DISCARD_LO_COUNT : Fld := ⟨0, 32⟩
def CRU_DISCARD_HI (d c : Nat) : Nat := dieBase d + 0x20000 + c * 0x2000 + 0x24
abbrev CRU_DISCARD_HI_COUNT : Fld := ⟨0, 32⟩
def CRU_FWD_LO (d c : Nat) : Nat := dieBase d + 0x20000 + c * 0x2000 + 0x28
abbrev CRU_FWD_LO_COUNT : Fld := ⟨0, 32⟩
def CRU_FWD_HI (d c : Nat) : Nat := dieBase d + 0x20000 + c * 0x2000 + 0x2c
abbrev CRU_FWD_HI_COUNT : Fld := ⟨0, 32⟩
def CRU_JOB_W0 (d c i : Nat) : Nat := dieBase d + 0x20000 + c * 0x2000 + 0x1000 + i * 16
abbrev CRU_JOB_W0_V : Fld := ⟨0, 1⟩
abbrev CRU_JOB_W0_STATE : Fld := ⟨1, 3⟩
abbrev CRU_JOB_W0_JOB : Fld := ⟨4, 12⟩
abbrev CRU_JOB_W0_STEP : Fld := ⟨16, 16⟩
def CRU_JOB_W1 (d c i : Nat) : Nat := dieBase d + 0x20000 + c * 0x2000 + 0x1004 + i * 16
abbrev CRU_JOB_W1_SLOTS : Fld := ⟨0, 9⟩
def CRU_JOB_W2 (d c i : Nat) : Nat := dieBase d + 0x20000 + c * 0x2000 + 0x1008 + i * 16
abbrev CRU_JOB_W2_BLOCKS : Fld := ⟨0, 24⟩
def CRU_JOB_W3 (d c i : Nat) : Nat := dieBase d + 0x20000 + c * 0x2000 + 0x100c + i * 16
abbrev CRU_JOB_W3_CLOSED : Fld := ⟨0, 24⟩

def crucibleRegs : List RegSpec := [
  ⟨"CRU_CTRL", 0x0, 0, 1, 0, [⟨0, 1, .rw, 1⟩, ⟨1, 1, .rw, 1⟩, ⟨2, 30, .ro, 0⟩]⟩,
  ⟨"CRU_STAT", 0x4, 0, 1, 0, [⟨0, 9, .mr, 0⟩, ⟨9, 13, .mr, 0⟩, ⟨22, 1, .mr, 0⟩, ⟨23, 1, .mr, 0⟩, ⟨24, 8, .ro, 0⟩]⟩,
  ⟨"CRU_EVENT", 0x8, 0, 1, 0, [⟨0, 8, .sq, 0⟩, ⟨8, 1, .sq, 0⟩, ⟨9, 1, .sq, 0⟩, ⟨10, 1, .sq, 0⟩, ⟨11, 1, .sq, 0⟩, ⟨12, 1, .sq, 0⟩, ⟨13, 1, .sq, 0⟩, ⟨14, 1, .sq, 0⟩, ⟨15, 1, .sq, 0⟩, ⟨16, 1, .sq, 0⟩, ⟨17, 1, .sq, 0⟩, ⟨18, 1, .sq, 0⟩, ⟨19, 1, .sq, 0⟩, ⟨20, 1, .sq, 0⟩, ⟨21, 11, .ro, 0⟩]⟩,
  ⟨"CRU_BADINFO", 0xc, 0, 1, 0, [⟨0, 12, .mr, 0⟩, ⟨12, 4, .mr, 0⟩, ⟨16, 12, .mr, 0⟩, ⟨28, 4, .ro, 0⟩]⟩,
  ⟨"CRU_ADDS_LO", 0x10, 0, 1, 1, [⟨0, 32, .mr, 0⟩]⟩,
  ⟨"CRU_ADDS_HI", 0x14, 0, 1, 2, [⟨0, 32, .mr, 0⟩]⟩,
  ⟨"CRU_APPLIED_LO", 0x18, 0, 1, 1, [⟨0, 32, .mr, 0⟩]⟩,
  ⟨"CRU_APPLIED_HI", 0x1c, 0, 1, 2, [⟨0, 32, .mr, 0⟩]⟩,
  ⟨"CRU_DISCARD_LO", 0x20, 0, 1, 1, [⟨0, 32, .mr, 0⟩]⟩,
  ⟨"CRU_DISCARD_HI", 0x24, 0, 1, 2, [⟨0, 32, .mr, 0⟩]⟩,
  ⟨"CRU_FWD_LO", 0x28, 0, 1, 1, [⟨0, 32, .mr, 0⟩]⟩,
  ⟨"CRU_FWD_HI", 0x2c, 0, 1, 2, [⟨0, 32, .mr, 0⟩]⟩,
  ⟨"CRU_JOB_W0", 0x1000, 16, 256, 0, [⟨0, 1, .mr, 0⟩, ⟨1, 3, .mr, 0⟩, ⟨4, 12, .mr, 0⟩, ⟨16, 16, .mr, 0⟩]⟩,
  ⟨"CRU_JOB_W1", 0x1004, 16, 256, 0, [⟨0, 9, .mr, 0⟩, ⟨9, 23, .ro, 0⟩]⟩,
  ⟨"CRU_JOB_W2", 0x1008, 16, 256, 0, [⟨0, 24, .mr, 0⟩, ⟨24, 8, .ro, 0⟩]⟩,
  ⟨"CRU_JOB_W3", 0x100c, 16, 256, 0, [⟨0, 24, .mr, 0⟩, ⟨24, 8, .ro, 0⟩]⟩]

/-! ### face sequencer, planisher and assay registers (R126, R165) -/

def FSQ_CTRL (d f : Nat) : Nat := faceBase d f + 0x0
abbrev FSQ_CTRL_EN : Fld := ⟨0, 1⟩
def FSQ_STAT (d f : Nat) : Nat := faceBase d f + 0x4
abbrev FSQ_STAT_STATE : Fld := ⟨0, 2⟩
abbrev FSQ_STAT_GSZ : Fld := ⟨2, 3⟩
abbrev FSQ_STAT_LEADER : Fld := ⟨5, 1⟩
abbrev FSQ_STAT_GATED : Fld := ⟨6, 1⟩
abbrev FSQ_STAT_PARITY_STOP : Fld := ⟨7, 1⟩
abbrev FSQ_STAT_LAYER : Fld := ⟨8, 12⟩
abbrev FSQ_STAT_PHASE : Fld := ⟨20, 4⟩
abbrev FSQ_STAT_CLAIMED : Fld := ⟨24, 3⟩
def FSQ_EVENT (d f : Nat) : Nat := faceBase d f + 0x8
abbrev FSQ_EVENT_SEQ : Fld := ⟨0, 8⟩
abbrev FSQ_EVENT_DESC_BAD : Fld := ⟨8, 1⟩
abbrev FSQ_EVENT_DESC_STREAM_CLASH : Fld := ⟨9, 1⟩
abbrev FSQ_EVENT_CFG_PARITY : Fld := ⟨10, 1⟩
abbrev FSQ_EVENT_CLAIM_RETURNED : Fld := ⟨11, 1⟩
def FSQ_CUR_IDX (d f : Nat) : Nat := faceBase d f + 0xc
abbrev FSQ_CUR_IDX_INDEX : Fld := ⟨0, 20⟩
def FSQ_DONE_LO (d f : Nat) : Nat := faceBase d f + 0x10
abbrev FSQ_DONE_LO_COUNT : Fld := ⟨0, 32⟩
def FSQ_DONE_HI (d f : Nat) : Nat := faceBase d f + 0x14
abbrev FSQ_DONE_HI_COUNT : Fld := ⟨0, 32⟩
def PL_CTRL (d f : Nat) : Nat := faceBase d f + 0x200
abbrev PL_CTRL_IDLE_GATE : Fld := ⟨0, 1⟩
def PL_CFG (d f : Nat) : Nat := faceBase d f + 0x204
abbrev PL_CFG_CLIPM_DEF : Fld := ⟨0, 8⟩
def PL_STAT (d f : Nat) : Nat := faceBase d f + 0x208
abbrev PL_STAT_MODE : Fld := ⟨0, 3⟩
abbrev PL_STAT_LAYER : Fld := ⟨3, 12⟩
abbrev PL_STAT_SIGNS_READY : Fld := ⟨15, 1⟩
abbrev PL_STAT_ROWBUF : Fld := ⟨16, 2⟩
abbrev PL_STAT_PSTOP : Fld := ⟨18, 1⟩
def PL_EVENT (d f : Nat) : Nat := faceBase d f + 0x20c
abbrev PL_EVENT_SEQ : Fld := ⟨0, 8⟩
abbrev PL_EVENT_ROW_UE : Fld := ⟨8, 1⟩
abbrev PL_EVENT_POISON_IN : Fld := ⟨9, 1⟩
abbrev PL_EVENT_CFG_PARITY : Fld := ⟨10, 1⟩
abbrev PL_EVENT_CHECK : Fld := ⟨11, 1⟩
def PL_ROWS_LO (d f : Nat) : Nat := faceBase d f + 0x210
abbrev PL_ROWS_LO_COUNT : Fld := ⟨0, 32⟩
def PL_ROWS_HI (d f : Nat) : Nat := faceBase d f + 0x214
abbrev PL_ROWS_HI_COUNT : Fld := ⟨0, 32⟩
def PL_OUTL_LO (d f : Nat) : Nat := faceBase d f + 0x218
abbrev PL_OUTL_LO_COUNT : Fld := ⟨0, 32⟩
def PL_OUTL_HI (d f : Nat) : Nat := faceBase d f + 0x21c
abbrev PL_OUTL_HI_COUNT : Fld := ⟨0, 32⟩
def PL_OVF_LO (d f : Nat) : Nat := faceBase d f + 0x220
abbrev PL_OVF_LO_COUNT : Fld := ⟨0, 32⟩
def PL_OVF_HI (d f : Nat) : Nat := faceBase d f + 0x224
abbrev PL_OVF_HI_COUNT : Fld := ⟨0, 32⟩
def AS_CTRL (d f : Nat) : Nat := faceBase d f + 0x300
abbrev AS_CTRL_EN : Fld := ⟨0, 1⟩
abbrev AS_CTRL_HIST_EN : Fld := ⟨1, 1⟩
abbrev AS_CTRL_SHADOW_EN : Fld := ⟨2, 1⟩
abbrev AS_CTRL_IDLE_GATE : Fld := ⟨3, 1⟩
def AS_STAT (d f : Nat) : Nat := faceBase d f + 0x304
abbrev AS_STAT_LAYER : Fld := ⟨0, 12⟩
abbrev AS_STAT_OPEN : Fld := ⟨12, 4⟩
abbrev AS_STAT_SHADOW_BUSY : Fld := ⟨16, 1⟩
abbrev AS_STAT_PSTOP : Fld := ⟨17, 1⟩
def AS_EVENT (d f : Nat) : Nat := faceBase d f + 0x308
abbrev AS_EVENT_SEQ : Fld := ⟨0, 8⟩
abbrev AS_EVENT_CFG_PARITY : Fld := ⟨8, 1⟩
abbrev AS_EVENT_SHADOW_NF : Fld := ⟨9, 1⟩
abbrev AS_EVENT_SHADOW_DROP : Fld := ⟨10, 1⟩
def AS_ELEMS_LO (d f : Nat) : Nat := faceBase d f + 0x30c
abbrev AS_ELEMS_LO_COUNT : Fld := ⟨0, 32⟩
def AS_ELEMS_HI (d f : Nat) : Nat := faceBase d f + 0x310
abbrev AS_ELEMS_HI_COUNT : Fld := ⟨0, 32⟩
def AS_SHADOW_LO (d f : Nat) : Nat := faceBase d f + 0x314
abbrev AS_SHADOW_LO_COUNT : Fld := ⟨0, 32⟩
def AS_SHADOW_HI (d f : Nat) : Nat := faceBase d f + 0x318
abbrev AS_SHADOW_HI_COUNT : Fld := ⟨0, 32⟩

def faceRegs : List RegSpec := [
  ⟨"FSQ_CTRL", 0x0, 0, 1, 0, [⟨0, 1, .rw, 1⟩, ⟨1, 31, .ro, 0⟩]⟩,
  ⟨"FSQ_STAT", 0x4, 0, 1, 0, [⟨0, 2, .mr, 0⟩, ⟨2, 3, .mr, 0⟩, ⟨5, 1, .mr, 1⟩, ⟨6, 1, .mr, 0⟩, ⟨7, 1, .mr, 0⟩, ⟨8, 12, .mr, 0⟩, ⟨20, 4, .mr, 0⟩, ⟨24, 3, .mr, 0⟩, ⟨27, 5, .ro, 0⟩]⟩,
  ⟨"FSQ_EVENT", 0x8, 0, 1, 0, [⟨0, 8, .sq, 0⟩, ⟨8, 1, .sq, 0⟩, ⟨9, 1, .sq, 0⟩, ⟨10, 1, .sq, 0⟩, ⟨11, 1, .sq, 0⟩, ⟨12, 20, .ro, 0⟩]⟩,
  ⟨"FSQ_CUR_IDX", 0xc, 0, 1, 0, [⟨0, 20, .mr, 0⟩, ⟨20, 12, .ro, 0⟩]⟩,
  ⟨"FSQ_DONE_LO", 0x10, 0, 1, 1, [⟨0, 32, .mr, 0⟩]⟩,
  ⟨"FSQ_DONE_HI", 0x14, 0, 1, 2, [⟨0, 32, .mr, 0⟩]⟩,
  ⟨"PL_CTRL", 0x200, 0, 1, 0, [⟨0, 1, .rw, 1⟩, ⟨1, 31, .ro, 0⟩]⟩,
  ⟨"PL_CFG", 0x204, 0, 1, 0, [⟨0, 8, .rw, 0x50⟩, ⟨8, 24, .ro, 0⟩]⟩,
  ⟨"PL_STAT", 0x208, 0, 1, 0, [⟨0, 3, .mr, 0⟩, ⟨3, 12, .mr, 0⟩, ⟨15, 1, .mr, 0⟩, ⟨16, 2, .mr, 0⟩, ⟨18, 1, .mr, 0⟩, ⟨19, 13, .ro, 0⟩]⟩,
  ⟨"PL_EVENT", 0x20c, 0, 1, 0, [⟨0, 8, .sq, 0⟩, ⟨8, 1, .sq, 0⟩, ⟨9, 1, .sq, 0⟩, ⟨10, 1, .sq, 0⟩, ⟨11, 1, .sq, 0⟩, ⟨12, 20, .ro, 0⟩]⟩,
  ⟨"PL_ROWS_LO", 0x210, 0, 1, 1, [⟨0, 32, .mr, 0⟩]⟩,
  ⟨"PL_ROWS_HI", 0x214, 0, 1, 2, [⟨0, 32, .mr, 0⟩]⟩,
  ⟨"PL_OUTL_LO", 0x218, 0, 1, 1, [⟨0, 32, .mr, 0⟩]⟩,
  ⟨"PL_OUTL_HI", 0x21c, 0, 1, 2, [⟨0, 32, .mr, 0⟩]⟩,
  ⟨"PL_OVF_LO", 0x220, 0, 1, 1, [⟨0, 32, .mr, 0⟩]⟩,
  ⟨"PL_OVF_HI", 0x224, 0, 1, 2, [⟨0, 32, .mr, 0⟩]⟩,
  ⟨"AS_CTRL", 0x300, 0, 1, 0, [⟨0, 1, .rw, 1⟩, ⟨1, 1, .rw, 1⟩, ⟨2, 1, .rw, 1⟩, ⟨3, 1, .rw, 1⟩, ⟨4, 28, .ro, 0⟩]⟩,
  ⟨"AS_STAT", 0x304, 0, 1, 0, [⟨0, 12, .mr, 0⟩, ⟨12, 4, .mr, 0⟩, ⟨16, 1, .mr, 0⟩, ⟨17, 1, .mr, 0⟩, ⟨18, 14, .ro, 0⟩]⟩,
  ⟨"AS_EVENT", 0x308, 0, 1, 0, [⟨0, 8, .sq, 0⟩, ⟨8, 1, .sq, 0⟩, ⟨9, 1, .sq, 0⟩, ⟨10, 1, .sq, 0⟩, ⟨11, 21, .ro, 0⟩]⟩,
  ⟨"AS_ELEMS_LO", 0x30c, 0, 1, 1, [⟨0, 32, .mr, 0⟩]⟩,
  ⟨"AS_ELEMS_HI", 0x310, 0, 1, 2, [⟨0, 32, .mr, 0⟩]⟩,
  ⟨"AS_SHADOW_LO", 0x314, 0, 1, 1, [⟨0, 32, .mr, 0⟩]⟩,
  ⟨"AS_SHADOW_HI", 0x318, 0, 1, 2, [⟨0, 32, .mr, 0⟩]⟩]

/-! ### bench registers (R74) -/

def BENCH_CTRL (d f b : Nat) : Nat := faceBase d f + 0x400 + b * 0x40 + 0x0
abbrev BENCH_CTRL_EN : Fld := ⟨0, 1⟩
abbrev BENCH_CTRL_IDLE_GATE : Fld := ⟨1, 1⟩
def BENCH_STAT (d f b : Nat) : Nat := faceBase d f + 0x400 + b * 0x40 + 0x4
abbrev BENCH_STAT_JOIN : Fld := ⟨0, 2⟩
abbrev BENCH_STAT_AFMT : Fld := ⟨2, 4⟩
abbrev BENCH_STAT_WFMT : Fld := ⟨6, 4⟩
abbrev BENCH_STAT_ASGN : Fld := ⟨10, 1⟩
abbrev BENCH_STAT_WSGN : Fld := ⟨11, 1⟩
abbrev BENCH_STAT_BUSY : Fld := ⟨12, 1⟩
abbrev BENCH_STAT_FENCING : Fld := ⟨13, 1⟩
abbrev BENCH_STAT_SSTALL : Fld := ⟨14, 1⟩
abbrev BENCH_STAT_PSTOP : Fld := ⟨15, 1⟩
abbrev BENCH_STAT_BACKLOG : Fld := ⟨16, 7⟩
abbrev BENCH_STAT_INFLIGHT : Fld := ⟨23, 2⟩
def BENCH_EVENT (d f b : Nat) : Nat := faceBase d f + 0x400 + b * 0x40 + 0x8
abbrev BENCH_EVENT_SEQ : Fld := ⟨0, 8⟩
abbrev BENCH_EVENT_WIN_OVF : Fld := ⟨8, 1⟩
abbrev BENCH_EVENT_STORE_UE : Fld := ⟨9, 1⟩
abbrev BENCH_EVENT_CFG_PARITY : Fld := ⟨10, 1⟩
abbrev BENCH_EVENT_POISON_IN : Fld := ⟨11, 1⟩
def BENCH_CUR (d f b : Nat) : Nat := faceBase d f + 0x400 + b * 0x40 + 0xc
abbrev BENCH_CUR_PTAG : Fld := ⟨0, 2⟩
abbrev BENCH_CUR_MROWS : Fld := ⟨2, 9⟩
abbrev BENCH_CUR_KPASS : Fld := ⟨11, 16⟩
def BENCH_PASS_LO (d f b : Nat) : Nat := faceBase d f + 0x400 + b * 0x40 + 0x10
abbrev BENCH_PASS_LO_COUNT : Fld := ⟨0, 32⟩
def BENCH_PASS_HI (d f b : Nat) : Nat := faceBase d f + 0x400 + b * 0x40 + 0x14
abbrev BENCH_PASS_HI_COUNT : Fld := ⟨0, 32⟩
def BENCH_FENCE_LO (d f b : Nat) : Nat := faceBase d f + 0x400 + b * 0x40 + 0x18
abbrev BENCH_FENCE_LO_COUNT : Fld := ⟨0, 32⟩
def BENCH_FENCE_HI (d f b : Nat) : Nat := faceBase d f + 0x400 + b * 0x40 + 0x1c
abbrev BENCH_FENCE_HI_COUNT : Fld := ⟨0, 32⟩
def BENCH_FENCE_CYC_LO (d f b : Nat) : Nat := faceBase d f + 0x400 + b * 0x40 + 0x20
abbrev BENCH_FENCE_CYC_LO_COUNT : Fld := ⟨0, 32⟩
def BENCH_FENCE_CYC_HI (d f b : Nat) : Nat := faceBase d f + 0x400 + b * 0x40 + 0x24
abbrev BENCH_FENCE_CYC_HI_COUNT : Fld := ⟨0, 32⟩
def BENCH_TRUNC_LO (d f b : Nat) : Nat := faceBase d f + 0x400 + b * 0x40 + 0x28
abbrev BENCH_TRUNC_LO_COUNT : Fld := ⟨0, 32⟩
def BENCH_TRUNC_HI (d f b : Nat) : Nat := faceBase d f + 0x400 + b * 0x40 + 0x2c
abbrev BENCH_TRUNC_HI_COUNT : Fld := ⟨0, 32⟩
def BENCH_SIDE_LO (d f b : Nat) : Nat := faceBase d f + 0x400 + b * 0x40 + 0x30
abbrev BENCH_SIDE_LO_COUNT : Fld := ⟨0, 32⟩
def BENCH_SIDE_HI (d f b : Nat) : Nat := faceBase d f + 0x400 + b * 0x40 + 0x34
abbrev BENCH_SIDE_HI_COUNT : Fld := ⟨0, 32⟩
def BENCH_SSTALL_LO (d f b : Nat) : Nat := faceBase d f + 0x400 + b * 0x40 + 0x38
abbrev BENCH_SSTALL_LO_COUNT : Fld := ⟨0, 32⟩
def BENCH_SSTALL_HI (d f b : Nat) : Nat := faceBase d f + 0x400 + b * 0x40 + 0x3c
abbrev BENCH_SSTALL_HI_COUNT : Fld := ⟨0, 32⟩

def benchRegs : List RegSpec := [
  ⟨"BENCH_CTRL", 0x0, 0, 1, 0, [⟨0, 1, .rw, 1⟩, ⟨1, 1, .rw, 1⟩, ⟨2, 30, .ro, 0⟩]⟩,
  ⟨"BENCH_STAT", 0x4, 0, 1, 0, [⟨0, 2, .mr, 0⟩, ⟨2, 4, .mr, 0⟩, ⟨6, 4, .mr, 0⟩, ⟨10, 1, .mr, 0⟩, ⟨11, 1, .mr, 0⟩, ⟨12, 1, .mr, 0⟩, ⟨13, 1, .mr, 0⟩, ⟨14, 1, .mr, 0⟩, ⟨15, 1, .mr, 0⟩, ⟨16, 7, .mr, 0⟩, ⟨23, 2, .mr, 0⟩, ⟨25, 7, .ro, 0⟩]⟩,
  ⟨"BENCH_EVENT", 0x8, 0, 1, 0, [⟨0, 8, .sq, 0⟩, ⟨8, 1, .sq, 0⟩, ⟨9, 1, .sq, 0⟩, ⟨10, 1, .sq, 0⟩, ⟨11, 1, .sq, 0⟩, ⟨12, 20, .ro, 0⟩]⟩,
  ⟨"BENCH_CUR", 0xc, 0, 1, 0, [⟨0, 2, .mr, 0⟩, ⟨2, 9, .mr, 0⟩, ⟨11, 16, .mr, 0⟩, ⟨27, 5, .ro, 0⟩]⟩,
  ⟨"BENCH_PASS_LO", 0x10, 0, 1, 1, [⟨0, 32, .mr, 0⟩]⟩,
  ⟨"BENCH_PASS_HI", 0x14, 0, 1, 2, [⟨0, 32, .mr, 0⟩]⟩,
  ⟨"BENCH_FENCE_LO", 0x18, 0, 1, 1, [⟨0, 32, .mr, 0⟩]⟩,
  ⟨"BENCH_FENCE_HI", 0x1c, 0, 1, 2, [⟨0, 32, .mr, 0⟩]⟩,
  ⟨"BENCH_FENCE_CYC_LO", 0x20, 0, 1, 1, [⟨0, 32, .mr, 0⟩]⟩,
  ⟨"BENCH_FENCE_CYC_HI", 0x24, 0, 1, 2, [⟨0, 32, .mr, 0⟩]⟩,
  ⟨"BENCH_TRUNC_LO", 0x28, 0, 1, 1, [⟨0, 32, .mr, 0⟩]⟩,
  ⟨"BENCH_TRUNC_HI", 0x2c, 0, 1, 2, [⟨0, 32, .mr, 0⟩]⟩,
  ⟨"BENCH_SIDE_LO", 0x30, 0, 1, 1, [⟨0, 32, .mr, 0⟩]⟩,
  ⟨"BENCH_SIDE_HI", 0x34, 0, 1, 2, [⟨0, 32, .mr, 0⟩]⟩,
  ⟨"BENCH_SSTALL_LO", 0x38, 0, 1, 1, [⟨0, 32, .mr, 0⟩]⟩,
  ⟨"BENCH_SSTALL_HI", 0x3c, 0, 1, 2, [⟨0, 32, .mr, 0⟩]⟩]

/-! ### stream prefetcher registers (R238) -/

def PF_DESC (d f x i : Nat) : Nat := faceBase d f + 0x800 + x * 0x40 + 0x0 + i * 4
abbrev PF_DESC_DESC : Fld := ⟨0, 32⟩
def PF_STAT (d f x : Nat) : Nat := faceBase d f + 0x800 + x * 0x40 + 0x20
abbrev PF_STAT_ACTIVE : Fld := ⟨0, 1⟩
abbrev PF_STAT_DIR : Fld := ⟨1, 1⟩
abbrev PF_STAT_OUTST : Fld := ⟨2, 7⟩
abbrev PF_STAT_WAIT_SPACE : Fld := ⟨9, 1⟩
abbrev PF_STAT_WAIT_DATA : Fld := ⟨10, 1⟩
def PF_EVENT (d f x : Nat) : Nat := faceBase d f + 0x800 + x * 0x40 + 0x24
abbrev PF_EVENT_SEQ : Fld := ⟨0, 8⟩
abbrev PF_EVENT_POISON : Fld := ⟨8, 1⟩
abbrev PF_EVENT_ENDED : Fld := ⟨9, 1⟩
def PF_LINES_LO (d f x : Nat) : Nat := faceBase d f + 0x800 + x * 0x40 + 0x28
abbrev PF_LINES_LO_COUNT : Fld := ⟨0, 32⟩
def PF_LINES_HI (d f x : Nat) : Nat := faceBase d f + 0x800 + x * 0x40 + 0x2c
abbrev PF_LINES_HI_COUNT : Fld := ⟨0, 32⟩

def streamRegs : List RegSpec := [
  ⟨"PF_DESC", 0x0, 4, 8, 0, [⟨0, 32, .mr, 0⟩]⟩,
  ⟨"PF_STAT", 0x20, 0, 1, 0, [⟨0, 1, .mr, 0⟩, ⟨1, 1, .mr, 0⟩, ⟨2, 7, .mr, 0⟩, ⟨9, 1, .mr, 0⟩, ⟨10, 1, .mr, 0⟩, ⟨11, 21, .ro, 0⟩]⟩,
  ⟨"PF_EVENT", 0x24, 0, 1, 0, [⟨0, 8, .sq, 0⟩, ⟨8, 1, .sq, 0⟩, ⟨9, 1, .sq, 0⟩, ⟨10, 22, .ro, 0⟩]⟩,
  ⟨"PF_LINES_LO", 0x28, 0, 1, 1, [⟨0, 32, .mr, 0⟩]⟩,
  ⟨"PF_LINES_HI", 0x2c, 0, 1, 2, [⟨0, 32, .mr, 0⟩]⟩]

/-! ### queue occupancy counter sets (R419) -/

def QC_STAT (q : Nat) : Nat := q + 0x0
abbrev QC_STAT_MAX : Fld := ⟨0, 15⟩
abbrev QC_STAT_BOUNDARY : Fld := ⟨15, 1⟩
abbrev QC_STAT_TAG : Fld := ⟨16, 16⟩
def QC_CYC_LO (q : Nat) : Nat := q + 0x8
abbrev QC_CYC_LO_COUNT : Fld := ⟨0, 32⟩
def QC_CYC_HI (q : Nat) : Nat := q + 0xc
abbrev QC_CYC_HI_COUNT : Fld := ⟨0, 32⟩
def QC_SUM_LO (q : Nat) : Nat := q + 0x10
abbrev QC_SUM_LO_COUNT : Fld := ⟨0, 32⟩
def QC_SUM_HI (q : Nat) : Nat := q + 0x14
abbrev QC_SUM_HI_COUNT : Fld := ⟨0, 32⟩
def QC_BIN_LO (q i : Nat) : Nat := q + 0x18 + i * 8
abbrev QC_BIN_LO_COUNT : Fld := ⟨0, 32⟩
def QC_BIN_HI (q i : Nat) : Nat := q + 0x1c + i * 8
abbrev QC_BIN_HI_COUNT : Fld := ⟨0, 32⟩

def qcRegs : List RegSpec := [
  ⟨"QC_STAT", 0x0, 0, 1, 0, [⟨0, 15, .mr, 0⟩, ⟨15, 1, .mr, 0⟩, ⟨16, 16, .mr, 0⟩]⟩,
  ⟨"QC_CYC_LO", 0x8, 0, 1, 1, [⟨0, 32, .mr, 0⟩]⟩,
  ⟨"QC_CYC_HI", 0xc, 0, 1, 2, [⟨0, 32, .mr, 0⟩]⟩,
  ⟨"QC_SUM_LO", 0x10, 0, 1, 1, [⟨0, 32, .mr, 0⟩]⟩,
  ⟨"QC_SUM_HI", 0x14, 0, 1, 2, [⟨0, 32, .mr, 0⟩]⟩,
  ⟨"QC_BIN_LO", 0x18, 8, 8, 1, [⟨0, 32, .mr, 0⟩]⟩,
  ⟨"QC_BIN_HI", 0x1c, 8, 8, 2, [⟨0, 32, .mr, 0⟩]⟩]

/-! ### link-die common registers (R294) -/

def LD_CTRL (k : Nat) : Nat := ldBase k + 0x0
abbrev LD_CTRL_ADAPT_EN : Fld := ⟨0, 1⟩
abbrev LD_CTRL_DETOUR_EN : Fld := ⟨1, 1⟩
def LD_STAT (k : Nat) : Nat := ldBase k + 0x4
abbrev LD_STAT_LINKS_UP : Fld := ⟨0, 6⟩
abbrev LD_STAT_READY : Fld := ⟨6, 1⟩
def LD_EVENT (k : Nat) : Nat := ldBase k + 0x8
abbrev LD_EVENT_SEQ : Fld := ⟨0, 8⟩
abbrev LD_EVENT_LINK_DOWN : Fld := ⟨8, 1⟩
abbrev LD_EVENT_TRUNK_DOWN : Fld := ⟨9, 1⟩
abbrev LD_EVENT_UNREACH : Fld := ⟨10, 1⟩
abbrev LD_EVENT_DENIED : Fld := ⟨11, 1⟩
abbrev LD_EVENT_LEDC_UE : Fld := ⟨12, 1⟩
abbrev LD_EVENT_CFG_PARITY : Fld := ⟨13, 1⟩
abbrev LD_EVENT_GEOM_BAD : Fld := ⟨14, 1⟩
def LD_DEVID (k : Nat) : Nat := ldBase k + 0xc
abbrev LD_DEVID_ID : Fld := ⟨0, 12⟩
abbrev LD_DEVID_ANCHOR : Fld := ⟨12, 12⟩
abbrev LD_DEVID_ANCHOR_V : Fld := ⟨24, 1⟩
def LD_GEOM (k : Nat) : Nat := ldBase k + 0x10
abbrev LD_GEOM_SX : Fld := ⟨0, 4⟩
abbrev LD_GEOM_SY : Fld := ⟨4, 4⟩
abbrev LD_GEOM_SZ : Fld := ⟨8, 4⟩
abbrev LD_GEOM_WRAPX : Fld := ⟨12, 1⟩
abbrev LD_GEOM_WRAPY : Fld := ⟨13, 1⟩
abbrev LD_GEOM_WRAPZ : Fld := ⟨14, 1⟩
def LD_ADAPT (k : Nat) : Nat := ldBase k + 0x14
abbrev LD_ADAPT_THR : Fld := ⟨0, 7⟩
abbrev LD_ADAPT_ESC_WAIT : Fld := ⟨8, 8⟩
def LD_HEALTH_CFG (k : Nat) : Nat := ldBase k + 0x18
abbrev LD_HEALTH_CFG_RETRY_LIM : Fld := ⟨0, 16⟩
abbrev LD_HEALTH_CFG_RETRAIN_MAX : Fld := ⟨16, 4⟩
abbrev LD_HEALTH_CFG_AUTO_RETRAIN : Fld := ⟨20, 1⟩
def LD_TRUNK (k i : Nat) : Nat := ldBase k + 0x20 + i * 4
abbrev LD_TRUNK_WIDTH : Fld := ⟨0, 7⟩
abbrev LD_TRUNK_UP : Fld := ⟨7, 7⟩
abbrev LD_TRUNK_DOWN : Fld := ⟨14, 1⟩
abbrev LD_TRUNK_NBR : Fld := ⟨15, 12⟩
abbrev LD_TRUNK_NBR_V : Fld := ⟨27, 1⟩
def LEDC_HIT_LO (k : Nat) : Nat := ldBase k + 0x40
abbrev LEDC_HIT_LO_COUNT : Fld := ⟨0, 32⟩
def LEDC_HIT_HI (k : Nat) : Nat := ldBase k + 0x44
abbrev LEDC_HIT_HI_COUNT : Fld := ⟨0, 32⟩
def LEDC_MISS_LO (k : Nat) : Nat := ldBase k + 0x48
abbrev LEDC_MISS_LO_COUNT : Fld := ⟨0, 32⟩
def LEDC_MISS_HI (k : Nat) : Nat := ldBase k + 0x4c
abbrev LEDC_MISS_HI_COUNT : Fld := ⟨0, 32⟩
def LEDC_WB_LO (k : Nat) : Nat := ldBase k + 0x50
abbrev LEDC_WB_LO_COUNT : Fld := ⟨0, 32⟩
def LEDC_WB_HI (k : Nat) : Nat := ldBase k + 0x54
abbrev LEDC_WB_HI_COUNT : Fld := ⟨0, 32⟩
def LEDC_STAT (k : Nat) : Nat := ldBase k + 0x58
abbrev LEDC_STAT_VALID : Fld := ⟨0, 19⟩

def ldRegs : List RegSpec := [
  ⟨"LD_CTRL", 0x0, 0, 1, 0, [⟨0, 1, .rw, 1⟩, ⟨1, 1, .rw, 1⟩, ⟨2, 30, .ro, 0⟩]⟩,
  ⟨"LD_STAT", 0x4, 0, 1, 0, [⟨0, 6, .mr, 0⟩, ⟨6, 1, .mr, 0⟩, ⟨7, 25, .ro, 0⟩]⟩,
  ⟨"LD_EVENT", 0x8, 0, 1, 0, [⟨0, 8, .sq, 0⟩, ⟨8, 1, .sq, 0⟩, ⟨9, 1, .sq, 0⟩, ⟨10, 1, .sq, 0⟩, ⟨11, 1, .sq, 0⟩, ⟨12, 1, .sq, 0⟩, ⟨13, 1, .sq, 0⟩, ⟨14, 1, .sq, 0⟩, ⟨15, 17, .ro, 0⟩]⟩,
  ⟨"LD_DEVID", 0xc, 0, 1, 0, [⟨0, 12, .mr, 0⟩, ⟨12, 12, .mr, 0⟩, ⟨24, 1, .mr, 0⟩, ⟨25, 7, .ro, 0⟩]⟩,
  ⟨"LD_GEOM", 0x10, 0, 1, 0, [⟨0, 4, .mr, 0⟩, ⟨4, 4, .mr, 0⟩, ⟨8, 4, .mr, 0⟩, ⟨12, 1, .mr, 0⟩, ⟨13, 1, .mr, 0⟩, ⟨14, 1, .mr, 0⟩, ⟨15, 17, .ro, 0⟩]⟩,
  ⟨"LD_ADAPT", 0x14, 0, 1, 0, [⟨0, 7, .rw, 0x18⟩, ⟨7, 1, .ro, 0⟩, ⟨8, 8, .rw, 0x20⟩, ⟨16, 16, .ro, 0⟩]⟩,
  ⟨"LD_HEALTH_CFG", 0x18, 0, 1, 0, [⟨0, 16, .rw, 0x400⟩, ⟨16, 4, .rw, 3⟩, ⟨20, 1, .rw, 1⟩, ⟨21, 11, .ro, 0⟩]⟩,
  ⟨"LD_TRUNK", 0x20, 4, 6, 0, [⟨0, 7, .mr, 0⟩, ⟨7, 7, .mr, 0⟩, ⟨14, 1, .mr, 1⟩, ⟨15, 12, .mr, 0⟩, ⟨27, 1, .mr, 0⟩, ⟨28, 4, .ro, 0⟩]⟩,
  ⟨"LEDC_HIT_LO", 0x40, 0, 1, 1, [⟨0, 32, .mr, 0⟩]⟩,
  ⟨"LEDC_HIT_HI", 0x44, 0, 1, 2, [⟨0, 32, .mr, 0⟩]⟩,
  ⟨"LEDC_MISS_LO", 0x48, 0, 1, 1, [⟨0, 32, .mr, 0⟩]⟩,
  ⟨"LEDC_MISS_HI", 0x4c, 0, 1, 2, [⟨0, 32, .mr, 0⟩]⟩,
  ⟨"LEDC_WB_LO", 0x50, 0, 1, 1, [⟨0, 32, .mr, 0⟩]⟩,
  ⟨"LEDC_WB_HI", 0x54, 0, 1, 2, [⟨0, 32, .mr, 0⟩]⟩,
  ⟨"LEDC_STAT", 0x58, 0, 1, 0, [⟨0, 19, .mr, 0⟩, ⟨19, 13, .ro, 0⟩]⟩]

/-! ### link registers (R294) -/

def LNK_CTRL (k j : Nat) : Nat := ldBase k + 0x10000 + j * 0x100 + 0x0
abbrev LNK_CTRL_EN : Fld := ⟨0, 1⟩
abbrev LNK_CTRL_RETRAIN : Fld := ⟨1, 1⟩
def LNK_STAT (k j : Nat) : Nat := ldBase k + 0x10000 + j * 0x100 + 0x4
abbrev LNK_STAT_STATE : Fld := ⟨0, 3⟩
abbrev LNK_STAT_PORT : Fld := ⟨3, 3⟩
abbrev LNK_STAT_NBR_ID : Fld := ⟨6, 12⟩
abbrev LNK_STAT_NBR_LINK : Fld := ⟨18, 7⟩
def LNK_EVENT (k j : Nat) : Nat := ldBase k + 0x10000 + j * 0x100 + 0x8
abbrev LNK_EVENT_SEQ : Fld := ⟨0, 8⟩
abbrev LNK_EVENT_UP : Fld := ⟨8, 1⟩
abbrev LNK_EVENT_DOWN : Fld := ⟨9, 1⟩
abbrev LNK_EVENT_RETRAIN : Fld := ⟨10, 1⟩
abbrev LNK_EVENT_CHECK_FAIL : Fld := ⟨11, 1⟩
abbrev LNK_EVENT_DISABLED : Fld := ⟨12, 1⟩
def LNK_MARGIN (k j : Nat) : Nat := ldBase k + 0x10000 + j * 0x100 + 0xc
abbrev LNK_MARGIN_EYE_H : Fld := ⟨0, 8⟩
abbrev LNK_MARGIN_EYE_W : Fld := ⟨8, 8⟩
def LNK_CE_LO (k j : Nat) : Nat := ldBase k + 0x10000 + j * 0x100 + 0x10
abbrev LNK_CE_LO_COUNT : Fld := ⟨0, 32⟩
def LNK_CE_HI (k j : Nat) : Nat := ldBase k + 0x10000 + j * 0x100 + 0x14
abbrev LNK_CE_HI_COUNT : Fld := ⟨0, 32⟩
def LNK_RETRY_LO (k j : Nat) : Nat := ldBase k + 0x10000 + j * 0x100 + 0x18
abbrev LNK_RETRY_LO_COUNT : Fld := ⟨0, 32⟩
def LNK_RETRY_HI (k j : Nat) : Nat := ldBase k + 0x10000 + j * 0x100 + 0x1c
abbrev LNK_RETRY_HI_COUNT : Fld := ⟨0, 32⟩
def LNK_RETRAINS (k j : Nat) : Nat := ldBase k + 0x10000 + j * 0x100 + 0x20
abbrev LNK_RETRAINS_COUNT : Fld := ⟨0, 16⟩
abbrev LNK_RETRAINS_HOUR : Fld := ⟨16, 4⟩
def LNK_FLITS_LO (k j : Nat) : Nat := ldBase k + 0x10000 + j * 0x100 + 0x28
abbrev LNK_FLITS_LO_COUNT : Fld := ⟨0, 32⟩
def LNK_FLITS_HI (k j : Nat) : Nat := ldBase k + 0x10000 + j * 0x100 + 0x2c
abbrev LNK_FLITS_HI_COUNT : Fld := ⟨0, 32⟩

def lnkRegs : List RegSpec := [
  ⟨"LNK_CTRL", 0x0, 0, 1, 0, [⟨0, 1, .rw, 1⟩, ⟨1, 1, .rw, 0⟩, ⟨2, 30, .ro, 0⟩]⟩,
  ⟨"LNK_STAT", 0x4, 0, 1, 0, [⟨0, 3, .mr, 0⟩, ⟨3, 3, .mr, 7⟩, ⟨6, 12, .mr, 0⟩, ⟨18, 7, .mr, 0⟩, ⟨25, 7, .ro, 0⟩]⟩,
  ⟨"LNK_EVENT", 0x8, 0, 1, 0, [⟨0, 8, .sq, 0⟩, ⟨8, 1, .sq, 0⟩, ⟨9, 1, .sq, 0⟩, ⟨10, 1, .sq, 0⟩, ⟨11, 1, .sq, 0⟩, ⟨12, 1, .sq, 0⟩, ⟨13, 19, .ro, 0⟩]⟩,
  ⟨"LNK_MARGIN", 0xc, 0, 1, 0, [⟨0, 8, .mr, 0⟩, ⟨8, 8, .mr, 0⟩, ⟨16, 16, .ro, 0⟩]⟩,
  ⟨"LNK_CE_LO", 0x10, 0, 1, 1, [⟨0, 32, .mr, 0⟩]⟩,
  ⟨"LNK_CE_HI", 0x14, 0, 1, 2, [⟨0, 32, .mr, 0⟩]⟩,
  ⟨"LNK_RETRY_LO", 0x18, 0, 1, 1, [⟨0, 32, .mr, 0⟩]⟩,
  ⟨"LNK_RETRY_HI", 0x1c, 0, 1, 2, [⟨0, 32, .mr, 0⟩]⟩,
  ⟨"LNK_RETRAINS", 0x20, 0, 1, 0, [⟨0, 16, .mr, 0⟩, ⟨16, 4, .mr, 0⟩, ⟨20, 12, .ro, 0⟩]⟩,
  ⟨"LNK_FLITS_LO", 0x28, 0, 1, 1, [⟨0, 32, .mr, 0⟩]⟩,
  ⟨"LNK_FLITS_HI", 0x2c, 0, 1, 2, [⟨0, 32, .mr, 0⟩]⟩]

/-! ### TRC block (R443) and the watch table (R420) -/

def TRC_CTRL : Nat := 0x2400000 + 0x0
abbrev TRC_CTRL_EN : Fld := ⟨0, 1⟩
abbrev TRC_CTRL_PORT_EN : Fld := ⟨1, 1⟩
abbrev TRC_CTRL_SRC : Fld := ⟨2, 8⟩
def TRC_STAT : Nat := 0x2400000 + 0x4
abbrev TRC_STAT_LINK : Fld := ⟨0, 1⟩
abbrev TRC_STAT_DUMPING : Fld := ⟨1, 1⟩
abbrev TRC_STAT_DEST : Fld := ⟨2, 1⟩
abbrev TRC_STAT_FIFO : Fld := ⟨3, 13⟩
def TRC_EVENT : Nat := 0x2400000 + 0x8
abbrev TRC_EVENT_SEQ : Fld := ⟨0, 8⟩
abbrev TRC_EVENT_DUMP_START : Fld := ⟨8, 1⟩
abbrev TRC_EVENT_DUMP_END : Fld := ⟨9, 1⟩
abbrev TRC_EVENT_DUMP_SHORT : Fld := ⟨10, 1⟩
abbrev TRC_EVENT_DUMP_LOST : Fld := ⟨11, 1⟩
abbrev TRC_EVENT_DUMP_MISSED : Fld := ⟨12, 1⟩
abbrev TRC_EVENT_TRUNC : Fld := ⟨13, 1⟩
abbrev TRC_EVENT_HM_DROP : Fld := ⟨14, 1⟩
abbrev TRC_EVENT_HM_SKIP : Fld := ⟨15, 1⟩
abbrev TRC_EVENT_WRITE_DROP : Fld := ⟨16, 1⟩
abbrev TRC_EVENT_CFG_PARITY : Fld := ⟨17, 1⟩
def TRC_MARK : Nat := 0x2400000 + 0xc
abbrev TRC_MARK_VALUE : Fld := ⟨0, 32⟩
def TRC_DROP_LO : Nat := 0x2400000 + 0x10
abbrev TRC_DROP_LO_COUNT : Fld := ⟨0, 32⟩
def TRC_DROP_HI : Nat := 0x2400000 + 0x14
abbrev TRC_DROP_HI_COUNT : Fld := ⟨0, 32⟩
def DUMP_CFG : Nat := 0x2400000 + 0x20
abbrev DUMP_CFG_WDOG : Fld := ⟨0, 1⟩
abbrev DUMP_CFG_C15 : Fld := ⟨1, 1⟩
abbrev DUMP_CFG_FATAL : Fld := ⟨2, 1⟩
abbrev DUMP_CFG_HALT : Fld := ⟨3, 1⟩
abbrev DUMP_CFG_TENSOR : Fld := ⟨4, 1⟩
def DUMP_LEN : Nat := 0x2400000 + 0x24
abbrev DUMP_LEN_LEN : Fld := ⟨0, 32⟩
def DUMP_ADDR_LO : Nat := 0x2400000 + 0x28
abbrev DUMP_ADDR_LO_ADDR : Fld := ⟨16, 16⟩
def DUMP_ADDR_HI : Nat := 0x2400000 + 0x2c
abbrev DUMP_ADDR_HI_ADDR : Fld := ⟨0, 32⟩
def DUMP_USED : Nat := 0x2400000 + 0x30
abbrev DUMP_USED_PACKETS : Fld := ⟨0, 32⟩
def HM_RING_LO : Nat := 0x2400000 + 0x40
abbrev HM_RING_LO_SIZE : Fld := ⟨0, 5⟩
abbrev HM_RING_LO_ADDR : Fld := ⟨12, 20⟩
def HM_RING_HI : Nat := 0x2400000 + 0x44
abbrev HM_RING_HI_ADDR : Fld := ⟨0, 12⟩
abbrev HM_RING_HI_V : Fld := ⟨12, 1⟩
abbrev HM_RING_HI_DB_EN : Fld := ⟨13, 1⟩
abbrev HM_RING_HI_DB : Fld := ⟨14, 6⟩
def HM_PROD : Nat := 0x2400000 + 0x48
abbrev HM_PROD_COUNT : Fld := ⟨0, 32⟩
def HM_CONS : Nat := 0x2400000 + 0x4c
abbrev HM_CONS_COUNT : Fld := ⟨0, 32⟩
def HM_SKIP_LO : Nat := 0x2400000 + 0x50
abbrev HM_SKIP_LO_COUNT : Fld := ⟨0, 32⟩
def HM_SKIP_HI : Nat := 0x2400000 + 0x54
abbrev HM_SKIP_HI_COUNT : Fld := ⟨0, 32⟩
def HM_DROP : Nat := 0x2400000 + 0x58
abbrev HM_DROP_COUNT : Fld := ⟨0, 16⟩
def WATCH_W0 (i : Nat) : Nat := 0x2400000 + 0x1000 + i * 32
abbrev WATCH_W0_V : Fld := ⟨0, 1⟩
abbrev WATCH_W0_FMT : Fld := ⟨1, 4⟩
abbrev WATCH_W0_SGN : Fld := ⟨5, 1⟩
abbrev WATCH_W0_SYNC_ONLY : Fld := ⟨6, 1⟩
abbrev WATCH_W0_EVERY : Fld := ⟨7, 5⟩
abbrev WATCH_W0_DIE : Fld := ⟨12, 4⟩
abbrev WATCH_W0_PHASE : Fld := ⟨16, 6⟩
def WATCH_W1 (i : Nat) : Nat := 0x2400000 + 0x1004 + i * 32
abbrev WATCH_W1_ADDR_LO : Fld := ⟨0, 32⟩
def WATCH_W2 (i : Nat) : Nat := 0x2400000 + 0x1008 + i * 32
abbrev WATCH_W2_ADDR_HI : Fld := ⟨0, 32⟩
def WATCH_W3 (i : Nat) : Nat := 0x2400000 + 0x100c + i * 32
abbrev WATCH_W3_LEN : Fld := ⟨0, 32⟩
def WATCH_W4 (i : Nat) : Nat := 0x2400000 + 0x1010 + i * 32
def WATCH_W5 (i : Nat) : Nat := 0x2400000 + 0x1014 + i * 32
def WATCH_W6 (i : Nat) : Nat := 0x2400000 + 0x1018 + i * 32
def WATCH_W7 (i : Nat) : Nat := 0x2400000 + 0x101c + i * 32

def trcRegs1 : List RegSpec := [
  ⟨"TRC_CTRL", 0x0, 0, 1, 0, [⟨0, 1, .rw, 0⟩, ⟨1, 1, .rw, 1⟩, ⟨2, 8, .rw, 0xff⟩, ⟨10, 22, .ro, 0⟩]⟩,
  ⟨"TRC_STAT", 0x4, 0, 1, 0, [⟨0, 1, .mr, 0⟩, ⟨1, 1, .mr, 0⟩, ⟨2, 1, .mr, 0⟩, ⟨3, 13, .mr, 0⟩, ⟨16, 16, .ro, 0⟩]⟩,
  ⟨"TRC_EVENT", 0x8, 0, 1, 0, [⟨0, 8, .sq, 0⟩, ⟨8, 1, .sq, 0⟩, ⟨9, 1, .sq, 0⟩, ⟨10, 1, .sq, 0⟩, ⟨11, 1, .sq, 0⟩, ⟨12, 1, .sq, 0⟩, ⟨13, 1, .sq, 0⟩, ⟨14, 1, .sq, 0⟩, ⟨15, 1, .sq, 0⟩, ⟨16, 1, .sq, 0⟩, ⟨17, 1, .sq, 0⟩, ⟨18, 14, .ro, 0⟩]⟩,
  ⟨"TRC_MARK", 0xc, 0, 1, 0, [⟨0, 32, .rw, 0⟩]⟩,
  ⟨"TRC_DROP_LO", 0x10, 0, 1, 1, [⟨0, 32, .mr, 0⟩]⟩,
  ⟨"TRC_DROP_HI", 0x14, 0, 1, 2, [⟨0, 32, .mr, 0⟩]⟩,
  ⟨"DUMP_CFG", 0x20, 0, 1, 0, [⟨0, 1, .rw, 1⟩, ⟨1, 1, .rw, 0⟩, ⟨2, 1, .rw, 1⟩, ⟨3, 1, .rw, 1⟩, ⟨4, 1, .rw, 0⟩, ⟨5, 27, .ro, 0⟩]⟩,
  ⟨"DUMP_LEN", 0x24, 0, 1, 0, [⟨0, 32, .rw, 0⟩]⟩,
  ⟨"DUMP_ADDR_LO", 0x28, 0, 1, 1, [⟨0, 16, .ro, 0⟩, ⟨16, 16, .rw, 0⟩]⟩,
  ⟨"DUMP_ADDR_HI", 0x2c, 0, 1, 2, [⟨0, 32, .rw, 0⟩]⟩,
  ⟨"DUMP_USED", 0x30, 0, 1, 0, [⟨0, 32, .mr, 0⟩]⟩,
  ⟨"HM_RING_LO", 0x40, 0, 1, 1, [⟨0, 5, .rw, 6⟩, ⟨5, 7, .ro, 0⟩, ⟨12, 20, .rw, 0⟩]⟩,
  ⟨"HM_RING_HI", 0x44, 0, 1, 2, [⟨0, 12, .rw, 0⟩, ⟨12, 1, .rw, 0⟩, ⟨13, 1, .rw, 0⟩, ⟨14, 6, .rw, 0⟩, ⟨20, 12, .ro, 0⟩]⟩,
  ⟨"HM_PROD", 0x48, 0, 1, 0, [⟨0, 32, .mr, 0⟩]⟩,
  ⟨"HM_CONS", 0x4c, 0, 1, 0, [⟨0, 32, .rw, 0⟩]⟩,
  ⟨"HM_SKIP_LO", 0x50, 0, 1, 1, [⟨0, 32, .mr, 0⟩]⟩,
  ⟨"HM_SKIP_HI", 0x54, 0, 1, 2, [⟨0, 32, .mr, 0⟩]⟩,
  ⟨"HM_DROP", 0x58, 0, 1, 0, [⟨0, 16, .mr, 0⟩, ⟨16, 16, .ro, 0⟩]⟩,
  ⟨"WATCH_W0", 0x1000, 32, 64, 0, [⟨0, 1, .rw, 0⟩, ⟨1, 4, .rw, 0⟩, ⟨5, 1, .rw, 0⟩, ⟨6, 1, .rw, 0⟩, ⟨7, 5, .rw, 0⟩, ⟨12, 4, .rw, 0⟩, ⟨16, 6, .rw, 0⟩, ⟨22, 10, .ro, 0⟩]⟩,
  ⟨"WATCH_W1", 0x1004, 32, 64, 0, [⟨0, 32, .rw, 0⟩]⟩,
  ⟨"WATCH_W2", 0x1008, 32, 64, 0, [⟨0, 32, .rw, 0⟩]⟩,
  ⟨"WATCH_W3", 0x100c, 32, 64, 0, [⟨0, 32, .rw, 0⟩]⟩,
  ⟨"WATCH_W4", 0x1010, 32, 64, 0, [⟨0, 32, .ro, 0⟩]⟩,
  ⟨"WATCH_W5", 0x1014, 32, 64, 0, [⟨0, 32, .ro, 0⟩]⟩]
def trcRegs2 : List RegSpec := [
  ⟨"WATCH_W6", 0x1018, 32, 64, 0, [⟨0, 32, .ro, 0⟩]⟩,
  ⟨"WATCH_W7", 0x101c, 32, 64, 0, [⟨0, 32, .ro, 0⟩]⟩]
def trcRegs : List RegSpec := trcRegs1 ++ trcRegs2

/-! ### BAR4 mailboxes, doorbells and MSI-X structures (R377, R387) -/

def H2F_DATA (i : Nat) : Nat := bar4Base + 0x0 + i * 8
abbrev H2F_DATA_WORD : Fld := ⟨0, 32⟩
def H2F_STAT (i : Nat) : Nat := bar4Base + 0x4 + i * 8
abbrev H2F_STAT_FULL : Fld := ⟨0, 1⟩
abbrev H2F_STAT_COLLIDE : Fld := ⟨1, 1⟩
abbrev H2F_STAT_TIMING : Fld := ⟨2, 1⟩
def F2H_DATA (i : Nat) : Nat := bar4Base + 0x80 + i * 8
abbrev F2H_DATA_WORD : Fld := ⟨0, 32⟩
def F2H_STAT (i : Nat) : Nat := bar4Base + 0x84 + i * 8
abbrev F2H_STAT_FULL : Fld := ⟨0, 1⟩
abbrev F2H_STAT_COLLIDE : Fld := ⟨1, 1⟩
abbrev F2H_STAT_QUEUED : Fld := ⟨2, 5⟩
def MBX_PEND : Nat := bar4Base + 0x100
abbrev MBX_PEND_F2H : Fld := ⟨0, 16⟩
abbrev MBX_PEND_H2F : Fld := ⟨16, 16⟩
def MBX_EVENT : Nat := bar4Base + 0x104
abbrev MBX_EVENT_SEQ : Fld := ⟨0, 8⟩
abbrev MBX_EVENT_COLLIDE : Fld := ⟨8, 1⟩
abbrev MBX_EVENT_TIMEOUT : Fld := ⟨9, 1⟩
abbrev MBX_EVENT_LATE : Fld := ⟨10, 1⟩
abbrev MBX_EVENT_PD_ABORT : Fld := ⟨11, 1⟩
def MBX_LATE : Nat := bar4Base + 0x108
abbrev MBX_LATE_COUNT : Fld := ⟨0, 16⟩
def DB_COUNT (i : Nat) : Nat := bar4Base + 0x1000 + i * 16
abbrev DB_COUNT_COUNT : Fld := ⟨0, 32⟩
def DB_LAST (i : Nat) : Nat := bar4Base + 0x1004 + i * 16
abbrev DB_LAST_VALUE : Fld := ⟨0, 32⟩
def DB_CFG (i : Nat) : Nat := bar4Base + 0x1008 + i * 16
abbrev DB_CFG_THRESH : Fld := ⟨0, 16⟩
def MSIX_ADDRL (i : Nat) : Nat := bar4Base + 0x10000 + i * 16
abbrev MSIX_ADDRL_ADDRL : Fld := ⟨0, 32⟩
def MSIX_ADDRH (i : Nat) : Nat := bar4Base + 0x10004 + i * 16
abbrev MSIX_ADDRH_ADDRH : Fld := ⟨0, 32⟩
def MSIX_DATA (i : Nat) : Nat := bar4Base + 0x10008 + i * 16
abbrev MSIX_DATA_DATA : Fld := ⟨0, 32⟩
def MSIX_CTRL (i : Nat) : Nat := bar4Base + 0x1000c + i * 16
abbrev MSIX_CTRL_MASK : Fld := ⟨0, 1⟩
def MSIX_PBA (i : Nat) : Nat := bar4Base + 0x12000 + i * 4
abbrev MSIX_PBA_PEND : Fld := ⟨0, 32⟩

def bar4Regs : List RegSpec := [
  ⟨"H2F_DATA", 0x0, 8, 16, 0, [⟨0, 32, .rw, 0⟩]⟩,
  ⟨"H2F_STAT", 0x4, 8, 16, 0, [⟨0, 1, .ro, 0⟩, ⟨1, 1, .rc, 0⟩, ⟨2, 1, .ro, 0⟩, ⟨3, 29, .ro, 0⟩]⟩,
  ⟨"F2H_DATA", 0x80, 8, 16, 0, [⟨0, 32, .rc, 0xffffffff⟩]⟩,
  ⟨"F2H_STAT", 0x84, 8, 16, 0, [⟨0, 1, .ro, 0⟩, ⟨1, 1, .rc, 0⟩, ⟨2, 5, .ro, 0⟩, ⟨7, 25, .ro, 0⟩]⟩,
  ⟨"MBX_PEND", 0x100, 0, 1, 0, [⟨0, 16, .ro, 0⟩, ⟨16, 16, .ro, 0⟩]⟩,
  ⟨"MBX_EVENT", 0x104, 0, 1, 0, [⟨0, 8, .sq, 0⟩, ⟨8, 1, .sq, 0⟩, ⟨9, 1, .sq, 0⟩, ⟨10, 1, .sq, 0⟩, ⟨11, 1, .sq, 0⟩, ⟨12, 20, .ro, 0⟩]⟩,
  ⟨"MBX_LATE", 0x108, 0, 1, 0, [⟨0, 16, .ro, 0⟩, ⟨16, 16, .ro, 0⟩]⟩,
  ⟨"DB_COUNT", 0x1000, 16, 64, 0, [⟨0, 32, .rc, 0⟩]⟩,
  ⟨"DB_LAST", 0x1004, 16, 64, 0, [⟨0, 32, .mr, 0⟩]⟩,
  ⟨"DB_CFG", 0x1008, 16, 64, 0, [⟨0, 16, .rw, 1⟩, ⟨16, 16, .ro, 0⟩]⟩,
  ⟨"MSIX_ADDRL", 0x10000, 16, 512, 0, [⟨0, 32, .rw, 0⟩]⟩,
  ⟨"MSIX_ADDRH", 0x10004, 16, 512, 0, [⟨0, 32, .rw, 0⟩]⟩,
  ⟨"MSIX_DATA", 0x10008, 16, 512, 0, [⟨0, 32, .rw, 0⟩]⟩,
  ⟨"MSIX_CTRL", 0x1000c, 16, 512, 0, [⟨0, 1, .rw, 1⟩, ⟨1, 31, .ro, 0⟩]⟩,
  ⟨"MSIX_PBA", 0x12000, 4, 16, 0, [⟨0, 32, .ro, 0⟩]⟩]

/-! ### die mailboxes (R385) -/

def H2D_DATA (d : Nat) : Nat := bar4Base + 0x8000 + d * 0x400 + 0x0
abbrev H2D_DATA_WORD : Fld := ⟨0, 32⟩
def H2D_STAT (d : Nat) : Nat := bar4Base + 0x8000 + d * 0x400 + 0x4
abbrev H2D_STAT_FULL : Fld := ⟨0, 1⟩
abbrev H2D_STAT_COLLIDE : Fld := ⟨1, 1⟩
abbrev H2D_STAT_TIMING : Fld := ⟨2, 1⟩
def D2H_DATA (d : Nat) : Nat := bar4Base + 0x8000 + d * 0x400 + 0x8
abbrev D2H_DATA_WORD : Fld := ⟨0, 32⟩
def D2H_STAT (d : Nat) : Nat := bar4Base + 0x8000 + d * 0x400 + 0xc
abbrev D2H_STAT_FULL : Fld := ⟨0, 1⟩
abbrev D2H_STAT_COLLIDE : Fld := ⟨1, 1⟩
abbrev D2H_STAT_QUEUED : Fld := ⟨2, 5⟩

def dmbxRegs : List RegSpec := [
  ⟨"H2D_DATA", 0x0, 0, 1, 0, [⟨0, 32, .rw, 0⟩]⟩,
  ⟨"H2D_STAT", 0x4, 0, 1, 0, [⟨0, 1, .ro, 0⟩, ⟨1, 1, .rc, 0⟩, ⟨2, 1, .ro, 0⟩, ⟨3, 29, .ro, 0⟩]⟩,
  ⟨"D2H_DATA", 0x8, 0, 1, 0, [⟨0, 32, .rc, 0xffffffff⟩]⟩,
  ⟨"D2H_STAT", 0xc, 0, 1, 0, [⟨0, 1, .ro, 0⟩, ⟨1, 1, .rc, 0⟩, ⟨2, 5, .ro, 0⟩, ⟨7, 25, .ro, 0⟩]⟩]

end Sys2Proof.Machine
end

