-- ==== Sys2Proof/Machine/RegFile.lean ====
section
/-! DEFINITION. The register file: from an address to its register's fields, reset values and write masks (R364, R368). -/

namespace Sys2Proof.Machine

/-- The area of address `a` (R364, R377, R419): its register table and the offset within it. -/
def regArea (a : Nat) : Option (Nat × List RegSpec) :=
  if bar4Base ≤ a then
    let o := a - bar4Base
    if 0x8000 ≤ o ∧ o < 0xC000 then some ((o - 0x8000) % 0x400, dmbxRegs)
    else if o < 0x100000 then some (o, bar4Regs) else none
  else
    let o := a % 0x100000
    match a / 0x100000 with
    | 0 => some (o, pkgRegs)
    | 1 => some (o, aonRegs)
    | 2 => some (o, hifRegs)
    | 3 => some (o, stepRegs)
    | 4 => some (o, plcRegs)
    | 5 => some (o, cruRegs)
    | 0x24 => some (o, trcRegs)
    | n =>
      if 0x10 ≤ n ∧ n < 0x20 then
        if o < 0x10000 then some (o, dieRegs)
        else if o < 0x18000 then some ((o - 0x10000) % 0x1000, mcRegs)
        else if o < 0x20000 then none
        else if o < 0x30000 then some ((o - 0x20000) % 0x2000, crucibleRegs)
        else if o < 0x40000 then none
        else if o < 0x80000 then
          let r := o % 0x1000
          if r < 0x400 then some (r, faceRegs)
          else if r < 0x800 then some (r % 0x40, benchRegs)
          else if r < 0xA00 then some (r % 0x40, streamRegs)
          else none
        else if o < 0xC0000 then some (o, dieRegs)
        else if o < 0xD0000 ∨ (o < 0xE0000 ∧ (o - 0xD0000) / 0x80 < 18) then some (o % 0x80, qcRegs)
        else none
      else if 0x20 ≤ n ∧ n < 0x24 then
        if o < 0x10000 then some (o, ldRegs)
        else if o < 0x12000 then some (o % 0x100, lnkRegs)
        else if 0x30000 ≤ o ∧ o < 0x40000 ∧ (o - 0x30000) / 0x80 < (if n = 0x22 then 34 else 33) then some (o % 0x80, qcRegs)
        else none
      else none

/-- Does the table row hold offset `o`? -/
def RegSpec.covers (r : RegSpec) (o : Nat) : Bool :=
  if r.stride = 0 then o == r.off else r.off ≤ o && (o - r.off) % r.stride == 0 && (o - r.off) / r.stride < r.count

/-- The fields of the register at address `a`; none where no register stands (it reads 0 and ignores writes, R360). -/
def regFields (a : Nat) : List FieldSpec :=
  match regArea a with
  | none => []
  | some (o, t) =>
    match t.find? (fun r => r.covers o) with
    | none => []
    | some r => r.fields

/-- Reset value of the register at `a`: its fields' reset values, and R364's PKG_PD_STAT_0 (PD0 and PD1 on). -/
def regReset (a : Nat) : Word :=
  if a = PKG_PD_STAT 0 then 3
  else BitVec.ofNat 32 ((regFields a).foldl (fun v f => v + f.reset * 2 ^ f.lo) 0)

/-- The bits of register `a` whose access code is `c`. -/
def accMask (c : Access) (a : Nat) : Nat :=
  (regFields a).foldl (fun m f => if f.acc = c then m + (2 ^ f.w - 1) * 2 ^ f.lo else m) 0

/-- Bits [31:0] of `old` replaced by those of `new` where `mask` has a 1. -/
def maskWrite (mask old new : Nat) : Nat := (old &&& (0xFFFFFFFF ^^^ mask)) ||| (new &&& mask)

/-- A register whose first field is a guarded pair (R372), and one that is a sequence register (R370). -/
def isWG (a : Nat) : Bool := accMask .wg a != 0
def isSQ (a : Nat) : Bool := accMask .sq a != 0
/-- 1 where `a` is the low word of a pair, 2 where it is the high word, else 0 (R373). -/
def pairOf (a : Nat) : Nat :=
  match regArea a with
  | none => 0
  | some (o, t) => match t.find? (fun r => r.covers o) with
    | none => 0
    | some r => r.pair

end Sys2Proof.Machine
end

