-- ==== Sys2Proof/Machine/State.lean ====
section
/-! DEFINITION. The state of one device: its register file, its local memory, and the records of its units that no register
shows.  A list of (number, value) pairs is a sparse map in the canonical form of Map.lean; the docstring of a field says what
its keys number and what an unlisted key holds. -/

namespace Sys2Proof.Machine

/-- What left the device. -/
inductive Output where
  /-- A PCIe completion to the host: data, or none for Unsupported Request (`ur`) or Completer Abort. -/
  | cpl (data : List Byte)
  | cplPoisoned (data : List Byte)
  | cplUR
  | cplCA
  /-- Configuration Request Retry Status (R393). -/
  | cplRetry
  /-- An MSI-X message of a vector. -/
  | msix (v : Nat)
  /-- A packet handed to the router for the fabric. -/
  | packet (p : Packet)
  /-- A packet put on a link by the router. -/
  | linkPacket (link : Nat) (p : Packet)
  /-- The identity flit that this end sends in CHECK (R274). -/
  | identity (link : Nat) (id : LinkId)
  /-- A control flit on a link: ACK, NAK and the nine credit counters. -/
  | lctl (link ack : Nat) (nak : Bool) (cred : List Nat)
  /-- An IDLE flit on a link: ACK and the nine credit counters (R277). -/
  | idleFlit (link ack : Nat) (cred : List Nat)
  /-- A link resends from a sequence number on (R278). -/
  | replay (link seq : Nat)
  /-- A read request to host memory: tag, PCIe address, length. -/
  | hostRead (tag addr len : Nat)
  /-- A posted write to host memory, at a PCIe address. -/
  | hostWrite (addr : Nat) (v : List Byte)
  /-- Data a die-cache slice returned, with its poison. -/
  | memData (v : List Byte) (poison : Bool)
  /-- The value a register read returned to a requester. -/
  | regData (q : Requester) (v : Nat)
  /-- A pin driven to a level. -/
  | pin (name : String) (level : Bool)
  /-- A trace packet on the trace port. -/
  | trace (v : List Byte)
  /-- Bytes shifted out of the test port, or a sideband or DOE message. -/
  | jtag (v : Nat)
  | doe (v : List Byte)
  | mctp (v : List Byte)
  /-- VOUT_COMMAND to the regulators at these PMBus addresses, in mV (R449, R450). -/
  | voltage (addrs : List Nat) (mv : Nat)
deriving DecidableEq, Repr

/-! ### host interface -/

/-- A command forwarded by an anchor, held by a member until it is answered (R384). -/
structure FwdCmd where
  word   : Nat
  ring   : Nat
  anchor : Nat
  tag    : Nat
  /-- Its block, once the read from the anchor's window has returned; none inside when it is lost. -/
  blk    : Option (Option (List Byte)) := none
  /-- The image of a CFG_WRITE or FW_WRITE as far as it has been read, whether more of it is awaited, and whether a read of it failed. -/
  image  : List Byte := []
  more   : Bool := false
  lost   : Bool := false
deriving DecidableEq, Repr

/-- Where a command of a mailbox came from, with its word. -/
inductive CmdSrc where
  | own (word : Nat)
  | forwarded (c : FwdCmd)
  /-- Over the sideband, block inline (R414). -/
  | sideband (word : Nat)
deriving DecidableEq, Repr

/-- How a read of host memory ends when it does not complete with its data (R358). -/
inductive HostEnd where
  | poisoned | unsupported | abort | timeout
deriving DecidableEq, Repr

/-- A read on the PCIe link that this device makes for a packet of a member (R358, R362); its tag counts once it is sent. -/
structure HostReq where
  tag   : Nat
  off   : Nat
  len   : Nat
  asker : Packet
deriving DecidableEq, Repr

/-- Half of a peer-window access waiting for its answer (R363): its packet tag, whether the host's access ends with it, and
the bytes the halves before it returned. -/
structure PeerReq where
  tag  : Nat
  read : Bool
  off  : Nat
  last : Bool
  got  : List Byte
deriving DecidableEq, Repr

/-- Host interface state that no register shows. -/
structure HostIf where
  /-- Read and write shadows by requester (R373); unlisted 0. -/
  rdSh : List (Nat × Nat) := []
  wrSh : List (Nat × Nat) := []
  /-- Open guarded halves by requester: register and value (R372). -/
  guard : List (Nat × Option (Nat × Nat)) := []
  /-- Answers queued behind F2H_DATA_m and D2H_DATA of die d, oldest first (R378, R385). -/
  f2hQ : List (Nat × List Nat) := []
  d2hQ : List (Nat × List Nat) := []
  /-- Mailboxes whose next answer is discarded (R382), and die mailboxes likewise (numbered 16 + d). -/
  late : List Nat := []
  /-- On a member: the forwarded command of mailbox m. -/
  fwdIn : List (Nat × Option FwdCmd) := []
  /-- On an anchor: mailbox and device of each forwarded command that is unanswered, oldest first. -/
  fwdOut : List (Nat × Nat) := []
  /-- Die mailbox commands being carried out, by die: their codes, oldest first. -/
  dieCmd : List (Nat × List Nat) := []
  /-- Host-window requests in flight, oldest first, those that wait for one of them to end, and the next tag (R355). -/
  reqs : List HostReq := []
  reqQ : List HostReq := []
  nextTag : Nat := 0
  /-- Pages of host memory whose reads by the device's own units end otherwise than with their data (R358), by offset div 4,096. -/
  pages : List (Nat × Option HostEnd) := []
  /-- Peer-window accesses in flight. -/
  peer : List PeerReq := []
  /-- Vectors that have fired for a doorbell and wait for its read (R386). -/
  dbFired : List Nat := []
deriving DecidableEq, Repr

/-! ### step engine and barriers -/

/-- A program slot (R24). -/
structure Slot where
  base    : Nat
  steps   : Nat
  left    : Nat
  first   : Nat
  replace : Bool
  /-- The 512 header bytes as they were checked. -/
  hdr     : List Byte
deriving DecidableEq, Repr

/-- Where the step engine is. -/
inductive Mode where
  /-- No step runs. -/
  | idle
  /-- Before a microstep: waiting for FILL (R173). -/
  | fill
  /-- A phase runs. -/
  | phase
  /-- Commit wait, before the arrival on channel 15 (R197 step 1). -/
  | wait
  /-- Arrived on channel 15. -/
  | voted
deriving DecidableEq, Repr

/-- The fields of a BAR packet (R340). -/
structure BarMsg where
  src    : Nat
  ch     : Nat
  val    : Bool
  notice : Bool
  epoch  : Nat
  group  : Nat
  fanin  : Nat
deriving DecidableEq, Repr

/-- An arrival applied to a stage: stage 0 to 2, the sender's coordinate, its value. -/
structure BarRx where
  stage : Nat
  pos   : Nat
  val   : Bool
deriving DecidableEq, Repr

/-- A barrier channel of the package. -/
structure Chan where
  /-- Epoch now in force; none before the first. -/
  epoch  : Option Nat := none
  /-- Package close has come; the fabric stage running is 0 to 2, or 3 when all are done. -/
  closed : Bool := false
  stage  : Nat := 0
  val    : Bool := true
  /-- Arrivals applied to the stages of this epoch (R341). -/
  rx     : List BarRx := []
  /-- Packets of the next epoch (R341). -/
  held   : List BarMsg := []
  /-- Notice sent, and notice received, in this epoch. -/
  sent   : Bool := false
  fwd    : Bool := false
deriving DecidableEq, Repr

/-- A returned BAR packet waiting for its timer (R343). -/
structure BarBack where
  dst   : Nat
  msg   : BarMsg
  count : Nat
deriving DecidableEq, Repr

/-- One planned change of a steering decision (R153 to R157). -/
structure SteerChange where
  layer : Nat
  /-- Words 0, 1, 2, 5 and 6 that the entry takes. -/
  words : List Nat
deriving DecidableEq, Repr

/-- A working-copy header that the last COMMIT close writes (R157, R163). -/
structure HeaderWrite where
  addr  : Nat
  bytes : List Byte
deriving DecidableEq, Repr

/-- A summary sent and not yet acknowledged (R151). -/
structure SumOut where
  tag   : Nat
  dev   : Nat
  layer : Nat
deriving DecidableEq, Repr

/-- A tally increment between its posting and its acknowledgement (R29). -/
structure TallyMsg where
  dstDie : Nat
  tally  : Nat
  srcDie : Nat
  face   : Nat
  landed : Bool
deriving DecidableEq, Repr

/-- Step engine state that no register shows. -/
structure StepEng where
  /-- The program slots (R24). -/
  active : Option Slot := none
  next : Option Slot := none
  /-- What the engine is doing. -/
  mode : Mode := .idle
  /-- G at step start. -/
  g0 : Nat := 0
  /-- The step has aborted on this device, with the first cause as STEP_ABORT_CAUSE shows it. -/
  aborted : Bool := false
  cause : Option Nat := none
  /-- A loss store was not finite (R196). -/
  lossNf : Bool := false
  /-- STEP_STOP waits for the boundary, whether its wait has been answered RUNNING, and the words of mailbox 0 taken while it
  waits (R25). -/
  stop : Option CmdSrc := none
  stopTold : Bool := false
  stopWords : List (CmdSrc × List Byte) := []
  /-- Barrier channels of the package (R330), and returned BAR packets that wait for their timer (R343). -/
  chans : List (Nat × Chan) := []
  back : List BarBack := []
  /-- Tally increments on their way (R29), and summaries not yet acknowledged (R151). -/
  tallies : List TallyMsg := []
  sums : List SumOut := []
  /-- SRC ids merged in this step, as LAYER_ID × 4,096 + SRC (R471). -/
  merged : List Nat := []
  /-- Steering: decision made in this step, its changes, and the header writes held for the last COMMIT close. -/
  decided : Bool := false
  changes : List SteerChange := []
  headers : List HeaderWrite := []
  /-- Layers with an OPT descriptor completed in this step (R264), the indices of completed OPT descriptors, and the sums of
  R148 by LAYER_ID: FP32 images of Σ Δw² and Σ w². -/
  optDone : List Nat := []
  optIdx : List Nat := []
  uw : List (Nat × (Nat × Nat)) := []
  /-- A dump trigger asked for a hold at this boundary (R431). -/
  halt : Bool := false
  /-- A group failed its check at a step start (R337): none starts until BAR_GRP or BAR_GID is written. -/
  grpFail : Bool := false
  /-- Last step a steering decision was made for. -/
  lastDecided : Option Nat := none
deriving DecidableEq, Repr

/-! ### dies and faces -/

/-- A granted descriptor that is not complete (R331). -/
structure Granted where
  idx    : Nat
  face   : Nat
  barout : Bool
  barch  : Nat
deriving DecidableEq, Repr

/-- Assay record of one layer, open on a face or on its way to the die controller (R137 to R142, R149). -/
structure AssayRec where
  layer  : Nat
  /-- Step of the descriptor. -/
  step   : Nat := 0
  elems  : Nat := 0
  sat    : Nat := 0
  und    : Nat := 0
  nan    : Nat := 0
  inf    : Nat := 0
  outl   : Nat := 0
  ovf    : Nat := 0
  flag   : Bool := false
  poison : Bool := false
  /-- FP32 images of non-negative values. -/
  amax   : Nat := 0
  aclip  : Nat := 0
  /-- Histogram bins, by bin. -/
  hist   : List (Nat × Nat) := []
  trunc  : Nat := 0
  shN    : Nat := 0
  shErr  : Nat := 0
deriving DecidableEq, Repr

/-- Die controller state that no register shows. -/
structure Die where
  /-- Descriptor indices in the window, head first; the next index of the list and its end (R27). -/
  window : List Nat := []
  nextIx : Nat := 0
  endIx  : Nat := 0
  /-- Descriptors granted and not complete (R331). -/
  granted : List Granted := []
  /-- Records of completed descriptors that wait to be merged, oldest first (R140). -/
  merge : List AssayRec := []
deriving DecidableEq, Repr

/-- Progress of a held descriptor. -/
inductive Run where
  | waiting
  | running
  /-- It runs, and its passes wait for a bench of the gang that takes passes (R73). -/
  | stalled
  /-- Its tally increment is on its way. -/
  | posted
deriving DecidableEq, Repr

/-- A (class, stream) pair of R178: class 0 DROP, 1 SR, 2 ROTS, 3 SAMP. -/
structure StreamUse where
  cls    : Nat
  stream : Nat
deriving DecidableEq, Repr

/-- A descriptor that a face holds. -/
structure Held where
  idx   : Nat
  words : List Nat
  /-- The 128 bytes of its layer entry, as read at the claim. -/
  layer : List Byte
  draws : List StreamUse
  run   : Run
deriving DecidableEq, Repr

/-- What the vector unit does with a row that has left the planisher (R100). -/
inductive RowUse where
  /-- PLANISH: the planished tensor itself. -/
  | planish
  /-- UNROT_A: backward dropout and store. -/
  | gradIn
  /-- WROT of a MEASURE and of a MAKE. -/
  | measure
  | make
  /-- UNROT_W: the optimizer. -/
  | opt
deriving DecidableEq, Repr

/-- A row waiting for the planisher (R112 to R116, R106): its number, FP32 images of its elements, and its poison. -/
structure PlRow where
  use    : RowUse
  row    : Nat
  elems  : List Nat
  poison : Bool
deriving DecidableEq, Repr

/-- One half of the planisher's sign store (R108): the layer (its LAYER_ID) and the step of the signs it holds. -/
structure SignHalf where
  layer : Option Nat := none
  step  : Nat := 0
  ready : Bool := false
deriving DecidableEq, Repr

/-- A decoded operand element (R38): sign, significand, LSB exponent, and its special code (0 finite, 1 +Inf, 2 −Inf, 3 NaN). -/
structure Opd where
  neg : Bool
  u   : Nat
  t   : Int
  spc : Nat
deriving DecidableEq, Repr

/-- The running GEMM of a leader face (R68, R70, R84, R188). -/
structure Gemm where
  /-- 0 forward, 1 data gradient, 2 weight gradient. -/
  kind  : Nat
  /-- JOIN, AFMT, WFMT, ASGN, WSGN, SR, SIDE, ZMODE and OFMT in the places of word 0 of a pass instruction (R47). -/
  w0    : Nat
  m0    : Nat
  mcnt  : Nat
  n0    : Nat
  ncnt  : Nat
  k0    : Nat
  kcnt  : Nat
  /-- Object addresses of the streamed object, the sett object and the output. -/
  inA   : Nat
  auxA  : Nat
  outA  : Nat
  /-- FP32 images of the F3 and F4 factors. -/
  f3    : Nat
  f4    : Nat
  layer : List Byte
  /-- Output row distance in bytes, and the output is a gradient accumulator. -/
  outRs : Nat
  grad  : Bool
  /-- Tiles waiting for each bench of the gang, by bench number g. -/
  queue : List (Nat × List Nat)
deriving DecidableEq, Repr

/-- A weight slot of a sett (R34): significand nibble, sign, offset below the tile's largest exponent, special code. -/
structure Sett where
  sig  : Nat
  sgn  : Bool
  wsh  : Nat
  wspc : Nat
deriving DecidableEq, Repr

/-- A pass that a bench has accepted: its 128-bit instruction (R47), its tile, the decoded operands of its stages, the row tags and
column scales, and the outlier lists (index in the slice, E4M3 code) of its rows. -/
structure Pass where
  instr : Nat
  tile  : Nat
  acts  : List (List Opd)
  tok   : List Nat
  wts   : List (List Opd)
  wch   : List Nat
  outl  : List (List (Nat × Nat))
  bad   : Bool
  /-- ACLK cycle in which the side lane started the pass, and the correction entries of its rows (R64): empty for a row without
  outliers. -/
  lane  : Option Nat := none
  corr  : List (List Nat) := []
  /-- Its tile has been issued to another bench (R73): its late corrections are dropped. -/
  left  : Bool := false
deriving DecidableEq, Repr

/-- A completed or completing correction of a late row (R65). -/
structure LateRow where
  tile : Nat
  row  : Nat
  vals : List Nat
deriving DecidableEq, Repr

/-- A finished row in the park (R66): its FP32 accumulators, its F1 code and the F2 codes of its columns. -/
structure ParkRow where
  tile : Nat
  row  : Nat
  vals : List Nat
  tok  : Nat
  wch  : List Nat
  bad  : Bool
deriving DecidableEq, Repr

/-- Bench state that no register shows. -/
structure Bench where
  /-- Accepted passes whose wave 0 has not been built, oldest first. -/
  passes : List Pass := []
  /-- Tile the next pass belongs to and its number of K-passes issued. -/
  tile   : Option Nat := none
  kdone  : Nat := 0
  /-- Weight slots of the setts, by physical column and row (R34, R54, R55). -/
  live    : List (List Sett) := []
  loading : List (List Sett) := []
  /-- Drain store: FP32 images by row and column, as the passes left them; and the poison of the tile in accumulation. -/
  acc    : List (List Nat) := []
  accBad : Bool := false
  /-- Base cycle, M and formats of the newest pass run, and the cycle of its last D7 write. -/
  base   : Nat := 0
  rows   : Nat := 0
  fmts   : Option Nat := none
  d7     : Nat := 0
  /-- Side lane: first free S1 cycle, and the cycles in which the last 128 entries became free, newest first. -/
  laneAt : Nat := 0
  frees  : List Nat := []
  /-- Cycles in which the last 64 entries were complete, newest first, and the first free cycle of the late port. -/
  comps  : List Nat := []
  port   : Nat := 0
  /-- Side-lane backlog: rows with correction entries that were incomplete when the newest wave was built (R67). -/
  back   : Nat := 0
  /-- Late corrections that wait (R65), and finished rows in the park (R66). -/
  late   : List LateRow := []
  park   : List ParkRow := []
  /-- Shadow units that the tile just finished still owes: the tile, the weight tile and the row group (R146). -/
  shadow : List (Nat × (Nat × Nat)) := []
deriving DecidableEq, Repr

/-- Face state that no register shows. -/
structure Face where
  /-- Descriptors the sequencer holds, oldest first (R28). -/
  held  : List Held := []
  /-- The halves of the planisher's sign store (R108). -/
  signs0 : SignHalf := {}
  signs1 : SignHalf := {}
  /-- Rows that wait for the planisher, oldest first (R112). -/
  rows  : List PlRow := []
  /-- Open assay records (at most 8). -/
  recs  : List AssayRec := []
  /-- The GEMM that runs (R68). -/
  gemm  : Option Gemm := none
deriving DecidableEq, Repr

/-- Where a granule's data is to be had (R250). -/
inductive Where where
  /-- At this local address (a frame, or the host window of this device). -/
  | here (addr : Nat)
  /-- At another device, under its object address. -/
  | away (dev : Nat)
  /-- In the host window of another device, at this offset (R254). -/
  | hostAt (dev off : Nat)
  /-- The serving device is to be asked. -/
  | ask (dev : Nat)
  /-- The owner has not placed it. -/
  | empty
  /-- The request ends (R216). -/
  | ended
deriving DecidableEq, Repr

/-- Hidden part of a stream prefetcher (R226 to R229). -/
structure Strm where
  /-- Next line to issue, lines in flight, ring lines valid, lines poisoned, and lines the consumer has freed. -/
  next   : Nat := 0
  flight : List Nat := []
  valid  : List Nat := []
  bad    : List Nat := []
  freed  : Nat := 0
  /-- The granule resolved last and what came of it (R227), and where each line in flight lies. -/
  res    : Option (Nat × Where) := none
  lies   : List (Nat × Option Where) := []
  /-- Bytes that the producer of a store stream has filled, as a mask by line (R229). -/
  fill   : List (Nat × Nat) := []
deriving DecidableEq, Repr

/-! ### memory -/

/-- A die-cache line that is resident (R219): its state, and what DRAM below it holds while it is dirty. -/
structure CLine where
  dirty : Bool
  keep  : Bool
  use   : Nat
  below : List Byte
  belowBad : List Nat
deriving DecidableEq, Repr

/-- Memory-controller state that no register shows. -/
structure Dram where
  /-- Resident lines, by local address div 256; the running use count orders recency (R222). -/
  lines : List (Nat × Option CLine) := []
  tick : Nat := 0
  /-- Flush walks in progress, by controller 8d + c. -/
  flush : List Nat := []
  /-- Open row of a bank, by (global channel × 128 + bank) (R209). -/
  rows : List (Nat × Option Nat) := []
  /-- Next burst of the patrol scrub, by global channel (R232). -/
  scrub : List (Nat × Nat) := []
  /-- Parts open at the entry of a running grace, by die (R235, R324): Crucible × 2^28 + step mod 2^16 × 2^12 + job. -/
  grace : List (Nat × List Nat) := []
  /-- Bursts granted in the running 1 µs window of a capped channel, by global channel (R233). -/
  bursts : List (Nat × Nat) := []
  /-- Beats of DRAM that can no longer be corrected, by local address div 64 (R216). -/
  lost : List Nat := []
  /-- Readings of 32 µs since a grace began, by die (R235). -/
  graceT : List (Nat × Nat) := []
deriving DecidableEq, Repr

/-! ### placement -/

/-- A write held at the source slice while its granule moves (R259). -/
structure HeldWrite where
  off  : Nat
  data : List Byte
  bad  : Bool
deriving DecidableEq, Repr

/-- Why a granule moves. -/
inductive MoveWhy where
  | evict | pull | giveBack | evacuate
  /-- The holder's side of a pull: the owner runs the move. -/
  | pulled
deriving DecidableEq, Repr

/-- A granule move in flight (R259).  Places are frame numbers on a device; a host place is a host-window granule. -/
structure Move where
  key    : Nat
  why    : MoveWhy
  /-- Source frame here (local address), when the data leaves this device. -/
  srcAddr : Option Nat
  dstDev  : Nat
  /-- Destination local address on dstDev, or host-window offset when `host`. -/
  dstAddr : Nat
  host    : Bool
  done    : Bool
  writes  : List HeldWrite
deriving DecidableEq, Repr

/-- A granule fetched into a local frame by 128 reads: a replica copy (R260) or a pull (R258). -/
structure Fetch where
  key   : Nat
  frame : Nat
  cls   : Nat
  pin   : Bool
  pull  : Bool
  got   : List Nat
deriving DecidableEq, Repr

/-- A mend in flight (R264): the granule, the sources still to try, and its class. -/
structure Mend where
  key  : Nat
  cls  : Nat
  srcs : List Nat
  remake : Bool
deriving DecidableEq, Repr

/-- Placement-engine state that no register or memory table shows. -/
structure Placement where
  /-- Reserved ranges by slot: first frame and length (R242). -/
  resv : List (Nat × Option (Nat × Nat)) := []
  /-- Granule moves (R259) and mends (R264) in flight. -/
  moves : List Move := []
  mends : List Mend := []
  /-- Evacuation: successor and granules moved as POISON. -/
  evac : Option Nat := none
  evacBad : Nat := 0
  /-- The step of R265 that runs, 1 to 4. -/
  evacStep : Nat := 0
  /-- Global channels whose frame map is being rebuilt (R267). -/
  rebuild : List Nat := []
  /-- Keys whose ledger entry an uncorrectable error has lost (R267). -/
  lostKeys : List Nat := []
  /-- Beats of a POISON granule written whole since it was marked, by key (R264). -/
  rewritten : List (Nat × List Nat) := []
  /-- Granules being fetched by RD packets. -/
  fetches : List Fetch := []
  /-- Object records of an evacuated owner that this device serves (R265), by object id. -/
  adopted : List (Nat × Nat) := []
  /-- Keys held by the ledger caches, most recent first, and whether the entry has changed since it was written back, by link
  die × 16384 + set (R293). -/
  ledc : List (Nat × List (Nat × Bool)) := []
  /-- Frames still to free in the eviction round, and the next frame it looks at once its sweep has begun (R256). -/
  need : Nat := 0
  round : Option Nat := none
  /-- Granules taken in the host regions, as region × 2^28 + granule of the region. -/
  slots : List Nat := []
  /-- Host granule that a granule of an own object, held by a peer, is on its way to (R257), by key. -/
  homing : List (Nat × Option Nat) := []
  /-- The EVACUATE of mailbox 1 that is still running. -/
  busy : Option CmdSrc := none
  /-- Local moves use these tags. -/
  nextTag : Nat := 0
deriving DecidableEq, Repr

/-! ### fabric -/

/-- Link-layer state that no register shows, by global link number. -/
structure Link where
  /-- Next sequence number to send, and last accepted in order. -/
  txSeq  : Nat := 0
  rxAck  : Nat := 4095
  /-- Sent packets not acknowledged: last sequence number and packet, oldest first. -/
  replay : List (Nat × Packet) := []
  /-- Flits of a packet being received: VC and bytes. -/
  part   : List (Nat × List Byte) := []
  /-- VCs whose packet in reception has met the poison pattern, and whole packets that wait for the router. -/
  partBad : List Nat := []
  inbox  : List Packet := []
  /-- Waiting for flit ACK + 1 after a NAK. -/
  naking : Bool := false
  /-- Consecutive NAKs sent for one flit; the ACK of the last control flit received, and the NAKs received with it. -/
  naks   : Nat := 0
  nakAck : Nat := 4095
  nakIn  : Nat := 0
  /-- Packets accepted before the link last trained that still wait for the router: they hold none of its credits (R280). -/
  kept   : List Packet := []
  /-- Last sequence accepted when the link left UP, of each time that no RESYNC has asked for, oldest first; answers given, by the
  request's TAG; one was given before this end saw the link fail (R280). -/
  ends   : List Nat := []
  asked  : List (Nat × Nat) := []
  early  : Bool := false
  /-- Free credits toward the far end by VC, credits last received, and flits freed here by VC. -/
  credit : List Nat := [40, 40, 88, 40, 40, 88, 40, 40, 88]
  rxCred : List Nat := [0, 0, 0, 0, 0, 0, 0, 0, 0]
  freed  : List Nat := [0, 0, 0, 0, 0, 0, 0, 0, 0]
  /-- Credits waiting to be returned by VC. -/
  owed   : List Nat := [0, 0, 0, 0, 0, 0, 0, 0, 0]
  /-- Flit slots since the last LCTL; retries in this second (R275). -/
  slots  : Nat := 0
  retries : Nat := 0
deriving DecidableEq, Repr

/-- Packets of a link that left UP, with their last sequence numbers, until its RESYNC of that TAG is answered (R280). -/
structure Life where
  tag  : Nat
  kept : List (Nat × Packet)
deriving DecidableEq, Repr

/-- A request of this device for an object address, as it is sent to the holder and sent again after a STALE reply (R250, R251). -/
inductive ObjReq where
  | read (oa : Nat)
  | write (oa : Nat) (v : List Byte) (bad : Bool)
  /-- A line that a unit of the device reads inside its command. -/
  | unit (oa : Nat)
  /-- A stream's line: its number, object address, bytes of the ring and hint. -/
  | load (die face strm line oa : Nat) (hint : Nat)
  | store (die face strm line oa : Nat) (v : List Byte) (bad : Bool) (hint : Nat)
deriving DecidableEq, Repr

/-- Use of a request tag sent into the fabric. -/
inductive TagUse where
  /-- A request to a holder, with the STALE replies it has met. -/
  | obj (r : ObjReq) (stale : Nat)
  /-- The serving device is asked where the granule of a request lies. -/
  | lookup (r : ObjReq) (stale : Nat)
  /-- A write to a host window or a mend's read. -/
  | write
  /-- A write to the mirror of a granule, with the WR that is answered after it (R262). -/
  | mirror (p : Option Packet)
  /-- A request that this owner serves from the host window of its anchor, for the packet to answer. -/
  | relay (p : Packet)
  /-- Chunk c of a fetched granule. -/
  | fetch (key c : Nat)
  /-- The MIG DONE of a granule that left. -/
  | mig (key : Nat)
  | peer
  | mailbox (m : Nat)
  /-- The block of the forwarded command of mailbox m (R384). -/
  | block (m : Nat)
  | summary
  /-- A BAR packet, with its count of returns (R343). -/
  | bar (m : BarMsg) (count : Nat)
  | other
deriving DecidableEq, Repr

/-- Router state that no register shows. -/
structure Fabric where
  /-- Link layers, by global link number (R278). -/
  links : List (Nat × Link) := []
  /-- Requests of this device that await a response, by tag. -/
  tags : List (Nat × Option TagUse) := []
  nextTag : Nat := 0
  /-- Rotating pointers of arbiters (R349), by arbiter number. -/
  rot : List (Nat × Nat) := []
  /-- Packets to resend when a RESYNC is answered, by failed link: sequence number and packet. -/
  resync : List (Nat × List Life) := []
  /-- Packets to go on over the other links of a trunk, by port, oldest first (R280). -/
  resend : List (Nat × List Packet) := []
  /-- Low-priority requesters promoted for one grant (R351), each once. -/
  promo : List (Arbiter × LowReq) := []
  /-- Packets waiting for credit at the router. -/
  waiting : List Packet := []
  /-- Number of links the ORD = 1 packets of a trunk are spread over, by port (R290). -/
  trunkN : List (Nat × Nat) := []
deriving DecidableEq, Repr

/-! ### reduction -/

/-- A staging entry (R295, R314): the FP32 images of a block's sums, its record (R301), and its recency. -/
structure Staged where
  sums : List Nat
  word : Nat
  use  : Nat
deriving DecidableEq, Repr

/-- A block open in a packer's scoreboard (R304): FP32 images by element, with poison. -/
structure OpenBlock where
  job   : Nat
  block : Nat
  elems : List (Nat × Nat)
  bad   : Bool
deriving DecidableEq, Repr

/-- Reduction state that no register shows. -/
structure Cru where
  /-- The directory has been written since the last check (R298); entries that failed it. -/
  dirty : Bool := true
  bad   : List Nat := []
  /-- Staging stores, by ((Crucible × 2 + witness) × 4,096 + job) × 2^24 + block. -/
  stage : List (Nat × Option Staged) := []
  tick  : Nat := 0
  /-- Jobs whose deadline runs on this device (R317). -/
  timers : List Nat := []
  /-- Format of a block's first applied arrival on a chain link (R321), by job × 2^24 + block. -/
  fmts  : List (Nat × Nat) := []
  /-- Open blocks of the packers, by die. -/
  packs : List (Nat × List OpenBlock) := []
  /-- Contributions sent toward each Crucible of a job in this step, witness copies excluded, by job × 128 + Crucible, and those
  with a loss (R309, R310); what a chain link forwards counts under job + 4,096. -/
  sent  : List (Nat × Nat) := []
  lost  : List Nat := []
  /-- Parts opened or kept by a sync microstep since they opened, as job × 128 + Crucible (R315). -/
  seen  : List Nat := []
deriving DecidableEq, Repr

/-! ### observation -/

/-- A fault record (R436). -/
structure FaultRec where
  cls    : Nat
  fwd    : Bool
  dev    : Nat
  code   : Nat
  fseq   : Nat
  time   : Nat
  srcOff : Nat
  step   : Nat
  detail : Nat
deriving DecidableEq, Repr

/-- A trace packet in the FIFO (R428, R430): kind, time stamp and 48 payload bytes as a number. -/
structure TracePkt where
  kind    : Nat
  time    : Nat
  payload : Nat
deriving DecidableEq, Repr

/-- A hallmark being taken (R421 to R424): its watch entry as it was, when it fell due, and what has been gathered. -/
structure Hallmark where
  /-- Entry number, and words 0 to 3 of the entry. -/
  watch   : Nat
  words   : List Nat
  step    : Nat
  micro   : Nat
  phase   : Nat
  /-- Next sample. -/
  next    : Nat := 0
  taken   : Nat := 0
  skipped : Nat := 0
  poison  : Bool := false
  crc     : Nat := 0
  /-- FP32 images. -/
  min     : Nat := 0x7F800000
  max     : Nat := 0xFF800000
  sum     : Nat := 0
  sumc    : Nat := 0
  sq      : Nat := 0
  sqc     : Nat := 0
  nanc    : Nat := 0
  infc    : Nat := 0
deriving DecidableEq, Repr

/-- Observation state that no register shows. -/
structure Observe where
  /-- The AON fault log, newest first, at most 64 records (R438). -/
  log   : List FaultRec := []
  /-- Sequence of the next fault record (R436). -/
  fseq  : Nat := 0
  /-- Records of classes 0 to 3 that reached ring and trace in this 1 ms window (R439), by class. -/
  win   : List (Nat × Nat) := []
  /-- Trace FIFO, oldest first, the next packet sequence and the packets lost since the last packet sent. -/
  fifo  : List TracePkt := []
  pseq  : Nat := 0
  lost  : Nat := 0
  trunc : Bool := false
  /-- FAULT_N is asserted. -/
  faultN : Bool := false
  /-- The trigger of a running spoil dump: 0 phase watchdog, 1 channel 15 watchdog, 2 fatal, 3 DUMP_NOW. -/
  dump  : Option Nat := none
  /-- Words of the descriptors each face held when the dump began, by face of the package (R433). -/
  dumpHeld : List (Nat × List Nat) := []
  /-- Packets lost since the last packet sent when the dump began: its first packet carries them (R428, R434). -/
  dumpLost : Nat := 0
  /-- Hallmarks due on each die's engine, the one being taken first. -/
  marks : List (Nat × List Hallmark) := []
deriving DecidableEq, Repr

/-! ### start-up, configuration and power -/

/-- A compaction under way (R404): its target bank, the image it writes, whether it waits for the target's erase, and the
CFG_WRITE it answers, when it is one. -/
structure Compaction where
  target  : Nat
  image   : List Byte
  waiting : Bool
  src     : Option CmdSrc
deriving DecidableEq, Repr

/-- An append held during a compaction or a configuration read (R405). -/
structure Append where
  src : CmdSrc
  off : Nat
  val : Nat
  /-- Its read-back will pass. -/
  good : Bool
  /-- It has been answered RUNNING. -/
  told : Bool
deriving DecidableEq, Repr

/-- The fuse array of R395. -/
structure Fuses where
  keyHash : List Nat := [0, 0, 0, 0]
  keyProg : Nat := 0
  keyRev  : Nat := 0
  svn     : Nat := 0
  dbgLock : Bool := false
  idKey   : Nat := 0
deriving DecidableEq, Repr

/-- State of PD0 that no register shows: supplies and pins, the image chosen, the configuration in effect, the NVM. -/
structure Boot where
  /-- VAON is up. -/
  on     : Bool := true
  /-- PERST_N is asserted. -/
  perst  : Bool := true
  /-- Firmware slot the ROM chose, and the image's SVN and measurement (R398, R410). -/
  chosen : Option Nat := none
  fwSvn  : Nat := 0
  fwMeas : Nat := 0
  /-- Configuration image in effect, after replay (R400). -/
  cfg    : List Byte := []
  /-- IDE_REQ in effect (R390, R412). -/
  ideReq : Bool := false
  /-- A warm reset runs its stages. -/
  warming : Bool := false
  /-- Stage PCIE has begun (R391), and PD1 holds its configuration space (R393); both stay over a warm reset. -/
  pcie   : Bool := false
  cfgHeld : Bool := false
  /-- Domains still to turn on, in order (R392), and channels whose training has ended. -/
  powerQ : List Nat := []
  trained : List Nat := []
  /-- The fuse array (R395). -/
  fuses  : Fuses := {}
  /-- The NVM (R396): a byte not listed is erased, 0xFF. -/
  nvm    : List Host.Cell := []
  /-- Banks that still hold programmed sectors and are being erased. -/
  erase  : List Nat := []
  /-- The compaction under way (R404), and the appends held meanwhile (R405). -/
  compact : Option Compaction := none
  held   : List Append := []
  /-- The journal ends in a record that replay stops at: it is compacted before the next append (R402, R403). -/
  mustCompact : Bool := false
  /-- A FW_WRITE that runs: its source and image. -/
  fwWrite : Option (CmdSrc × List Byte) := none
  /-- Open SPDM sessions, oldest first: over the sideband (true) or DOE (R409). -/
  sessions : List Bool := []
  /-- The requester IDs of the IDE stream: the root port's range (R411). -/
  ideRids : Nat × Nat := (0, 0)
  /-- The boundary-scan register of the test port, as SAMPLE/PRELOAD or EXTEST last shifted it in. -/
  scan   : Nat := 0
deriving DecidableEq, Repr

/-- Power-governor state that no register shows. -/
structure Power where
  /-- Power of each VCORE rail at its last poll and the one before, in mW, and reads failed in a row. -/
  rails  : List (Nat × (Nat × Nat)) := []
  fails  : List (Nat × Nat) := []
  /-- p100 at the last ticks in mW, newest first, at most 10. -/
  hist   : List Nat := []
  /-- Ticks in a row below 90 % of the limit (R452). -/
  quiet  : Nat := 0
  /-- Temperature steps of R455 in force. -/
  tj     : Bool := false
  tj110  : Bool := false
  /-- A PWR_CAP_N level has been taken and its 1 ms deadline runs; the deadline was missed. -/
  capRun : Bool := false
  capLate : Bool := false
  /-- A step up whose rails are ramping: its target point. -/
  up     : Option Nat := none
  /-- Energy not yet counted in PWR_ENERGY, in units of 0.1 µJ. -/
  eRem   : Nat := 0
  /-- THERMTRIP_N is asserted. -/
  trip   : Bool := false
  /-- Units whose clock is gated for idleness. -/
  idle   : List Nat := []
deriving DecidableEq, Repr

/-! ### the device -/

/-- The queue counter sets that one event resets (R416): of a face, a die or a link die.  TAG of the work being counted, the largest
occupancy so far by set, and of the copy made at the last reset TAG and MAX, while no read has shown that a later edge has passed. -/
structure QGroup where
  tag   : Nat := 0
  max   : List (Nat × Nat) := []
  final : Option (Nat × List (Nat × Nat)) := none
deriving DecidableEq, Repr

/-- The whole state of the device and its queue of commands.  `mem` is what a reader of the local address space sees (a dirty
die-cache line included); a byte not listed reads 0. `poison` lists the 64-byte beats, by address div 64, whose data is
poisoned.  `freeN` numbers the free values drawn (the model's own field). -/
structure State where
  pending : List Instr
  regs    : List (Nat × Word)
  mem     : List Host.Cell
  poison  : List Nat
  out     : List Output
  freeN   : Nat
  /-- Registers whose parity stop is in force until reset (R375). -/
  parStop : List Nat
  hif     : HostIf
  eng     : StepEng
  dies    : List (Nat × Die)
  faces   : List (Nat × Face)
  strms   : List (Nat × Strm)
  benches : List (Nat × Bench)
  cru     : Cru
  dram    : Dram
  plc     : Placement
  fab     : Fabric
  obs     : Observe
  boot    : Boot
  pwr     : Power
  /-- Queue counter sets: of face F at F, of die d at 1,024 + d, of link die k at 1,040 + k (R416 to R419). -/
  queues  : List (Nat × QGroup)
deriving DecidableEq, Repr

/-- Why a step stops with a fault.  No command of the spec faults, so nothing raises one. -/
inductive Fault where
  /-- Kept so that the type is inhabited; no meaning answers it (safe). -/
  | none
deriving DecidableEq, Repr

/-- Why a step refuses. -/
inductive Refusal where
  /-- A private debug instruction of the test port (R413) while DBG_LOCK is not blown: the spec says only that it reaches the
  Foreman and register space (safe). -/
  | privateDebug
  /-- A command that has no meaning yet, by its mnemonic: the arms of Dispatch raise it (safe). -/
  | notModelled (mnemonic : String)
deriving DecidableEq, Repr

/-- The device right after POWER-ON reset (R388): every register at its reset value, nothing resident, nothing queued. -/
def State.reset : State where
  pending := []
  regs := []
  mem := []
  poison := []
  out := []
  freeN := 0
  parStop := []
  hif := {}
  eng := {}
  dies := []
  faces := []
  strms := []
  benches := []
  cru := {}
  dram := {}
  plc := {}
  fab := {}
  obs := {}
  boot := {}
  pwr := {}
  queues := []

end Sys2Proof.Machine
end

