-- ==== Sys2Proof/Machine/Ops.lean ====
section
/-! DEFINITION. Named operations over the state: registers and their fields (R364 to R371), event flags and their summaries,
MSI-X (R387), and answers of a meaning. -/

namespace Sys2Proof.Machine

/-- The outcome of a command. -/
abbrev Res := Host.Outcome State Fault Refusal

/-- The next state of a command: its effect never touches the queue.  Without VAON nothing has an effect (R448). -/
def done (s t : State) : Res := .next { (if s.boot.on then t else s) with pending := s.pending }
/-- The next state of the rise and the loss of VAON. -/
def doneAlways (s t : State) : Res := .next { t with pending := s.pending }

/-! ### registers -/

/-- The value of a register (the owning unit's value: the mirror's delay of R369 is not modelled). -/
def State.reg (s : State) (a : Nat) : Nat := (mapGet regReset a s.regs).toNat
/-- Set a register. -/
def State.setReg (s : State) (a v : Nat) : State := { s with regs := mapSet regReset a (BitVec.ofNat 32 v) s.regs }
/-- The value of a field. -/
def State.fld (s : State) (a : Nat) (f : Fld) : Nat := bits (s.reg a) f.lo f.w
/-- Set a field. -/
def State.setFld (s : State) (a : Nat) (f : Fld) (v : Nat) : State := s.setReg a (setBits (s.reg a) f.lo f.w v)
/-- A one-bit field as a truth value. -/
def State.flag (s : State) (a : Nat) (f : Fld) : Bool := s.fld a f != 0
/-- Set a one-bit field. -/
def State.setFlag (s : State) (a : Nat) (f : Fld) (b : Bool) : State := s.setFld a f (b2n b)
/-- A 64-bit pair with its low word at `a` (R373). -/
def State.pair (s : State) (a : Nat) : Nat := s.reg a + s.reg (a + 4) * 2 ^ 32
/-- Set a pair. -/
def State.setPair (s : State) (a v : Nat) : State := (s.setReg a (v % 2 ^ 32)).setReg (a + 4) (v / 2 ^ 32 % 2 ^ 32)
/-- Add to a 64-bit counter pair. -/
def State.bump (s : State) (a n : Nat) : State := s.setPair a ((s.pair a + n) % 2 ^ 64)
/-- Add to a saturating counter field. -/
def State.bumpSat (s : State) (a : Nat) (f : Fld) (n : Nat) : State := s.setFld a f (satAdd f.w (s.fld a f) n)

/-- Draw the next free number. -/
def State.draw (s : State) : Nat × State := (s.freeN, { s with freeN := s.freeN + 1 })
/-- A rotating pointer moves past the winner of a grant, of n requesters (R349). -/
def State.rotNext (s : State) (arb winner n : Nat) : State :=
  { s with fab := { s.fab with rot := mapSet (fun _ => 0) arb ((winner + 1) % n) s.fab.rot } }
def State.rot (s : State) (arb : Nat) : Nat := mapGet (fun _ => 0) arb s.fab.rot
/-- A low-priority requester has its grant: its promotion is used up (R351). -/
def State.usePromo (s : State) (a : Arbiter) (r : LowReq) : State :=
  { s with fab := { s.fab with promo := s.fab.promo.filter (fun x => x != (a, r)) } }
/-- One requester has its grant at every arbiter it asks. -/
def State.usePromos (s : State) (r : LowReq) : State :=
  { s with fab := { s.fab with promo := s.fab.promo.filter (fun x => x.2 != r) } }
/-- Put something on the outside. -/
def State.emit (s : State) (o : Output) : State := { s with out := o :: s.out }

/-! ### the host path -/

/-- ROLE (R3): 1 is ANCHOR, 2 is MEMBER, anything else acts as SOLO. -/
def State.isAnchor (s : State) : Bool := s.fld PKG_ROLE PKG_ROLE_ROLE == 1
def State.isMember (s : State) : Bool := s.fld PKG_ROLE PKG_ROLE_ROLE == 2
/-- Coordinate of a device id: dimension 0 x, 1 y, 2 z (R7). -/
def coord (id dim : Nat) : Nat := bits id (8 - 4 * dim) 4
/-- Own device id (R7). -/
def State.devId (s : State) : Nat := s.fld PKG_ROLE PKG_ROLE_DEVID
/-- The device can send requests on its own PCIe link (R5, R357, R362, R412). -/
def State.canHost (s : State) : Bool :=
  !s.isMember && s.flag HIF_STAT HIF_STAT_LINK_UP && !s.flag HIF_STAT HIF_STAT_D3HOT && s.flag HIF_CTRL HIF_CTRL_DMA_EN &&
  (!s.boot.ideReq || s.flag HIF_STAT HIF_STAT_IDE)
/-- The endpoint trains its link (R391): stage PCIE has begun since the last full reset, which nothing but such a reset undoes. -/
def State.pcieOn (s : State) : Bool := s.boot.pcie
/-- The link carries messages to the host (MSI-X does not depend on DMA_EN). -/
def State.linkUp (s : State) : Bool :=
  !s.isMember && s.flag HIF_STAT HIF_STAT_LINK_UP && !s.flag HIF_STAT HIF_STAT_D3HOT

/-- Fire an MSI-X vector (R387): a message, or its pending bit while the vector is masked or the link cannot carry it. -/
def State.fire (s : State) (v : Nat) : State :=
  if s.flag (MSIX_CTRL v) MSIX_CTRL_MASK || !s.linkUp then
    s.setReg (MSIX_PBA (v / 32)) (s.reg (MSIX_PBA (v / 32)) ||| 2 ^ (v % 32))
  else s.emit (.msix v)

/-- The pending condition of a vector has ended: its pending bit is 0. -/
def State.unpend (s : State) (v : Nat) : State :=
  s.setReg (MSIX_PBA (v / 32)) (s.reg (MSIX_PBA (v / 32)) &&& (0xFFFFFFFF ^^^ 2 ^ (v % 32)))

/-! ### events and summaries -/

/-- Set bits of an RC summary register; vector 9 fires when PKG_EVENT_SUM leaves 0 (R387). -/
def State.orReg (s : State) (a m : Nat) : State := s.setReg a (s.reg a ||| m)
def State.pkgSum (s : State) (m : Nat) : State :=
  let t := s.orReg PKG_EVENT_SUM m
  if s.reg PKG_EVENT_SUM = 0 ∧ m ≠ 0 then t.fire 9 else t

/-- Summary bits of the event register at `a` (R371): the registers and masks above it, die level first. -/
def dieSumBits (o : Nat) : Nat :=
  if o = 0x10C then 1
  else if o = 0x80008 then 2
  else if 0x10000 ≤ o ∧ o < 0x18000 then 2 ^ (2 + (o - 0x10000) / 0x1000)
  else if 0x20000 ≤ o ∧ o < 0x30000 then 2 ^ (10 + (o - 0x20000) / 0x2000)
  else if 0x40000 ≤ o ∧ o < 0x80000 then 2 ^ (18 + (o - 0x40000) / 0x10000)
  else 0

/-- Raise the summaries above an event register. -/
def State.summarise (s : State) (a : Nat) : State :=
  if 0x1000000 ≤ a ∧ a < 0x2000000 then
    let d := (a - 0x1000000) / 0x100000
    let o := a % 0x100000
    let s := if 0x40000 ≤ o ∧ o < 0x80000 then
        let f := (o - 0x40000) / 0x1000
        if f < 32 then s.orReg (DIE_FACE_SUM_0 d) (2 ^ f) else s.orReg (DIE_FACE_SUM_1 d) (2 ^ (f - 32))
      else s
    let s := s.orReg (DIE_EVENT_SUM d) (dieSumBits o)
    s.pkgSum (2 ^ d)
  else if 0x2000000 ≤ a ∧ a < 0x2400000 then s.pkgSum (2 ^ (16 + (a - 0x2000000) / 0x100000))
  else if a = STEP_EVENT ∨ a = STEER_EVENT ∨ a = BAR_PEVENT then s.pkgSum (2 ^ 20)
  else if a = PLC_EVENT then s.pkgSum (2 ^ 21)
  else if a = CRU_GEVENT then s.pkgSum (2 ^ 22)
  else if a = AON_EVENT then s.pkgSum (2 ^ 23)
  else if a = HIF_EVENT then s.pkgSum (2 ^ 24)
  else if a = TRC_EVENT then s.pkgSum (2 ^ 25)
  else if a = PKG_GUARD then s.pkgSum (2 ^ 26)
  else if a = MBX_EVENT then s.pkgSum (2 ^ 27)
  else s

/-- The vector an event register drives, and the flags that count for it (R387). -/
def eventVector (a : Nat) : Option (Nat × Nat) :=
  if a = STEP_EVENT then some (3, 0xFFFFFF00)
  else if a = STEER_EVENT then some (4, 2 ^ STEER_EVENT_STORM.lo)
  else if a = TRC_EVENT then some (6, 0xFFFFFF00)
  else if a = PWR_EVENT then some (7, 0xFFFFFF00)
  else if a = HIF_EVENT then some (8, 0xFFFFFF00)
  else none

/-- A unit raises flags of its event register: SEQ advances by 1 and the flags are ORed in (R370), the summaries above it are
set (R371), and a vector fires when its pending condition arises (R387). -/
def State.raiseMask (s : State) (a m : Nat) : State :=
  let old := s.reg a
  let s1 := s.setReg a ((old / 256 * 256 ||| m) + (old + 1) % 256)
  let s2 := s1.summarise a
  match eventVector a with
  | some (v, fm) => if old &&& fm = 0 ∧ m &&& fm ≠ 0 then s2.fire v else s2
  | none => s2
/-- Raise one flag. -/
def State.raise (s : State) (a : Nat) (f : Fld) : State := s.raiseMask a (2 ^ f.lo)

/-! ### packets -/

/-- Is a device id inside the geometry of LD_GEOM (R286)? -/
def State.inGeom (s : State) (id : Nat) : Bool :=
  bits id 8 4 ≤ s.fld (LD_GEOM 0) LD_GEOM_SX && bits id 4 4 ≤ s.fld (LD_GEOM 0) LD_GEOM_SY &&
  bits id 0 4 ≤ s.fld (LD_GEOM 0) LD_GEOM_SZ
/-- The header that tells the source of a packet of any type that it cannot be delivered (R283). -/
def Packet.failed (p : Packet) (st : Nat) : Packet :=
  { type := p.type, rsp := true, src := p.dst, dst := p.src, status := st, tag := p.tag, args := p.args, addr := p.addr, ext := p.ext }
/-- A packet of this device goes to its router, ORD by its type (R282); for an id outside the geometry UNREACH comes back in its place
and it is not sent (R285). -/
def State.sendPlain (s : State) (p : Packet) : State :=
  let q : Packet := { p with src := s.devId, ord := p.type != 2 && p.type != 3 }
  s.emit (.packet (if s.inGeom p.dst then q else Packet.failed q 3))
/-- A packet that is to be answered, with a fresh tag and its use. -/
def State.send (s : State) (p : Packet) (u : TagUse) : State :=
  let t := s.fab.nextTag
  let s := s.sendPlain { p with tag := t }
  { s with fab := { s.fab with
      nextTag := (t + 1) % 65536
      tags := mapSet (fun _ => none) t (some u) s.fab.tags } }
/-- The response to a request packet (R281, R282). -/
def Packet.reply (p : Packet) (st : Nat) (data : List Byte) (poison : Bool) : Packet :=
  { type := p.type, rsp := true, src := p.dst, dst := p.src, status := st, tag := p.tag, data := data, poison := poison }

/-- Bytes an RD asks for, and the data of a response that is not OK: an RD's has its length all the same (R282). -/
def rdLen (p : Packet) : Nat := 32 * bits p.args 0 6
def Packet.blank (p : Packet) : List Byte := if p.type = 0 then List.replicate (rdLen p) 0 else []

/-- Ones at bits lo to hi − 1. -/
def onesFrom (lo hi : Nat) : Nat := 2 ^ hi - 2 ^ lo
/-- A WR of up to 512 bytes (R282): whole flits from the 32-byte boundary below, byte enables in EXT. -/
def wrPkt (dst addr : Nat) (ak : Bool) (v : List Byte) (bad : Bool) (hint : Nat) : Packet :=
  let lo := addr % 32
  let n := roundUp (lo + v.length) 32
  let first := onesFrom lo (min 32 (lo + v.length))
  let last := if n = 32 then first else onesFrom 0 (lo + v.length - (n - 32))
  { type := 1, ord := true, ak := ak, poison := bad, src := 0, dst := dst, args := hint, addr := addr - lo,
    ext := first + last * 2 ^ 32, data := List.replicate lo 0 ++ v ++ List.replicate (n - lo - v.length) 0 }
/-- Is byte i of a WR enabled?  A lone flit takes the mask of the first. -/
def wrEnabled (p : Packet) (i : Nat) : Bool :=
  if i < 32 then bit p.ext i
  else if p.data.length ≤ i + 32 then bit p.ext (32 + (i + 32 - p.data.length)) else true
/-- Runs of enabled bytes with their addresses; `cur` is the run being collected, newest byte first. -/
def wrRuns (p : Packet) (a : Nat) : Nat → List Byte → List Byte → List (Nat × List Byte)
  | i, [], cur => if cur.isEmpty then [] else [(a + i - cur.length, cur.reverse)]
  | i, b :: l, cur =>
    if wrEnabled p i then wrRuns p a (i + 1) l (b :: cur)
    else (if cur.isEmpty then [] else [(a + i - cur.length, cur.reverse)]) ++ wrRuns p a (i + 1) l []

/-! ### unit records -/

def State.die (s : State) (d : Nat) : Die := mapGet (fun _ => {}) d s.dies
def State.setDie (s : State) (d : Nat) (x : Die) : State := { s with dies := mapSet (fun _ => {}) d x s.dies }
/-- Face F = 64d + f of the package (R13). -/
def State.face (s : State) (d f : Nat) : Face := mapGet (fun _ => {}) (64 * d + f) s.faces
def State.setFace (s : State) (d f : Nat) (x : Face) : State := { s with faces := mapSet (fun _ => {}) (64 * d + f) x s.faces }
def State.strm (s : State) (d f x : Nat) : Strm := mapGet (fun _ => {}) ((64 * d + f) * 8 + x) s.strms
def State.setStrm (s : State) (d f x : Nat) (v : Strm) : State :=
  { s with strms := mapSet (fun _ => {}) ((64 * d + f) * 8 + x) v s.strms }
def State.chan (s : State) (c : Nat) : Chan := mapGet (fun _ => {}) c s.eng.chans
def State.setChan (s : State) (c : Nat) (x : Chan) : State :=
  { s with eng := { s.eng with chans := mapSet (fun _ => {}) c x s.eng.chans } }
def State.link (s : State) (l : Nat) : Link := mapGet (fun _ => {}) l s.fab.links
def State.setLink (s : State) (l : Nat) (x : Link) : State :=
  { s with fab := { s.fab with links := mapSet (fun _ => {}) l x s.fab.links } }

/-- Flits of a packet: the header and its data flits. -/
def pktFlits (p : Packet) : Nat := 1 + p.data.length / 32
/-- Flits kept for replay on a link. -/
def State.replayFlits (s : State) (l : Nat) : Nat := (s.link l).replay.foldl (fun n e => n + pktFlits e.2) 0

/-- The counter sets of a face, die or link die (R416). -/
def State.qgroup (s : State) (g : Nat) : QGroup := mapGet (fun _ => {}) g s.queues
def State.setQgroup (s : State) (g : Nat) (x : QGroup) : State := { s with queues := mapSet (fun _ => {}) g x s.queues }
/-- Set i of group g sees the occupancy o: MAX := max(MAX, o) (R417). -/
def State.noteQueue (s : State) (g i o : Nat) : State :=
  let x := s.qgroup g
  s.setQgroup g { x with max := mapSet (fun _ => 0) i (max (mapGet (fun _ => 0) i x.max) o) x.max }
/-- A reset event of group g (R418): the final values go to the copy with the ended work's TAG, and the sets start again on the work
`tag`, whose queues hold `now` at that moment. -/
def State.resetQueue (s : State) (g tag : Nat) (now : List (Nat × Nat)) : State :=
  let x := s.qgroup g
  s.setQgroup g { tag := tag, final := some (x.tag, x.max),
                  max := now.foldl (fun m e => mapSet (fun _ => 0) e.1 e.2 m) [] }

def State.bench (s : State) (d f b : Nat) : Bench := mapGet (fun _ => {}) ((64 * d + f) * 16 + b) s.benches
def State.setBench (s : State) (d f b : Nat) (x : Bench) : State :=
  { s with benches := mapSet (fun _ => {}) ((64 * d + f) * 16 + b) x s.benches }

/-- A step runs (STEP_STAT.RUNNING). -/
def State.running (s : State) : Bool := s.flag STEP_STAT STEP_STAT_RUNNING
/-- HOLD while no step runs: EN is 0 or the host path is lost (STEP_STAT). -/
def State.updHold (s : State) : State :=
  if s.running then s
  else s.setFlag STEP_STAT STEP_STAT_HOLD (!s.flag STEP_CTRL STEP_CTRL_EN || !s.flag PKG_ROLE PKG_ROLE_HOST_PATH)

/-- HOST_PATH of PKG_ROLE: the own link in D0, or a valid anchor for a MEMBER. -/
def State.hostPathNow (s : State) : Bool :=
  if s.isMember then s.flag (LD_DEVID 0) LD_DEVID_ANCHOR_V
  else s.flag HIF_STAT HIF_STAT_LINK_UP && !s.flag HIF_STAT HIF_STAT_D3HOT
def State.setHostPath (s : State) : State := (s.setFlag PKG_ROLE PKG_ROLE_HOST_PATH s.hostPathNow).updHold
/-- A MEMBER looks at its host path: whether its anchor has a link and is not fatal is the anchor's state, and free here (R7, R357). -/
def State.seeAnchor (s : State) : State :=
  if !s.isMember then s
  else
    let r := s.draw
    (r.2.setFlag PKG_ROLE PKG_ROLE_HOST_PATH (s.hostPathNow && Config.anchorPath r.1)).updHold

/-- Duty of the governor, in sixteenths (R452). -/
def State.duty (s : State) : Nat := s.fld PWR_STAT PWR_STAT_DUTY
/-- First cycle from c on in which a face sequencer admits a wave: the first n of each 16 cycles at duty n (R452; which n is a DESIGN
CHOICE). -/
def waveSlot (duty c : Nat) : Nat := if 16 ≤ duty ∨ c % 16 < duty then c else c / 16 * 16 + 16
/-- A unit gets work: its clock runs again (R74, R126, R165, R329). -/
def State.wake (s : State) (unit : Nat) : State := { s with pwr := { s.pwr with idle := s.pwr.idle.erase unit } }

/-- Is domain PD j on (PKG_PD_STAT)? -/
def State.pdOn (s : State) (j : Nat) : Bool := bit (s.reg (PKG_PD_STAT (j / 32))) (j % 32)

end Sys2Proof.Machine
end

