-- ==== Sys2Proof/Machine/Faults.lean ====
section
/-! DEFINITION. Memory behind the host window, trace capture (R428 to R430), fault records (R436 to R441) and the start of a
spoil dump (R431). -/

namespace Sys2Proof.Machine

/-- Host-window base in the local address space (R366). -/
def hwBase : Nat := 0x400000000000

/-- Set one byte of memory. -/
def State.setByte (s : State) (a : Nat) (b : Byte) : State := { s with mem := mapSet (fun _ => 0) a b s.mem }
/-- Set bytes from address `a`. -/
def setBytes : List Byte → Nat → List Host.Cell → List Host.Cell
  | [], _, m => m
  | b :: l, a, m => setBytes l (a + 1) (mapSet (fun _ => 0) a b m)
/-- Bytes from address `a`. -/
def getBytes (m : List Host.Cell) (a : Nat) : Nat → List Byte
  | 0 => []
  | n + 1 => mapGet (fun _ => 0) a m :: getBytes m (a + 1) n

/-- The PCIe address of a host-window offset (R362). -/
def State.hostAddr (s : State) (off : Nat) : Nat :=
  (s.fld HIF_HWIN_BASE_LO HIF_HWIN_BASE_LO_ADDR * 65536 + s.fld HIF_HWIN_BASE_HI HIF_HWIN_BASE_HI_ADDR * 2 ^ 32 + off) % 2 ^ 64
/-- A write cut at every multiple of 512 bytes, the largest payload (R355). -/
def payloads : Nat → Nat → List Byte → List (Nat × List Byte)
  | 0, _, _ => []
  | n + 1, off, v => if v.isEmpty then [] else
    let k := 512 - off % 512
    (off, v.take k) :: payloads n (off + k) (v.drop k)
/-- A posted write of this device into host memory at window offset `off` (R362); lost when the link cannot carry it. -/
def State.hostPut (s : State) (off : Nat) (v : List Byte) : State :=
  if s.canHost then
    let out := ((payloads v.length off v).map (fun p => Output.hostWrite (s.hostAddr p.1) p.2)).reverse ++ s.out
    { (s.bump HIF_WR_BYTES_LO v.length) with out := out, mem := setBytes v (hwBase + off) s.mem }
  else s

/-- The 32 bytes of a fault record (R436). -/
def FaultRec.bytes (r : FaultRec) : List Byte :=
  leBytes 2 (r.cls + b2n r.fwd * 8 + r.dev * 16) ++ leBytes 2 r.code ++ leBytes 4 r.fseq ++ leBytes 8 r.time ++
  leBytes 4 r.srcOff ++ leBytes 4 r.step ++ leBytes 8 r.detail

/-- PKG_TIME as it stands: a free value each time it is looked at. -/
def State.now (s : State) : Nat × State := (Config.pkgTime s.freeN, { s with freeN := s.freeN + 1 })

/-- Source bit of a trace kind in TRC_CTRL.SRC (R429). -/
def traceSrc (kind : Nat) : Option Nat := if 1 ≤ kind ∧ kind ≤ 8 then some (kind - 1) else none

/-- Capture a trace packet of an enabled kind: queued, or discarded and counted when the FIFO is full, PD2 is off (R443) or a dump
runs. -/
def State.capture (s : State) (kind payload : Nat) : State :=
  match traceSrc kind with
  | none => s
  | some b =>
    if s.flag TRC_CTRL TRC_CTRL_EN && bit (s.fld TRC_CTRL TRC_CTRL_SRC) b then
      if s.obs.dump.isSome || 4096 ≤ s.obs.fifo.length || !s.pdOn 2 then
        let s := s.bump TRC_DROP_LO 1
        { s with obs := { s.obs with lost := satAdd 16 s.obs.lost 1 } }
      else
        let (t, s) := s.now
        let s := { s with obs := { s.obs with fifo := s.obs.fifo ++ [TracePkt.mk kind (t * 8) payload] } }
        ((s.noteQueue 1042 33 s.obs.fifo.length).setFld TRC_STAT TRC_STAT_FIFO s.obs.fifo.length).usePromos .trace
    else s

/-- Number of records in the ring register pair PROD, CONS. -/
def ringUsed (prod cons : Nat) : Nat := (prod + 2 ^ 32 - cons) % 2 ^ 32

/-- log2 of a ring's records: 6 to 16, other values act as 6 (R443, R444). -/
def ringLog (n : Nat) : Nat := if 6 ≤ n ∧ n ≤ 16 then n else 6

/-- Write a record to the fault ring of R438: dropped and counted when it is full, not valid or out of reach. -/
def State.faultRing (s : State) (r : FaultRec) : State :=
  let size := 2 ^ ringLog (s.fld FR_RING_LO FR_RING_LO_SIZE)
  let prod := s.reg FR_PROD
  let cons := s.reg FR_CONS
  if s.isMember || !s.flag FR_RING_HI FR_RING_HI_V then s
  else if size ≤ ringUsed prod cons || !s.canHost then s.bumpSat FR_DROP FR_DROP_COUNT 1
  else
    let base := s.fld FR_RING_LO FR_RING_LO_ADDR * 4096 + s.fld FR_RING_HI FR_RING_HI_ADDR * 2 ^ 32
    let s := s.hostPut (base + prod % size * 32) r.bytes
    let s := s.setReg FR_PROD (prod + 1)
    if prod = cons then s.fire 0 else s

/-- The suppression counter of a class (R439). -/
def supprFld (cls : Nat) : Fld := ⟨8 * cls, 8⟩

/-- Discard and count what waits in the trace FIFO as a dump begins: what was lost before goes with the dump's first packet. -/
def State.dropFifo (s : State) : State :=
  let n := s.obs.fifo.length
  { s with obs := { s.obs with fifo := [], lost := min n 65535, dumpLost := s.obs.lost } }.bump TRC_DROP_LO n

/-- A dump takes the trace port. -/
def State.dumpOn (s : State) (trigger : Nat) (held : List (Nat × List Nat)) : State :=
  let s := { s with obs := { s.obs with dump := some trigger, dumpHeld := held } }
  let s := s.setFld TRC_STAT TRC_STAT_FIFO 0
  let s := s.setFlag TRC_STAT TRC_STAT_DUMPING true
  let s := s.setFlag TRC_STAT TRC_STAT_DEST (!s.flag TRC_STAT TRC_STAT_LINK)
  s.raise TRC_EVENT TRC_EVENT_DUMP_START

/-- Start a spoil dump (R431): it takes the trace port, and a trigger during a dump is only counted. -/
def State.startDump (s : State) (trigger : Nat) : State :=
  if s.obs.dump.isSome then s.raise TRC_EVENT TRC_EVENT_DUMP_MISSED
  else s.dropFifo.dumpOn trigger (s.faces.map (fun e => (e.1, e.2.held.flatMap (fun h => h.words))))

/-- Put a record in the AON log, newest first, 64 records. -/
def State.logRec (s : State) (r : FaultRec) : State := { s with obs := { s.obs with log := (r :: s.obs.log).take 64 } }

/-- DEVICE-FATAL (R441, R438): FAULT_N is asserted, FIN and STEP_CTRL.EN are cleared, and a dump may start. -/
def State.fatal (s : State) : State :=
  let s := if s.obs.faultN then s else { s.emit (.pin "FAULT_N" false) with obs := { s.obs with faultN := true } }
  let s := if s.running then s.setFlag STEP_STAT STEP_STAT_FIN false else s
  let s := (s.setFlag STEP_CTRL STEP_CTRL_EN false).updHold
  if s.flag DUMP_CFG DUMP_CFG_FATAL then s.startDump 2 else s

/-- A class has used up its records of this window (R439): LIMIT 0 sets no limit, DEVICE-FATAL is never suppressed. -/
def State.limited (s : State) (cls : Nat) : Bool :=
  cls < 4 && s.fld FR_CFG FR_CFG_LIMIT != 0 && s.fld FR_CFG FR_CFG_LIMIT ≤ mapGet (fun _ => 0) cls s.obs.win

/-- Deliver a record to the places of R438 under the limits of R439: class below 4 at most FR_CFG.LIMIT per window. -/
def State.deliver (s : State) (r : FaultRec) : State :=
  let s := s.logRec r
  let s := s.orReg PKG_FAULT_SUM (2 ^ r.cls)
  let n := mapGet (fun _ => 0) r.cls s.obs.win
  if s.limited r.cls then s.bumpSat FR_SUPPR (supprFld r.cls) 1
  else
    let s := { s with obs := { s.obs with win := mapSet (fun _ => 0) r.cls (n + 1) s.obs.win } }
    let s := s.faultRing r
    s.capture 6 (leNat r.bytes)

/-- Record a fault of this device (R436, R438), and forward it to the anchor of a MEMBER (R440). -/
def State.fault (s : State) (cls code srcOff detail : Nat) : State :=
  let (t, s) := s.now
  let r : FaultRec := ⟨cls, false, s.devId, code, s.obs.fseq, t, srcOff, s.reg STEP_NUM, detail⟩
  let s := { s with obs := { s.obs with fseq := (s.obs.fseq + 1) % 2 ^ 32 } }
  let s := s.deliver r
  let s := if s.isMember && s.flag (LD_DEVID 0) LD_DEVID_ANCHOR_V then
      s.send { type := 8, src := 0, dst := s.fld (LD_DEVID 0) LD_DEVID_ANCHOR, args := 4, data := r.bytes } .other
    else s
  if cls = 4 then s.fatal else s

end Sys2Proof.Machine
end

