-- ==== Sys2Proof/Machine/Mem.lean ====
section
/-! DEFINITION. Access to the local address space of R366: regions, channel readiness (R236), poison by beat (R214, R216,
R217), and the bookkeeping of die-cache lines that a write touches. -/

namespace Sys2Proof.Machine

/-- Regions of the local address space (R366). -/
inductive Region where
  | dram | faceStore | register | bitAlias | hostWindow | reserved
deriving DecidableEq, Repr

def regionOf (a : Nat) : Region :=
  if a < 0x20000000000 then .dram
  else if a < 0x200000000000 then .reserved
  else if a < 0x200100000000 then .faceStore
  else if a < 0x300000000000 then .reserved
  else if a < 0x300004000000 then .register
  else if a < 0x300040000000 then .reserved
  else if a < 0x300080000000 then .bitAlias
  else if a < 0x400000000000 then .reserved
  else if a < 0x500000000000 then .hostWindow
  else .reserved

/-- Register-space base in the local address space (R364). -/
def regBase : Nat := 0x300000000000
/-- Base of the face store of face f of die d (R13). -/
def faceStoreBase (d f : Nat) : Nat := 0x200000000000 + d * 2 ^ 28 + f * 2 ^ 22

/-- Place of a DRAM address (R206, R207): global channel, stack, channel and controller. -/
def gchan (a : Nat) : Nat := a / 2 ^ 32 % 512
def stackOf (g : Nat) : Nat := g / 32
def ctlOf (g : Nat) : Nat := g % 32 / 4
/-- Channel, bank and row of a DRAM address (R207): bank numbers SID × 16 + bank in group × 4 + bank group. -/
def bankOf (a : Nat) : Nat := bits a 15 3 * 16 + bits a 13 2 * 4 + bits a 11 2
def rowOf (a : Nat) : Nat := bits a 18 14
/-- Set and tag of a line in its slice (R219). -/
def lineL (a : Nat) : Nat := a % 2 ^ 32 / 256
def cacheSet (a : Nat) : Nat := 512 * (lineL a % 3) + lineL a % 512
def cacheTag (a : Nat) : Nat := lineL a / 1536

/-- Thermal state of a stack (R233), and whether a channel answers: READY with its stack and its die's common domain, which holds the
slices (R225), powered, and not CRIT (R216, R233). -/
def State.tstate (s : State) (d : Nat) : Nat := s.fld (MC_STAT d 0) MC_STAT_TSTATE
def State.chanReady (s : State) (g : Nat) : Bool :=
  bit (s.fld (MC_STAT (stackOf g) (ctlOf g)) MC_STAT_READY) (g % 4) && s.pdOn (107 + stackOf g) && s.pdOn (11 + 6 * stackOf g)
def State.chanOk (s : State) (g : Nat) : Bool := s.chanReady g && s.tstate (stackOf g) != 3

/-- Numbers from `a` div `k` to (`a` + n − 1) div `k`. -/
def blocksOf (k a n : Nat) : List Nat :=
  if n = 0 then [] else (List.range ((a + n - 1) / k - a / k + 1)).map (fun i => a / k + i)

/-- Is an access to the range served?  DRAM must be READY and not CRIT, the host window needs the host path; reserved ranges
never are (R366, R216, R362). -/
def State.served (s : State) (a n : Nat) : Bool :=
  match regionOf a with
  | .dram => decide (a + n ≤ 0x20000000000) && (blocksOf (2 ^ 32) a n).all (fun g => s.chanOk (g % 512))
  | .faceStore => true
  | .hostWindow => s.canHost
  | _ => false

/-- A beat that DRAM has lost and no slice holds (R216). -/
def State.lostAt (s : State) (b : Nat) : Bool :=
  s.dram.lost.contains b && (mapGet (fun _ => none) (b / 4) s.dram.lines).isNone
/-- Does the range touch a beat that DRAM has lost, or one that reads poisoned? -/
def State.beatLost (s : State) (a n : Nat) : Bool := (blocksOf 64 a n).any s.lostAt
def State.beatBad (s : State) (a n : Nat) : Bool := (blocksOf 64 a n).any (fun b => s.poison.contains b || s.lostAt b)

/-- How a unit's read at a host-window offset ends, when not with its data (R358). -/
def State.pageEnd (s : State) (o : Nat) : Option HostEnd := mapGet (fun _ => none) (o / 4096) s.hif.pages
/-- A read of host memory by a unit meets such a page. -/
def State.pageBad (s : State) (a n : Nat) : Bool :=
  regionOf a == .hostWindow && !s.hif.pages.isEmpty && (blocksOf 4096 (a - hwBase) n).any (fun p => (s.pageEnd (p * 4096)).isSome)
/-- Bytes of the local address space, and whether they return poisoned (R216). -/
def State.memRead (s : State) (a n : Nat) : List Byte × Bool :=
  (getBytes s.mem a n, !s.served a n || s.beatBad a n || s.pageBad a n)

/-- Little-endian number at `a`. -/
def State.memNat (s : State) (a n : Nat) : Nat := leNat (getBytes s.mem a n)

/-- A resident line is about to be written: it becomes dirty and remembers what DRAM holds. -/
def State.dirtyLine (s : State) (line : Nat) : State :=
  match mapGet (fun _ => none) line s.dram.lines with
  | none => s
  | some c =>
    if c.dirty then s
    else
      let c' : CLine :=
        if c.below.isEmpty then
          { c with dirty := true, below := getBytes s.mem (line * 256) 256,
                   belowBad := (blocksOf 64 (line * 256) 256).filter (fun b => s.poison.contains b) }
        else { c with dirty := true }
      { s with dram := { s.dram with lines := mapSet (fun _ => none) line (some c') s.dram.lines } }

/-- Poison of the beats a write touches: a poisoned write marks them, a write of a whole beat clears it, a part write of a
poisoned beat leaves it poisoned (R214, R217). -/
def poisonAfter (a n : Nat) (bad : Bool) (p : List Nat) : List Nat :=
  (blocksOf 64 a n).foldl (fun p b =>
    if bad then setInsert b p
    else if a ≤ b * 64 ∧ b * 64 + 64 ≤ a + n then setErase b p else p) p

/-- A write in DRAM leaves no lost beat under it: a part write is merged with what cannot be read, and the beat is poisoned (R217). -/
def State.overLost (s : State) (a n : Nat) : State :=
  if s.dram.lost.isEmpty then s
  else
    let hit := (blocksOf 64 a n).filter s.lostAt
    { s with poison := hit.foldl (fun p b => setInsert b p) s.poison,
             dram := { s.dram with lost := s.dram.lost.filter (fun b => !hit.contains b) } }
/-- Bytes stored, without any check. -/
def State.memPut (s : State) (a : Nat) (v : List Byte) (bad : Bool) : State :=
  let s := s.overLost a v.length
  { s with mem := setBytes v a s.mem, poison := poisonAfter a v.length bad s.poison }

/-- A request to the local address space ends with error (R216): the record of REQ_ENDED with its cause, and MC_EVENT.ENDED at
the controller of a DRAM address. -/
def State.ended (s : State) (a cause : Nat) : State :=
  let s := if regionOf a = .dram then s.raise (MC_EVENT (stackOf (gchan a)) (ctlOf (gchan a))) MC_EVENT_ENDED else s
  s.fault 1 0x0102 0 (a % 2 ^ 48 + cause * 2 ^ 48)

/-- Parts of a range that lie in one block of k bytes each. -/
def partsOf (k a n : Nat) : List (Nat × Nat) :=
  (blocksOf k a n).map (fun b => let lo := max a (b * k); (lo, min (a + n) (b * k + k) - lo))
/-- One read request to host memory by a unit of the device, and its completion (R355, R358). -/
def State.hostRead1 (s : State) (o n : Nat) : State :=
  let t := s.hif.nextTag
  let s := s.emit (.hostRead t (s.hostAddr o) n)
  let s : State := { s with hif := { s.hif with nextTag := (t + 1) % 16384 } }
  match s.pageEnd o with
  | none => s.bump HIF_RD_BYTES_LO n
  | some .poisoned => (s.bump HIF_RD_BYTES_LO n).raise HIF_EVENT HIF_EVENT_POISON_RX
  | some .timeout => (s.raise HIF_EVENT HIF_EVENT_CPL_TIMEOUT).ended (hwBase + o) 4
  | some _ => (s.raise HIF_EVENT HIF_EVENT_CPL_ERR).ended (hwBase + o) 4
/-- A unit reads host memory, in requests of at most 4 KiB; without a host path the read ends (R362). -/
def State.hostSeen (s : State) (o n : Nat) : State :=
  if !s.served (hwBase + o) n then s.ended (hwBase + o) 4
  else (partsOf 4096 o n).foldl (fun s p => s.hostRead1 p.1 p.2) s
/-- Cause code of an ended local access: 1 channel not READY or CRIT, 4 host path, 0 reserved range. -/
def endCause (a : Nat) : Nat :=
  match regionOf a with
  | .dram => 1
  | .hostWindow => 4
  | _ => 0

/-- Poison every beat of a range. -/
def State.poisonRange (s : State) (a n : Nat) : State :=
  { s with poison := (blocksOf 64 a n).foldl (fun p b => setInsert b p) s.poison }

end Sys2Proof.Machine
end

