-- ==== Sys2Proof/Machine/Mailbox.lean ====
section
/-! DEFINITION. Mailboxes: answers pushed toward the host (R378, R382, R385), words taken by the Foreman and the die
controllers, and the bookkeeping of forwarded commands (R384). -/

namespace Sys2Proof.Machine

/-- Statuses of the mailbox layer (R383). -/
def stAccepted : Nat := 0x00
def stBusy : Nat := 0x01
def stRunning : Nat := 0x0F
def stUnreachable : Nat := 0x10
def stNotAnchor : Nat := 0x11
def stTimeout : Nat := 0xFC
def stBadCmd : Nat := 0xFD
def stBadRing : Nat := 0xFE

/-- Some Foreman-to-host (die-to-host) mailbox is FULL. -/
def State.f2hAny (s : State) : Bool := s.fld MBX_PEND MBX_PEND_F2H != 0
def State.d2hAny (s : State) : Bool := (List.range 16).any (fun d => s.flag (D2H_STAT d) D2H_STAT_FULL)

/-- Set FULL of F2H mailbox m and its MBX_PEND bit; vector 1 fires when none was FULL before (R387). -/
def State.f2hFull (s : State) (m : Nat) (b : Bool) : State :=
  let any := s.f2hAny
  let s := s.setFlag (F2H_STAT m) F2H_STAT_FULL b
  let s := s.setFlag MBX_PEND ⟨m, 1⟩ b
  if b && !any then s.fire 1 else if s.f2hAny then s else s.unpend 1

/-- Set FULL of H2F mailbox m and its MBX_PEND bit. -/
def State.h2fFull (s : State) (m : Nat) (b : Bool) : State :=
  (s.setFlag (H2F_STAT m) H2F_STAT_FULL b).setFlag MBX_PEND ⟨16 + m, 1⟩ b

/-- Queue one word behind F2H_DATA_m (R378): into the data register when it is empty, else behind it, else over the newest. -/
def State.f2hPut (s : State) (m w : Nat) : State :=
  let q := mapGet (fun _ => []) m s.hif.f2hQ
  if !s.flag (F2H_STAT m) F2H_STAT_FULL then (s.setReg (F2H_DATA m) w).f2hFull m true
  else if q.length < 16 then
    let s := { s with hif := { s.hif with f2hQ := mapSet (fun _ => []) m (q ++ [w]) s.hif.f2hQ } }
    s.setFld (F2H_STAT m) F2H_STAT_QUEUED (q.length + 1)
  else
    let s := { s with hif := { s.hif with f2hQ := mapSet (fun _ => []) m (q.take 15 ++ [w]) s.hif.f2hQ } }
    (s.setFlag (F2H_STAT m) F2H_STAT_COLLIDE true).raise MBX_EVENT MBX_EVENT_COLLIDE

/-- The same for the die mailbox of die d, with 4 queue places (R385). -/
def State.d2hPut (s : State) (d w : Nat) : State :=
  let q := mapGet (fun _ => []) d s.hif.d2hQ
  if !s.flag (D2H_STAT d) D2H_STAT_FULL then
    let any := s.d2hAny
    let s := (s.setReg (D2H_DATA d) w).setFlag (D2H_STAT d) D2H_STAT_FULL true
    if any then s else s.fire 2
  else if q.length < 4 then
    let s := { s with hif := { s.hif with d2hQ := mapSet (fun _ => []) d (q ++ [w]) s.hif.d2hQ } }
    s.setFld (D2H_STAT d) D2H_STAT_QUEUED (q.length + 1)
  else
    let s := { s with hif := { s.hif with d2hQ := mapSet (fun _ => []) d (q.take 3 ++ [w]) s.hif.d2hQ } }
    (s.setFlag (D2H_STAT d) D2H_STAT_COLLIDE true).raise MBX_EVENT MBX_EVENT_COLLIDE

/-- The Foreman pushes an answer: it stops the timer, or is discarded and counted after a TIMEOUT (R382). -/
def State.f2hPush (s : State) (m w : Nat) : State :=
  if s.hif.late.contains m then
    let s := { s with hif := { s.hif with late := setErase m s.hif.late } }
    (s.bumpSat MBX_LATE MBX_LATE_COUNT 1).raise MBX_EVENT MBX_EVENT_LATE
  else (s.setFlag (H2F_STAT m) H2F_STAT_TIMING false).f2hPut m w

/-- The die controller pushes an answer. -/
def State.d2hPush (s : State) (d w : Nat) : State :=
  if s.hif.late.contains (16 + d) then
    let s := { s with hif := { s.hif with late := setErase (16 + d) s.hif.late } }
    (s.bumpSat MBX_LATE MBX_LATE_COUNT 1).raise MBX_EVENT MBX_EVENT_LATE
  else (s.setFlag (H2D_STAT d) H2D_STAT_TIMING false).d2hPut d w

/-- An answer word (R380). -/
def ansWord (status detail : Nat) : Nat := status + detail % 2048 * 2 ^ 21

/-- The MBOX_FWD payload flit (R384). -/
def mboxFlit (word m dir ring : Nat) : List Byte :=
  leBytes 4 word ++ leBytes 4 (m + dir * 16) ++ leBytes 8 ring ++ leBytes 16 0

/-- The word's command code, FWD, DEV and INDEX (R380). -/
def wCode (w : Nat) : Nat := bits w 0 8
def wFwd (w : Nat) : Bool := bit w 8
def wDev (w : Nat) : Nat := bits w 9 12
def wIndex (w : Nat) : Nat := bits w 21 11

/-- Codes that mailbox m knows (R379). -/
def knownCode (m code : Nat) : Bool :=
  match m with
  | 0 => code == 0x10 || code == 0x11
  | 1 => 0x20 ≤ code && code ≤ 0x26
  | 2 => 0x30 ≤ code && code ≤ 0x37
  | 3 => 0x60 ≤ code && code ≤ 0x62
  | 4 => 0x50 ≤ code && code ≤ 0x51
  | 15 => code == 0xF0
  | _ => false

/-- The command of mailbox m with this code comes with a block (R22, R242, R381). -/
def needsBlk (m code : Nat) : Bool :=
  match m with
  | 0 => code == 0x10
  | 2 => knownCode 2 code && code != 0x33 && code != 0x35
  | 1 | 3 | 4 => knownCode m code
  | _ => false
/-- The command waiting for the Foreman at mailbox m: a forwarded one first, once its block has been read (R384), then the H2F word.
The Foreman takes words once its firmware runs (R391). -/
def State.cmdAt (s : State) (m : Nat) : Option CmdSrc :=
  let st := s.fld AON_BOOT_STAT AON_BOOT_STAT_STAGE
  if st ≤ 1 ∨ st = 15 then none
  else match mapGet (fun _ => none) m s.hif.fwdIn with
  | some c => if needsBlk m (wCode c.word) && (c.blk.isNone || c.more) then none else some (.forwarded c)
  | none => if s.flag (H2F_STAT m) H2F_STAT_FULL then some (.own (s.reg (H2F_DATA m))) else none

def CmdSrc.word : CmdSrc → Nat
  | .own w => w
  | .forwarded c => c.word
  | .sideband w => w

/-- The Foreman reads the word of mailbox m: its FULL clears. -/
def State.takeCmd (s : State) (m : Nat) : CmdSrc → State
  | .own _ => s.h2fFull m false
  | .forwarded _ => { s with hif := { s.hif with fwdIn := mapSet (fun _ => none) m none s.hif.fwdIn } }
  | .sideband _ => s

/-- The Foreman gives a final answer, or RUNNING, to the command's source: to the host, or to the anchor in an MBOX_FWD. -/
def State.answer (s : State) (m : Nat) (src : CmdSrc) (w : Nat) : State :=
  match src with
  | .own _ => s.f2hPush m w
  | .forwarded c =>
    s.send { type := 8, src := 0, dst := c.anchor, args := 3, data := mboxFlit w m 1 c.ring } (.mailbox m)
  | .sideband _ => s.emit (.mctp (leBytes 4 w))


/-- Answer of a word that the anchor forwards: with FWD = 1 and DEV (R384). -/
def fwdWord (w dev : Nat) : Nat := setBits w 8 13 (1 + dev * 2)
/-- The host's word is one to forward. -/
def CmdSrc.isFwd : CmdSrc → Bool
  | .own w => wFwd w
  | .forwarded _ => false
  | .sideband _ => false

/-- A word of mailbox 0 taken while a STEP_STOP waits: answered RUNNING, one to forward too, and kept with its block (R25). -/
def State.stopWord (s : State) (src : CmdSrc) (blk : List Byte) : State :=
  let s := s.answer 0 src (if src.isFwd then fwdWord stRunning (wDev src.word) else ansWord stRunning 0)
  { s with eng := { s.eng with stopWords := s.eng.stopWords ++ [(src, blk)] } }

/-- The anchor handles a word with FWD = 1 that its Foreman has taken (R384). -/
def State.forwardWord (s : State) (m w : Nat) : State :=
  let dev := wDev w
  if !s.isAnchor || !s.flag HIF_CTRL HIF_CTRL_FWD_EN then s.f2hPush m (fwdWord stNotAnchor dev)
  else if !s.inGeom dev || dev = s.devId then s.f2hPush m (fwdWord stUnreachable dev)
  else
    let ring := s.fld (HIF_RING_LO m) HIF_RING_LO_ADDR * 2 ^ 17 + s.fld (HIF_RING_HI m) HIF_RING_HI_ADDR * 2 ^ 32
    let s := s.send { type := 8, ord := true, src := 0, dst := dev, args := 3, data := mboxFlit w m 0 ring } (.mailbox m)
    let s := s.f2hPush m (fwdWord stRunning dev)
    { s with hif := { s.hif with fwdOut := s.hif.fwdOut ++ [(m, dev)] } }

/-- Host-window offset of the command block of the source (R381), on the device that owns the ring. -/
def State.blkOff (s : State) (m : Nat) : CmdSrc → Nat
  | .own w => s.fld (HIF_RING_LO m) HIF_RING_LO_ADDR * 2 ^ 17 + s.fld (HIF_RING_HI m) HIF_RING_HI_ADDR * 2 ^ 32 + wIndex w * 64
  | .forwarded c => c.ring + wIndex c.word * 64
  | .sideband _ => 0

/-- A read of the Foreman in host memory returned no good data. -/
def State.hostLost (s : State) (o n : Nat) : Bool := (s.memRead (hwBase + o) n).2
/-- A command whose block did not come is answered with a status that no rule gives, and does nothing. -/
def State.blkLost (s : State) (m : Nat) (src : CmdSrc) : State :=
  let (n, t) := s.draw
  t.answer m src (ansWord (Config.blockLost n % 256) 0)
/-- The Foreman reads the block of a command that needs one (R381, R384, R414): from the ring, where V must be 1; on a member as the
anchor's window returned it; over the sideband with the word.  `f` goes on with it. -/
def State.withBlk (s : State) (m : Nat) (src : CmdSrc) (blk : List Byte) (f : State → List Byte → State) : State :=
  match src with
  | .own _ =>
    if !s.flag (HIF_RING_HI m) HIF_RING_HI_V then s.answer m src (ansWord stBadRing 0)
    else
      let o := s.blkOff m src
      let t := s.hostSeen o 64
      if s.hostLost o 64 then t.blkLost m src else f t blk
  | .forwarded c => (match c.blk with
    | some (some b) => f s b
    | _ => s.blkLost m src)
  | .sideband _ => f s blk

/-- Serve the command of mailbox m when its code is `code`: `f` gives the meaning from the block and the source.  Another known code, a
forwarded word or an empty mailbox is not this event; an unknown code is answered BAD_CMD by `ping` (R383). -/
def State.serve (s : State) (m code : Nat) (needRing : Bool) (blk : List Byte) (f : State → List Byte → CmdSrc → State) : State :=
  match s.cmdAt m with
  | none => s
  | some src =>
    let own := match src with | .own _ => true | _ => false
    if wCode src.word ≠ code ∨ (own && wFwd src.word) then s
    else
      let t := s.takeCmd m src
      if needRing then t.withBlk m src blk (fun t b => f t b src) else f t blk src

/-- Bytes written to host memory for the source of a command: through the own window, or as a WR to the anchor's (R384). -/
def State.srcPut (s : State) (src : CmdSrc) (off : Nat) (v : List Byte) : State :=
  match src with
  | .own _ => if s.canHost then s.hostPut off v else s.ended (hwBase + off) 4
  | .forwarded c => s.send (wrPkt c.anchor (c.anchor * 2 ^ 48 + hwBase + off) true v false 0) .write
  | .sideband _ => s.emit (.mctp v)

/-- Command block fields (R242): ARG0 to ARG3. -/
def blkNat (b : List Byte) (off n : Nat) : Nat := leNat ((b.drop off).take n)

end Sys2Proof.Machine
end

