-- ==== Sys2Proof/Machine/Aes.lean ====
section
/-! DEFINITION. AES-128 (FIPS 197), the function of the sprue generator (R174). -/

namespace Sys2Proof.Machine

/-- The S-box, byte i at bits [8i + 7 : 8i]. -/
def aesSboxTable : Nat := 0x16bb54b00f2d99416842e6bf0d89a18cdf2855cee9871e9b948ed9691198f8e19e1dc186b95735610ef6034866b53e708a8bbd4b1f74dde8c6b4a61c2e2578ba08ae7a65eaf4566ca94ed58d6d37c8e779e4959162acd3c25c2406490a3a32e0db0b5ede14b8ee4688902a22dc4f816073195d643d7ea7c41744975fec130ccdd2f3ff1021dab6bcf5389d928f40a351a89f3c507f02f94585334d43fbaaefd0cf584c4a39becb6a5bb1fc20ed00d153842fe329b3d63b52a05a6e1b1a2c830975b227ebe28012079a059618c323c7041531d871f1e5a534ccf73f362693fdb7c072a49cafa2d4adf04759fa7dc982ca76abd7fe2b670130c56f6bf27b777c63
def aesSbox (x : Nat) : Nat := aesSboxTable / 2 ^ (8 * (x % 256)) % 256
/-- Multiplication by x in the AES field. -/
def aesX2 (a : Nat) : Nat := if 128 ≤ a then (2 * a - 256) ^^^ 0x1B else 2 * a
/-- One column of MixColumns. -/
def aesMix : List Nat → List Nat
  | [a, b, c, d] =>
    [aesX2 a ^^^ aesX2 b ^^^ b ^^^ c ^^^ d, a ^^^ aesX2 b ^^^ aesX2 c ^^^ c ^^^ d,
     a ^^^ b ^^^ aesX2 c ^^^ aesX2 d ^^^ d, aesX2 a ^^^ a ^^^ b ^^^ c ^^^ aesX2 d]
  | l => l
/-- Bytewise exclusive or. -/
def xorList (a b : List Nat) : List Nat := List.zipWith (· ^^^ ·) a b
/-- ShiftRows over the 16 state bytes in column order. -/
def aesShift (s : List Nat) : List Nat :=
  (List.range 16).map (fun i => s.getD ((i + 4 * (i % 4)) % 16) 0)
/-- The next round key of a 16-byte key. -/
def aesNextKey (rcon : Nat) (k : List Nat) : List Nat :=
  let w (i : Nat) := (k.drop (4 * i)).take 4
  let t := w 3
  let g := xorList ((t.drop 1 ++ t.take 1).map aesSbox) [rcon, 0, 0, 0]
  let a := xorList (w 0) g
  let b := xorList (w 1) a
  let c := xorList (w 2) b
  a ++ b ++ c ++ xorList (w 3) c
/-- Rounds 1 to 10 with the round constants that remain. -/
def aesRounds : List Nat → List Nat → List Nat → List Nat
  | [], _, s => s
  | r :: rs, k, s =>
    let k' := aesNextKey r k
    let t := aesShift (s.map aesSbox)
    let t := if rs.isEmpty then t
      else aesMix (t.take 4) ++ aesMix ((t.drop 4).take 4) ++ aesMix ((t.drop 8).take 4) ++ aesMix (t.drop 12)
    aesRounds rs k' (xorList t k')
/-- AES-128 encryption of one 16-byte block. -/
def aes128 (key block : List Nat) : List Nat :=
  aesRounds [0x01, 0x02, 0x04, 0x08, 0x10, 0x20, 0x40, 0x80, 0x1B, 0x36] key (xorList block key)

end Sys2Proof.Machine
end

