-- ==== Sys2Proof/Machine/Ecc.lean ====
section
/-! DEFINITION. Error protection: the RS(72,64) beat code of R212 to R214 and the 80-bit protected word of R215.  Both codes
are linear, so a decoder is written over the error pattern alone: which bits differ from the codeword that was written. -/

namespace Sys2Proof.Machine

/-- Multiplication in GF(2^k) with the given reduction polynomial, over `n` bits of `b`. -/
def gfMul (k poly : Nat) : Nat → Nat → Nat → Nat
  | 0, _, _ => 0
  | n + 1, a, b =>
    let r := gfMul k poly n (let d := 2 * a; if 2 ^ k ≤ d then d ^^^ poly else d) (b / 2)
    if b % 2 = 1 then a ^^^ r else r

/-- GF(2^8) of R212, x^8 + x^4 + x^3 + x^2 + 1. -/
def g8 (a b : Nat) : Nat := gfMul 8 0x11D 8 a b
/-- GF(2^7) of R215, x^7 + x^3 + 1. -/
def g7 (a b : Nat) : Nat := gfMul 7 0x89 7 a b
/-- Powers by repeated multiplication. -/
def g8Pow (a : Nat) : Nat → Nat
  | 0 => 1
  | n + 1 => g8 a (g8Pow a n)
def g7Pow (a : Nat) : Nat → Nat
  | 0 => 1
  | n + 1 => g7 a (g7Pow a n)
/-- Square-and-multiply inverse in GF(2^8): a^254. -/
def g8Inv (a : Nat) : Nat :=
  let a2 := g8 a a; let a4 := g8 a2 a2; let a8 := g8 a4 a4; let a16 := g8 a8 a8
  let a32 := g8 a16 a16; let a64 := g8 a32 a32; let a128 := g8 a64 a64
  g8 a128 (g8 a64 (g8 a32 (g8 a16 (g8 a8 (g8 a4 a2)))))

/-- Locator of symbol i: the codeword polynomial has symbol 0 at the highest power, x^71. -/
def rsLoc (i : Nat) : Nat := g8Pow 2 (71 - i)

/-- Syndromes S0 to S7 of an error pattern (R212: the roots are α^0 to α^7). -/
def rsSyn (e : List (Nat × Nat)) : List Nat :=
  (List.range 8).map (fun j => e.foldl (fun v p => v ^^^ g8 p.2 (g8Pow (rsLoc p.1) j)) 0)

/-- What the decoder finds in a beat. -/
inductive BeatCheck where
  | clean
  | poison
  | corrected (fix : List (Nat × Nat))
  | uncorrectable
deriving DecidableEq, Repr

/-- The poison pattern of R214: each check symbol XORed with 0x69. -/
def rsPoison : List (Nat × Nat) := (List.range 8).map (fun i => (64 + i, 0x69))

/-- 2 × 2 and 3 × 3 determinants over GF(2^8). -/
def det2 (a b c d : Nat) : Nat := g8 a d ^^^ g8 b c
def det3 (a b c d e f g h i : Nat) : Nat :=
  g8 a (det2 e f h i) ^^^ g8 b (det2 d f g i) ^^^ g8 c (det2 d e g h)

/-- Error values of the given places from the first syndromes (a Vandermonde system). -/
def rsValues (s : List Nat) (locs : List Nat) : List Nat :=
  let S (j : Nat) := s.getD j 0
  match locs with
  | [_] => [S 0]
  | [x, y] =>
    let d := g8Inv (x ^^^ y)
    [g8 d (S 1 ^^^ g8 (S 0) y), g8 d (S 1 ^^^ g8 (S 0) x)]
  | [x, y, z] =>
    let p (i : Nat) (a : Nat) := g8Pow a i
    let d := g8Inv (det3 1 1 1 x y z (p 2 x) (p 2 y) (p 2 z))
    [g8 d (det3 (S 0) 1 1 (S 1) y z (S 2) (p 2 y) (p 2 z)), g8 d (det3 1 (S 0) 1 x (S 1) z (p 2 x) (S 2) (p 2 z)),
     g8 d (det3 1 1 (S 0) x y (S 1) (p 2 x) (p 2 y) (S 2))]
  | _ => []

/-- Coefficients of the error locator for 1 to 3 errors (S[j+n] = sum of c[i] × S[j+n−1−i]), or none. -/
def rsLocator (s : List Nat) : Option (List Nat) :=
  let S (j : Nat) := s.getD j 0
  let d3 := det3 (S 2) (S 1) (S 0) (S 3) (S 2) (S 1) (S 4) (S 3) (S 2)
  if d3 ≠ 0 then
    let i := g8Inv d3
    some [g8 i (det3 (S 3) (S 1) (S 0) (S 4) (S 2) (S 1) (S 5) (S 3) (S 2)),
          g8 i (det3 (S 2) (S 3) (S 0) (S 3) (S 4) (S 1) (S 4) (S 5) (S 2)),
          g8 i (det3 (S 2) (S 1) (S 3) (S 3) (S 2) (S 4) (S 4) (S 3) (S 5))]
  else
    let d2 := det2 (S 1) (S 0) (S 2) (S 1)
    if d2 ≠ 0 then
      let i := g8Inv d2
      some [g8 i (det2 (S 2) (S 0) (S 3) (S 1)), g8 i (det2 (S 1) (S 2) (S 2) (S 3))]
    else if S 0 ≠ 0 then some [g8 (S 1) (g8Inv (S 0))]
    else none

/-- Is x a root: x^n = sum of c[i] × x^(n−1−i)? -/
def rsIsRoot (c : List Nat) (x : Nat) : Bool :=
  g8Pow x c.length == (c.foldl (fun acc k => g8 acc x ^^^ k) 0)

/-- Decode one beat from its error pattern (a list of symbol and difference) by R213 and R214. -/
def rsDecode (e : List (Nat × Nat)) : BeatCheck :=
  let s := rsSyn e
  if s.all (· == 0) then .clean
  else if s = rsSyn rsPoison then .poison
  else match rsLocator s with
    | none => .uncorrectable
    | some c =>
      let places := (List.range 72).filter (fun i => rsIsRoot c (rsLoc i))
      if places.length ≠ c.length then .uncorrectable
      else
        let fix := places.zip (rsValues s (places.map rsLoc))
        if rsSyn fix = s then .corrected fix else .uncorrectable

/-! ### the 80-bit protected word (R215) -/

/-- What the reader finds in a protected word. -/
inductive WordCheck where
  | clean
  | corrected
  | poison
  | uncorrectable
deriving DecidableEq, Repr

/-- Power of α at code bit i of [77:0]: data bits stand above the 14 check bits. -/
def bchExp (i : Nat) : Nat := if i < 64 then i + 14 else i - 64
/-- Syndromes S1 and S3 and the parity over [78:0] of an 80-bit error mask. -/
def bchSyn (m : Nat) : Nat × Nat × Bool :=
  let bs := bitsOf 78 m
  (bs.foldl (fun v i => v ^^^ g7Pow 2 (bchExp i)) 0, bs.foldl (fun v i => v ^^^ g7Pow 2 (3 * bchExp i)) 0,
   (bitsOf 79 m).length % 2 == 1)
/-- The poison mask: bits [78:64] complemented. -/
def bchPoison : Nat := 0x7FFF * 2 ^ 64

/-- The control mask of R276: 0x2B5A on bits [78:64].  A word with its syndrome is the first of a control flit. -/
def bchControl : Nat := 0x2B5A * 2 ^ 64
def isControl (m : Nat) : Bool := bchSyn m == bchSyn bchControl

/-- The reader of a protected word, over the 80-bit mask of bits in error: poison first, then a mismatch of bit 79, then
correction of up to 2 errors in [77:0] and [78], 3 detected. -/
def bchDecode (m : Nat) : WordCheck :=
  let (s1, s3, p) := bchSyn m
  if m % 2 ^ 79 = 0 ∧ !(bit m 79) then .clean
  else if (s1, s3, p) = bchSyn bchPoison then .poison
  else if bit m 79 then .uncorrectable
  else if s1 = 0 ∧ s3 = 0 then (if p then .corrected else .clean)
  else if s1 ≠ 0 ∧ s3 = g7Pow s1 3 then
    (if (List.range 78).any (fun i => g7Pow 2 (bchExp i) == s1) then .corrected else .uncorrectable)
  else if p then .uncorrectable
  else
    let ok := (List.range 78).any (fun i =>
      let x := g7Pow 2 (bchExp i)
      let y := s1 ^^^ x
      (g7Pow x 3 ^^^ g7Pow y 3) == s3 && (List.range 78).any (fun j => j != i && g7Pow 2 (bchExp j) == y))
    if ok then .corrected else .uncorrectable

/-- What a read of a word with this mask tells its unit (R215). -/
def wordUe (m : Nat) : Bool := bchDecode m == .uncorrectable
def wordPoison (m : Nat) : Bool := bchDecode m == .poison

end Sys2Proof.Machine
end

