-- ==== Sys2Proof/Machine/DieCache.lean ====
section
/-! DEFINITION. The die cache (R219 to R225): hints, victims, errors in a line, flushes. -/

namespace Sys2Proof.Machine

def State.line (s : State) (l : Nat) : Option CLine := mapGet (fun _ => none) l s.dram.lines
def State.setLine (s : State) (l : Nat) (c : Option CLine) : State :=
  { s with dram := { s.dram with lines := mapSet (fun _ => none) l c s.dram.lines } }

/-- The next use number. -/
def State.useTick (s : State) : Nat × State :=
  (s.dram.tick, { s with dram := { s.dram with tick := s.dram.tick + 1 } })

/-- Resident lines of the set that line `l` belongs to, with their numbers. -/
def State.setLines (s : State) (l : Nat) : List (Nat × CLine) :=
  s.dram.lines.filterMap (fun e =>
    if e.1 * 256 / 2 ^ 32 = l * 256 / 2 ^ 32 ∧ cacheSet (e.1 * 256) = cacheSet (l * 256) then e.2.map (fun c => (e.1, c)) else none)

/-- KEEP lines allowed in a set (DC_CTRL; reset value under a parity stop, R237). -/
def State.keepMax (s : State) (d c : Nat) : Nat :=
  let k := if s.parStop.contains (DC_CTRL d c) then 8 else s.fld (DC_CTRL d c) DC_CTRL_KEEP_MAX
  if 16 < k then 16 else k

/-- Open the row of a DRAM address, or precharge after the burst when PAGE_OPEN is 0 (R209, R237). -/
def State.openRow (s : State) (a : Nat) : State :=
  let g := gchan a
  let ctl := MC_CTRL (stackOf g) (ctlOf g)
  let po := if s.parStop.contains ctl then true else s.flag ctl MC_CTRL_PAGE_OPEN
  { s with dram := { s.dram with rows := mapSet (fun _ => none) (g * 128 + bankOf a) (if po then some (rowOf a) else none) s.dram.rows } }

/-- The channel of a capped stack has fewer than n of the 500 bursts of its window left (R233). -/
def State.burstSpent (s : State) (a n : Nat) : Bool :=
  s.flag (MC_STAT (stackOf (gchan a)) 0) MC_STAT_CAPPED && 500 < mapGet (fun _ => 0) (gchan a) s.dram.bursts + n
/-- Grant a burst of DRAM. -/
def State.burst (s : State) (a : Nat) : State :=
  let s := s.openRow a
  if s.flag (MC_STAT (stackOf (gchan a)) 0) MC_STAT_CAPPED then
    let n := mapGet (fun _ => 0) (gchan a) s.dram.bursts
    { s with dram := { s.dram with bursts := mapSet (fun _ => 0) (gchan a) (n + 1) s.dram.bursts } }
  else s

/-- Restore the poison of the DRAM below a line, and with `data` the bytes too. -/
def State.restoreBelow (s : State) (l : Nat) (c : CLine) (data : Bool) : State :=
  if c.below.isEmpty then s
  else
    let p := (blocksOf 64 (l * 256) 256).foldl (fun p b => if c.belowBad.contains b then setInsert b p else setErase b p) s.poison
    { s with mem := if data then setBytes c.below (l * 256) s.mem else s.mem, poison := p }

/-- Drop a line without writing it back: DRAM holds older data when it was dirty (R223). -/
def State.dropLine (s : State) (l : Nat) (c : CLine) : State := (s.restoreBelow l c c.dirty).setLine l none

/-- Write a dirty line back in a burst, or drop a clean one; its way becomes invalid. -/
def State.evictLine (s : State) (l : Nat) (c : CLine) : State :=
  if c.dirty then
    let s := s.burst (l * 256)
    let s := { s with dram := { s.dram with lost := s.dram.lost.filter (fun b => b / 4 != l) } }
    s.setLine l none
  else s.dropLine l c

/-- The least recently used of some lines. -/
def lruOf : List (Nat × CLine) → Option (Nat × CLine)
  | [] => none
  | e :: l =>
    match lruOf l with
    | none => some e
    | some f => if e.2.use ≤ f.2.use then some e else some f

/-- The line that must leave for line `l` (R222): none while a way is invalid, else the least recently used not KEEP, else of KEEP. -/
def State.victim (s : State) (l : Nat) : Option (Nat × CLine) :=
  let ls := s.setLines l
  if ls.length < 16 then none
  else match lruOf (ls.filter (fun e => !e.2.keep)) with
    | some e => some e
    | none => lruOf ls
/-- Make a way free in the set of line `l`. -/
def State.makeWay (s : State) (l : Nat) : State :=
  match s.victim l with
  | some (k, c) => s.evictLine k c
  | none => s
/-- Bursts that a miss takes: its own, and with a fill that of a dirty victim. -/
def State.missBursts (s : State) (l : Nat) (fill : Bool) : Nat :=
  match (if fill then s.victim l else none) with
  | some (_, c) => 1 + b2n c.dirty
  | none => 1

/-- Hit and miss counters of the controller of an address. -/
def State.countHit (s : State) (a : Nat) : State := s.bump (DC_HIT_LO (stackOf (gchan a)) (ctlOf (gchan a))) 1
def State.countMiss (s : State) (a : Nat) : State := s.bump (DC_MISS_LO (stackOf (gchan a)) (ctlOf (gchan a))) 1

/-- May one more line of the set be KEEP (R222)? -/
def State.keepRoom (s : State) (l : Nat) : Bool :=
  let g := gchan (l * 256)
  ((s.setLines l).filter (fun e => e.2.keep && e.1 != l)).length < s.keepMax (stackOf g) (ctlOf g)

/-- The burst of line `l` comes from DRAM into its invalid way, whose KEEP mark and use number are given. -/
def State.loadLine256 (s : State) (l : Nat) (keep : Bool) (use : Nat) : State :=
  let gone := (blocksOf 64 (l * 256) 256).filter s.lostAt
  let s := s.burst (l * 256)
  if gone.isEmpty then s.setLine l (some ⟨false, keep, use, [], []⟩)
  else
    -- the fill holds poisoned data where DRAM has lost it (R216)
    let c : CLine :=
      ⟨false, keep, use, getBytes s.mem (l * 256) 256, (blocksOf 64 (l * 256) 256).filter (fun b => s.poison.contains b)⟩
    { s.setLine l (some c) with poison := gone.foldl (fun p b => setInsert b p) s.poison }
/-- Fill line `l` from DRAM (R221, R222); a KEEP fill into a full set is taken as NORMAL and sets KEEP_DENY. -/
def State.fillLine (s : State) (l : Nat) (keep : Bool) : State :=
  let s := s.makeWay l
  let k := keep && s.keepRoom l
  let g := gchan (l * 256)
  let s := if keep && !k then s.raise (MC_EVENT (stackOf g) (ctlOf g)) MC_EVENT_KEEP_DENY else s
  let (t, s) := s.useTick
  s.loadLine256 l k t
/-- A clean line with an uncorrectable error is read from DRAM again in its way (R224). -/
def State.reloadLine (s : State) (l : Nat) (c : CLine) : State :=
  ((s.restoreBelow l c true).setLine l none).loadLine256 l c.keep c.use

/-- Poison the data of a resident line, remembering what DRAM holds below a clean one. -/
def State.poisonLine (s : State) (l : Nat) (c : CLine) : State :=
  let c' := if c.below.isEmpty then
      { c with below := getBytes s.mem (l * 256) 256,
               belowBad := (blocksOf 64 (l * 256) 256).filter (fun b => s.poison.contains b) }
    else c
  let s := s.setLine l (some c')
  { s with poison := (blocksOf 64 (l * 256) 256).foldl (fun p b => setInsert b p) s.poison }

/-- An error found in a resident line (R215, R224). -/
def State.lineError (s : State) (l : Nat) (c : CLine) (e : LineErr) : State :=
  let g := gchan (l * 256)
  let ev := MC_EVENT (stackOf g) (ctlOf g)
  let lost (s : State) := ((s.poisonLine l c).raise ev MC_EVENT_CACHE_UE).fault 1 0x0103 ev (8 * stackOf g + ctlOf g)
  match e with
  | .none => s
  | .data m =>
    match bchDecode m with
    | .clean => s
    | .corrected => s
    | .poison => s.poisonLine l c
    | .uncorrectable => if c.dirty then lost s else (s.reloadLine l c).fault 0 0x0405 ev (l * 256)
  | .tag m =>
    match bchDecode m with
    | .clean => s
    | .corrected => s
    | _ => lost s

/-- Mark a hit line by its hint: recency and KEEP. -/
def State.touchLine (s : State) (l hint : Nat) : State :=
  match s.line l with
  | none => s
  | some c =>
    if hint = 2 then s
    else
      let keep := c.keep || (hint = 1 && s.keepRoom l)
      let (t, s) := s.useTick
      s.setLine l (some { c with use := t, keep := keep })

/-- A served read of n bytes of one line at `a` with a hint code (R221): 0 NORMAL, 1 KEEP, 2 STREAM, 3 LASTUSE.  What it returns,
and the state. -/
def State.dcLook (s : State) (hint a n : Nat) (e : LineErr) : (List Byte × Bool) × State :=
  let l := a / 256
  match s.line l with
  | some c =>
    let s := (s.lineError l c e).countHit a
    (s.memRead a n, if hint = 3 then (match s.line l with | some c => s.dropLine l c | none => s) else s.touchLine l hint)
  | none =>
    let s := s.countMiss a
    (s.memRead a n, if hint = 2 ∨ hint = 3 then s.burst a else s.fillLine l (hint = 1))

/-- A read by a unit of the die; a request that ends returns poisoned (R216), and one that must wait for the next window of a capped
channel changes nothing (R233). -/
def State.dcRead (s : State) (hint a n : Nat) (e : LineErr) : State :=
  if !s.served a n then (s.ended a 1).emit (.memData [] true)
  else if (s.line (a / 256)).isNone && s.burstSpent a (s.missBursts (a / 256) (hint < 2)) then s
  else (s.dcLook hint a n e).2.emit (.memData (s.dcLook hint a n e).1.1 (s.dcLook hint a n e).1.2)

/-- Pieces of a range within one 256-byte line each. -/
def linePieces (a n : Nat) : List (Nat × Nat) :=
  (blocksOf 256 a n).map (fun l => (max a (l * 256), min (a + n) (l * 256 + 256) - max a (l * 256)))
/-- Some line of the range must wait for the next window of a capped channel (R233). -/
def State.mustWait (s : State) (a n : Nat) : Bool :=
  (linePieces a n).any (fun p => (s.line (p.1 / 256)).isNone && s.burstSpent p.1 (s.missBursts (p.1 / 256) true))

/-- A served read of the local address space for a packet or the host: through the slices line by line, or from a face store. -/
def State.localGet (s : State) (hint a n : Nat) : (List Byte × Bool) × State :=
  if regionOf a = .dram then
    (linePieces a n).foldl (fun (acc : (List Byte × Bool) × State) p =>
      let x := acc.2.dcLook hint p.1 p.2 .none
      ((acc.1.1 ++ x.1.1, acc.1.2 || x.1.2), x.2)) (([], false), s)
  else (s.memRead a n, s)

/-- A part write of a beat that DRAM has lost: the merge cannot read it, and the write counts as ended (R217). -/
def State.mergeLost (s : State) (a n : Nat) : State :=
  if s.dram.lost.isEmpty then s
  else match ((blocksOf 64 a n).filter s.lostAt).find? (fun b => !(decide (a ≤ b * 64) && decide (b * 64 + 64 ≤ a + n))) with
    | some b => s.fault 1 0x0101 (MC_EVENT (stackOf (gchan a)) (ctlOf (gchan a))) (b * 64)
    | none => s
/-- What a served write of n bytes of one line at `a` does to its slice (R221), the bytes apart. -/
def State.dcTake (s : State) (hint a n : Nat) (e : LineErr) : State :=
  let l := a / 256
  match s.line l with
  | some c => (((s.lineError l c e).countHit a).dirtyLine l).touchLine l hint
  | none =>
    let s := s.countMiss a
    if hint = 2 then (s.mergeLost a n).burst a else (s.fillLine l (hint = 1)).dirtyLine l
/-- A served write at `a` with a hint code (R221). -/
def State.dcStore (s : State) (hint a : Nat) (v : List Byte) (bad : Bool) (e : LineErr) : State :=
  (s.dcTake hint a v.length e).memPut a v bad

/-- A write by a unit of the die; one that must wait for the next window of a capped channel changes nothing. -/
def State.dcWrite (s : State) (hint a : Nat) (v : List Byte) (bad : Bool) (e : LineErr) : State :=
  if !s.served a v.length then s.ended a 1
  else if (s.line (a / 256)).isNone && s.burstSpent a (s.missBursts (a / 256) (hint != 2)) then s
  else s.dcStore hint a v bad e

/-! ### accesses by units, packets and the host: NORMAL unless a hint is given (R221) -/

/-- A run of bytes stored at a served local address. -/
def State.localPut (s : State) (hint a : Nat) (v : List Byte) (bad : Bool) : State :=
  match regionOf a with
  | .dram => (linePieces a v.length).foldl (fun s q => s.dcStore hint q.1 ((v.drop (q.1 - a)).take q.2) bad .none) s
  | .hostWindow =>
    let t := s.hostPut (a - hwBase) v
    { t with poison := if s.canHost then poisonAfter a v.length bad t.poison else t.poison }
  | _ => s.memPut a v bad

/-- A write of bytes to the local address space by a unit of the device. -/
def State.memWrite (s : State) (a : Nat) (v : List Byte) (bad : Bool) : State :=
  if v.isEmpty then s
  else if !s.served a v.length then s.ended a (endCause a)
  else s.localPut 0 a v bad
/-- What a read of `memRead` with a hint does to the device: its lines are looked up in the slices, or the request ends (R216, R221). -/
def State.memSeenAs (s : State) (hint a n : Nat) : State :=
  if !s.served a n then s.ended a (endCause a)
  else if regionOf a = .dram then (linePieces a n).foldl (fun s p => (s.dcLook hint p.1 p.2 .none).2) s
  else if regionOf a = .hostWindow then s.hostSeen (a - hwBase) n
  else s
/-- A unit's read is NORMAL. -/
def State.memSeen (s : State) (a n : Nat) : State := s.memSeenAs 0 a n

/-- Table words that the device keeps in its own DRAM (R245). -/
def State.tablePut (s : State) (a n v : Nat) : State := s.memWrite a (leBytes n v) false
/-- A frame is filled with zeros and its poison cleared (R252), by NORMAL writes of its lines. -/
def State.zeroRange (s : State) (a n : Nat) : State :=
  if !s.served a n then s.ended a (endCause a)
  else
    let s := (linePieces a n).foldl (fun s p => s.dcTake 0 p.1 p.2 .none) s
    let s := { s with dram := { s.dram with lost := s.dram.lost.filter (fun b => b * 64 < a || a + n ≤ b * 64 || !s.lostAt b) } }
    { s with mem := s.mem.filter (fun c => c.1 < a || a + n ≤ c.1),
             poison := s.poison.filter (fun b => b * 64 < a || a + n ≤ b * 64) }

/-- An access of the table rows: within DRAM and one line. -/
def dcRange (a n : Nat) : Bool := decide (0 < n) && decide (a + n ≤ 0x20000000000) && a / 256 == (a + n - 1) / 256

def execDcReadNormal (a n : Nat) (e : LineErr) (s : State) : Res := done s (if dcRange a n then s.dcRead 0 a n e else s)
def execDcReadKeep (a n : Nat) (e : LineErr) (s : State) : Res := done s (if dcRange a n then s.dcRead 1 a n e else s)
def execDcReadStream (a n : Nat) (e : LineErr) (s : State) : Res := done s (if dcRange a n then s.dcRead 2 a n e else s)
def execDcReadLastuse (a n : Nat) (e : LineErr) (s : State) : Res := done s (if dcRange a n then s.dcRead 3 a n e else s)
def execDcWriteNormal (a : Nat) (v : List Byte) (bad : Bool) (e : LineErr) (s : State) : Res :=
  done s (if dcRange a v.length then s.dcWrite 0 a v bad e else s)
def execDcWriteKeep (a : Nat) (v : List Byte) (bad : Bool) (e : LineErr) (s : State) : Res :=
  done s (if dcRange a v.length then s.dcWrite 1 a v bad e else s)
def execDcWriteStream (a : Nat) (v : List Byte) (bad : Bool) (e : LineErr) (s : State) : Res :=
  done s (if dcRange a v.length then s.dcWrite 2 a v bad e else s)
/-- LASTUSE has no meaning of its own on a write: handled as NORMAL (R221). -/
def execDcWriteLastuse (a : Nat) (v : List Byte) (bad : Bool) (e : LineErr) (s : State) : Res :=
  done s (if dcRange a v.length then s.dcWrite 0 a v bad e else s)

/-- Start a flush walk of controller c of die d (R225). -/
def State.startFlush (s : State) (d c : Nat) : State :=
  let s := s.setFlag (DC_CTRL d c) DC_CTRL_FLUSH true
  { s with dram := { s.dram with flush := setInsert (8 * d + c) s.dram.flush } }

/-- The walk: every dirty line of the controller's slices is written back and every line invalidated. -/
def State.walkFlush (s : State) (d c : Nat) : State :=
  s.dram.lines.foldl (fun s e =>
    let g := gchan (e.1 * 256)
    if stackOf g = d ∧ ctlOf g = c then
      match e.2 with
      | some cl => s.evictLine e.1 cl
      | none => s
    else s) s

/-- Commands that the die controller carries out. -/
def State.dieCmds (s : State) (d : Nat) : List Nat := mapGet (fun _ => []) d s.hif.dieCmd
def State.setDieCmds (s : State) (d : Nat) (l : List Nat) : State :=
  { s with hif := { s.hif with dieCmd := mapSet (fun _ => []) d l s.hif.dieCmd } }
/-- The die controller answers each command of a code that it carries out. -/
def State.dieAnswer (s : State) (d code : Nat) : State :=
  let l := s.dieCmds d
  (l.filter (fun c => c == code)).foldl (fun s _ => s.d2hPush d (ansWord stAccepted 0)) (s.setDieCmds d (l.filter (fun c => c != code)))
/-- Die-controller answer to DIE_FLUSH once no walk of the die is left (R385). -/
def State.dieFlushAnswer (s : State) (d : Nat) : State :=
  if (List.range 8).all (fun c => !s.dram.flush.contains (8 * d + c)) then s.dieAnswer d 0x41 else s

/-- The walk ends (R225); a stack at CRIT writes nothing back, so its walk goes on (R233). -/
def execDcFlushDone (d : DieIx) (c : CtlIx) (s : State) : Res :=
  done s (
    if s.dram.flush.contains (8 * d.val + c.val) && s.tstate d.val != 3 then
      let t := (s.walkFlush d.val c.val).setFlag (DC_CTRL d.val c.val) DC_CTRL_FLUSH false
      let t := { t with dram := { t.dram with flush := setErase (8 * d.val + c.val) t.dram.flush } }
      t.dieFlushAnswer d.val
    else s)

end Sys2Proof.Machine
end

