-- ==== Sys2Proof/Machine/Placement.lean ====
section
/-! DEFINITION. Placement: the object table, the frame map and the ledger as they lie in DRAM (R239 to R249), resolution
(R250), placing (R252, R253), moves (R259), and access to objects by the units of the device. -/

namespace Sys2Proof.Machine

/-! ### object addresses and the object table -/

def oaObj (oa : Nat) : Nat := oa / 2 ^ 40 % 2 ^ 24
def oaOwner (oa : Nat) : Nat := oa / 2 ^ 52 % 4096
def oaGran (oa : Nat) : Nat := oa / 2 ^ 16 % 2 ^ 24
/-- Ledger key (R248). -/
def oaKey (oa : Nat) : Nat := oa / 2 ^ 16 % 2 ^ 48
def keyObj (k : Nat) : Nat := k / 2 ^ 24
def keyGran (k : Nat) : Nat := k % 2 ^ 24

/-- The object record of INDEX i, 32 bytes (R241, R245). -/
def objRecAddr (i : Nat) : Nat := 0xFFD60000 + i * 32
/-- The record of an object as one number; none is in use where its table does not answer (R216). -/
def State.objRec (s : State) (obj : Nat) : Nat :=
  if obj / 4096 = s.devId then (if s.served (objRecAddr (obj % 4096)) 32 then s.memNat (objRecAddr (obj % 4096)) 32 else 0)
  else mapGet (fun _ => 0) obj s.plc.adopted
def orValid (r : Nat) : Bool := bit r 0
def orClass (r : Nat) : Nat := bits r 1 4
def orPin (r : Nat) : Bool := bit r 5
def orMirror (r : Nat) : Bool := bit r 6
def orBind (r : Nat) : Bool := bit r 7
def orTmin (r : Nat) : Nat := bits r 8 2
def orTmax (r : Nat) : Nat := bits r 10 2
def orStack (r : Nat) : Nat := bits r 12 4
def orStackEn (r : Nat) : Bool := bit r 16
def orSize (r : Nat) : Nat := bits r 32 25
def orRegion (r : Nat) : Nat := bits r 64 6
def orBindGran (r : Nat) : Nat := bits r 96 32
def orPlaced (r : Nat) : Nat := bits r 128 25

/-- Change the PLACED count of an object. -/
def State.setPlaced (s : State) (obj n : Nat) : State :=
  if obj / 4096 = s.devId then s.tablePut (objRecAddr (obj % 4096) + 16) 4 n
  else { s with plc := { s.plc with
    adopted := mapSet (fun _ => 0) obj (setBits (s.objRec obj) 128 25 n) s.plc.adopted } }

/-! ### frame map -/

def frameAddr (fr : Nat) : Nat := fr * 65536
/-- Frame-map entry of global frame fr (R245, R246). -/
def fmAddr (fr : Nat) : Nat := fr / 65536 * 2 ^ 32 + 0xFFD80000 + 8 * (fr % 65536)
/-- The entry as it reads: of a map that does not answer (R216), nothing. -/
def State.fm (s : State) (fr : Nat) : Nat := if s.chanOk (fr / 65536) then s.memNat (fmAddr fr) 8 else 0
def State.setFm (s : State) (fr v : Nat) : State := s.tablePut (fmAddr fr) 8 v
def fmAge (e : Nat) : Nat := bits e 0 8
def fmObj (e : Nat) : Nat := bits e 8 24
def fmGran (e : Nat) : Nat := bits e 32 24
def fmClass (e : Nat) : Nat := bits e 56 4
def fmUsed (e : Nat) : Bool := bit e 60
def fmPin (e : Nat) : Bool := bit e 61
def fmRcopy (e : Nat) : Bool := bit e 62
def fmNopool (e : Nat) : Bool := bit e 63
def fmKey (e : Nat) : Nat := bits e 8 24 * 2 ^ 24 + bits e 32 24
def fmMake (key cls : Nat) (pin rcopy : Bool) : Nat :=
  keyObj key * 2 ^ 8 + keyGran key * 2 ^ 32 + cls * 2 ^ 56 + 2 ^ 60 + b2n pin * 2 ^ 61 + b2n rcopy * 2 ^ 62

/-- Frames of a channel that lie in the pool (R245). -/
def poolFrames (g : Nat) : Nat := if g = 0 then 65494 else 65496

/-- Distinct numbers of a rising list, kept once. -/
def dedupRising : List Nat → List Nat
  | [] => []
  | [a] => [a]
  | a :: b :: l => if a = b then dedupRising (b :: l) else a :: dedupRising (b :: l)

/-- Global frames whose frame-map entry is not zero, rising. -/
def State.frames (s : State) : List Nat :=
  dedupRising (s.mem.filterMap (fun c =>
    let o := c.1 % 2 ^ 32
    if c.1 < 0x20000000000 ∧ 0xFFD80000 ≤ o ∧ o < 0xFFE00000 then some (c.1 / 2 ^ 32 * 65536 + (o - 0xFFD80000) / 8) else none))

/-- Pool frames of channel g that cannot be taken. -/
def State.takenIn (s : State) (g : Nat) : List Nat :=
  s.frames.filter (fun fr => fr / 65536 == g && fr % 65536 < poolFrames g && (fmUsed (s.fm fr) || fmNopool (s.fm fr)))
/-- Free frames of a channel whose map answers. -/
def State.freeInChan (s : State) (g : Nat) : Nat := if s.chanOk g then poolFrames g - (s.takenIn g).length else 0
def State.freeInStack (s : State) (d : Nat) : Nat := (List.range 32).foldl (fun n c => n + s.freeInChan (32 * d + c)) 0

/-- First number at or above k that a rising list does not hold. -/
def mexFrom (k : Nat) : List Nat → Nat
  | [] => k
  | j :: l => if j = k then mexFrom (k + 1) l else if k < j then k else mexFrom k l

/-- The lowest free pool frame of a channel. -/
def State.frameIn (s : State) (g : Nat) : Option Nat :=
  let k := mexFrom 0 ((s.takenIn g).map (fun fr => fr % 65536))
  if k < poolFrames g then some (g * 65536 + k) else none

/-- The first of the best: the item of a list with the largest measure, the earlier on equal. -/
def bestBy (f : Nat → Nat) : List Nat → Option Nat
  | [] => none
  | a :: l => match bestBy f l with
    | none => some a
    | some b => if f b ≤ f a then some a else some b

/-- Free frames, and the marks of PLC_WATER (R269). -/
def State.freeFrames (s : State) : Nat := s.fld PLC_FREE PLC_FREE_FRAMES
def State.lowMark (s : State) : Nat := s.fld PLC_WATER ⟨0, 16⟩ * 1024
def State.highMark (s : State) : Nat := max (s.fld PLC_WATER ⟨16, 16⟩ * 1024) s.lowMark
/-- A PLC parity stop ends eviction, pulls and replica copies (R268). -/
def State.plcStop (s : State) : Bool := s.parStop.contains PLC_CTRL || s.parStop.contains PLC_WATER

/-- A frame for a new granule (R253): stack, then channel, then the lowest frame. -/
def State.pickFrame (s : State) (r : Nat) (face : Option Nat) : Option Nat :=
  let ok (d : Nat) : Bool := s.tstate d < 2 && 0 < s.freeInStack d
  let want := (if orStackEn r then [orStack r] else []) ++ (match face with | some F => [F / 64] | none => [])
  let stack := match want.find? ok with
    | some d => some d
    | none => bestBy (fun d => s.freeInStack d) ((List.range 16).filter ok)
  match stack with
  | none => none
  | some d =>
    let all := (List.range 32).map (fun c => 32 * d + c)
    let near := match face with
      | some F => if F / 64 = d then (List.range 8).map (fun c => 32 * d + 8 * (F % 64 / 16) + c) else []
      | none => []
    let has (g : Nat) : Bool := 0 < s.freeInChan g
    let g := match bestBy (fun g => s.freeInChan g) (near.filter has) with
      | some g => some g
      | none => bestBy (fun g => s.freeInChan g) (all.filter has)
    match g with
    | none => none
    | some g => s.frameIn g

/-- Take a frame: its entry is written and the free count falls. -/
def State.takeFrame (s : State) (fr key cls : Nat) (pin rcopy : Bool) : State :=
  (s.setFm fr (fmMake key cls pin rcopy)).setFld PLC_FREE PLC_FREE_FRAMES (s.freeFrames - 1)
/-- Free a frame whose map answers. -/
def State.freeFrame (s : State) (fr : Nat) : State :=
  if fmUsed (s.fm fr) && !fmNopool (s.fm fr) then
    (s.setFm fr 0).setFld PLC_FREE PLC_FREE_FRAMES (s.freeFrames + 1)
  else s

/-! ### ledger -/

/-- The two candidate buckets of a key (R248). -/
def ledX (k : Nat) : Nat := k * 0x9E3779B97F4A7C15 % 2 ^ 64
def bucket1 (k : Nat) : Nat := bits (ledX k) 41 23
def bucket2 (k : Nat) : Nat :=
  let v := bits (ledX k) 0 21
  bucket1 k ^^^ (if v = 0 then 1 else v)
def bucketAddr (b : Nat) : Nat := b % 512 * 2 ^ 32 + 0xFFE00000 + b / 512 * 128
/-- Link die that owns the key (R248). -/
def keyLinkDie (k : Nat) : Nat := bits (bucket1 k) 21 2

def leObj (e : Nat) : Nat := bits e 0 24
def leGran (e : Nat) : Nat := bits e 24 24
def leKey (e : Nat) : Nat := leObj e * 2 ^ 24 + leGran e
def leKind (e : Nat) : Nat := bits e 48 3
def lePoison (e : Nat) : Bool := bit e 51
def lePin (e : Nat) : Bool := bit e 52
def leClass (e : Nat) : Nat := bits e 53 4
def leR0V (e : Nat) : Bool := bit e 57
def leR1V (e : Nat) : Bool := bit e 58
def leDev (e : Nat) : Nat := bits e 64 12
def leAddr (e : Nat) : Nat := bits e 76 28
def leRepl0 (e : Nat) : Nat := bits e 104 12
def leRepl1 (e : Nat) : Nat := bits e 116 12

def kEmpty : Nat := 0
def kLocal : Nat := 1
def kPeer : Nat := 2
def kHost : Nat := 3
def kProxy : Nat := 4
def kRcopy : Nat := 5
def kMoving : Nat := 6

/-- An entry from its parts (R247). -/
def leMake (key kind : Nat) (poison pin : Bool) (cls dev addr : Nat) : Nat :=
  keyObj key + keyGran key * 2 ^ 24 + kind * 2 ^ 48 + b2n poison * 2 ^ 51 + b2n pin * 2 ^ 52 + cls * 2 ^ 53 + dev * 2 ^ 64 +
  addr * 2 ^ 76

/-- The ways of a key in the order of a lookup: bucket 1, then bucket 2. -/
def keyWays (k : Nat) : List Nat :=
  (List.range 8).map (fun i => bucketAddr (bucket1 k) + 16 * i) ++ (List.range 8).map (fun i => bucketAddr (bucket2 k) + 16 * i)
def State.led (s : State) (a : Nat) : Nat := s.memNat a 16

/-- No entry of a key can be read: an error has lost it (R267), or a bucket's channel does not answer and no cache holds it (R216). -/
def State.keyGone (s : State) (k : Nat) : Bool :=
  s.plc.lostKeys.contains k ||
  (!(s.served (bucketAddr (bucket1 k)) 128 && s.served (bucketAddr (bucket2 k)) 128) &&
    !(mapGet (fun _ => []) (keyLinkDie k * 16384 + bucket1 k % 16384) s.plc.ledc).any (fun e => e.1 == k))
/-- Look a key up: the entry's address and value (R249). -/
def State.lookup (s : State) (k : Nat) : Option (Nat × Nat) :=
  if s.keyGone k then none
  else match (keyWays k).find? (fun a => leKind (s.led a) != kEmpty && leKey (s.led a) == k) with
  | some a => some (a, s.led a)
  | none => none
/-- Set of a key in its link die's ledger cache (R293). -/
def ledcSet (k : Nat) : Nat := keyLinkDie k * 16384 + bucket1 k % 16384
def State.ledcWays (s : State) (k : Nat) : List (Nat × Bool) := mapGet (fun _ => []) (ledcSet k) s.plc.ledc
def State.setLedc (s : State) (k : Nat) (l : List (Nat × Bool)) : State :=
  { s with plc := { s.plc with ledc := mapSet (fun _ => []) (ledcSet k) l s.plc.ledc } }
/-- The cached copy of an entry, when one is there, has changed. -/
def State.ledcMark (s : State) (k : Nat) : State :=
  if (s.ledcWays k).any (fun e => e.1 == k) then
    s.setLedc k ((s.ledcWays k).map (fun e => if e.1 = k then (k, true) else e))
  else s
/-- The walk of a key's buckets after a miss of the ledger cache (R249): b2 is read where b1 does not hold the key. -/
def State.walkBuckets (s : State) (k : Nat) : State :=
  let one (s : State) (b : Nat) : State := if s.served (bucketAddr b) 128 then s.memSeen (bucketAddr b) 128 else s
  let s1 := one s (bucket1 k)
  match s.lookup k with
  | some (a, _) => if a / 128 = bucketAddr (bucket1 k) / 128 then s1 else one s1 (bucket2 k)
  | none => one s1 (bucket2 k)
/-- A lookup at the ledger cache (R249, R293): hit or miss, and on a miss the entry found in the buckets is brought in over the
least recently used one, which is written back when it has changed. -/
def State.ledcLook (s : State) (k : Nat) : State :=
  let l := s.ledcWays k
  let die := keyLinkDie k
  match l.find? (fun e => e.1 == k) with
  | some e => (s.bump (LEDC_HIT_LO die) 1).setLedc k (e :: l.filter (fun x => x.1 != k))
  | none =>
    let s := (s.bump (LEDC_MISS_LO die) 1).walkBuckets k
    if (s.lookup k).isNone then s
    else if l.length < 16 then
      (s.setLedc k ((k, false) :: l)).setFld (LEDC_STAT die) LEDC_STAT_VALID (s.fld (LEDC_STAT die) LEDC_STAT_VALID + 1)
    else
      let s := if (l.getD 15 (0, false)).2 then
          (s.bump (LEDC_WB_LO die) 1).usePromo (.bucketPort (Fin.ofNat 4 die)) .ledgerBack
        else s
      s.setLedc k ((k, false) :: l.take 15)

/-- A key that leaves the buckets leaves the cache. -/
def State.ledcDrop (s : State) (k : Nat) : State :=
  let f := LEDC_STAT (keyLinkDie k)
  if (s.ledcWays k).any (fun e => e.1 == k) then
    (s.setLedc k ((s.ledcWays k).filter (fun e => e.1 != k))).setFld f LEDC_STAT_VALID (s.fld f LEDC_STAT_VALID - 1)
  else s
/-- Overwrite an entry. -/
def State.setLed (s : State) (a e : Nat) : State :=
  let old := s.led a
  let s := if leKind old = kEmpty ∨ (e ≠ 0 ∧ leKey e = leKey old) then s else s.ledcDrop (leKey old)
  (if e = 0 then s else s.ledcMark (leKey e)).tablePut a 16 e

/-- Enter a new key (R249): an EMPTY way, else the first PROXY, else the first RCOPY, whose frame is freed. -/
def State.addLed (s : State) (k e : Nat) : Option State :=
  let ways := keyWays k
  let kindAt (a : Nat) := leKind (s.led a)
  match ways.find? (fun a => kindAt a == kEmpty) with
  | some a => some (s.setLed a e)
  | none => match ways.find? (fun a => kindAt a == kProxy) with
    | some a => some (s.setLed a e)
    | none => match ways.find? (fun a => kindAt a == kRcopy) with
      | some a => some ((s.freeFrame (leAddr (s.led a))).setLed a e)
      | none => none
/-- Enter or overwrite. -/
def State.putLed (s : State) (k e : Nat) : Option State :=
  match s.lookup k with
  | some (a, _) => some (s.setLed a e)
  | none => s.addLed k e
def State.dropLed (s : State) (k : Nat) : State :=
  match s.lookup k with
  | some (a, _) => s.setLed a 0
  | none => s

/-- Addresses of every ledger entry that is not zero. -/
def State.ledgerAddrs (s : State) : List Nat :=
  (dedupRising (s.mem.filterMap (fun c =>
    if c.1 < 0x20000000000 ∧ 0xFFE00000 ≤ c.1 % 2 ^ 32 then some (c.1 / 16) else none))).map (fun x => x * 16)

/-! ### LED and MIG packets

R282 names the ledger operations and gives no codes: the model numbers them in the order of its list. -/

def opLookup : Nat := 0
def opProxy : Nat := 1
def opReplAdd : Nat := 2
def opReplDrop : Nat := 3
def opPoison : Nat := 4
def opSpill : Nat := 5
def opFree : Nat := 6
def opTransfer : Nat := 7

/-- A ledger request to a device. -/
def ledPkt (dst op oa ext : Nat) (data : List Byte) : Packet :=
  { type := 6, ord := true, src := 0, dst := dst, args := op, addr := oa, ext := ext, data := data }
/-- Object address of a key. -/
def keyOa (k : Nat) : Nat := k * 2 ^ 16

/-- EXT of a place-and-spill request: what for (0 a new granule, 1 a mirror copy, 2 a move down, 3 an evacuation), class, PIN, and
the object's STACK, STACK_EN and TIERMAX (the model's layout). -/
def spillExt (why cls : Nat) (pin : Bool) (r : Nat) : Nat :=
  why + cls * 2 ^ 2 + b2n pin * 2 ^ 6 + orStack r * 2 ^ 7 + b2n (orStackEn r) * 2 ^ 11 + orTmax r * 2 ^ 12
/-- The part of an object record that such a request carries. -/
def extRec (x : Nat) : Nat := bits x 12 2 * 2 ^ 10 + bits x 7 4 * 2 ^ 12 + bits x 11 1 * 2 ^ 16

/-! ### serving device and spill peers -/

/-- The device that serves an owner's objects (R250, R266). -/
def State.serverOf (s : State) (owner : Nat) : Nat :=
  match (List.range 16).find? (fun i => s.flag (PLC_ALIAS i) PLC_ALIAS_V && s.fld (PLC_ALIAS i) PLC_ALIAS_OWNER == owner) with
  | some i => s.fld (PLC_ALIAS i) PLC_ALIAS_SERVE
  | none => owner
/-- Valid spill peers in PLC_SPILL order. -/
def State.spillPeers (s : State) : List Nat :=
  let p (a lo : Nat) : List Nat := if bit (s.reg a) (lo + 12) then [bits (s.reg a) lo 12] else []
  p PLC_SPILL01 0 ++ p PLC_SPILL01 16 ++ p PLC_SPILL23 0 ++ p PLC_SPILL23 16
/-- The device with the host path of this device's regions (R254). -/
def State.regionDev (s : State) : Nat :=
  if s.isMember then s.fld (LD_DEVID 0) LD_DEVID_ANCHOR else s.devId

/-! ### regions -/

def State.regionV (s : State) (r : Nat) : Bool := s.flag (PLC_REGION_W3 r) PLC_REGION_W3_V
def State.regionBase (s : State) (r : Nat) : Nat := s.reg (PLC_REGION_W0 r) + s.fld (PLC_REGION_W1 r) PLC_REGION_W1_BASE_HI * 2 ^ 32
def State.regionLen (s : State) (r : Nat) : Nat := s.fld (PLC_REGION_W2 r) PLC_REGION_W2_LEN
def State.regionUsed (s : State) (r : Nat) : Nat := s.fld (PLC_REGION_W3 r) PLC_REGION_W3_USED
/-- Take granule i of region r. -/
def State.takeSlot (s : State) (r i : Nat) : State :=
  let s := s.setFld (PLC_REGION_W3 r) PLC_REGION_W3_USED (s.regionUsed r + 1)
  { s with plc := { s.plc with slots := setInsert (r * 2 ^ 28 + i) s.plc.slots } }
/-- Give back the granule at host-window granule number h. -/
def State.freeSlot (s : State) (h : Nat) : State :=
  match (List.range 64).find? (fun r => s.regionV r && s.regionBase r / 65536 ≤ h && h < s.regionBase r / 65536 + s.regionLen r) with
  | none => s
  | some r =>
    let i := h - s.regionBase r / 65536
    if s.plc.slots.contains (r * 2 ^ 28 + i) then
      let s := s.setFld (PLC_REGION_W3 r) PLC_REGION_W3_USED (s.regionUsed r - 1)
      { s with plc := { s.plc with slots := setErase (r * 2 ^ 28 + i) s.plc.slots } }
    else s
/-- The host granule on the way to which a granule is, and the mark of it. -/
def State.homingTo (s : State) (k : Nat) : Option Nat := mapGet (fun _ => none) k s.plc.homing
def State.setHoming (s : State) (k : Nat) (h : Option Nat) : State :=
  { s with plc := { s.plc with homing := mapSet (fun _ => none) k h s.plc.homing } }
/-- It does not come there: its place is given back. -/
def State.dropHoming (s : State) (k : Nat) : State :=
  match s.homingTo k with
  | some h => (s.setHoming k none).freeSlot h
  | none => s
/-- The first region with room and its lowest free granule. -/
def State.regionRoom (s : State) : Option (Nat × Nat) :=
  match (List.range 64).find? (fun r => s.regionV r && s.regionUsed r < s.regionLen r) with
  | none => none
  | some r =>
    let used := (s.plc.slots.filter (fun x => x / 2 ^ 28 == r)).map (fun x => x % 2 ^ 28)
    some (r, mexFrom 0 used)

/-! ### requests to a holder (R250) -/

/-- Object address of a request. -/
def ObjReq.oa : ObjReq → Nat
  | .read a => a
  | .write a _ _ => a
  | .load _ _ _ _ a _ => a
  | .store _ _ _ _ a _ _ _ => a
  | .unit a => a
def ObjReq.writes : ObjReq → Bool
  | .read _ => false
  | .write _ _ _ => true
  | .load _ _ _ _ _ _ => false
  | .store _ _ _ _ _ _ _ _ => true
  | .unit _ => false

/-- The packet of a request, at address a of device dev: an object address, or with AK one of its host window (R254, R282). -/
def ObjReq.packet (r : ObjReq) (dev a : Nat) (ak : Bool) : Packet :=
  match r with
  | .read _ => { type := 0, ord := true, ak := ak, src := 0, dst := dev, args := 8, addr := a / 256 * 256 }
  | .unit _ => { type := 0, ord := true, ak := ak, src := 0, dst := dev, args := 8, addr := a / 256 * 256 }
  | .load _ _ _ _ _ hint => { type := 0, ord := true, ak := ak, src := 0, dst := dev, args := 8 + hint * 64, addr := a / 256 * 256 }
  | .write _ v bad => wrPkt dev a ak v bad 0
  | .store _ _ _ _ _ v bad hint => wrPkt dev a ak v bad hint

/-- The request ends at the placement engine (R216). -/
def State.resolveEnd (s : State) (oa : Nat) : State := s.fault 1 0x0102 0 (oa % 2 ^ 48)

/-- Send a request where its granule is to be had; n STALE replies have come for it. -/
def State.request (s : State) (w : Where) (r : ObjReq) (n : Nat) : State :=
  match w with
  | .away dev => s.send (r.packet dev r.oa false) (.obj r n)
  | .hostAt dev off => s.send (r.packet dev (dev * 2 ^ 48 + hwBase + off + r.oa % 65536) true) (.obj r n)
  | .ask v => s.send (ledPkt v opLookup (keyOa (oaKey r.oa)) 0 []) (.lookup r n)
  | _ => s.resolveEnd r.oa

/-- Pieces of at most 512 bytes that a write travels in. -/
def wrPieces (a : Nat) (v : List Byte) : List (Nat × List Byte) :=
  (blocksOf 512 a v.length).map (fun b =>
    let lo := max a (b * 512)
    (lo, (v.drop (lo - a)).take (b * 512 + 512 - lo)))
/-- Write bytes where another device holds them. -/
def State.writeAt (s : State) (w : Where) (oa : Nat) (v : List Byte) (bad : Bool) : State :=
  (wrPieces oa v).foldl (fun s p => s.request w (.write p.1 p.2 bad) 0) s

/-! ### the engine -/

/-- No evacuation runs or has run (R265). -/
def State.unevacuated (s : State) : Bool := s.plc.evac.isNone && !s.flag PLC_STAT PLC_STAT_EVACUATED
/-- The engine may start work of its own: no parity stop (R268) and no evacuation (R265). -/
def State.engineFree (s : State) : Bool := !s.plcStop && s.unevacuated

/-- Moves that this device runs: at most 32 are in flight (R259). -/
def State.movesRun (s : State) : Nat := (s.plc.moves.filter (fun m => m.why != .pulled)).length
def State.moveOf (s : State) (k : Nat) : Option Move := s.plc.moves.find? (fun m => m.key == k)
/-- Set MOVES of PLC_STAT. -/
def State.countMoves (s : State) : State := s.setFld PLC_STAT PLC_STAT_MOVES s.movesRun
def State.addMove (s : State) (m : Move) : State :=
  ({ s with plc := { s.plc with moves := s.plc.moves ++ [m] } } : State).countMoves
def State.dropMove (s : State) (k : Nat) : State :=
  ({ s with plc := { s.plc with moves := s.plc.moves.filter (fun x => x.key != k) } } : State).countMoves

/-- Can eviction choose a frame (R256)? -/
def State.evictable (s : State) (fr : Nat) : Bool :=
  let e := s.fm fr
  fmUsed e && !fmNopool e && !fmPin e && fmClass e != 5 && fmClass e != 15 &&
  (match s.lookup (fmKey e) with
   | some (_, l) => leKind l != kMoving && !lePoison l && !(fmRcopy e && fmClass e != 1)
   | none => !fmRcopy e)

/-- Classes whose granules are pinned to where they are placed (R240). -/
def classPin (c : Nat) : Bool := c == 5 || c == 15

/-- A device answers a place-and-spill request: none, or the place, a local address of a device or a host-window offset; without
`roam` the place is a frame of its own. -/
def State.askPlace (s : State) (p ext k : Nat) (roam : Bool) : Option (Nat × Nat × Bool) × State :=
  let (n, s) := s.draw
  let s := s.send (ledPkt p opSpill (keyOa k) ext []) .other
  match Config.spillAnswer p n with
  | 0 => (none, s)
  | f + 1 =>
    let d := f / 2 ^ 28 % 8192
    (if !roam then some (p, frameAddr (f % 2 ^ 25), false)
     else some (if d = 0 then p else (d - 1) % 4096, f % 2 ^ (if bit f 41 then 28 else 25) * 65536, bit f 41), s)
/-- Ask the spill peers in order for a frame of theirs (R252). -/
def State.askSpill (ext : Nat) : List Nat → Nat → State → Option (Nat × Nat) × State
  | [], _, s => (none, s)
  | p :: l, k, s =>
    match s.askPlace p ext k false with
    | (none, s) => State.askSpill ext l k s
    | (some (_, a, _), s) => (some (p, a), s)

/-! ### mirrors (R262) -/

/-- A granule with a mirror copy. -/
def State.mirrored (s : State) (k : Nat) : Bool :=
  match s.lookup k with
  | some (_, e) => (leClass e == 0 || leClass e == 2) && leR0V e
  | none => false
/-- The device whose ledger entry for a granule is to follow the owner's: EXT 2 of an entry transfer carries KIND, R0V and REPL0. -/
def State.tellHolder (s : State) (dev k e : Nat) : State := s.send (ledPkt dev opTransfer (keyOa k) 2 (leBytes 32 e)) .other
/-- A peer that holds a mirrored granule is told of the mirror, so that it applies every write to both. -/
def State.tellMirror (s : State) (k : Nat) : State :=
  match s.lookup k with
  | some (_, e) => if leKind e = kPeer ∧ s.mirrored k then s.tellHolder (leDev e) k (setBits e 48 3 kLocal) else s
  | none => s
/-- The device of a granule's mirror copy. -/
def State.mirrorOf (s : State) (k : Nat) : Option Nat :=
  match s.lookup k with
  | some (_, e) => if s.mirrored k then some (leRepl0 e) else none
  | none => none
/-- Bytes of a granule go to its mirror copy. -/
def State.mirrorTo (s : State) (dev : Option Nat) (k off : Nat) (v : List Byte) (bad : Bool) (who : Option Packet) : State :=
  match dev with
  | some d => (wrPieces (keyOa k + off) v).foldl (fun s p => s.send (wrPkt d p.1 false p.2 bad 0) (.mirror who)) s
  | none => s
/-- A write to a mirrored granule goes to the mirror as well. -/
def State.mirrorWrite (s : State) (k off : Nat) (v : List Byte) (bad : Bool) (who : Option Packet) : State :=
  s.mirrorTo (s.mirrorOf k) k off v bad who

/-- The mirror copy of a granule placed by its owner (R262): on the first valid spill peer that does not hold it, in REPL0, when
that peer accepts. -/
def State.addMirror (s : State) (k : Nat) : State :=
  if !orMirror (s.objRec (keyObj k)) then s
  else match s.lookup k with
    | none => s
    | some (a, e) => match s.spillPeers.find? (fun p => !(leKind e == kPeer && leDev e == p)) with
      | none => s
      | some p =>
        match s.askPlace p (spillExt 1 (leClass e) (lePin e) 0) k false with
        | (none, s) => s
        | (some _, s) => (s.setLed a (setBits (setBits e 57 1 1) 104 12 p)).tellMirror k

/-! ### poison of a granule -/

/-- Clear the POISON mark of an entry. -/
def State.clearPoison (s : State) (k : Nat) : State :=
  let s := { s with plc := { s.plc with rewritten := mapSet (fun _ => []) k [] s.plc.rewritten } }
  match s.lookup k with
  | some (a, e) => if lePoison e then s.setLed a (e - 2 ^ 51) else s
  | none => s
/-- Beats of a POISON granule are written whole: the last of them clears POISON (R264), at the owner too. -/
def State.noteWrite (s : State) (k off n : Nat) : State :=
  match s.lookup k with
  | some (_, e) =>
    if !lePoison e then s
    else
      let whole := (blocksOf 64 off n).filter (fun b => decide (off ≤ b * 64) && decide (b * 64 + 64 ≤ off + n))
      let l := whole.foldl (fun l b => setInsert b l) (mapGet (fun _ => []) k s.plc.rewritten)
      if l.length < 1024 then { s with plc := { s.plc with rewritten := mapSet (fun _ => []) k l s.plc.rewritten } }
      else
        let v := s.serverOf (keyObj k / 4096)
        let s := s.clearPoison k
        if v = s.devId then s else s.send (ledPkt v opPoison (keyOa k) 1 []) .other
  | none => s

/-- Sources of a mend by class (R264): replicas of a WWORK granule, the mirror of masters and moments; none else. -/
def mendSrcs (e : Nat) : List Nat :=
  if leClass e = 1 then (if leR0V e then [leRepl0 e] else []) ++ (if leR1V e then [leRepl1 e] else [])
  else if leClass e = 0 ∨ leClass e = 2 then (if leR0V e then [leRepl0 e] else [])
  else []

/-- Start the mend of a poisoned granule on its owner (R264); a device that is emptied starts none (R265). -/
def State.startMend (s : State) (k e : Nat) : State :=
  if !s.flag PLC_CTRL PLC_CTRL_MEND_EN || !s.unevacuated then s
  else
    let srcs := mendSrcs e
    let remake := leClass e == 1
    if srcs.isEmpty && !remake then s
    else
      let s := match srcs with
        | d :: _ => s.send { type := 0, ord := true, src := 0, dst := d, args := 16, addr := keyOa k } .other
        | [] => s
      { s with plc := { s.plc with mends := s.plc.mends ++ [⟨k, leClass e, srcs, remake⟩] } }

/-- Mark the entry of a key POISON where it stands (R263). -/
def State.markPoison (s : State) (k : Nat) : State :=
  let s := { s with plc := { s.plc with rewritten := mapSet (fun _ => []) k [] s.plc.rewritten } }
  match s.lookup k with
  | some (a, e) => if lePoison e then s else s.setLed a (e + 2 ^ 51)
  | none => s

/-- An uncorrectable error in a frame (R263): POISON in the own entry and the owner's, the frame retired, then the mend. -/
def State.framePoison (s : State) (fr : Nat) : State :=
  let e := s.fm fr
  if !fmUsed e || fmNopool e then s
  else
    let k := fmKey e
    let s := s.markPoison k
    let s := s.setFm fr (e + 2 ^ 63)
    let s := s.setFld PLC_RETIRED PLC_RETIRED_FRAMES (s.fld PLC_RETIRED PLC_RETIRED_FRAMES + 1)
    let s := s.raise PLC_EVENT PLC_EVENT_POISON
    let v := s.serverOf (keyObj k / 4096)
    if fmRcopy e then
      -- a replica copy is freed, and the next read fetches from the owner (R264)
      let s := s.dropLed k
      s.send (ledPkt v opReplDrop (keyOa k) 0 []) .other
    else if v = s.devId then
      match s.lookup k with
      | some (_, le) => s.startMend k le
      | none => s
    else s.send (ledPkt v opPoison (keyOa k) 0 []) .other

/-! ### moves (R259) -/

/-- The 128 MIG DATA packets and the MIG DONE of a granule leaving for a frame of another device, all under the move's tag. -/
def State.sendGranule (s : State) (k src dst frame : Nat) : State :=
  let s := s.memSeen src 65536
  let s := (List.range 128).foldl (fun s c =>
    s.sendPlain { type := 7, ord := true, src := 0, dst := dst, tag := s.fab.nextTag, args := c * 2 ^ 8, addr := frame, ext := keyOa k,
                  data := getBytes s.mem (src + 512 * c) 512, poison := s.beatBad (src + 512 * c) 512 }) s
  s.send { type := 7, ord := true, src := 0, dst := dst, args := 1, addr := frame, ext := keyOa k } (.mig k)
/-- Write bytes to the host window of a device. -/
def State.hostStore (s : State) (dev off : Nat) (v : List Byte) (bad : Bool) : State :=
  if dev = s.devId then s.memWrite (hwBase + off) v bad
  else (wrPieces off v).foldl (fun s p => s.send (wrPkt dev (dev * 2 ^ 48 + hwBase + p.1) true p.2 bad 0) .write) s
/-- A granule leaves for the host window of a device, line by line with its poison. -/
def State.hostGranule (s : State) (dev off src : Nat) : State :=
  (List.range 128).foldl (fun s c =>
    s.hostStore dev (off + 512 * c) (getBytes s.mem (src + 512 * c) 512) (s.beatBad (src + 512 * c) 512)) (s.memSeen src 65536)

/-- Start a move of a granule whose frame is here: its entry becomes MOVING and its data leaves; at most 32 are in flight.  A
source with an uncorrectable beat stops the move and marks the granule POISON.  A granule that goes home to a host region is
announced to its owner by MIG DONE. -/
def State.startMove (s : State) (k : Nat) (why : MoveWhy) (dst dstAddr : Nat) (host : Bool) : State :=
  if 32 ≤ s.movesRun then s
  else match s.lookup k with
    | none => s
    | some (a, e) =>
      let src := frameAddr (leAddr e)
      if leKind e ≠ kLocal ∧ leKind e ≠ kRcopy then s
      else if s.dram.lost.any (fun b => b / 1024 == leAddr e && s.lostAt b) then s.framePoison (leAddr e)
      else
        let s := s.setLed a (e - leKind e * 2 ^ 48 + kMoving * 2 ^ 48)
        let home := host && why == .giveBack
        let s := if host then s.hostGranule dst dstAddr src else s.sendGranule k src dst dstAddr
        let s := if home then
            s.send { type := 7, ord := true, src := 0, dst := s.serverOf (keyObj k / 4096), args := 1, addr := hwBase + dstAddr,
                     ext := keyOa k } (.mig k)
          else s
        s.addMove ⟨k, why, some src, dst, dstAddr, host, host && !home, []⟩

/-- Move a frame down (R257). -/
def State.moveDown (s : State) (fr : Nat) : State :=
  let e := s.fm fr
  let k := fmKey e
  let v := s.serverOf (keyObj k / 4096)
  let r := s.objRec (keyObj k)
  let ext := spillExt 2 (fmClass e) (fmPin e) r
  if fmRcopy e then
    let s := (s.freeFrame fr).dropLed k
    let s := s.bump PLC_EVICT_LO 1
    s.send (ledPkt v opReplDrop (keyOa k) 0 []) .other
  else if 32 ≤ s.movesRun then s
  else if v = s.devId then
    if orTmax r = 0 then s
    else
      let mirror := match s.lookup k with | some (_, l) => if s.mirrored k then [leRepl0 l] else [] | none => []
      let (ans, s) := s.askSpill ext (s.spillPeers.filter (fun p => !mirror.contains p)) k
      match ans with
      | some (p, a) => s.startMove k .evict p a false
      | none =>
        match (if orTmax r = 2 then s.regionRoom else none) with
        | some (rg, i) =>
          let t := s.startMove k .evict s.regionDev (s.regionBase rg + i * 65536) true
          if s.movesRun < t.movesRun then t.takeSlot rg i else t
        | none => s
  else
    -- held for another owner: returned when the owner takes it
    match s.askPlace v ext k true with
    | (some (d, a, h), s) => s.startMove k .giveBack d a h
    | (none, s) => s

/-- ARGS bit 2 of a WR marks a write that its granule's old holder passes on after a move (the model's layout): it comes from whom
the holder took it from. -/
def wrMoved : Nat := 4
/-- A held write lands at the destination after the switch (R259), and at the granule's mirror; another device gets it as a WR. -/
def State.landWrite (s : State) (m : Move) (mirror : Option Nat) (w : HeldWrite) : State :=
  if m.host ∧ m.why ≠ .pull then
    (s.hostStore m.dstDev (m.dstAddr + w.off) w.data w.bad).mirrorTo mirror m.key w.off w.data w.bad none
  else if m.dstDev = s.devId then (s.memWrite (m.dstAddr + w.off) w.data w.bad).mirrorTo mirror m.key w.off w.data w.bad none
  else (wrPieces (keyOa m.key + w.off) w.data).foldl (fun s p =>
    s.send (wrPkt m.dstDev p.1 false p.2 w.bad wrMoved) (.obj (.write p.1 p.2 w.bad) 0)) s

/-- A ledger entry with a new kind and place. -/
def leSet (e kind dev addr : Nat) : Nat := setBits (setBits (setBits e 48 3 kind) 64 12 dev) 76 28 addr

/-- Switch the entry of a move whose data has arrived, apply held writes and free the source frame. -/
def State.switchEntry (s : State) (m : Move) : State :=
  let k := m.key
  let mirror := s.mirrorOf k
  let s := (s.dropMove k).bump PLC_MOVE_LO 1
  let s := match s.lookup k with
    | none => s
    | some (a, e) =>
      match m.why with
      | .pull =>
        let s := match m.srcAddr with
          | some h => (s.memSeen h 65536).memWrite m.dstAddr (s.memRead h 65536).1 (s.memRead h 65536).2
          | none => s
        let s := if m.host then s.freeSlot (leAddr e) else s.send (ledPkt (leDev e) opFree (keyOa k) 1 []) .other
        s.setLed a (leSet e kLocal s.devId (m.dstAddr / 65536))
      | .giveBack => s.setLed a 0
      | _ =>
        if m.host then s.setLed a (leSet e kHost m.dstDev (m.dstAddr / 65536))
        else (s.setLed a (leSet e kPeer m.dstDev (m.dstAddr / 65536))).tellMirror k
  let s := match m.srcAddr with
    | some src => if src < 0x20000000000 then s.freeFrame (src / 65536) else s
    | none => s
  let s := if m.why = .evict ∨ m.why = .giveBack then s.bump PLC_EVICT_LO 1 else s
  m.writes.foldl (fun s w => s.landWrite m mirror w) s

/-! ### fetches: replica copies (R260) and pulls (R258) -/

/-- Fetch a granule into a local frame by 128 reads of 512 bytes. -/
def State.startFetch (s : State) (k fr cls dev : Nat) (pin pull ak : Bool) (base : Nat) : State :=
  let s := { s with plc := { s.plc with fetches := s.plc.fetches ++ [⟨k, fr, cls, pin, pull, []⟩] } }
  (List.range 128).foldl (fun s c =>
    s.send { type := 0, ord := true, ak := ak, src := 0, dst := dev, args := 16, addr := base + 512 * c } (.fetch k c)) s

/-- Take a replica copy of a WWORK granule that `dev` holds (R260). -/
def State.takeReplica (s : State) (k dev : Nat) (pin : Bool) : State :=
  if !(s.engineFree && s.flag PLC_CTRL PLC_CTRL_RCOPY_EN) || s.plc.fetches.any (fun f => f.key == k) then s
  else match s.pickFrame 0 none with
    | none => s
    | some fr => (s.takeFrame fr k 1 pin true).startFetch k fr 1 dev pin false false (keyOa k)

/-- Pull a granule of an own object to tier 0 (R258) when it lies at tier 1 or 2, is not pinned and there is room; a holder is
told first, so that both entries are MOVING (R259). -/
def State.pull (s : State) (k : Nat) (face : Option Nat) : State :=
  let r := s.objRec (keyObj k)
  match s.lookup k with
  | none => s
  | some (a, e) =>
    if !(s.engineFree && s.flag PLC_CTRL PLC_CTRL_PULL_EN) || orTmin r != 0 || decide (s.freeFrames ≤ s.highMark) || lePin e ||
        !(leKind e == kPeer || leKind e == kHost) || lePoison e || decide (32 ≤ s.movesRun) ||
        s.serverOf (keyObj k / 4096) != s.devId then s
    else match s.pickFrame r face with
      | none => s
      | some fr =>
        let host := leKind e == kHost
        let near := host && leDev e == s.devId
        let s := s.takeFrame fr k (leClass e) false false
        let s := s.setLed a (setBits e 48 3 kMoving)
        let src := if near then some (hwBase + leAddr e * 65536) else none
        let s := s.addMove ⟨k, .pull, src, s.devId, frameAddr fr, host, near, []⟩
        if near then s
        else if host then
          s.startFetch k fr (leClass e) (leDev e) false true true (leDev e * 2 ^ 48 + hwBase + leAddr e * 65536)
        else (s.tellHolder (leDev e) k (setBits e 48 3 kMoving)).startFetch k fr (leClass e) (leDev e) false true false (keyOa k)

/-! ### placing -/

/-- Eviction may free a frame now (R252, R268), and the frames it can free: evictable ones whose granule may leave (R257). -/
def State.mayEvict (s : State) : Bool := s.engineFree && s.flag PLC_CTRL PLC_CTRL_EVICT_EN
def State.canLeave (s : State) (fr : Nat) : Bool :=
  let o := keyObj (fmKey (s.fm fr))
  s.evictable fr && !s.plc.rebuild.contains (fr / 65536) &&
  (fmRcopy (s.fm fr) || s.serverOf (o / 4096) != s.devId || orTmax (s.objRec o) != 0)

/-- One frame leaves at once: a placing waits for its move, so the move switches before the frame is used. -/
def State.evictNow (s : State) (fr : Nat) : State :=
  let t := s.moveDown fr
  match t.moveOf (fmKey (s.fm fr)) with
  | some m => t.switchEntry m
  | none => t
/-- Evict, oldest first, until a frame can be taken. -/
def State.makeRoom (s : State) (r : Nat) (face : Option Nat) : State :=
  let cands := s.frames.filter s.canLeave
  ((List.range 256).reverse.flatMap (fun a => cands.filter (fun fr => fmAge (s.fm fr) == a))).foldl
    (fun t fr => if (t.pickFrame r face).isSome then t else t.evictNow fr) s

/-- The tier-0 frame of a new granule (R252): while free frames exceed LOW, or where eviction can free one. -/
def State.tier0 (s : State) (r : Nat) (face : Option Nat) : Option Nat × State :=
  if orTmin r ≠ 0 then (none, s)
  else if s.lowMark < s.freeFrames then (s.pickFrame r face, s)
  else if s.mayEvict && s.frames.any s.canLeave then
    let t := s.makeRoom r face
    (t.pickFrame r face, t)
  else (none, s)

/-- Place the granule of an own object (R252); none when the object is not in use. -/
def State.place (s : State) (k : Nat) (face : Option Nat) : Option State :=
  let r := s.objRec (keyObj k)
  let pin := orPin r || classPin (orClass r)
  let fin (t : State) : State := (t.setPlaced (keyObj k) (orPlaced r + 1)).addMirror k
  let noSpace (t : State) : Option State := some (t.raise PLC_EVENT PLC_EVENT_NO_SPACE)
  let full (t : State) : Option State := some (t.raise PLC_EVENT PLC_EVENT_LEDGER_FULL)
  if !orValid r then none
  else if orBind r then
    let h := s.regionBase (orRegion r) / 65536 + orBindGran r + keyGran k
    if s.regionV (orRegion r) && orBindGran r + keyGran k < s.regionLen (orRegion r) then
      match s.addLed k (leMake k kHost false pin (orClass r) s.regionDev h) with
      | none => full s
      | some t => some (fin (t.takeSlot (orRegion r) (orBindGran r + keyGran k)))
    else noSpace s
  else
    let (frame, s) := s.tier0 r face
    match frame with
    | some fr =>
      match s.addLed k (leMake k kLocal false pin (orClass r) s.devId fr) with
      | none => full s
      | some t =>
        some (fin ((t.takeFrame fr k (orClass r) pin false).zeroRange (frameAddr fr) 65536))
    | none =>
      let (ans, s1) := if orTmin r ≤ 1 ∧ 1 ≤ orTmax r then s.askSpill (spillExt 0 (orClass r) pin r) s.spillPeers k else (none, s)
      match ans with
      | some (p, a) =>
        match s1.addLed k (leMake k kPeer false pin (orClass r) p (a / 65536)) with
        | none => full s1
        | some t => some (fin t)
      | none =>
        match (if orTmax r = 2 then s1.regionRoom else none) with
        | none => noSpace s1
        | some (rg, i) =>
          match s1.addLed k (leMake k kHost false pin (orClass r) s1.regionDev (s1.regionBase rg / 65536 + i)) with
          | none => full s1
          | some t => some (fin (t.takeSlot rg i))

/-! ### resolution -/

/-- Resolution of a key as the ledger stands (R250), without side effects. -/
def State.whereIs (s : State) (k : Nat) : Where :=
  let v := s.serverOf (keyObj k / 4096)
  let mine := v == s.devId
  match s.lookup k with
  | some (_, e) =>
    if leKind e = kLocal ∨ leKind e = kRcopy then .here (frameAddr (leAddr e))
    else if leKind e = kProxy then .away (leDev e)
    else if leKind e = kPeer ∧ mine then (if leDev e = s.devId then .ended else .away (leDev e))
    else if leKind e = kHost ∧ mine then
      (if leDev e = s.devId then .here (hwBase + leAddr e * 65536) else .hostAt (leDev e) (leAddr e * 65536))
    else if leKind e = kMoving then
      match s.moveOf k with
      | some m => match m.srcAddr with
        | some a => .here a
        | none => if m.host then .hostAt (leDev e) (leAddr e * 65536) else .away (leDev e)
      | none => if leDev e = s.devId then .ask v else .away (leDev e)
    else if mine then .ended else .ask v
  | none =>
    if s.keyGone k then .ended
    else if mine then (if orValid (s.objRec (keyObj k)) then .empty else .ended) else .ask v

/-- Set AGE of a frame to 0 at a resolution (R250). -/
def State.freshen (s : State) (k : Nat) : State :=
  match s.lookup k with
  | some (_, e) =>
    if leKind e = kLocal ∨ leKind e = kRcopy then
      (if fmAge (s.fm (leAddr e)) = 0 then s else s.setFm (leAddr e) (s.fm (leAddr e) / 256 * 256))
    else s
  | none => s

/-- Place the granule if its owner finds it EMPTY, and freshen its frame; a device that has been emptied places none (R265). -/
def State.settle (s : State) (k : Nat) (face : Option Nat) : State :=
  match s.whereIs k with
  | .empty => if s.flag PLC_STAT PLC_STAT_EVACUATED then s else (s.place k face).getD s
  | .here _ => s.freshen k
  | _ => s

/-- Keys of the granules of a range of an object. -/
def rangeKeys (oa n : Nat) : List Nat := (blocksOf 65536 (oa % 2 ^ 40) n).map (fun g => oaObj oa * 2 ^ 24 + g)

/-- Settle every granule of a range (first touch places it, R252). -/
def State.touch (s : State) (oa n : Nat) (face : Option Nat) : State := (rangeKeys oa n).foldl (fun s k => s.settle k face) s
/-- The owner pulls the granules of a range after it has served a request for it (R258). -/
def State.pullAll (s : State) (oa n : Nat) (face : Option Nat) : State := (rangeKeys oa n).foldl (fun s k => s.pull k face) s

/-- The parts of [oa, oa + n) granule by granule: key, byte in the granule, length. -/
def granParts (oa n : Nat) : List (Nat × Nat × Nat) :=
  (blocksOf 65536 (oa % 2 ^ 40) n).map (fun g =>
    let lo := max (g * 65536) (oa % 2 ^ 40)
    let hi := min ((g + 1) * 65536) (oa % 2 ^ 40 + n)
    (oaObj oa * 2 ^ 24 + g, lo % 65536, hi - lo))

/-! ### objects read and written by the units of the device -/

/-- Bytes of a granule's frame: a read of a mirrored granule that meets an uncorrectable error is served from the mirror
(R264), whose bytes are the ones last written and whose own poison is free. -/
def State.granRead (s : State) (k a off n : Nat) : List Byte × Bool :=
  let r := s.memRead (a + off) n
  if s.beatLost (a + off) n && s.served (a + off) n && s.mirrored k then (r.1, Config.remotePoison (keyOa k + off) s.freeN) else r

/-- Bytes of an object as they stand, and whether any returns poisoned.  An unplaced granule reads zeros, poisoned where it cannot be
placed (R252); one that another device holds reads as free bytes. -/
def State.objRead (s : State) (oa n : Nat) : List Byte × Bool :=
  (granParts oa n).foldl (fun acc p =>
    match s.whereIs p.1 with
    | .here a => let r := s.granRead p.1 a p.2.1 p.2.2; (acc.1 ++ r.1, acc.2 || r.2)
    | .empty => (acc.1 ++ List.replicate p.2.2 0, acc.2 || (s.settle p.1 none).whereIs p.1 == .empty)
    | .ended => (acc.1 ++ List.replicate p.2.2 0, true)
    | _ =>
      let base := keyOa p.1 + p.2.1
      (acc.1 ++ (List.range p.2.2).map (fun i => Config.remoteByte (base + i) s.freeN), acc.2 || Config.remotePoison base s.freeN))
    ([], false)

/-- A little-endian number from an object. -/
def State.objNat (s : State) (oa n : Nat) : Nat := leNat (s.objRead oa n).1

/-- A unit's read of a part of a granule that another device holds (R250): its lines are asked of the holder, or V is asked where it
is; of a WWORK granule a replica copy is taken (R260). -/
def State.unitAsks (s : State) (w : Where) (k off n : Nat) : State :=
  let s := (linePieces (keyOa k + off) n).foldl (fun s q => s.request w (.unit q.1) 0) s
  match w, s.lookup k with
  | .away dev, some (_, e) =>
    if leClass e = 1 ∧ s.serverOf (keyObj k / 4096) ≠ s.devId then s.takeReplica k dev (lePin e) else s
  | _, _ => s
/-- What a unit's read of an object does to the device: granules are looked up, placed and pulled, local lines are looked up in the
slices with a hint (R221), parts held elsewhere are asked for, and parts that do not answer, or cannot be placed, end (R216, R252). -/
def State.objSeenAs (s : State) (hint oa n : Nat) (face : Option Nat) : State :=
  let s := (rangeKeys oa n).foldl State.ledcLook s
  let s := (granParts oa n).foldl (fun s p =>
    match s.whereIs p.1 with
    | .here a => s.memSeenAs hint (a + p.2.1) p.2.2
    | .ended => s.resolveEnd (keyOa p.1 + p.2.1)
    | .empty => s.resolveEnd (keyOa p.1 + p.2.1)
    | w => s.unitAsks w p.1 p.2.1 p.2.2) (s.touch oa n face)
  s.pullAll oa n face
/-- A unit's read is NORMAL. -/
def State.objSeen (s : State) (oa n : Nat) (face : Option Nat) : State := s.objSeenAs 0 oa n face

/-- Write one part of an object inside one granule, with a hint; `who` is the WR that is acknowledged once a mirror has it too. -/
def State.objWrite1 (s : State) (k off : Nat) (v : List Byte) (bad : Bool) (face : Option Nat) (hint : Nat) (who : Option Packet) :
    State :=
  let r := s.objRec (keyObj k)
  let v' := s.serverOf (keyObj k / 4096)
  let mine := v' == s.devId
  let s := (if who.isSome then s else s.ledcLook k).settle k face
  let cls := match s.lookup k with | some (_, e) => leClass e | none => orClass r
  let own := match who with | some p => p.src == v' || bit p.args 2 | none => mine
  -- only the owner writes WWORK granules (R260)
  if cls = 1 ∧ !own ∧ (s.lookup k).isSome then s.resolveEnd (keyOa k + off)
  else match (s.moveOf k).filter (fun m => m.srcAddr.isSome || m.host) with
    | some m =>
      let m' : Move := { m with writes := m.writes ++ [HeldWrite.mk off v bad] }
      { s with plc := { s.plc with moves := s.plc.moves.map (fun x => if x.key = k then m' else x) } }
    | none =>
      match s.whereIs k with
      | .here a =>
        if !s.served (a + off) v.length then s.ended (a + off) (endCause a)
        else
          let s := s.localPut hint (a + off) v bad
          let s := (if bad then s else s.noteWrite k off v.length).mirrorWrite k off v bad who
          if mine then s.pull k face else s
      | .empty => s.resolveEnd (keyOa k + off)
      | .ended => s.resolveEnd (keyOa k + off)
      | w =>
        let s := s.writeAt w (keyOa k + off) v bad
        -- in the window of another device the owner looks after POISON and the mirror itself
        let s := match w with
          | .hostAt _ _ => (if bad then s else s.noteWrite k off v.length).mirrorWrite k off v bad who
          | _ => s
        if mine then s.pull k face else s

/-- Write bytes to an object, granule by granule. -/
def State.objWriteAs (s : State) (hint : Nat) (who : Option Packet) (oa : Nat) (v : List Byte) (bad : Bool) (face : Option Nat) :
    State :=
  ((granParts oa v.length).foldl (fun (acc : State × List Byte) p =>
    (acc.1.objWrite1 p.1 p.2.1 (acc.2.take p.2.2) bad face hint who, acc.2.drop p.2.2)) (s, v)).1
def State.objWriteFrom (s : State) (oa : Nat) (v : List Byte) (bad : Bool) (face : Option Nat) : State :=
  s.objWriteAs 0 none oa v bad face
def State.objWrite (s : State) (oa : Nat) (v : List Byte) (bad : Bool) : State := s.objWriteFrom oa v bad none
def State.objWriteNat (s : State) (oa n v : Nat) : State := s.objWrite oa (leBytes n v) false

end Sys2Proof.Machine
end

