-- ==== Sys2Proof/Machine/Operands.lean ====
section
/-! DEFINITION. Operand forms: the fields of a step program (R18, R19, R170), a face descriptor (R20) and a layer descriptor
(R134). -/

namespace Sys2Proof.Machine

/-! ### face descriptor: sixteen 32-bit words (R20) -/

def dw (w : List Nat) (i : Nat) : Nat := w.getD i 0
def dOpc (w : List Nat) : Nat := bits (dw w 0) 0 8
def dGsz (w : List Nat) : Nat := bits (dw w 0) 8 3
def dTmode (w : List Nat) : Bool := bit (dw w 0) 11
def dPhase (w : List Nat) : Nat := bits (dw w 0) 12 4
def dLayer (w : List Nat) : Nat := bits (dw w 0) 16 12
def dBarin (w : List Nat) : Bool := bit (dw w 0) 28
def dBarout (w : List Nat) : Bool := bit (dw w 0) 29
def dDie (w : List Nat) : Nat := bits (dw w 1) 0 4
def dFace (w : List Nat) : Nat := bits (dw w 1) 4 6
def dBarch (w : List Nat) : Nat := bits (dw w 1) 10 4
def dWaitTally (w : List Nat) : Nat := bits (dw w 2) 0 8
def dWaitDie (w : List Nat) : Nat := bits (dw w 2) 8 4
def dWaitCount (w : List Nat) : Nat := bits (dw w 2) 12 16
def dPostTally (w : List Nat) : Nat := bits (dw w 3) 0 8
def dPostDie (w : List Nat) : Nat := bits (dw w 3) 8 4
def dPostEn (w : List Nat) : Bool := bit (dw w 3) 12
def dDoorbell (w : List Nat) : Nat := bits (dw w 3) 13 6
def dDbEn (w : List Nat) : Bool := bit (dw w 3) 19
def dM0 (w : List Nat) : Nat := dw w 4
def dMcnt (w : List Nat) : Nat := bits (dw w 5) 0 16
def dNcnt (w : List Nat) : Nat := bits (dw w 5) 16 16
def dN0 (w : List Nat) : Nat := dw w 6
def dK0 (w : List Nat) : Nat := dw w 7
def dKcnt (w : List Nat) : Nat := dw w 8
def dVprog (w : List Nat) : Nat := dw w 9
def dIn (w : List Nat) : Nat := dw w 10 + dw w 11 * 2 ^ 32
def dOut (w : List Nat) : Nat := dw w 12 + dw w 13 * 2 ^ 32
def dAux (w : List Nat) : Nat := dw w 14 + dw w 15 * 2 ^ 32

/-- The 32-bit words of a list of bytes. -/
def wordsOf (b : List Byte) (n : Nat) : List Nat := (List.range n).map (fun i => blkNat b (4 * i) 4)

/-! ### layer descriptor: 128 bytes (R134) -/

def lw (b : List Byte) (i : Nat) : Nat := blkNat b (4 * i) 4
def lLayerId (b : List Byte) : Nat := bits (lw b 0) 0 12
def lHome (b : List Byte) : Nat := bits (lw b 0) 12 12
def lFine (b : List Byte) : Nat := bits (lw b 0) 24 2
def lFlock (b : List Byte) : Bool := bit (lw b 0) 26
def lFmin (b : List Byte) : Nat := bits (lw b 0) 27 2
def lRot (b : List Byte) : Nat := bits (lw b 0) 29 3
def lOcap (b : List Byte) : Nat := bits (lw b 1) 0 3
def lClipm (b : List Byte) : Nat := bits (lw b 1) 3 8
def lSrl (b : List Byte) : Nat := bits (lw b 1) 11 2
def lZmode (b : List Byte) : Bool := bit (lw b 1) 13
def lWsgn (b : List Byte) : Bool := bit (lw b 1) 14
def lAsgn (b : List Byte) : Bool := bit (lw b 1) 15
def lIfmt (b : List Byte) : Nat := bits (lw b 1) 16 2
def lK (b : List Byte) : Nat := lw b 2
def lN (b : List Byte) : Nat := lw b 3
def lDropStrm (b : List Byte) : Nat := bits (lw b 4) 0 16
def lSrStrm (b : List Byte) : Nat := bits (lw b 4) 16 16
def lRotsStrm (b : List Byte) : Nat := bits (lw b 5) 0 16
def lSampStrm (b : List Byte) : Nat := bits (lw b 5) 16 16
def lJob (b : List Byte) : Nat := bits (lw b 6) 0 12
def lJobPol (b : List Byte) : Nat := lw b 6
def lWcSlot (b : List Byte) : Nat := lw b 7
def lMaster (b : List Byte) : Nat := blkNat b 32 8
def lWc (b : List Byte) : Nat := blkNat b 40 8
def lOpt (b : List Byte) : Nat := blkNat b 48 8
def lIn (b : List Byte) : Nat := blkNat b 56 8
def lGrad (b : List Byte) : Nat := blkNat b 64 8
def lAsh (b : List Byte) : Nat := blkNat b 72 8
/-- Operand width Kp (R136). -/
def lKp (b : List Byte) : Nat := roundUp (lK b) 32
/-- Address of working-copy slot 0 or 1 (R160). -/
def lWcSlotAddr (b : List Byte) (slot : Nat) : Nat := lWc b + slot * (lWcSlot b * 65536)

/-! ### program header (R18, R170) -/

def hMagic (h : List Byte) : Nat := blkNat h 0 4
def hVersion (h : List Byte) : Nat := blkNat h 4 2
def hTotal (h : List Byte) : Nat := blkNat h 8 4
def hCrc (h : List Byte) : Nat := blkNat h 12 4
def hLayers (h : List Byte) : Nat := blkNat h 16 2
def hPhases (h : List Byte) : Nat := blkNat h 18 2
def hDescs (h : List Byte) : Nat := blkNat h 20 4
def hLayerOff (h : List Byte) : Nat := blkNat h 24 4
def hPhaseOff (h : List Byte) : Nat := blkNat h 28 4
def hDescOff (h : List Byte) : Nat := blkNat h 32 4
def hSyncEvery (h : List Byte) : Nat := bits (blkNat h 0x40 4) 0 9
def hAccFmt (h : List Byte) : Bool := bit (blkNat h 0x40 4) 9
def hOptKind (h : List Byte) : Bool := bit (blkNat h 0x40 4) 10
def hDropP (h : List Byte) : Nat := blkNat h 0x44 1
def hAttnDropP (h : List Byte) : Nat := blkNat h 0x45 1
def hBeta1 (h : List Byte) : Nat := blkNat h 0x48 4
def hBeta2 (h : List Byte) : Nat := blkNat h 0x4C 4
def hEps (h : List Byte) : Nat := blkNat h 0x50 4
def hWdecay (h : List Byte) : Nat := blkNat h 0x54 4
def hLrAddr (h : List Byte) : Nat := blkNat h 0x58 8
def hLrLen (h : List Byte) : Nat := blkNat h 0x60 4
def hInObj (h : List Byte) : Nat := blkNat h 0x64 3
def hInSlots (h : List Byte) : Nat := blkNat h 0x68 4
def hInStride (h : List Byte) : Nat := blkNat h 0x6C 4
def hLossAddr (h : List Byte) : Nat := blkNat h 0x70 8
def hLossLen (h : List Byte) : Nat := blkNat h 0x78 4
/-- GANG_MAP of die d. -/
def hGang (h : List Byte) (d : Nat) : Nat := blkNat h (0x80 + 8 * d) 8

/-! ### parts of a program in memory (R17) -/

def Slot.layerAddr (p : Slot) (i : Nat) : Nat := p.base + hLayerOff p.hdr + 128 * i
def Slot.phaseAddr (p : Slot) (i : Nat) : Nat := p.base + hPhaseOff p.hdr + 160 * i
def Slot.descAddr (p : Slot) (i : Nat) : Nat := p.base + hDescOff p.hdr + 64 * i
/-- The layer entry at index i of the program. -/
def State.layerBytes (s : State) (p : Slot) (i : Nat) : List Byte × Bool := s.memRead (p.layerAddr i) 128
/-- Phase record fields (R19). -/
def State.phaseW0 (s : State) (p : Slot) (i : Nat) : Nat := s.memNat (p.phaseAddr i) 4
def phKind (w : Nat) : Nat := bits w 0 4
def phBarch (w : Nat) : Nat := bits w 4 4
def phWdog (w : Nat) : Nat := bits w 16 16
def State.phaseFirst (s : State) (p : Slot) (i d : Nat) : Nat := s.memNat (p.phaseAddr i + 0x20 + 8 * d) 4
def State.phaseCount (s : State) (p : Slot) (i d : Nat) : Nat := s.memNat (p.phaseAddr i + 0x24 + 8 * d) 4

/-- Index of the layer of the active program whose working copy, either slot, holds the granule of this key. -/
def State.layerOfWc (s : State) (k : Nat) : Option (List Byte) :=
  match s.eng.active with
  | none => none
  | some p =>
    ((List.range (hLayers p.hdr)).map (fun i => (s.layerBytes p i).1)).find? (fun b =>
      let base := oaKey (lWc b)
      keyObj base == keyObj k && base ≤ k && k < oaKey (lWcSlotAddr b 1) + lWcSlot b)

end Sys2Proof.Machine
end

