-- ==== Sys2Proof/Machine/Streams.lean ====
section
/-! DEFINITION. Stream prefetchers (R226 to R230): the order a descriptor visits its lines in, ring slots, reads, stores and
acknowledgements. -/

namespace Sys2Proof.Machine

/-! ### stream descriptors (R226) -/

def sdSrc (w : Nat) : Nat := bits w 0 64
def sdDst (w : Nat) : Nat := bits w 64 16
def sdRing (w : Nat) : Nat := if bits w 80 10 = 0 then 1024 else bits w 80 10
def sdDir (w : Nat) : Bool := bit w 90
def sdHint (w : Nat) : Nat := bits w 91 2
def sdDepth (w : Nat) : Nat := if bits w 93 6 = 0 then 64 else bits w 93 6
def sdRun (w : Nat) : Nat := if bits w 112 16 = 0 then 65536 else bits w 112 16
def sdCnt1 (w : Nat) : Nat := max 1 (bits w 128 16)
def sdCnt2 (w : Nat) : Nat := max 1 (bits w 144 16)
def sdStr1 (w : Nat) : Nat := bits w 160 32
def sdStr2 (w : Nat) : Nat := bits w 192 32

/-- Start of the i-th run (R227). -/
def runBase (w i : Nat) : Nat := sdSrc w + 64 * (i / sdCnt1 w * sdStr2 w + i % sdCnt1 w * sdStr1 w)
/-- Lines that the i-th run touches. -/
def runLines (w i : Nat) : Nat := (runBase w i % 256 + 64 * sdRun w + 255) / 256

/-- A piece of a stream inside one 256-byte line: object address, length, and byte number in the stream. -/
structure Seg where
  oa  : Nat
  len : Nat
  pos : Nat
deriving DecidableEq, Repr

/-- The k-th line of the stream, from run i on; none past its end. -/
def segFrom (w : Nat) : Nat → Nat → Nat → Option Seg
  | 0, _, _ => none
  | left + 1, i, k =>
    if k < runLines w i then
      let b := runBase w i
      let lo := max b ((b / 256 + k) * 256)
      let hi := min (b + 64 * sdRun w) ((b / 256 + k + 1) * 256)
      some ⟨lo, hi - lo, i * 64 * sdRun w + (lo - b)⟩
    else segFrom w left (i + 1) (k - runLines w i)
def streamSeg (w k : Nat) : Option Seg := segFrom w (sdCnt1 w * sdCnt2 w) 0 k

/-- Ring bytes from stream position p: offsets in the face store. -/
def ringOff (w p : Nat) : Nat := (sdDst w * 64 + p % (sdRing w * 4096)) % 2 ^ 22

/-! ### registers of a stream -/

/-- The descriptor a stream holds (PF_DESC). -/
def State.sdesc (s : State) (d f x : Nat) : Nat :=
  (List.range 8).foldl (fun v j => v + s.reg (PF_DESC d f x j) * 2 ^ (32 * j)) 0
def State.setSdesc (s : State) (d f x w : Nat) : State :=
  (List.range 8).foldl (fun s j => s.setReg (PF_DESC d f x j) (bits w (32 * j) 32)) s

/-- The line of a stream that holds object address oa, from run i on: its number and the byte's position (the first visit). -/
def segFind (w oa : Nat) : Nat → Nat → Nat → Option (Nat × Nat)
  | 0, _, _ => none
  | left + 1, i, k =>
    let b := runBase w i
    if b ≤ oa ∧ oa < b + 64 * sdRun w then some (k + (oa / 256 - b / 256), i * 64 * sdRun w + (oa - b))
    else segFind w oa left (i + 1) (k + runLines w i)
def streamFind (w oa : Nat) : Option (Nat × Nat) := segFind w oa (sdCnt1 w * sdCnt2 w) 0 0

/-- Lines in flight on the 8 streams of a face (R228). -/
def State.faceFlight (s : State) (d f : Nat) : Nat :=
  (List.range 8).foldl (fun n x => n + s.fld (PF_STAT d f x) PF_STAT_OUTST) 0

/-- A store stream of the face still holds a descriptor (R229). -/
def State.storesOpen (s : State) (d f : Nat) : Bool :=
  (List.range 8).any (fun x => s.flag (PF_STAT d f x) PF_STAT_ACTIVE && s.flag (PF_STAT d f x) PF_STAT_DIR)

/-- Every line of the stream has been issued and answered. -/
def State.streamSpent (s : State) (d f x : Nat) : Bool :=
  (s.strm d f x).flight.isEmpty && (streamSeg (s.sdesc d f x) (s.strm d f x).next).isNone

/-- The face sequencer loads a stream: a free one, or a load stream that has nothing left. -/
def State.loadStream (s : State) (d f x : Nat) (dir : Bool) : Option Nat → State
  | none => s
  | some w =>
    if sdDir w != dir || (s.flag (PF_STAT d f x) PF_STAT_ACTIVE && (dir || !s.streamSpent d f x)) then s
    else
      let s := (s.setSdesc d f x (w % 2 ^ 256)).setStrm d f x {}
      s.setReg (PF_STAT d f x) (1 + b2n dir * 2)

/-- Release the load streams of a face at the end of its descriptor. -/
def State.dropLoads (s : State) (d f : Nat) : State :=
  (List.range 8).foldl (fun s x =>
    if s.flag (PF_STAT d f x) PF_STAT_DIR then s else (s.setReg (PF_STAT d f x) 0).setStrm d f x {}) s

/-- Set OUTST and the two wait bits. -/
def State.streamStat (s : State) (d f x : Nat) (space data : Bool) : State :=
  let s := s.setFld (PF_STAT d f x) PF_STAT_OUTST (s.strm d f x).flight.length
  (s.setFlag (PF_STAT d f x) PF_STAT_WAIT_SPACE space).setFlag (PF_STAT d f x) PF_STAT_WAIT_DATA data

/-- The consumer waits on its next line: issued and not valid. -/
def Strm.waiting (t : Strm) : Bool := decide (t.freed < t.next) && !t.valid.contains t.freed
/-- Lines the consumer has freed leave the ring (R228). -/
def Strm.free (t : Strm) (freed : Nat) : Strm :=
  let n := max t.freed (min freed t.next)
  { t with freed := n, valid := t.valid.filter (fun k => decide (n ≤ k)), bad := t.bad.filter (fun k => decide (n ≤ k)) }
/-- Line k is issued toward w; it is the newest resolution. -/
def Strm.issue (t : Strm) (key : Nat) (w : Where) : Strm :=
  { t with next := t.next + 1, flight := t.flight ++ [t.next], res := some (key, w),
           lies := mapSet (fun _ => none) t.next (some w) t.lies }
/-- Line k is no longer in flight. -/
def Strm.land (t : Strm) (k : Nat) : Strm :=
  { t with flight := t.flight.filter (fun j => j != k), lies := mapSet (fun _ => none) k none t.lies }
/-- Where a line in flight lies; a line without an entry has ended. -/
def Strm.place (t : Strm) (k : Nat) : Where := (mapGet (fun _ => none) k t.lies).getD .ended

/-- A stream resolves a granule once and reuses the result while it stays in it (R227). -/
def State.streamResolve (s : State) (d f x oa : Nat) : Where × State :=
  let k := oaKey oa
  match (s.strm d f x).res.filter (fun r => r.1 == k) with
  | some r => (r.2, s)
  | none =>
    let s := (s.ledcLook k).settle k (some (64 * d + f))
    (s.whereIs k, s)

/-- A line moved: it is counted, and PF_EVENT shows how it came back. -/
def State.streamMoved (s : State) (d f x : Nat) (ended bad : Bool) : State :=
  let s := s.bump (PF_LINES_LO d f x) 1
  if ended then s.raise (PF_EVENT d f x) PF_EVENT_ENDED
  else if bad then s.raise (PF_EVENT d f x) PF_EVENT_POISON
  else s

/-- Where the bytes of a store go now: of a granule on its way they are held at its source (R259). -/
def State.storeLie (s : State) (k : Nat) (w : Where) : Where :=
  match s.moveOf k with
  | none => w
  | some m => match m.srcAddr with
    | some a => .here a
    | none => if m.host then .here m.dstAddr else s.whereIs k
/-- A line lies here and its channel does not answer (R216). -/
def State.lineShut (s : State) (w : Where) (g : Seg) : Bool :=
  match w with
  | .here b => !s.served (b + g.oa % 65536) g.len
  | _ => false
/-- A line lies here, in a capped channel whose window is spent (R233). -/
def State.lineWaits (s : State) (w : Where) (g : Seg) (fill : Bool) : Bool :=
  match w with
  | .here b =>
    let a := b + g.oa % 65536
    regionOf a == .dram && (s.line (a / 256)).isNone && s.burstSpent a (s.missBursts (a / 256) fill)
  | _ => false

/-! ### loads -/

/-- Issue one 256-byte line read (R228): of a local line the read itself is its return; a line of another device leaves as an
RD of the whole line. -/
def State.streamIssue (s : State) (d f x freed : Nat) : State :=
  let w := s.sdesc d f x
  let t := (s.strm d f x).free freed
  let full := min (sdDepth w) (16 * sdRing w) ≤ t.next - t.freed
  match streamSeg w t.next with
  | none => (s.setStrm d f x t).streamStat d f x false t.waiting
  | some g =>
    if full ∨ 256 ≤ s.faceFlight d f then (s.setStrm d f x t).streamStat d f x full t.waiting
    else
      let (lie, s) := s.streamResolve d f x g.oa
      let t' := t.issue (oaKey g.oa) lie
      let s := (s.setStrm d f x t').streamStat d f x false t'.waiting
      let s := s.noteQueue (64 * d + f) 5 (s.faceFlight d f)
      match lie with
      | .here _ => s
      | .empty => s.resolveEnd g.oa
      | lie => s.request lie (.load d f x t.next g.oa (sdHint w)) 0

def execStreamLineRead (d : DieIx) (f : FaceIx) (x : Fin 8) (load : Option Nat) (freed : Nat) (s : State) : Res :=
  let s1 := s.loadStream d.val f.val x.val false load
  let st := PF_STAT d.val f.val x.val
  done s (if s1.flag st PF_STAT_ACTIVE && !s1.flag st PF_STAT_DIR then s1.streamIssue d.val f.val x.val freed else s1)

/-- Store bytes into a ring, wrapping at its end; poisoned bytes mark their beats. -/
def State.ringPut (s : State) (d f w p : Nat) (v : List Byte) (bad : Bool) : State :=
  let size := sdRing w * 4096
  let n := size - p % size
  let s := s.memPut (faceStoreBase d f + ringOff w p) (v.take n) bad
  if v.length ≤ n then s else s.memPut (faceStoreBase d f + ringOff w 0) (v.drop n) bad

/-- A line in flight comes back with its bytes: it goes into its ring slot (R230). -/
def State.streamFill (s : State) (d f x line : Nat) (v : List Byte) (ended bad : Bool) : State :=
  let w := s.sdesc d f x
  let t := s.strm d f x
  match streamSeg w line with
  | none => s
  | some g =>
    if !t.flight.contains line || !s.flag (PF_STAT d f x) PF_STAT_ACTIVE || s.flag (PF_STAT d f x) PF_STAT_DIR then s
    else
      let bad := ended || bad
      let s := s.ringPut d f w g.pos (if ended then List.replicate g.len 0 else v) bad
      let t := t.land line
      let t := { t with valid := setInsert line t.valid, bad := if bad then setInsert line t.bad else t.bad }
      ((s.setStrm d f x t).streamStat d f x false t.waiting).streamMoved d f x ended bad

/-- A line in flight returns: a local line is read through its slice under the stream's hint, and ends where its channel does not
answer (R216); a line of another device comes with its RD_RESPONSE. -/
def State.streamReturn (s : State) (d f x line : Nat) (ended : Bool) : State :=
  match streamSeg (s.sdesc d f x) line with
  | none => s
  | some g =>
    let t := s.strm d f x
    if !t.flight.contains line then s
    else
      let after (s : State) : State := s.pull (oaKey g.oa) (some (64 * d + f))
      match t.place line with
      | .here b =>
        let a := b + g.oa % 65536
        if ended then after (s.streamFill d f x line [] true true)
        else if s.lineShut (.here b) g then after ((s.ended a (endCause a)).streamFill d f x line [] true true)
        else if s.lineWaits (.here b) g (sdHint (s.sdesc d f x) < 2) then s
        else
          let mirror := s.granRead (oaKey g.oa) b (g.oa % 65536) g.len
          let r := s.localGet (sdHint (s.sdesc d f x)) a g.len
          after (r.2.streamFill d f x line r.1.1 false mirror.2)
      | .ended => s.streamFill d f x line [] true true
      | .empty => s.streamFill d f x line [] true true
      | _ => if ended then s.streamFill d f x line [] true true else s

def execStreamLineReturn (d : DieIx) (f : FaceIx) (x : Fin 8) (line : Nat) (ended : Bool) (s : State) : Res :=
  let st := PF_STAT d.val f.val x.val
  done s (
    if s.flag st PF_STAT_ACTIVE && !s.flag st PF_STAT_DIR then s.streamReturn d.val f.val x.val line ended else s)

/-! ### stores -/

/-- Bytes of a ring from stream position p. -/
def State.ringGet (s : State) (d f w p n : Nat) : List Byte × Bool :=
  let size := sdRing w * 4096
  let k := min n (size - p % size)
  let a := s.memRead (faceStoreBase d f + ringOff w p) k
  if n ≤ k then a
  else
    let b := s.memRead (faceStoreBase d f + ringOff w 0) (n - k)
    (a.1 ++ b.1, a.2 || b.2)

/-- The producer has filled every byte of a line (R229). -/
def Strm.filled (t : Strm) (k : Nat) (g : Seg) : Bool := mapGet (fun _ => 0) k t.fill == 2 ^ g.len - 1

/-- A line stored elsewhere: in its anchor's window the owner looks after POISON and the mirror itself (R262, R264), and it pulls the
granule (R258). -/
def State.storeAfter (s : State) (w : Where) (k off : Nat) (r : List Byte × Bool) (face : Nat) : State :=
  let s := match w with
    | .hostAt _ _ => (if r.2 then s else s.noteWrite k off r.1.length).mirrorWrite k off r.1 r.2 none
    | _ => s
  s.pull k (some face)
/-- Write the next ring line to memory once it is filled (R229): here, or as a WR to the device that holds the granule.  A local
line whose channel does not answer ends (R216), and one of a capped channel waits. -/
def State.streamStore (s : State) (d f x : Nat) : State :=
  let w := s.sdesc d f x
  let t := s.strm d f x
  match streamSeg w t.next with
  | none => s
  | some g =>
    if sdDepth w ≤ t.flight.length ∨ 256 ≤ s.faceFlight d f ∨ !t.filled t.next g then s
    else
      let r := s.ringGet d f w g.pos g.len
      let (res, s1) := s.streamResolve d f x g.oa
      let lie := s1.storeLie (oaKey g.oa) res
      if s1.lineWaits lie g (sdHint w != 2) && !s1.lineShut lie g then s
      else
        let t' := { t.issue (oaKey g.oa) lie with fill := mapSet (fun _ => 0) t.next 0 t.fill }
        let s := (s1.setStrm d f x t').streamStat d f x true false
        let s := s.noteQueue (64 * d + f) 5 (s.faceFlight d f)
        let ends (s : State) : State := s.raise (PF_EVENT d f x) PF_EVENT_ENDED
        match lie with
        | .here _ => (if s.lineShut lie g then ends s else s).objWriteAs (sdHint w) none g.oa r.1 r.2 (some (64 * d + f))
        | .empty => ends (s.resolveEnd g.oa)
        | .ended => ends (s.resolveEnd g.oa)
        | lie => (s.request lie (.store d f x t.next g.oa r.1 r.2 (sdHint w)) 0).storeAfter lie (oaKey g.oa) (g.oa % 65536) r (64 * d + f)

def execStreamLineStore (d : DieIx) (f : FaceIx) (x : Fin 8) (load : Option Nat) (s : State) : Res :=
  let s1 := s.loadStream d.val f.val x.val true load
  let st := PF_STAT d.val f.val x.val
  done s (if s1.flag st PF_STAT_ACTIVE && s1.flag st PF_STAT_DIR then s1.streamStore d.val f.val x.val else s1)

/-- A store in flight is acknowledged; the last acknowledgement ends the stream. -/
def State.streamAcked (s : State) (d f x line : Nat) : State :=
  let t := s.strm d f x
  if !t.flight.contains line || !s.flag (PF_STAT d f x) PF_STAT_ACTIVE || !s.flag (PF_STAT d f x) PF_STAT_DIR then s
  else
    let t := t.land line
    let s := (s.setStrm d f x t).bump (PF_LINES_LO d f x) 1
    if s.streamSpent d f x then (s.setReg (PF_STAT d f x) 0).setStrm d f x {}
    else s.streamStat d f x (!t.flight.isEmpty) false
/-- A line answers for itself: its bytes went to a slice, or its request ended here. -/
def Strm.ownAck (t : Strm) (k : Nat) : Bool :=
  match t.place k with
  | .here _ => true
  | .empty => true
  | .ended => true
  | _ => false
/-- STREAM_STORE_ACK: the slice acknowledges the oldest line it owns; the other devices' lines wait for their WR_RESPONSE. -/
def State.streamAck (s : State) (d f x : Nat) : State :=
  match (s.strm d f x).flight.find? (s.strm d f x).ownAck with
  | some k => s.streamAcked d f x k
  | none => s

def execStreamStoreAck (d : DieIx) (f : FaceIx) (x : Fin 8) (s : State) : Res :=
  let st := PF_STAT d.val f.val x.val
  done s (if s.flag st PF_STAT_ACTIVE && s.flag st PF_STAT_DIR then s.streamAck d.val f.val x.val else s)

/-! ### the face store as the units of a face see it (R13, R229, R230) -/

/-- The streams of a face that hold a descriptor of a direction. -/
def State.streamsOf (s : State) (d f : Nat) (dir : Bool) : List Nat :=
  (List.range 8).filter (fun x => s.flag (PF_STAT d f x) PF_STAT_ACTIVE && s.flag (PF_STAT d f x) PF_STAT_DIR == dir)
/-- The ring of a load stream that holds the byte at an object address: its descriptor and stream position. -/
def State.ringOf (s : State) (d f oa : Nat) : Option (Nat × Nat) :=
  (s.streamsOf d f false).findSome? (fun x =>
    match streamFind (s.sdesc d f x) oa with
    | some (line, pos) => if (s.strm d f x).valid.contains line then some (s.sdesc d f x, pos) else none
    | none => none)
/-- The store stream whose ring takes the byte at an object address: its number, line and position. -/
def State.ringFor (s : State) (d f oa : Nat) : Option (Nat × Nat × Nat) :=
  (s.streamsOf d f true).findSome? (fun x =>
    match streamFind (s.sdesc d f x) oa with
    | some (line, pos) =>
      let t := s.strm d f x
      let first := match t.flight with | k :: _ => k | [] => t.next
      if t.next ≤ line ∧ line < first + 16 * sdRing (s.sdesc d f x) then some (x, line, pos) else none
    | none => none)

/-- Pieces of an object range that lie in one 256-byte line. -/
def objLines (oa n : Nat) : List (Nat × Nat) :=
  (blocksOf 256 oa n).map (fun l => (max oa (l * 256), min (oa + n) (l * 256 + 256) - max oa (l * 256)))

/-- Bytes of an object as a unit of the face reads them: from the ring lines its load streams have brought (with their poison), and
from memory where no stream holds them. -/
def State.faceRead (s : State) (d f oa n : Nat) : List Byte × Bool :=
  if (s.streamsOf d f false).isEmpty then s.objRead oa n
  else (objLines oa n).foldl (fun acc p =>
    let r := match s.ringOf d f p.1 with
      | some (w, pos) => s.ringGet d f w pos p.2
      | none => s.objRead p.1 p.2
    (acc.1 ++ r.1, acc.2 || r.2)) ([], false)
/-- What that read does to the device: the parts no ring holds are requests of their own. -/
def State.faceSeen (s : State) (d f oa n : Nat) : State :=
  if (s.streamsOf d f false).isEmpty then s.objSeen oa n (some (64 * d + f))
  else (objLines oa n).foldl (fun s p =>
    match s.ringOf d f p.1 with
    | some _ => s
    | none => s.objSeen p.1 p.2 (some (64 * d + f))) s

/-- A little-endian number as a unit of the face reads it. -/
def State.faceNat (s : State) (d f oa n : Nat) : Nat := leNat (s.faceRead d f oa n).1
/-- The same reads of several ranges. -/
def State.facesSeen (s : State) (d f : Nat) (l : List (Nat × Nat)) : State := l.foldl (fun s p => s.faceSeen d f p.1 p.2) s
/-- Place in the face store of the byte of an object address, in a ring of a direction, in 64-byte units (R47); none where no ring
holds it. -/
def State.ringPlace (s : State) (d f : Nat) (dir : Bool) (oa : Nat) : Option Nat :=
  let at' (w pos : Nat) : Nat := ringOff w pos / 64
  if dir then (s.ringFor d f oa).map (fun r => at' (s.sdesc d f r.1) r.2.2) else (s.ringOf d f oa).map (fun r => at' r.1 r.2)

/-- Bytes a unit of the face produces: into the ring of the store stream that visits them, else to the object at once. -/
def State.faceStore (s : State) (d f oa : Nat) (v : List Byte) (bad : Bool) : State :=
  if (s.streamsOf d f true).isEmpty then s.objWriteFrom oa v bad (some (64 * d + f))
  else (objLines oa v.length).foldl (fun s p =>
    let b := (v.drop (p.1 - oa)).take p.2
    match s.ringFor d f p.1 with
    | some (x, line, pos) =>
      let w := s.sdesc d f x
      let s := s.ringPut d f w pos b bad
      let t := s.strm d f x
      match streamSeg w line with
      | some g =>
        let m := mapGet (fun _ => 0) line t.fill ||| (2 ^ (pos - g.pos + p.2) - 2 ^ (pos - g.pos))
        s.setStrm d f x { t with fill := mapSet (fun _ => 0) line m t.fill }
      | none => s
    | none => s.objWriteFrom p.1 b bad (some (64 * d + f))) s
/-- Bytes that a unit has produced are poisoned where they are: in the store ring that still holds them, else in the object. -/
def State.facePoison (s : State) (d f oa n : Nat) : State :=
  (objLines oa n).foldl (fun s p =>
    match s.ringFor d f p.1 with
    | some (x, _, pos) => s.ringPut d f (s.sdesc d f x) pos (s.ringGet d f (s.sdesc d f x) pos p.2).1 true
    | none => s.objWriteFrom p.1 (s.objRead p.1 p.2).1 true (some (64 * d + f))) s

end Sys2Proof.Machine
end

