-- ==== Sys2Proof/Machine/Sprue.lean ====
section
/-! DEFINITION. The sprue generator (R174 to R176), rows of tensor elements in memory (R75, R466), and the addresses of a
descriptor (R172). -/

namespace Sys2Proof.Machine

/-- The n little-endian bytes of a number, as numbers. -/
def byteNats : Nat → Nat → List Nat
  | 0, _ => []
  | n + 1, v => v % 256 :: byteNats n (v / 256)
/-- Number of little-endian bytes. -/
def natBytes : List Nat → Nat
  | [] => 0
  | b :: l => b + 256 * natBytes l
/-- A sprue output: AES-128 of the counter under the key, bytes little-endian (R174). -/
def sprueBlock (key ctr : Nat) : Nat := natBytes (aes128 (byteNats 16 key) (byteNats 16 ctr))
/-- The counter (R175). -/
def sprueCtr (step micro layer stream elem : Nat) : Nat :=
  elem % 2 ^ 60 + stream % 2 ^ 16 * 2 ^ 60 + layer % 2 ^ 12 * 2 ^ 76 + micro % 2 ^ 8 * 2 ^ 88 + step % 2 ^ 32 * 2 ^ 96
/-- The device's key (R180). -/
def State.sprueKey (s : State) : Nat := (List.range 4).foldl (fun k j => k + s.reg (SPR_KEY j) * 2 ^ (32 * j)) 0
def State.sprue (s : State) (step micro layer stream elem : Nat) : Nat :=
  sprueBlock s.sprueKey (sprueCtr step micro layer stream elem)
/-- Step and microstep that run. -/
def State.stepNum (s : State) : Nat := s.reg STEP_NUM
def State.micro (s : State) : Nat := s.fld STEP_STAT STEP_STAT_MICRO

/-- DROP draw of a layer input element: token row m, column k (R176). -/
def State.drawDrop (s : State) (layer stream m k : Nat) : Nat :=
  bits (s.sprue s.stepNum s.micro layer stream (m % 2 ^ 40 * 2 ^ 16 + k / 16)) (8 * (k % 16)) 8
/-- DROP draw of an attention weight: head, query row, key position. -/
def State.drawAttn (s : State) (layer stream head q kpos : Nat) : Nat :=
  bits (s.sprue s.stepNum s.micro layer stream (2 ^ 59 + head % 2 ^ 7 * 2 ^ 52 + q % 2 ^ 20 * 2 ^ 32 + kpos / 16)) (8 * (kpos % 16)) 8
/-- SR draw of a drain: pass number along K, output row and column. -/
def State.drawDrain (s : State) (layer stream kp m n : Nat) : Nat :=
  bits (s.sprue s.stepNum s.micro layer stream (kp % 32768 * 2 ^ 44 + m % 2 ^ 24 * 2 ^ 20 + n / 8 % 2 ^ 20)) (16 * (n % 8)) 16
/-- SR draw of a store conversion: element index within the destination object. -/
def State.drawStore (s : State) (layer stream i : Nat) : Nat :=
  bits (s.sprue s.stepNum s.micro layer stream (2 ^ 59 + i / 8 % 2 ^ 59)) (16 * (i % 8)) 16
/-- Sign of place k under the working copy of a step: true is −1 (R107). -/
def State.drawSign (s : State) (step layer stream k : Nat) : Bool :=
  bit (s.sprue step 0 layer stream (k / 128)) (k % 128)
/-- The offsets o_w and o_r of a layer in a step (R143). -/
def State.drawSamp (s : State) (step layer stream : Nat) : Nat × Nat :=
  let x := s.sprue step 0 layer stream 0
  (bits x 0 6, bits x 64 6)

/-! ### format codes and packed rows -/

/-- The format of a code of R48. -/
def fmtOf : Nat → Option Fmt
  | 0 => some .fp4 | 1 => some .e4m3 | 2 => some .e5m2 | 3 => some .bf16 | 4 => some .e8m15 | 5 => some .fp32
  | 6 => some .int4 | 7 => some .int8 | 8 => some .int16 | _ => none
/-- Width in bits of a format code. -/
def fmtWidth (c : Nat) : Nat := match fmtOf c with | some f => f.width | none => 8

/-- n codes of w bits from packed bytes (R75). -/
def unpackCodes (w n : Nat) (b : List Byte) : List Nat :=
  let v := leNat b
  (List.range n).map (fun i => bits v (w * i) w)
/-- Packed bytes of codes of w bits. -/
def packCodes (w : Nat) (l : List Nat) : List Byte :=
  leBytes (ceilDiv (l.length * w) 8) ((l.zip (List.range l.length)).foldl (fun v p => v + p.1 % 2 ^ w * 2 ^ (w * p.2)) 0)
/-- Row distance of R466. -/
def rowStride (width w : Nat) : Nat := roundUp (ceilDiv (width * w) 8) 64
/-- n codes of w bits at an object address whose first element starts on a byte (a 4-bit row starts at an even element). -/
def State.codesAt (s : State) (d f : Nat) (oa w n : Nat) : List Nat × Bool :=
  let r := s.faceRead d f oa (ceilDiv (n * w) 8)
  (unpackCodes w n r.1, r.2)
/-- Element i of a row of w-bit codes at `oa`. -/
def State.codeAt (s : State) (d f : Nat) (oa w i : Nat) : Nat × Bool :=
  let r := s.faceRead d f (oa + i * w / 8) (ceilDiv w 8)
  (bits (leNat r.1) (i * w % 8) w, r.2)
/-- FP32 images of codes (exact widening, R92). -/
def toF32 (fc : Nat) (sgn : Bool) (c : Nat) : Nat :=
  match fmtOf fc with
  | some f => f32 (fmtDecode f sgn c)
  | none => 0

/-! ### addresses of the running program -/

/-- Header of the active program; empty when none. -/
def State.hdr (s : State) : List Byte := match s.eng.active with | some p => p.hdr | none => []
/-- Global microstep count. -/
def State.gmicro (s : State) : Nat := s.pair STEP_GMICRO_LO
/-- A descriptor address with the input-ring slot of microstep G added (R172). -/
def State.ringAddr (s : State) (oa : Nat) : Nat :=
  let h := s.hdr
  if hInObj h ≠ 0 ∧ oaObj oa = hInObj h ∧ 0x10000 ≤ oa % 2 ^ 40 then
    oa + s.gmicro % max 1 (hInSlots h) * (hInStride h * 65536)
  else oa

/-- Class of the object of an address (R240): from its record, or from the ledger entry of the granule; 15 where neither is known
here. -/
def State.classOf (s : State) (oa : Nat) : Nat :=
  let r := s.objRec (oaObj oa)
  if orValid r then orClass r
  else match s.lookup (oaKey oa) with
    | some (_, e) => leClass e
    | none => 15
def clWmaster : Nat := 0
def clWwork : Nat := 1
def clOptstate : Nat := 2

end Sys2Proof.Machine
end

