-- ==== Sys2Proof/Machine/Assay.lean ====
section
/-! DEFINITION. The assay unit (R137 to R142), its records in memory, and the summaries that travel to a layer's home (R149 to
R151, R470, R471). -/

namespace Sys2Proof.Machine

/-! ### records -/

/-- Larger of two FP32 images of non-negative finite values. -/
def maxImg (a b : Nat) : Nat := f32 (amax2 (fv32 a) (fv32 b))
/-- Bin of a value (R139); none for zero, NaN and Inf. -/
def histBin : FV → Option Nat
  | .fin _ m e =>
    if m = 0 then none
    else
      let i : Int := (Nat.log2 m : Int) + e + 48
      some (if i < 0 then 0 else if 63 < i then 63 else i.toNat)
  | _ => none
/-- Saturating 48-bit sum (R149). -/
def sat48 (a b : Nat) : Nat := satAdd 48 a b
/-- Merge a record b into a (R140): counts add and saturate, amax, aclip and the shadow error take the maximum, flags the OR; layer
and step are those of b. -/
def AssayRec.plus (a b : AssayRec) : AssayRec :=
  { a with
    layer := b.layer, step := b.step,
    elems := sat48 a.elems b.elems, sat := sat48 a.sat b.sat, und := sat48 a.und b.und, nan := sat48 a.nan b.nan,
    inf := sat48 a.inf b.inf, outl := sat48 a.outl b.outl, ovf := sat48 a.ovf b.ovf, flag := a.flag || b.flag,
    poison := a.poison || b.poison, amax := maxImg a.amax b.amax, aclip := maxImg a.aclip b.aclip,
    hist := b.hist.foldl (fun h e => mapSet (fun _ => 0) e.1 (satAdd 32 (mapGet (fun _ => 0) e.1 h) e.2) h) a.hist,
    trunc := satAdd 64 a.trunc b.trunc, shN := satAdd 16 a.shN b.shN, shErr := max a.shErr b.shErr }

/-- Merge a record into a list that holds at most one record per layer and step. -/
def addRec (r : AssayRec) : List AssayRec → List AssayRec
  | [] => [r]
  | x :: l => if x.layer = r.layer ∧ x.step = r.step then x.plus r :: l else x :: addRec r l

/-- Add to the open record of a face for a layer; nothing while the unit is off (AS_CTRL.EN). -/
def State.faceRec (s : State) (d f : Nat) (r : AssayRec) : State :=
  if !s.flag (AS_CTRL d f) AS_CTRL_EN then s
  else
    let x := s.face d f
    let recs := addRec { r with step := s.stepNum } x.recs
    let s := s.setFace d f { x with recs := recs }
    let s := (s.setFld (AS_STAT d f) AS_STAT_OPEN (min 8 recs.length)).noteQueue (64 * d + f) 7 (min 8 recs.length)
    (s.bump (AS_ELEMS_LO d f) r.elems).wake (17408 + 64 * d + f)

/-- Statistics of a store-path conversion (R137 to R139): the counts of R93, the number of elements, the values before and after
their scales are divided out. -/
def State.storeStat (s : State) (d f layer elems : Nat) (c : ConvCnt) (raw scaled : List FV) : State :=
  let bins := if s.flag (AS_CTRL d f) AS_CTRL_HIST_EN then scaled.filterMap histBin else []
  let h := bins.foldl (fun h b => mapSet (fun _ => 0) b (satAdd 32 (mapGet (fun _ => 0) b h) 1) h) []
  let r : AssayRec :=
    { layer := layer, elems := elems, sat := c.sat, und := c.und, nan := c.nan, inf := c.inf, flag := c.flag,
      amax := f32 (amaxOf raw), hist := h }
  s.faceRec d f r

/-- The open records of the faces of a gang go to the die controller (R140). -/
def State.sendRecs (s : State) (d leader size : Nat) : State :=
  let faces := (List.range size).map (fun i => leader + i)
  let all := faces.foldl (fun l f => (s.face d f).recs.foldl (fun l r => addRec r l) l) []
  let s := faces.foldl (fun s f => (s.setFace d f { s.face d f with recs := [] }).setFld (AS_STAT d f) AS_STAT_OPEN 0) s
  s.setDie d { s.die d with merge := (s.die d).merge ++ all }

/-! ### records in memory (R141, R142) -/

def State.assayBase (s : State) : Nat :=
  s.fld ASSAY_BASE_LO ⟨16, 16⟩ * 65536 + s.fld ASSAY_BASE_HI ⟨0, 16⟩ * 2 ^ 32
def State.dieRecAddr (s : State) (step layer d : Nat) : Nat := s.assayBase + step % 2 * 2 ^ 25 + (layer * 16 + d) * 512
def State.homeRecAddr (s : State) (step layer : Nat) : Nat := s.assayBase + 2 ^ 26 + step % 2 * 2 ^ 18 + layer * 64

/-- The 64 bytes of a summary (R149). -/
def summaryBytes (r : AssayRec) (src : Nat) (aborted : Bool) : List Byte :=
  leBytes 4 (r.layer % 4096 + src % 4096 * 2 ^ 12 + b2n r.flag * 2 ^ 24 + b2n r.poison * 2 ^ 25 + b2n aborted * 2 ^ 26) ++
  leBytes 4 r.step ++ leBytes 6 r.elems ++ leBytes 6 r.sat ++ leBytes 6 r.und ++ leBytes 6 r.nan ++ leBytes 6 r.inf ++
  leBytes 6 r.outl ++ leBytes 6 r.ovf ++ leBytes 2 r.shN ++ leBytes 4 r.shErr ++ leBytes 4 r.amax ++ leBytes 4 r.aclip
/-- The record a summary spells. -/
def summaryRec (b : List Byte) : AssayRec :=
  { layer := bits (blkNat b 0 4) 0 12, step := blkNat b 4 4, elems := blkNat b 8 6, sat := blkNat b 0xE 6, und := blkNat b 0x14 6,
    nan := blkNat b 0x1A 6, inf := blkNat b 0x20 6, outl := blkNat b 0x26 6, ovf := blkNat b 0x2C 6,
    flag := bit (blkNat b 0 4) 24, poison := bit (blkNat b 0 4) 25, shN := blkNat b 0x32 2, shErr := blkNat b 0x34 4,
    amax := blkNat b 0x38 4, aclip := blkNat b 0x3C 4 }
def sumStep (b : List Byte) : Nat := blkNat b 4 4
def sumAborted (b : List Byte) : Bool := bit (blkNat b 0 4) 26

/-- Bytes 0x040 to 0x147 of a die record: histogram and truncation count. -/
def recTail (r : AssayRec) : List Byte :=
  (List.range 64).foldl (fun l i => l ++ leBytes 4 (mapGet (fun _ => 0) i r.hist)) [] ++ leBytes 8 r.trunc
/-- The record of a 512-byte die record. -/
def dieRec (b : List Byte) : AssayRec :=
  { summaryRec b with
    hist := (List.range 64).foldl (fun h i => mapSet (fun _ => 0) i (blkNat b (0x40 + 4 * i) 4) h) [], trunc := blkNat b 0x140 8 }

/-- The die controller of die d merges one record (R142, R470). -/
def State.mergeDie (s : State) (d : Nat) (r : AssayRec) : State :=
  let a := s.dieRecAddr r.step r.layer d
  let old := s.memRead a 512
  let stale := sumStep old.1 != r.step
  let new : AssayRec := if old.2 then { r with poison := true } else if stale then r else (dieRec old.1).plus r
  let uw := if old.2 ∨ stale then 0 else blkNat old.1 0x148 4
  let s := s.memSeen a 512
  s.memWrite a (summaryBytes new s.devId false ++ recTail new ++ leBytes 4 uw ++ List.replicate 180 0) false

/-- The oldest waiting record of a die is merged. -/
def State.mergeNext (s : State) (d : Nat) : State :=
  match (s.die d).merge with
  | [] => s
  | r :: rest => (s.setDie d { s.die d with merge := rest }).mergeDie d r
def execAssayRecordMerge (d : DieIx) (s : State) : Res := done s (s.mergeNext d.val)

/-- Every waiting record is merged. -/
def State.mergeAll (s : State) : State :=
  (List.range 16).foldl (fun s d =>
    let l := (s.die d).merge
    l.foldl (fun s r => s.mergeDie d r) (s.setDie d { s.die d with merge := [] })) s

/-! ### summaries (R150, R151) -/

/-- Merge a summary into the home record of its layer. -/
def State.mergeHome (s : State) (b : List Byte) : State :=
  let r := summaryRec b
  let src := bits (blkNat b 0 4) 12 12
  let a := s.homeRecAddr r.step r.layer
  let old := s.memRead a 64
  let new : AssayRec := if old.2 ∨ sumStep old.1 ≠ r.step then r else (summaryRec old.1).plus r
  let s := { s with eng := { s.eng with merged := setInsert (r.layer * 4096 + src) s.eng.merged } }
  (s.memSeen a 64).memWrite a (summaryBytes new s.devId (sumAborted b || (sumAborted old.1 && sumStep old.1 == r.step))) false

/-- The summary of a layer on this device: its die records of the step merged; none when it has none (R150).  A record that
reads poisoned is left out, and POISON says so. -/
def State.layerSummary (s : State) (layer step : Nat) : Option AssayRec :=
  let reads := (List.range 16).map (fun d => s.memRead (s.dieRecAddr step layer d) 512)
  let good := reads.filter (fun b =>
    !b.2 && sumStep b.1 == step && bits (blkNat b.1 0 4) 0 12 == layer && b.1.any (fun x => x != 0))
  match good.map (fun b => summaryRec b.1) with
  | [] => none
  | r :: l =>
    let x := l.foldl AssayRec.plus r
    some { x with poison := x.poison || reads.any (fun b => b.2) }

/-- Layers of the active program, without repeats. -/
def State.progLayers (s : State) : List (List Byte) :=
  match s.eng.active with
  | none => []
  | some p => (List.range (hLayers p.hdr)).map (fun i => (s.layerBytes p i).1)
def State.layerById (s : State) (id : Nat) : Option (List Byte) := s.progLayers.find? (fun b => lLayerId b == id)

/-- Send the summary of one layer to its home, or merge it here. -/
def State.sendSummary (s : State) (b : List Byte) : State :=
  let r := s.layerSummary (lLayerId b) s.stepNum
  let s := (List.range 16).foldl (fun s d => s.memSeen (s.dieRecAddr s.stepNum (lLayerId b) d) 512) s
  match r with
  | none => s
  | some r =>
    let v := summaryBytes r s.devId false
    if lHome b = s.devId then s.mergeHome v
    else
      let tag := s.fab.nextTag
      let s := s.send { type := 8, ord := true, src := 0, dst := lHome b, args := 1 + lJob b * 2 ^ 8, data := v } .summary
      { s with eng := { s.eng with sums := s.eng.sums ++ [SumOut.mk tag (lHome b) (lLayerId b)] } }
/-- One entry per LAYER_ID. -/
def distinctLayers : List Nat → List (List Byte) → List (List Byte)
  | _, [] => []
  | seen, b :: l => if seen.contains (lLayerId b) then distinctLayers seen l else b :: distinctLayers (lLayerId b :: seen) l
/-- ASSAY_SUMMARY_SEND: once per step, after the records that wait are merged. -/
def State.sendSummaries (s : State) : State :=
  let s := s.mergeAll
  (distinctLayers [] s.progLayers).foldl State.sendSummary s

/-- A CTL packet of a subtype. -/
def ctlSub (p : Packet) (sub : Nat) : Bool := p.type == 8 && !p.rsp && p.args % 256 == sub

/-- ASSAY_SUM at the home: merged, or discarded when the step's decision has been applied; always acknowledged (R151).  One
that arrives poisoned is lost to an uncorrectable error and counts as missing (R471). -/
def State.sumArrive (s : State) (p : Packet) : State :=
  let last := s.reg STEER_LAST_STEP
  let late := last != 0xFFFFFFFF && decide (sumStep p.data ≤ last)
  let s := if late then s.raise STEER_EVENT STEER_EVENT_SUM_LATE else if p.poison then s else s.mergeHome p.data
  s.sendPlain { type := 8, ord := true, src := 0, dst := p.src, args := 2, tag := p.tag }
def execAssaySum (p : Packet) (s : State) : Res := done s (if ctlSub p 1 then s.sumArrive p else s)

/-- A summary is settled: acknowledged, or returned with a STATUS other than OK (R151). -/
def State.sumSettled (s : State) (tag : Nat) : State :=
  { s with eng := { s.eng with sums := s.eng.sums.filter (fun x => x.tag != tag) },
           fab := { s.fab with tags := mapSet (fun _ => none) tag none s.fab.tags } }
def execAssayAck (p : Packet) (s : State) : Res := done s (if ctlSub p 2 then s.sumSettled p.tag else s)

/-- Die records of a bank in which anything is stored, by number: LAYER_ID × 16 + die. -/
def State.bankRecs (s : State) (step : Nat) : List Nat :=
  let a := s.dieRecAddr step 0 0
  ((s.mem.filter (fun c => decide (a ≤ c.1) && decide (c.1 < a + 2 ^ 25))).map (fun c => (c.1 - a) / 512)).foldl
    (fun l n => setInsert n l) []
/-- ABORTED is set in the HEAD of every record of the step's bank (R470). -/
def State.markAborted (s : State) : State :=
  (s.bankRecs s.stepNum).foldl (fun s n =>
    let a := s.dieRecAddr s.stepNum (n / 16) (n % 16)
    (s.memSeen a 4).memWrite a (leBytes 4 (blkNat (s.memRead a 4).1 0 4 ||| 2 ^ 26)) (s.memRead a 4).2) s

end Sys2Proof.Machine
end

