-- ==== Sys2Proof/Machine/Lanes.lean ====
section
/-! DEFINITION. The vector unit's lanes: the comparisons and selections of R96, the transcendental lanes within the bounds of R98, what
a routine computes with them (R465), and beta^t within the bound of R203. -/

namespace Sys2Proof.Machine

/-- FP32 image of 1.0. -/
def one32 : Nat := 0x3F800000

/-- Larger of two FP32 images: a NaN where either is one, and −0 below +0, which suits both modes of R96. -/
def f32Max (a b : Nat) : Nat :=
  match fv32 a, fv32 b with
  | .nan n p, y => f32 (FV.nanOf (.nan n p) y)
  | x, .nan n p => f32 (FV.nanOf x (.nan n p))
  | .inf n, y => if n then f32 y else a
  | x, .inf n => if n then f32 x else b
  | x, y => if x.leFin y then (if y.leFin x && !x.neg? then a else b) else a

/-- Smaller of two FP32 images, by the same rules. -/
def f32Min (a b : Nat) : Nat :=
  match fv32 a, fv32 b with
  | .nan n p, y => f32 (FV.nanOf (.nan n p) y)
  | x, .nan n p => f32 (FV.nanOf x (.nan n p))
  | .inf n, y => if n then a else f32 y
  | x, .inf n => if n then b else f32 x
  | x, y => if x.leFin y then (if y.leFin x && y.neg? then b else a) else b

/-- Sort key of an FP32 image (R96): keys rise as the values do.  Native mode puts every NaN last and takes −0 and +0 as equal; BV1 mode
is the totalOrder of IEEE 754. -/
def sortKey (zm : Bool) (c : Nat) : Int :=
  let mag : Nat := c % 2 ^ 31
  if !zm && decide (0x7F800000 < mag) then 2 ^ 31
  else if bit c 31 then (if zm then -(mag : Int) - 1 else -(mag : Int)) else mag
/-- A compare of two FP32 images (R96).  Native: as the sort keys stand, so that a NaN equals a NaN and is above +Inf.  BV1: with a NaN
every ordered compare is false and not-equal is true. -/
def VecCmp.holds (op : VecCmp) (zm : Bool) (a b : Nat) : Bool :=
  let x := sortKey false a
  let y := sortKey false b
  if zm && ((fv32 a).isNan || (fv32 b).isNan) then op == .ne
  else match op with
    | .eq => x == y
    | .ne => x != y
    | .lt => decide (x < y)
    | .gt => decide (y < x)
/-- A list of images put in the order of their sort keys, equal keys in the order they had. -/
def sortIn (zm : Bool) (a : Nat) : List Nat → List Nat
  | [] => [a]
  | x :: l => if sortKey zm x ≤ sortKey zm a then x :: sortIn zm a l else a :: x :: l
def sortRow (zm : Bool) (l : List Nat) : List Nat := l.foldl (fun r a => sortIn zm a r) []

/-! ### the transcendental lanes (R98)

Fixed-point numbers in units of 2^−192, every FP32 number a whole one.  Each function is computed far below the bound of its row, and a
lane may give any image within the bound. -/

/-- 2^f for f in units of 2^−64, in units of 2^−128: `c` is 2^(2^−i) in the same units. -/
def pow2Steps : Nat → Nat → Nat → Nat → Nat
  | 0, _, _, p => p
  | n + 1, c, f, p => pow2Steps n (isqrtBits 130 (c * 2 ^ 128) 0) f (if bit f n then p * c / 2 ^ 128 else p)
def pow2Frac (f : Nat) : Nat := pow2Steps 64 (isqrtBits 130 (2 ^ 257) 0) f (2 ^ 128)
/-- 2^x for |x| < 2^10. -/
def fxExp2 (x : Int) : Nat := shl (pow2Frac ((x % 2 ^ 192).toNat / 2 ^ 128)) (64 + x / 2 ^ 192)
/-- 1 / ln 2, ln 2 and 2π. -/
def fxLog2E : Int := 9055943544797870567083544809312461607371518589544137143473
def fxLn2 : Int := 4350955369971217654477563090224794165364344896676135745069
def fxTwoPi : Int := 39440193395453077124792266728456537782926901730380179465120
/-- e^x for |x| < 2^9. -/
def fxExp (x : Int) : Nat := fxExp2 (x * fxLog2E / 2 ^ 192)
/-- The next bits of log2 of y in [1, 2), in units of 2^−128. -/
def log2Steps : Nat → Nat → Nat → Nat
  | 0, _, a => a
  | n + 1, y, a =>
    let z := y * y / 2 ^ 128
    if 2 ^ 129 ≤ z then log2Steps n (z / 2) (2 * a + 1) else log2Steps n z (2 * a)
/-- log2 of x > 0. -/
def fxLog2 (x : Nat) : Int :=
  let l := Nat.log2 x
  ((l : Int) - 192) * 2 ^ 192 + (log2Steps 100 (shl x (128 - (l : Int))) 0 * 2 ^ 92 : Nat)
/-- Sine and cosine by their series: `t` is x^k / k!, the sums so far follow. -/
def trigSteps : Nat → Nat → Int → Int → Int → Int → Int × Int
  | 0, _, _, _, s, c => (s, c)
  | n + 1, k, x, t, s, c =>
    let s' := if k % 4 = 1 then s + t else if k % 4 = 3 then s - t else s
    let c' := if k % 4 = 0 then c + t else if k % 4 = 2 then c - t else c
    trigSteps n (k + 1) x (t * x / 2 ^ 192 / ((k : Int) + 1)) s' c'
def fxTrig (x : Int) : Int × Int := trigSteps 80 0 (x % fxTwoPi) (2 ^ 192) 0 0
/-- tanh and sigmoid. -/
def fxTanh (x : Int) : Int :=
  if 64 * 2 ^ 192 ≤ x.natAbs then (if x < 0 then -2 ^ 192 else 2 ^ 192)
  else
    let e : Int := fxExp (2 * x)
    (e - 2 ^ 192) * 2 ^ 192 / (e + 2 ^ 192)
def fxSigmoid (x : Int) : Int :=
  if 128 * 2 ^ 192 ≤ x.natAbs then (if x < 0 then 0 else 2 ^ 192) else 2 ^ 384 / (2 ^ 192 + (fxExp (-x) : Int))

/-- The exact value of a lane for a number x, with its bound in ulp and whether 2^−24 absolute suffices; none where R98 gives no bound. -/
def VecLane.exact (op : VecLane) (x : Int) : Option (Int × Nat × Bool) :=
  let near (k : Nat) : Bool := decide (x.natAbs < 2 ^ (192 + k))
  match op with
  | .exp2 => if near 9 then some (fxExp2 x, 2, false) else none
  | .log2 => if 0 < x then some (fxLog2 x.toNat, 2, false) else none
  | .exp => if near 8 then some (fxExp x, 3, false) else none
  | .log => if 0 < x then some (fxLog2 x.toNat * fxLn2 / 2 ^ 192, 3, false) else none
  | .recip => if x = 0 then none else some (2 ^ 384 / x, 1, false)
  | .rsqrt => if 0 < x then some (isqrtBits 272 (2 ^ 576 / x.toNat) 0, 1, false) else none
  | .tanh => some (fxTanh x, 4, true)
  | .sigmoid => some (fxSigmoid x, 4, true)
  | .sin => if x.natAbs ≤ 2 ^ (192 + 16) then some ((fxTrig x).1, 2, true) else none
  | .cos => if x.natAbs ≤ 2 ^ (192 + 16) then some ((fxTrig x).2, 2, true) else none

/-- The image a lane gives for the exact value v: the free image `n` where it lies within k ulp (or 2^−24 where `abs`) of v, else the
nearest image; any image where v is no normal number and no absolute bound holds. -/
def laneHeld (k : Nat) (abs : Bool) (v : Int) (n : Nat) : Nat :=
  let m := v.natAbs
  let c := n % 2 ^ 32
  if !abs && m != 0 && (decide (m < 2 ^ 66) || decide (2 ^ 320 ≤ m)) then c
  else
    let b := max (k * 2 ^ max 43 (Nat.log2 m - 23)) (if abs then 2 ^ 168 else 0)
    match fv32 c with
    | .fin neg cm ce => if (finInt neg cm ce (-192) - v).natAbs ≤ b + 1 then c else f32 (fvOfInt false v (-192))
    | _ => f32 (fvOfInt false v (-192))
/-- A transcendental lane.  A normal operand is held to R98, and so is ±0 where the exact value exists (DESIGN CHOICE; R98 speaks of normal
operands); elsewhere the result is free. -/
def VecLane.apply (op : VecLane) (x : Nat) : Nat :=
  let n := Config.lane op x
  match fv32 x with
  | .fin neg m e =>
    if m ≠ 0 ∧ m < 2 ^ 23 then n % 2 ^ 32
    else match op.exact (finInt neg m e (-192)) with
      | some (v, k, abs) => laneHeld k abs v n
      | none => n % 2 ^ 32
  | _ => n % 2 ^ 32
/-- exp2 of attention: the lane, and +0 for −Inf, which R184 needs of a masked key. -/
def exp2Image (x : Nat) : Nat := if fv32 x = .inf true then 0 else VecLane.exp2.apply x

/-! ### routines (R465) -/

/-- One operation of the vector unit on two FP32 images (R96, R98). -/
def VecOp.apply (op : VecOp) (a b : Nat) : Nat :=
  match op with
  | .add => f32Add a b
  | .sub => f32Sub a b
  | .mul => f32Mul a b
  | .div => f32Div a b
  | .min => f32Min a b
  | .max => f32Max a b

/-- The FP32 image that a routine's term stands for, and whether it has read poison: `row` is the routine's input row, `aux o` the FP32
image at byte o of its second operand with its poison. -/
def VecTerm.eval (zm : Bool) (row : List Nat) (aux : Nat → Nat × Bool) : VecTerm → Nat × Bool
  | .image c => (c % 2 ^ 32, false)
  | .elem k => (row.getD k 0, false)
  | .sorted k => ((sortRow zm row).getD k 0, false)
  | .amax => (f32 (amaxOf (row.map fv32)), false)
  | .aux o => aux o
  | .lane l t => let x := eval zm row aux t; (l.apply x.1, x.2)
  | .sqrt t => let x := eval zm row aux t; (f32Sqrt x.1, x.2)
  | .op o t u =>
    let x := eval zm row aux t
    let y := eval zm row aux u
    (o.apply x.1 y.1, x.2 || y.2)
  | .fma t u v =>
    let x := eval zm row aux t
    let y := eval zm row aux u
    let z := eval zm row aux v
    (f32Fma x.1 y.1 z.1, x.2 || y.2 || z.2)
  | .sel c t u v w =>
    let x := eval zm row aux t
    let y := eval zm row aux u
    let p := eval zm row aux v
    let q := eval zm row aux w
    (if c.holds zm x.1 y.1 then p.1 else q.1, x.2 || y.2 || p.2 || q.2)
/-- Byte places of the second operand that a term reads. -/
def VecTerm.auxAt : VecTerm → List Nat
  | .aux o => [o]
  | .lane _ t => t.auxAt
  | .sqrt t => t.auxAt
  | .op _ t u => t.auxAt ++ u.auxAt
  | .fma t u v => t.auxAt ++ u.auxAt ++ v.auxAt
  | .sel _ t u v w => t.auxAt ++ u.auxAt ++ v.auxAt ++ w.auxAt
  | _ => []

/-! ### beta^t (R194, R203) -/

/-- A positive number m × 2^e of at most 160 bits, cut from below when `cut`. -/
structure Trunc where
  m   : Nat
  e   : Int
  cut : Bool
deriving DecidableEq, Repr

def Trunc.mul (a b : Trunc) : Trunc :=
  let m := a.m * b.m
  let k := Nat.log2 m + 1 - 160
  ⟨m / 2 ^ k, a.e + b.e + k, a.cut || b.cut || m % 2 ^ k != 0⟩
/-- b^t × p by the bits of t, lowest first. -/
def Trunc.pow : Nat → Nat → Trunc → Trunc → Trunc
  | 0, _, _, p => p
  | n + 1, t, b, p => Trunc.pow n (t / 2) (b.mul b) (if t % 2 = 1 then p.mul b else p)
/-- Image of the largest FP32 number not above a positive number, normal or not, and whether it is that number. -/
def Trunc.image (p : Trunc) : Nat × Bool :=
  let l := Nat.log2 p.m
  let E : Int := l + p.e
  if -126 ≤ E then
    let sig := shl p.m (23 - (l : Int))
    (((E + 126) * 2 ^ 23).toNat + sig, !p.cut && sig * 2 ^ l == p.m * 2 ^ 23)
  else if E < -149 then (0, false)
  else
    let q := shl p.m (p.e + 149)
    (q, !p.cut && shl q (-(p.e + 149)) == p.m)
/-- beta^t of an FP32 image: 0 for beta = 0, and for every other beta below 1 within 4 ulp of the exact power, subnormal results with
it; free for a beta that R171 does not allow. -/
def betaPow (beta t : Nat) : Nat :=
  let n := Config.betaPow beta t
  match fv32 beta with
  | .fin false m e =>
    if m = 0 then (if t = 0 then one32 else 0)
    else if one32 ≤ beta then n % 2 ^ 32
    else
      let r := (Trunc.pow 33 t ⟨m, e, false⟩ ⟨1, 0, false⟩).image
      (((r.1 + n % (if r.2 then 9 else 8) : Nat) : Int) - (if r.2 then 4 else 3)).toNat
  | _ => n % 2 ^ 32

end Sys2Proof.Machine
end

