-- ==== Sys2Proof/Machine/Dram.lean ====
section
/-! DEFINITION. DRAM below the slices: error decode of a burst (R212 to R218), refresh and scrub (R231, R232), row precharge
(R209) and the thermal ladder (R233 to R235). -/

namespace Sys2Proof.Machine

/-- Poisoned beats of line l as DRAM holds them: those below a dirty or poisoned cache line when one is resident. -/
def State.dramBad (s : State) (l : Nat) : List Nat :=
  match s.line l with
  | some c => if c.below.isEmpty then (blocksOf 64 (l * 256) 256).filter (fun b => s.poison.contains b) else c.belowBad
  | none => (blocksOf 64 (l * 256) 256).filter (fun b => s.poison.contains b)

/-- A beat of DRAM can no longer be corrected: a read of DRAM finds it lost until it is rewritten; a slice's copy stands. -/
def State.spoilBeat (s : State) (b : Nat) : State :=
  { s with dram := { s.dram with lost := setInsert b s.dram.lost } }
/-- A beat that decodes is not lost. -/
def State.soundBeat (s : State) (b : Nat) : State :=
  if s.dram.lost.contains b then { s with dram := { s.dram with lost := setErase b s.dram.lost } } else s

/-- Record the latest error of a controller (R218): a corrected error leaves an uncorrectable one standing until MC_EVENT.UE is
cleared, one of the same burst (`worse`) included. -/
def State.recordErr (s : State) (beat : Nat) (ue scrub worse : Bool) (syms : List Nat) : State :=
  let g := gchan (beat * 64)
  let d := stackOf g
  let c := ctlOf g
  if !ue && s.flag (MC_ERR_INFO d c) MC_ERR_INFO_VALID && s.flag (MC_ERR_INFO d c) MC_ERR_INFO_KIND &&
      (worse || s.flag (MC_EVENT d c) MC_EVENT_UE) then s
  else
    let v := g % 4 + b2n ue * 2 ^ 2 + b2n scrub * 2 ^ 3 + syms.length % 4 * 2 ^ 4 + syms.getD 0 0 * 2 ^ 6 +
      syms.getD 1 0 * 2 ^ 13 + syms.getD 2 0 * 2 ^ 20 + 2 ^ 27
    (s.setReg (MC_ERR_INFO d c) v).setPair (MC_ERR_ADDR_LO d c) (beat * 64)

/-- What a burst's decode found: flags of MC_EVENT to raise, and beats that are uncorrectable. -/
structure BurstFound where
  ce    : Bool := false
  poi   : Bool := false
  worst : List Nat := []
deriving DecidableEq, Repr

/-- Decode one beat (R213, R214) and count it. -/
def State.beatDone (s : State) (scrub : Bool) (found : BurstFound) (beat : Nat) (err : BeatErr) : State × BurstFound :=
  let g := gchan (beat * 64)
  let pat := if (s.dramBad (beat / 4)).contains beat then err ++ rsPoison else err
  match rsDecode pat with
  | .clean => (s.soundBeat beat, found)
  | .poison => (s, { found with poi := true })
  | .corrected fix =>
    (((s.soundBeat beat).bump (MC_CE_LO (stackOf g) (ctlOf g)) 1).recordErr beat false scrub (!found.worst.isEmpty) (fix.map Prod.fst),
      { found with ce := true })
  | .uncorrectable =>
    ((s.bump (MC_UE_LO (stackOf g) (ctlOf g)) 1).recordErr beat true scrub false [], { found with worst := found.worst ++ [beat] })

/-- The four beats of the burst at line l, then the event flags in one raise. -/
def State.burstDone (s : State) (scrub : Bool) (l : Nat) (errs : List BeatErr) : State × BurstFound :=
  let r := (List.range 4).foldl (fun (acc : State × BurstFound) i =>
    acc.1.beatDone scrub acc.2 (4 * l + i) (errs.getD i [])) (s, {})
  let g := gchan (l * 256)
  let m := (if r.2.ce then 2 ^ MC_EVENT_CE.lo else 0) + (if r.2.worst.isEmpty then 0 else 2 ^ MC_EVENT_UE.lo) +
    (if r.2.poi then 2 ^ MC_EVENT_POISON_RD.lo else 0)
  (if m = 0 then r.1 else r.1.raiseMask (MC_EVENT (stackOf g) (ctlOf g)) m, r.2)

/-- The entries of a ledger beat are lost (R267): their keys resolve no more. -/
def State.loseEntries (s : State) (beat : Nat) : State :=
  let keys := ((List.range 4).map (fun i => s.led (beat * 64 + 16 * i))).filterMap (fun e =>
    if leKind e = kEmpty then none else some (leKey e))
  { s with plc := { s.plc with lostKeys := keys.foldl (fun l k => setInsert k l) s.plc.lostKeys } }
/-- What the placement engine does about an uncorrectable beat (R263, R267): a ledger bucket is fatal, a frame map is rebuilt,
a frame's granule is poisoned. -/
def State.lostBeat (s : State) (beat : Nat) : State :=
  let a := beat * 64
  let o := a % 2 ^ 32
  if 0xFFE00000 ≤ o then
    ((s.loseEntries beat).raise PLC_EVENT PLC_EVENT_LEDGER_UE).fault 4 0x0502 PLC_EVENT ((o - 0xFFE00000) / 128 * 512 + gchan a)
  else if 0xFFD80000 ≤ o then
    let t := s.fault 0 0x0405 0 a
    { t with plc := { t.plc with rebuild := setInsert (gchan a) t.plc.rebuild } }
  else (s.spoilBeat beat).framePoison (a / 65536)

/-- The granule of a DRAM address has a mirror copy that serves its reads (R264). -/
def State.mirroredAt (s : State) (a : Nat) : Bool :=
  let e := s.fm (a / 65536)
  fmUsed e && !fmNopool e && !fmRcopy e && s.mirrored (fmKey e)
/-- The address lies in a channel's frame map (R245). -/
def inFrameMap (a : Nat) : Bool := decide (0xFFD80000 ≤ a % 2 ^ 32) && decide (a % 2 ^ 32 < 0xFFE00000)
/-- A demand burst returns (R213): the request that met an uncorrectable beat ends (R216), unless a mirror serves it and the
error counts as corrected (R264), or it is one of the frame map, whose repair counts it (R267). -/
def State.dramRead (s : State) (a : Nat) (errs : List BeatErr) : State :=
  let l := a / 256
  let r := (s.openRow a).burstDone false l errs
  match r.2.worst with
  | [] => r.1
  | b :: _ =>
    let g := gchan a
    let ev := MC_EVENT (stackOf g) (ctlOf g)
    let s := if inFrameMap a then r.1
      else if r.1.mirroredAt a then r.1.fault 0 0x0405 ev (b * 64) else r.1.fault 1 0x0101 ev (b * 64)
    r.2.worst.foldl (fun s b => s.lostBeat b) s

def execDramReadDone (a : Nat) (errs : List BeatErr) (s : State) : Res :=
  done s (if a < 0x20000000000 ∧ s.chanOk (gchan a) then s.dramRead a errs else s)

/-! ### scrub -/

/-- SCRUB_EN, with its reset value under a parity stop (R237). -/
def State.scrubEn (s : State) (d c : Nat) : Bool :=
  if s.parStop.contains (MC_CTRL d c) then true else s.flag (MC_CTRL d c) MC_CTRL_SCRUB_EN

/-- The next burst of the patrol (R232): corrected errors are written back (nothing is left of them either way, the write being
cancelled by a newer one), uncorrectable ones are recorded and their granule told. -/
def State.scrubBurst (s : State) (g : Nat) (errs : List BeatErr) : State :=
  let p := mapGet (fun _ => 0) g s.dram.scrub
  let r := (s.openRow ((g * 2 ^ 24 + p) * 256)).burstDone true (g * 2 ^ 24 + p) errs
  let s := r.2.worst.foldl (fun s b => s.lostBeat b) r.1
  { s with dram := { s.dram with scrub := mapSet (fun _ => 0) g ((p + 1) % 2 ^ 24) s.dram.scrub } }

def execPatrolScrub (d : DieIx) (ch : ChanIx) (errs : List BeatErr) (_written : Bool) (s : State) : Res :=
  let g := 32 * d.val + ch.val
  done s (if s.scrubEn d.val (ch.val / 4) && s.chanReady g && s.tstate d.val < 2 then
      (s.scrubBurst g errs).usePromo (.memQueue d (Fin.ofNat 8 (ch.val / 4))) .scrub
    else s)

/-! ### refresh and rows -/

/-- REF_POST of a channel: 4 bits in its controller's MC_STAT. -/
def refPost (ch : Nat) : Fld := ⟨16 + 4 * (ch % 4), 4⟩

/-- A refresh falls due (R231): issued at once, postponed while requests wait, or forced after 8. -/
def execRefreshDue (d : DieIx) (ch : ChanIx) (busy : Bool) (s : State) : Res :=
  let st := MC_STAT d.val (ch.val / 4)
  let n := s.fld st (refPost ch.val)
  done s (
    if !s.chanOk (32 * d.val + ch.val) || !busy then s
    else if n < 8 then s.setFld st (refPost ch.val) (n + 1)
    else s.raise (MC_EVENT d.val (ch.val / 4)) MC_EVENT_REF_FORCED)

/-- An idle channel issues a postponed refresh. -/
def execRefreshPostponedIssue (d : DieIx) (ch : ChanIx) (s : State) : Res :=
  let st := MC_STAT d.val (ch.val / 4)
  let n := s.fld st (refPost ch.val)
  done s (if s.chanOk (32 * d.val + ch.val) && 0 < n then s.setFld st (refPost ch.val) (n - 1) else s)

/-- The open row of a bank is precharged (R209). -/
def execRowIdlePrecharge (d : DieIx) (ch : ChanIx) (bank : Fin 128) (s : State) : Res :=
  done s { s with dram := { s.dram with
    rows := mapSet (fun _ => none) ((32 * d.val + ch.val) * 128 + bank.val) none s.dram.rows } }

/-- A new 1 µs window of a capped channel (R233): bursts asked for past the 500 of the last one are granted in it. -/
def execHotCapWindow (d : DieIx) (ch : ChanIx) (s : State) : Res :=
  let g := 32 * d.val + ch.val
  done s { s with dram := { s.dram with
    bursts := mapSet (fun _ => 0) g (mapGet (fun _ => 0) g s.dram.bursts - 500) s.dram.bursts } }

/-! ### thermal ladder -/

/-- A field of all 8 controllers of a die (R237: stack values read alike). -/
def State.setMcAll (s : State) (d : Nat) (reg : Nat → Nat → Nat) (f : Fld) (v : Nat) : State :=
  (List.range 8).foldl (fun s c => s.setFld (reg d c) f v) s
def State.raiseMcAll (s : State) (d m : Nat) : State := (List.range 8).foldl (fun s c => s.raiseMask (MC_EVENT d c) m) s

/-- Open jobs of die d: the parts that stand OPEN or CLOSING in its Crucibles (R324), each by its Crucible, its job and its
step. -/
def State.openJobs (s : State) (d : Nat) : List Nat :=
  (List.range 8).flatMap (fun c => (List.range 256).filterMap (fun i =>
    let w := s.reg (CRU_JOB_W0 d c i)
    if bit w 0 && (bits w 1 3 == 1 || bits w 1 3 == 2) then some (c * 2 ^ 28 + bits w 4 28) else none))

/-- The next state of the ladder: at most one step (R233). -/
def nextTstate (t temp : Nat) : Nat :=
  match t with
  | 0 => if 85 ≤ temp then 1 else 0
  | 1 => if 95 ≤ temp then 2 else if temp < 82 then 0 else 1
  | 2 => if 105 ≤ temp then 3 else if temp < 92 then 1 else 2
  | _ => if temp < 102 then 2 else 3

/-- GRACE_EN and LIMIT of the stack, from controller 0. -/
def State.graceEn (s : State) (d : Nat) : Bool :=
  if s.parStop.contains (MC_CTRL d 0) then true else s.flag (MC_CTRL d 0) MC_CTRL_GRACE_EN
def State.graceLimit (s : State) (d : Nat) : Nat :=
  if s.parStop.contains (MC_GRACE d 0) then 50 else min 50 (s.fld (MC_GRACE d 0) MC_GRACE_LIMIT)

/-- Put the cap of R233 in force or lift it; a new window starts with its whole budget. -/
def State.setCap (s : State) (d : Nat) (on : Bool) : State :=
  let s := s.setMcAll d MC_STAT MC_STAT_CAPPED (b2n on)
  { s with dram := { s.dram with bursts := s.dram.bursts.filter (fun e => e.1 / 32 != d) } }
/-- Start or end a grace (R235). -/
def State.setGrace (s : State) (d : Nat) (jobs : List Nat) (left : Nat) : State :=
  let s := (s.setMcAll d MC_STAT MC_STAT_GRACE (if jobs.isEmpty then 0 else 1)).setMcAll d MC_GRACE MC_GRACE_LEFT left
  { s with dram := { s.dram with grace := mapSet (fun _ => []) d jobs s.dram.grace, graceT := mapSet (fun _ => 0) d 0 s.dram.graceT } }

/-- The grace ends when no part open at the entry remains open; one that has closed counts no more when it opens for a newer step
(R235).  The cap applies then. -/
def State.graceCheck (s : State) (d : Nat) : State :=
  let jobs := mapGet (fun _ => []) d s.dram.grace
  if jobs.isEmpty then s
  else
    let now := s.openJobs d
    let left := jobs.filter (fun j => now.contains j)
    if left.isEmpty then (s.setGrace d [] 0).setCap d true
    else { s with dram := { s.dram with grace := mapSet (fun _ => []) d left s.dram.grace } }
/-- A reading of 32 µs during a grace: MC_GRACE.LEFT counts the ms that are left. -/
def State.graceTick (s : State) (d : Nat) : State :=
  if (mapGet (fun _ => []) d s.dram.grace).isEmpty then s
  else
    let n := mapGet (fun _ => 0) d s.dram.graceT + 1
    let s := { s with dram := { s.dram with graceT := mapSet (fun _ => 0) d n s.dram.graceT } }
    s.setMcAll d MC_GRACE MC_GRACE_LEFT (s.graceLimit d - n * 32 / 1000)

/-- Entry into a thermal state (R233 to R235). -/
def State.enterTstate (s : State) (d t' : Nat) : State :=
  let s := s.setMcAll d MC_STAT MC_STAT_TSTATE t'
  let s := (s.raiseMcAll d (2 ^ MC_EVENT_TSTATE.lo)).raise PWR_EVENT PWR_EVENT_TSTATE
  if t' = 2 then
    let jobs := if s.graceEn d ∧ s.graceLimit d ≠ 0 then s.openJobs d else []
    if jobs.isEmpty then s.setCap d true else s.setGrace d jobs (s.graceLimit d)
  else
    let s := (s.setGrace d [] 0).setCap d false
    if t' = 3 then s.fault 1 0x0105 (MC_EVENT d 0) d else s

/-- A reading of the eight DRAM sensors of a stack (R233). -/
def State.stackReading (s : State) (d : Nat) (temps : List Nat) : State :=
  let t := temps.foldl max 0
  let sid := temps.idxOf t
  let s := s.graceTick d
  let s := s.setMcAll d MC_THERM MC_THERM_TEMP (min 255 t)
  let s := s.setMcAll d MC_THERM MC_THERM_PEAK (max (s.fld (MC_THERM d 0) MC_THERM_PEAK) (min 255 t))
  let s := s.setMcAll d MC_THERM MC_THERM_HOT_SID sid
  let old := s.tstate d
  if nextTstate old t = old then s else s.enterTstate d (nextTstate old t)

def execThermalReading (d : DieIx) (temps : List Nat) (s : State) : Res :=
  done s (if temps.length = 8 then s.stackReading d.val temps else s)

/-- The grace reaches its limit with a job still open (R235). -/
def execGraceLimit (d : DieIx) (s : State) : Res :=
  done s (
    if s.flag (MC_STAT d.val 0) MC_STAT_GRACE then
      ((s.setGrace d.val [] 0).setCap d.val true).raiseMcAll d.val (2 ^ MC_EVENT_GRACE_END.lo)
    else s)

end Sys2Proof.Machine
end

