-- ==== Sys2Proof/Machine/Objects.lean ====
section
/-! DEFINITION. Mailbox 1 (R242, R243, R265, R266): objects, regions, reserved ranges, evacuation and aliases. -/

namespace Sys2Proof.Machine

def stBadObj : Nat := 0x06
def stNoSpace : Nat := 0x07
def stBadRegion : Nat := 0x08
def stNotHeld : Nat := 0x09
def stInUse : Nat := 0x0A

/-- Command block arguments (R242). -/
def cbArg0 (b : List Byte) : Nat := blkNat b 8 8
def cbArg1 (b : List Byte) : Nat := blkNat b 16 8
def cbArg2 (b : List Byte) : Nat := blkNat b 24 4
def cbArg3 (b : List Byte) : Nat := blkNat b 28 4

/-- A mailbox 1 command: BUSY while an EVACUATE runs; else `f` gives the state and the status. -/
def State.mbox1 (s : State) (code : Nat) (blk : List Byte) (f : State → List Byte → State × Nat) : State :=
  s.serve 1 code true blk (fun t b src =>
    if t.plc.busy.isSome then t.answer 1 src (ansWord stBusy 0)
    else
      let r := f t b
      r.1.answer 1 src (ansWord r.2 0))

/-- The id is one of this device's, and not INDEX 0 or 4,095. -/
def State.ownId (s : State) (id : Nat) : Bool := id / 4096 == s.devId && id % 4096 != 0 && id % 4096 != 4095

/-- Does an object record break R242's rules for OBJ_CREATE? -/
def State.objBad (s : State) (id r : Nat) : Bool :=
  !s.ownId id || orValid (s.objRec id) || (8 < orClass r) || orTmin r == 3 || orTmax r == 3 || decide (orTmax r < orTmin r) ||
  (orClass r == 5 && orTmax r != 0) || (orBind r && orTmin r != 2) ||
  (orMirror r && (!(orClass r == 0 || orClass r == 2) || s.spillPeers.isEmpty)) || orSize r == 0 || decide (2 ^ 24 < orSize r)

/-- The words a record keeps: its fields, VALID set; reserved bits are 0 (R9, R241). -/
def recordOf (r : Nat) : Nat := setBits (bits r 0 17) 0 1 1 + bits r 32 25 * 2 ^ 32 + bits r 64 6 * 2 ^ 64 + bits r 96 32 * 2 ^ 96
/-- OBJ_CREATE: the record is written, and no granule is placed (R243). -/
def State.objCreate (s : State) (b : List Byte) : State × Nat :=
  let id := cbArg0 b % 2 ^ 24
  let r := cbArg1 b + cbArg2 b * 2 ^ 64 + cbArg3 b * 2 ^ 96
  if s.objBad id r then (s, stBadObj)
  else (s.tablePut (objRecAddr (id % 4096)) 32 (recordOf r), stAccepted)

def execObjCreate (blk : List Byte) (s : State) : Res := done s (s.mbox1 0x20 blk (fun t b => t.objCreate b))

/-- Every frame of the pool that the map gives to a key is freed. -/
def State.freeKeyFrames (s : State) (k : Nat) : State :=
  (s.frames.filter (fun fr => fmUsed (s.fm fr) && fmKey (s.fm fr) == k)).foldl (fun s fr => s.freeFrame fr) s
/-- The place a move has taken is given back: the host granule at its destination or its source; other devices are told. -/
def State.undoMove (s : State) (m : Move) (e : Nat) : State × List Nat :=
  match m.why with
  | .pull => if m.host then (s.freeSlot (leAddr e), []) else (s, [leDev e])
  | _ => if m.host then (s.freeSlot (m.dstAddr / 65536), []) else (s, [m.dstDev])
/-- Forget what is in flight for a key. -/
def State.dropFlight (s : State) (k : Nat) : State :=
  ({ s with plc := { s.plc with moves := s.plc.moves.filter (fun m => m.key != k), mends := s.plc.mends.filter (fun m => m.key != k),
                                fetches := s.plc.fetches.filter (fun f => f.key != k) } } : State).countMoves
/-- Release one owner entry of a freed object (R243): its frames, its place in a region, what a move has taken, and the devices
that hold it. -/
def State.freeEntry (s : State) (a : Nat) : State × List Nat :=
  let e := s.led a
  let repl := (if leR0V e then [leRepl0 e] else []) ++ (if leR1V e then [leRepl1 e] else [])
  let k := leKey e
  let (s0, more) := match s.moveOf k with
    | some m => s.undoMove m e
    | none => (s, [])
  let s1 := s0.dropFlight k
  if leKind e = kLocal then ((s1.freeFrame (leAddr e)).setLed a 0, repl)
  else if leKind e = kHost then ((s1.freeSlot (leAddr e)).setLed a 0, repl)
  else if leKind e = kMoving then (((s1.freeKeyFrames k).dropHoming k).setLed a 0, leDev e :: more ++ repl)
  else (s1.setLed a 0, leDev e :: repl)

/-- Release every granule of an object and send its holders a free notice each. -/
def State.freeObject (s : State) (id : Nat) : State :=
  let r := (s.ledgerAddrs.filter (fun a => leKind (s.led a) != kEmpty && leObj (s.led a) == id)).foldl
    (fun (acc : State × List Nat) a => let x := acc.1.freeEntry a; (x.1, acc.2 ++ x.2)) (s, [])
  let holders := (r.2.filter (fun d => d != s.devId)).foldl (fun l d => setInsert d l) []
  holders.foldl (fun t d => t.send (ledPkt d opFree (id * 2 ^ 40) 0 []) .other) r.1

/-- OBJ_FREE (R243); a record not in use has nothing to release. -/
def State.objFree (s : State) (b : List Byte) : State × Nat :=
  let id := cbArg0 b % 2 ^ 24
  if s.running then (s, stNotHeld)
  else if !s.ownId id then (s, stBadObj)
  else ((s.freeObject id).tablePut (objRecAddr (id % 4096)) 32 0, stAccepted)

def execObjFree (blk : List Byte) (s : State) : Res := done s (s.mbox1 0x21 blk (fun t b => t.objFree b))

/-- Does a new region overlap a registered one? -/
def State.regionClash (s : State) (base len : Nat) : Bool :=
  (List.range 64).any (fun r => s.regionV r &&
    decide (s.regionBase r < base + len * 65536) && decide (base < s.regionBase r + s.regionLen r * 65536))

/-- REGION_ADD. -/
def State.regionAdd (s : State) (b : List Byte) : State × Nat :=
  let base := cbArg0 b
  let len := cbArg2 b
  let r := cbArg3 b % 64
  if base % 65536 ≠ 0 ∨ len = 0 ∨ 2 ^ 28 ≤ len ∨ 2 ^ 44 < base + len * 65536 ∨ s.regionV r ∨ s.regionClash base len then (s, stBadRegion)
  else
    let s := (s.setReg (PLC_REGION_W0 r) (base % 2 ^ 32)).setReg (PLC_REGION_W1 r) (base / 2 ^ 32)
    ((s.setReg (PLC_REGION_W2 r) len).setReg (PLC_REGION_W3 r) (2 ^ 28), stAccepted)

def execRegionAdd (blk : List Byte) (s : State) : Res := done s (s.mbox1 0x22 blk (fun t b => t.regionAdd b))

/-- REGION_DEL. -/
def State.regionDel (s : State) (b : List Byte) : State × Nat :=
  let r := cbArg3 b % 64
  if !s.regionV r then (s, stBadRegion)
  else if s.regionUsed r ≠ 0 then (s, stInUse)
  else
    let s := (s.setReg (PLC_REGION_W0 r) 0).setReg (PLC_REGION_W1 r) 0
    ((s.setReg (PLC_REGION_W2 r) 0).setReg (PLC_REGION_W3 r) 0, stAccepted)

def execRegionDel (blk : List Byte) (s : State) : Res := done s (s.mbox1 0x23 blk (fun t b => t.regionDel b))

/-- Set a frame aside or give it back to the pool; a retired frame stays out. -/
def State.reserveFrame (s : State) (add : Bool) (fr : Nat) : State :=
  let e := s.fm fr
  if fmUsed e then s
  else if add then
    (if fmNopool e then s else (s.setFm fr (2 ^ 63)).setFld PLC_FREE PLC_FREE_FRAMES (s.freeFrames - 1))
  else (if fmNopool e then (s.setFm fr 0).setFld PLC_FREE PLC_FREE_FRAMES (s.freeFrames + 1) else s)

/-- RESERVE: add a reserved range to a free slot, or remove the range of a slot. -/
def State.reserveCmd (s : State) (b : List Byte) : State × Nat :=
  let a := cbArg0 b
  let len := cbArg2 b
  let slot := cbArg3 b % 16
  let held := mapGet (fun _ => none) slot s.plc.resv
  let setSlot (s : State) (v : Option (Nat × Nat)) : State :=
    { s with plc := { s.plc with resv := mapSet (fun _ => none) slot v s.plc.resv } }
  if s.running then (s, stNotHeld)
  else if bit (cbArg3 b) 4 then
    let frames := (List.range len).map (fun i => a / 65536 + i)
    if a % 65536 ≠ 0 ∨ len = 0 ∨ 0x20000000000 < a + len * 65536 ∨ held.isSome ∨
        s.plc.resv.any (fun e => match e.2 with
          | some (f, n) => decide (f < a / 65536 + len) && decide (a / 65536 < f + n)
          | none => false) then (s, stBadRegion)
    else if frames.any (fun fr => decide (poolFrames (fr / 65536) ≤ fr % 65536) || (fmUsed (s.fm fr) && !fmNopool (s.fm fr))) then
      (s, stNoSpace)
    else (setSlot (frames.foldl (fun s fr => s.reserveFrame true fr) s) (some (a / 65536, len)), stAccepted)
  else match held with
    | none => (s, stBadRegion)
    | some (f, n) =>
      (setSlot ((List.range n).foldl (fun s i => s.reserveFrame false (f + i)) s) none, stAccepted)

def execReserve (blk : List Byte) (s : State) : Res := done s (s.mbox1 0x24 blk (fun t b => t.reserveCmd b))

/-! ### evacuation (R265) -/

/-- The entry of a granule that leaves as a POISON entry: the successor holds nothing of it but the entry (R265). -/
def poisonAt (e S : Nat) : Nat := setBits (setBits (setBits e 48 4 (kPeer + 8)) 64 12 S) 76 28 0

/-- The step of R265 that a frame's granule leaves in: 2 an own granule, 3 one held for another owner, 4 a copy. -/
def State.evacOf (s : State) (fr : Nat) : Nat :=
  if fmRcopy (s.fm fr) then 4 else if s.serverOf (keyObj (fmKey (s.fm fr)) / 4096) = s.devId then 2 else 3
/-- Frames whose granules are still here, of one step; a frame of a stack at CRIT whose entry has left as POISON is done with. -/
def State.evacFrames (s : State) (step : Nat) : List Nat :=
  s.frames.filter (fun fr => fmUsed (s.fm fr) && !fmNopool (s.fm fr) && s.evacOf fr == step &&
    (s.chanOk (fr / 65536) || (match s.lookup (fmKey (s.fm fr)) with
      | some (_, e) => (leKind e == kLocal || leKind e == kRcopy) && leAddr e == fr
      | none => false)))

/-- A granule that cannot be read leaves as a POISON entry, and is counted. -/
def State.evacPoison (s : State) (S v k fr : Nat) : State :=
  match s.lookup k with
  | some (a, le) =>
    let s := s.freeFrame fr
    let s := if v = s.devId then s.setLed a (poisonAt le S)
      else (s.setLed a 0).send (ledPkt v opPoison (keyOa k) 0 []) .other
    { s with plc := { s.plc with evacBad := s.plc.evacBad + 1 } }
  | none => (s.freeFrame fr).dropLed k

/-- A copy is freed and its owner told. -/
def State.dropCopy (s : State) (v k fr : Nat) : State :=
  ((s.freeFrame fr).dropLed k).send (ledPkt v opReplDrop (keyOa k) 0 []) .other
/-- Move one used frame away: an own granule where the successor S places it, one held for an owner where the owner does. -/
def State.evacFrame (s : State) (S fr : Nat) : State :=
  let e := s.fm fr
  let k := fmKey e
  let v := s.serverOf (keyObj k / 4096)
  if (s.moveOf k).isSome then s
  else if fmRcopy e ∧ fmClass e = 1 then s.dropCopy v k fr
  else if fmRcopy e then
    if 32 ≤ s.movesRun then s else
    -- a mirror copy goes to the owner's next spill peer, which the owner names
    match s.askPlace v (spillExt 1 (fmClass e) true 0) k true with
    | (some (d, a, _), s) => s.startMove k .giveBack d a false
    | (none, s) => s.dropCopy v k fr
  else if s.tstate (stackOf (fr / 65536)) = 3 then s.evacPoison S v k fr
  else if 32 ≤ s.movesRun then s
  else
    let own := v == s.devId
    match s.askPlace (if own then S else v) (spillExt 3 (fmClass e) (fmPin e) (s.objRec (keyObj k))) k true with
    | (some (d, a, h), s) => s.startMove k (if own then .evacuate else .giveBack) d a h
    | (none, s) => s

/-- The step of R265 that runs: 1 ends when nothing of its own is in flight, the others when no frame of theirs is left. -/
def State.evacAdvance (s : State) : State :=
  (List.range 4).foldl (fun s _ =>
    let n := s.plc.evacStep
    let idle := s.plc.moves.isEmpty && s.plc.mends.isEmpty && s.plc.fetches.isEmpty
    if idle && n < 5 && (n == 1 || (s.evacFrames n).isEmpty) then { s with plc := { s.plc with evacStep := n + 1 } } else s) s
/-- Start what moves of the running step there is room for. -/
def State.evacPump (s : State) : State :=
  match s.plc.evac with
  | none => s
  | some S =>
    let s := s.evacAdvance
    ((s.evacFrames s.plc.evacStep).foldl (fun s fr => s.evacFrame S fr) s).evacAdvance

/-- EVACUATE: held or no program loaded; it takes longer than the mailbox timer, so RUNNING is answered first (R382). -/
def State.evacuateCmd (s : State) (src : CmdSrc) (b : List Byte) : State :=
  if !(s.flag STEP_STAT STEP_STAT_HOLD || (s.eng.active.isNone && s.eng.next.isNone)) then s.answer 1 src (ansWord stNotHeld 0)
  else
    let s := s.answer 1 src (ansWord stRunning 0)
    let s := s.setFlag PLC_STAT PLC_STAT_EVACUATING true
    let s := { s with plc := { s.plc with evac := some (cbArg0 b % 4096), evacBad := 0, evacStep := 1, busy := some src } }
    s.evacPump

def execEvacuate (blk : List Byte) (s : State) : Res :=
  done s (s.serve 1 0x25 true blk (fun t b src =>
    if t.plc.busy.isSome then t.answer 1 src (ansWord stBusy 0) else t.evacuateCmd src b))

/-- Send the object table and the owner entries to the successor (step 5), those of an owner it serves included (R266); EXT 0
carries an object record, 1 an entry.  A granule still LOCAL is one whose frame was retired: it goes as a POISON entry. -/
def State.sendTables (s : State) (S : Nat) : State :=
  let own := ((List.range 4096).map (fun i => s.devId * 4096 + i)) ++ s.plc.adopted.map (fun e => e.1)
  let s := (own.filter (fun o => orValid (s.objRec o) && s.serverOf (o / 4096) == s.devId)).foldl (fun s o =>
    s.send (ledPkt S opTransfer (o * 2 ^ 40) 0 (leBytes 32 (s.objRec o))) .other) s
  (s.ledgerAddrs.filter (fun a =>
    leKind (s.led a) != kEmpty && leKind (s.led a) != kProxy && leKind (s.led a) != kRcopy &&
    s.serverOf (leObj (s.led a) / 4096) == s.devId)).foldl (fun s a =>
    let e := if leKind (s.led a) = kLocal then poisonAt (s.led a) S else s.led a
    s.send (ledPkt S opTransfer (keyOa (leKey e)) 1 (leBytes 32 e)) .other) s

/-- Nothing is left to move, mend or free. -/
def State.evacEmpty (s : State) : Bool :=
  s.plc.moves.isEmpty && s.plc.mends.isEmpty && s.plc.fetches.isEmpty && [2, 3, 4].all (fun n => (s.evacFrames n).isEmpty)

/-- Evacuation completes (steps 5 and 6). -/
def State.evacDone (s : State) : State :=
  match s.plc.evac with
  | none => s
  | some S =>
    if !s.evacEmpty then s.evacPump
    else
      let s := s.sendTables S
      let s := (s.setFlag PLC_STAT PLC_STAT_EVACUATING false).setFlag PLC_STAT PLC_STAT_EVACUATED true
      let s := s.raise PLC_EVENT PLC_EVENT_EVAC_DONE
      let s := match s.plc.busy with
        | some src => s.answer 1 src (ansWord stAccepted (min 2047 s.plc.evacBad))
        | none => s
      { s with plc := { s.plc with evac := none, evacStep := 0, busy := none } }

def execEvacuateDone (s : State) : Res := done s s.evacDone

/-- ALIAS_SET (R266). -/
def State.aliasSet (s : State) (b : List Byte) : State × Nat :=
  if s.running then (s, stNotHeld)
  else (s.setReg (PLC_ALIAS (cbArg3 b % 16)) (cbArg0 b % 2 ^ 25), stAccepted)

def execAliasSet (blk : List Byte) (s : State) : Res := done s (s.mbox1 0x26 blk (fun t b => t.aliasSet b))

end Sys2Proof.Machine
end

