-- ==== Sys2Proof/Machine/Moves.lean ====
section
/-! DEFINITION. Resolution and its answers (R250, R251), pulls and replica copies (R258, R260), ageing and eviction (R255 to
R257), moves (R259), mends (R264), ledger and migration packets (R282), frame-map rebuild (R267). -/

namespace Sys2Proof.Machine

/-- A one-way request of the response kind: an answered request packet (only requests are answered). -/
def State.respond (s : State) (p : Packet) (st : Nat) (data : List Byte) : State :=
  if p.rsp then s else s.emit (.packet (Packet.reply p st data false))
/-- A response arrives: its tag is free again. -/
def State.useOf (s : State) (tag : Nat) : Option TagUse := mapGet (fun _ => none) tag s.fab.tags
def State.freeTag (s : State) (tag : Nat) : State :=
  { s with fab := { s.fab with tags := mapSet (fun _ => none) tag none s.fab.tags } }

/-- A pull stops and the granule stays at its source, whose holder is told: marked POISON and sent to mend where the source returned
poisoned (R259), as it was where the frame here no longer answers. -/
def State.pullFails (s : State) (k : Nat) (bad : Bool) : State :=
  match s.lookup k, s.moveOf k with
  | some (a, e), some m =>
    let e' := setBits e 48 4 ((if m.host then kHost else kPeer) + (if bad then 8 else 0))
    let s := (s.setLed a e').dropMove k
    let s := if m.host then s else s.tellHolder (leDev e) k (setBits e 48 3 kLocal)
    let s := m.writes.foldl (fun s w => s.writeAt (s.whereIs k) (keyOa k + w.off) w.data w.bad) s
    if bad then s.startMend k e' else s
  | _, _ => s

/-- A chunk of a fetch arrives; the last one ends it. -/
def State.fetchArrive (s : State) (k c : Nat) (ok : Bool) (data : List Byte) : State :=
  match s.plc.fetches.find? (fun f => f.key == k) with
  | none => s
  | some f =>
    let drop (s : State) : State := { s with plc := { s.plc with fetches := s.plc.fetches.filter (fun x => x.key != k) } }
    if !ok then
      let s := drop (s.freeFrame f.frame)
      if f.pull then s.pullFails k true else s
    else if !s.served (frameAddr f.frame + 512 * c) 512 then
      -- the frame does not answer: the write ends, and the fetch with it
      let s := drop (s.memWrite (frameAddr f.frame + 512 * c) data false)
      if f.pull then s.pullFails k false else s
    else
      let s := s.memWrite (frameAddr f.frame + 512 * c) data false
      let f' := { f with got := setInsert c f.got }
      if f'.got.length < 128 then
        { s with plc := { s.plc with fetches := s.plc.fetches.map (fun x => if x.key = k then f' else x) } }
      else if f.pull then
        let s := drop s
        { s with plc := { s.plc with moves := s.plc.moves.map (fun m => if m.key = k then { m with done := true } else m) } }
      else
        let s := drop s
        let v := s.serverOf (keyObj k / 4096)
        match s.putLed k (leMake k kRcopy false f.pin f.cls s.devId f.frame) with
        | some t => t.send (ledPkt v opReplAdd (keyOa k) 0 []) .other
        | none => ((s.freeFrame f.frame).raise PLC_EVENT PLC_EVENT_LEDGER_FULL).resolveEnd (keyOa k)

/-! ### resolution -/

/-- An uncorrectable error in the ledger cache's entry of a key (R293): a clean entry is reread from its bucket, a changed one
has lost placement state (R267). -/
def State.ledcErr (s : State) (k : Nat) (ue : Bool) : State :=
  match (s.ledcWays k).find? (fun e => e.1 == k) with
  | none => s
  | some e =>
    let a := match s.lookup k with | some (a, _) => a | none => bucketAddr (bucket1 k)
    if !ue then s
    else if e.2 then
      let s := s.ledcDrop k
      let s := { s with plc := { s.plc with lostKeys := setInsert k s.plc.lostKeys } }
      ((s.fault 4 0x0502 PLC_EVENT ((a % 2 ^ 32 - 0xFFE00000) / 128 * 512 + gchan a)).raise PLC_EVENT PLC_EVENT_LEDGER_UE).raise
        (LD_EVENT (keyLinkDie k)) LD_EVENT_LEDC_UE
    else s.fault 0 0x0405 0 a

/-- OBJECT_RESOLVE: look the address up, place or freshen or ask or forward, then pull (R250, R252, R258, R260). -/
def State.resolve (s : State) (oa : Nat) (write : Bool) (face : Option Nat) : State :=
  let k := oaKey oa
  let s := s.ledcLook k
  let mine := s.serverOf (oaOwner oa) == s.devId
  let r : ObjReq := if write then .write oa [] false else .read oa
  let entry := s.lookup k
  let cls := match entry with | some (_, e) => leClass e | none => 0
  if s.flag PLC_STAT PLC_STAT_EVACUATED then s.resolveEnd oa
  else match s.whereIs k with
    | .here _ =>
      if write && !mine && cls == 1 then s.resolveEnd oa
      else (s.freshen k).pull k face
    | .empty =>
      let s := s.settle k face
      if s.whereIs k = .empty then s.resolveEnd oa else s
    | .away dev =>
      let s := if write then s else s.request (.away dev) r 0
      if mine then s.pull k face
      else if cls = 1 && !write then s.takeReplica k dev (match entry with | some (_, e) => lePin e | none => false)
      else s
    | .hostAt dev off => (if write then s else s.request (.hostAt dev off) r 0).pull k face
    | w => s.request w r 0

def execObjectResolve (oa : Nat) (write : Bool) (face : Option (Fin 1024)) (ue : Bool) (s : State) : Res :=
  done s ((s.ledcErr (oaKey oa) ue).resolve oa write (face.map (fun f => f.val)))

/-- The line a load request brings, cut to the bytes the stream places. -/
def State.loadLine (s : State) (d f x line oa : Nat) (v : List Byte) (ended bad : Bool) : State :=
  match streamSeg (s.sdesc d f x) line with
  | some g => s.streamFill d f x line ((v.drop (oa % 256)).take g.len) ended bad
  | none => s
/-- A request to a holder came to its end: with the line's data, or ended and poisoned (R216, R230). -/
def State.requestDone (s : State) (r : ObjReq) (v : List Byte) (ended bad : Bool) : State :=
  match r with
  | .read _ => s.emit (.memData v (ended || bad))
  | .write _ _ _ => s
  | .unit _ => s
  | .load d f x line oa _ => s.loadLine d f x line oa v ended bad
  | .store d f x line _ _ _ _ => (if ended then s.raise (PF_EVENT d f x) PF_EVENT_ENDED else s).streamAcked d f x line
/-- A request ends under R216. -/
def State.requestFails (s : State) (r : ObjReq) : State := (s.resolveEnd r.oa).requestDone r [] true true
/-- Serve a request here, its granule having come. -/
def State.serveHere (s : State) (r : ObjReq) : State :=
  match r with
  | .write a v bad => s.objWriteFrom a v bad none
  | .store _ _ _ _ a v bad hint => (s.objWriteAs hint none a v bad none).requestDone r [] false false
  | _ => let x := s.objRead (r.oa / 256 * 256) 256; (s.objSeen (r.oa / 256 * 256) 256 none).requestDone r x.1 false x.2
/-- A write without bytes is a resolution only. -/
def ObjReq.bare : ObjReq → Bool
  | .write _ v _ => v.isEmpty
  | _ => false

/-- A STALE reply to a request: the PROXY is dropped and V asked again; the fourth ends the request (R251). -/
def State.staleReply (s : State) (r : ObjReq) (n : Nat) : State :=
  let k := oaKey r.oa
  let s := match s.lookup k with
    | some (a, e) => if leKind e = kProxy then s.setLed a 0 else s
    | none => s
  if 4 ≤ n + 1 then (s.raise PLC_EVENT PLC_EVENT_STALE_LIMIT).requestFails r
  else match s.whereIs k with
    | .here _ => s.serveHere r
    | .empty => s.requestFails r
    | .ended => s.requestFails r
    | w => s.request w r (n + 1)

/-- The mirror has a write (R262), or is gone: the WR that waits is acknowledged once no write of it is left. -/
def State.mirrorDone (s : State) (who : Option Packet) : State :=
  match who with
  | none => s
  | some p =>
    if s.fab.tags.any (fun e => e.2 == some (.mirror (some p)) || e.2 == some (.relay p)) then s
    else s.emit (.packet (Packet.reply p 0 [] false))

def execStaleReply (p : Packet) (s : State) : Res :=
  done s (
    if p.rsp && p.status == 1 then
      let t := s.freeTag p.tag
      match s.useOf p.tag with
      | some (.obj r n) => t.staleReply r n
      | some (.lookup r n) => t.staleReply r n
      | some (.fetch k c) => t.fetchArrive k c false []
      | some (.mirror who) => t.mirrorDone who
      | _ => t
    else s)

/-! ### ageing and eviction -/

/-- Used frames of the pool whose map answers. -/
def State.poolUsed (s : State) : List Nat :=
  s.frames.filter (fun fr => fmUsed (s.fm fr) && !fmNopool (s.fm fr) && s.chanOk (fr / 65536))

/-- The cut age of a round: the largest a with at least `need` evictable frames of age a or more; 0 when none (R256). -/
def cutAge (ages : List Nat) (need : Nat) : Nat :=
  ((List.range 256).filter (fun a => decide (need ≤ (ages.filter (fun x => decide (a ≤ x))).length))).foldl max 0

/-- Carry out the eviction of the round that runs, in ascending frame order until enough frames have gone (R256).  It waits while
32 moves are in flight and goes on as they end. -/
def State.evictRound (s : State) : State :=
  match s.plc.round with
  | none => s
  | some start =>
    if !s.mayEvict then s
    else
      let cut := s.fld PLC_STAT PLC_STAT_CUT
      let r := (s.poolUsed.filter (fun fr => decide (start ≤ fr))).foldl (fun (acc : State × Nat × Option Nat) fr =>
        if acc.2.1 = 0 ∨ acc.2.2.isSome ∨ !acc.1.evictable fr ∨ fmAge (acc.1.fm fr) < cut ∨ acc.1.plc.rebuild.contains (fr / 65536) then acc
        else if 32 ≤ acc.1.movesRun ∧ !fmRcopy (acc.1.fm fr) then (acc.1, acc.2.1, some fr)
        else
          let t := acc.1.moveDown fr
          if t.movesRun = acc.1.movesRun ∧ t.freeFrames = acc.1.freeFrames then (t, acc.2) else (t, acc.2.1 - 1, none))
        (s, s.plc.need, none)
      match r.2.2 with
      | some fr => { r.1 with plc := { r.1.plc with need := r.2.1, round := some fr } }
      | none =>
        let t := (r.1.setFlag PLC_STAT PLC_STAT_EVICTING false).setFld PLC_STAT PLC_STAT_CUT 0
        { t with plc := { t.plc with need := 0, round := none } }

/-- The 1 ms sweep (R255): the round of the last sweep first, then every used frame ages, then a round is planned. -/
def State.sweep (s : State) : State :=
  let s := if s.flag PLC_STAT PLC_STAT_EVICTING then
      ({ s with plc := { s.plc with round := some (s.plc.round.getD 0) } } : State).evictRound else s
  let s := s.poolUsed.foldl (fun s fr =>
    let e := s.fm fr
    if fmAge e = 255 then s else s.setFm fr (e + 1)) s
  if s.engineFree && s.flag PLC_CTRL PLC_CTRL_EVICT_EN && decide (s.freeFrames < s.lowMark) then
    let need := s.highMark - s.freeFrames
    let cut := cutAge ((s.poolUsed.filter s.evictable).map (fun fr => fmAge (s.fm fr))) need
    let s := (s.setFlag PLC_STAT PLC_STAT_EVICTING true).setFld PLC_STAT PLC_STAT_CUT cut
    { s with plc := { s.plc with need := need, round := none } }
  else s

def execAgeSweep (s : State) : Res := done s (if s.flag PLC_STAT PLC_STAT_READY then s.sweep.usePromos .sweep else s)

/-! ### moves -/

/-- Switch a move whose data has arrived; the eviction round and the evacuation that waited for it go on. -/
def State.switchMove (s : State) (m : Move) : State := (s.switchEntry m).evictRound.evacPump

def execMoveSwitch (s : State) : Res :=
  done s (match s.plc.moves.find? (fun m => m.done) with
    | some m => s.switchMove m
    | none => s)

/-- MIG DATA (R282): 512 bytes of a granule land at its destination. -/
def State.migData (s : State) (p : Packet) : State :=
  let a := p.addr + 512 * bits p.args 8 7
  if regionOf p.addr = Region.dram then
    (if !s.served a 512 then
       -- a frame that does not answer takes nothing: its entry is marked, and DONE is answered with ENDED
       (s.memWrite a (p.data.take 512) p.poison).markPoison (oaKey p.ext)
     else if fmKey (s.fm (p.addr / 65536)) = oaKey p.ext ∧ fmUsed (s.fm (p.addr / 65536)) then s.memWrite a (p.data.take 512) p.poison
     else s)
  else if regionOf p.addr = Region.hostWindow then s.memWrite a (p.data.take 512) p.poison
  else s

def execMigData (p : Packet) (s : State) : Res := done s (if p.type = 7 ∧ !p.rsp ∧ p.args % 256 = 0 then s.migData p else s)

/-- The destination of a move is gone: the granule stays where it is, and the writes held for it land there. -/
def State.moveBack (s : State) (k : Nat) : State :=
  match s.moveOf k, s.lookup k with
  | some m, some (a, e) =>
    let s := s.setLed a (setBits e 48 3 (if fmRcopy (s.fm (leAddr e)) then kRcopy else kLocal))
    m.writes.foldl (fun s w => s.objWriteFrom (keyOa k + w.off) w.data w.bad none) (s.dropMove k)
  | _, _ => s

/-- Data of a move did not land here: the place taken for it is given back, and the entry is as it was before. -/
def State.moveRefused (s : State) (k a e at' : Nat) : State :=
  let s := (s.dropHoming k).freeFrame (at' / 65536)
  s.setLed a (if s.serverOf (keyObj k / 4096) = s.devId then setBits e 48 4 kPeer else 0)
/-- MIG DONE: the destination's entry holds the granule from now on and it answers; the answer lets the source switch. -/
def State.migDone (s : State) (p : Packet) : State :=
  if p.rsp then
    match s.useOf p.tag with
    | some (.mig k) =>
      let s := s.freeTag p.tag
      if p.status = 0 then
        { s with plc := { s.plc with moves := s.plc.moves.map (fun m => if m.key = k then { m with done := true } else m) } }
      else s.moveBack k
    | _ => s.freeTag p.tag
  else
    let k := oaKey p.ext
    match s.lookup k with
    | some (a, e) =>
      if leKind e = kMoving ∧ lePoison e then (s.moveRefused k a e p.addr).respond p 2 []
      else if leKind e = kMoving then
        (if regionOf p.addr = Region.hostWindow then
           (s.setHoming k none).setLed a (leSet e kHost s.regionDev ((p.addr - hwBase) / 65536))
         else s.setLed a (leSet e kLocal s.devId (p.addr / 65536))).respond p 0 []
      else s.respond p 0 []
    | none => s.respond p 0 []

def execMigDone (p : Packet) (s : State) : Res :=
  done s (if p.type = 7 ∧ (p.rsp ∨ p.args % 256 = 1) then s.migDone p else s)

/-! ### mends (R264) -/

/-- Layers whose OPT has completed in the step no longer let their working copy be re-made. -/
def State.mayRemake (s : State) (k : Nat) : Bool :=
  match s.layerOfWc k with
  | some b => !s.eng.optDone.contains (lLayerId b)
  | none => false

/-- The bytes a re-made granule gets: those it had, which stand in its retired frame; of a granule that lay elsewhere they are
free. -/
def State.remade (s : State) (k e : Nat) : List Byte :=
  if leKind e = kLocal then getBytes s.mem (frameAddr (leAddr e)) 65536
  else (List.range 65536).map (fun i => Config.remoteByte (keyOa k + i) s.freeN)

/-- Put a mended granule in a fresh frame (R253). -/
def State.mendOk (s : State) (k : Nat) (v : List Byte) : State :=
  match s.lookup k with
  | none => s
  | some (a, e) =>
    match s.pickFrame (s.objRec (keyObj k)) none with
    | none => s.raise PLC_EVENT PLC_EVENT_MEND_FAIL
    | some fr =>
      let s := if leKind e = kPeer then
          (if leDev e = s.devId then s else s.send (ledPkt (leDev e) opFree (keyOa k) 1 []) .other)
        else if leKind e = kHost then s.freeSlot (leAddr e) else s
      let s := s.takeFrame fr k (leClass e) (lePin e) false
      let s := s.memWrite (frameAddr fr) v false
      let s := s.setLed a (leSet (setBits e 51 1 0) kLocal s.devId fr)
      let s := (s.bump PLC_MEND_LO 1).raise PLC_EVENT PLC_EVENT_MEND_OK
      s.fault 0 0x0405 PLC_EVENT (frameAddr fr)

/-- The oldest mend ends: its source answered, or failed and the next row of the table is tried.  A re-made granule has the
bytes that the retired frame lost (R264). -/
def State.mendEnd (s : State) (fetched : Option (List Byte)) : State :=
  match s.plc.mends with
  | [] => s
  | m :: rest =>
    let s := { s with plc := { s.plc with mends := rest } }
    match s.lookup m.key with
    | none => s
    | some (_, e) =>
      if !lePoison e then s
      else match m.srcs with
        | _ :: more =>
          match fetched with
          | some v => s.mendOk m.key v
          | none =>
            let s := s.raise PLC_EVENT PLC_EVENT_MEND_FAIL
            match more with
            | d :: _ =>
              let s := s.send { type := 0, ord := true, src := 0, dst := d, args := 16, addr := keyOa m.key } .other
              { s with plc := { s.plc with mends := s.plc.mends ++ [{ m with srcs := more }] } }
            | [] => if m.remake then { s with plc := { s.plc with mends := s.plc.mends ++ [{ m with srcs := [] }] } } else s
        | [] =>
          if m.remake ∧ s.mayRemake m.key then s.mendOk m.key (s.remade m.key e)
          else s.raise PLC_EVENT PLC_EVENT_MEND_FAIL

def execMendComplete (fetched : Option (List Byte)) (s : State) : Res := done s (s.mendEnd fetched)

/-- FRAME_MAP_REBUILD_DONE (R267): the map of a channel is written from the ledger; eviction there resumes. -/
def State.rebuildMap (s : State) (g : Nat) : State :=
  if !s.plc.rebuild.contains g then s
  else
    let s := s.ledgerAddrs.foldl (fun s a =>
      let e := s.led a
      let fr := leAddr e
      if (leKind e = kLocal ∨ leKind e = kRcopy) ∧ fr / 65536 = g ∧ !fmNopool (s.fm fr) then
        s.setFm fr (fmMake (leKey e) (leClass e) (lePin e) (leKind e == kRcopy))
      else s) s
    { s with plc := { s.plc with rebuild := setErase g s.plc.rebuild } }

def execFrameMapRebuildDone (g : Fin 512) (s : State) : Res := done s (s.rebuildMap g.val)

/-! ### ledger packets -/

/-- The entry V answers with: of a granule that moves, DEV is the device that serves its reads, its source (R259). -/
def State.answerEntry (s : State) (k e : Nat) : Nat :=
  if leKind e ≠ kMoving then e
  else match s.whereIs k with
    | .away dev => setBits e 64 12 dev
    | _ => setBits e 64 12 s.devId
/-- LED lookup at V (R250): an EMPTY granule is placed first; the answer carries the entry, and a granule below tier 0 is then
pulled. -/
def State.ledLookup (s : State) (p : Packet) : State :=
  let k := oaKey p.addr
  let s := s.ledcLook k
  if s.flag PLC_STAT PLC_STAT_EVACUATED then s.respond p 1 []
  else
    let s := s.settle k none
    match s.lookup k with
    | some (_, e) => (s.respond p 0 (leBytes 32 (s.answerEntry k e))).pull k none
    | none => s.respond p 2 []

/-- The holder a lookup answer names: its sender for a granule at tier 0 or in a host region, else DEV. -/
def ledHolder (src e : Nat) : Nat := if leKind e = kPeer ∨ leKind e = kMoving then leDev e else src

/-- A proxy answer at the requester (R250, R260): the PROXY is installed and the request goes to the holder; a replica copy of a WWORK
granule is taken. -/
def State.proxyAnswer (s : State) (p : Packet) : State :=
  match s.useOf p.tag with
  | some (.lookup r n) =>
    let s := s.freeTag p.tag
    let k := oaKey r.oa
    if p.status = 1 then s.staleReply r n
    else if p.status ≠ 0 ∨ p.data.length < 16 then s.requestFails r
    else
      let e := leNat (p.data.take 16)
      let dev := ledHolder p.src e
      if dev = s.devId then s.requestFails r
      else match s.putLed k (leMake k kProxy false (lePin e) (leClass e) dev 0) with
        | none => (s.raise PLC_EVENT PLC_EVENT_LEDGER_FULL).requestFails r
        | some t =>
          let t := if r.bare then t else t.request (.away dev) r n
          if leClass e = 1 ∧ !r.writes then t.takeReplica k dev (lePin e) else t
  | _ => s.freeTag p.tag

/-- Replica add and drop at the owner (R260, R257). -/
def State.replicaAdd (s : State) (k dev : Nat) : State :=
  match s.lookup k with
  | some (a, e) =>
    if !leR0V e then s.setLed a (setBits (setBits e 57 1 1) 104 12 dev)
    else if !leR1V e then s.setLed a (setBits (setBits e 58 1 1) 116 12 dev)
    else s
  | none => s
def State.replicaDrop (s : State) (k dev : Nat) : State :=
  match s.lookup k with
  | some (a, e) =>
    if leR0V e && leRepl0 e == dev then s.setLed a (setBits (setBits e 57 1 0) 104 12 0)
    else if leR1V e && leRepl1 e == dev then s.setLed a (setBits (setBits e 58 1 0) 116 12 0)
    else s
  | none => s

/-- A poison notice at the owner (R263), which starts the mend; EXT 1 says that a write of the whole granule has cleared it (R264). -/
def State.poisonNotice (s : State) (k ext : Nat) : State :=
  if ext = 1 then s.clearPoison k
  else match s.lookup k with
    | some (a, e) =>
      if lePoison e then s
      else ((s.setLed a (e + 2 ^ 51)).raise PLC_EVENT PLC_EVENT_POISON).startMend k (e + 2 ^ 51)
    | none => s

/-- A frame here for a granule of another owner, while free frames exceed the HIGH mark (R252); the device that is emptied takes
none. -/
def State.spillFrame (s : State) (r : Nat) : Option Nat :=
  if s.highMark < s.freeFrames ∧ s.unevacuated then s.pickFrame r none else none

/-- A granule of this owner comes home (R257), or leaves a device that is emptied (R265): tier 0 above the HIGH mark, tier 2 when
TIERMAX is 2, and of an evacuation another spill peer.  A mirror copy goes to the next spill peer. -/
def State.comeHome (s : State) (p : Packet) (k a e : Nat) : State :=
  let why := bits p.ext 0 2
  let r := s.objRec (keyObj k)
  let others := s.spillPeers.filter (fun d => d != p.src)
  if why = 1 then
    match s.askSpill (spillExt 1 (leClass e) (lePin e) 0) others k with
    | (some (d, x), s) =>
      ((s.setLed a (setBits e 104 12 d)).tellMirror k).respond p 0 (leBytes 32 (leSet e kRcopy d (x / 65536)))
    | (none, s) => s.respond p 4 []
  else match s.spillFrame r with
    | some fr =>
      -- its entry is MOVING until MIG DONE
      let s := (s.takeFrame fr k (leClass e) (lePin e) false).setLed a (setBits e 48 3 kMoving)
      s.respond p 0 (leBytes 32 (leSet e kLocal s.devId fr))
    | none =>
      match (if orTmax r = 2 then s.regionRoom else none) with
      | some (rg, i) =>
        let h := s.regionBase rg / 65536 + i
        (((s.takeSlot rg i).setHoming k (some h)).setLed a (setBits e 48 3 kMoving)).respond p 0 (leBytes 32 (leSet e kHost s.regionDev h))
      | none =>
        if why = 3 ∧ 1 ≤ orTmax r then
          match s.askSpill (spillExt 2 (leClass e) (lePin e) r) others k with
          | (some (d, x), s) =>
            let e' := leSet e kPeer d (x / 65536)
            (s.setLed a e').respond p 0 (leBytes 32 e')
          | (none, s) => s.respond p 4 []
        else s.respond p 4 []

/-- Place and spill for another owner (R252, R257, R262): a frame here; the successor of an evacuation also asks its spill peers and
its regions (R265).  The answer carries the entry the granule gets. -/
def State.takeSpill (s : State) (p : Packet) (k : Nat) : State :=
  let why := bits p.ext 0 2
  let cls := bits p.ext 2 4
  let r := extRec p.ext
  let pin := bit p.ext 6
  match s.spillFrame r with
  | some fr =>
    let kind := if why = 1 then kRcopy else if why = 0 then kLocal else kMoving
    let e := leMake k kind false pin cls s.devId fr
    -- a replica copy of the granule makes way for it
    let s := match s.lookup k with
      | some (_, o) => if leKind o = kRcopy ∧ leAddr o ≠ fr then s.freeFrame (leAddr o) else s
      | none => s
    match s.putLed k e with
    | some t => ((t.takeFrame fr k cls (pin || why == 1) (why == 1)).zeroRange (frameAddr fr) 65536).respond p 0 (leBytes 32 e)
    | none => (s.raise PLC_EVENT PLC_EVENT_LEDGER_FULL).respond p 4 []
  | none =>
    if why ≠ 3 ∨ !s.unevacuated then s.respond p 4 []
    else
      let (ans, s) := if 1 ≤ orTmax r then s.askSpill (spillExt 2 cls pin r) (s.spillPeers.filter (fun d => d != p.src)) k else (none, s)
      match ans with
      | some (d, x) => s.respond p 0 (leBytes 32 (leMake k kPeer false pin cls d (x / 65536)))
      | none =>
        match (if orTmax r = 2 then s.regionRoom else none) with
        | some (rg, i) =>
          (s.takeSlot rg i).respond p 0 (leBytes 32 (leMake k kHost false pin cls s.regionDev (s.regionBase rg / 65536 + i)))
        | none => s.respond p 4 []

/-- Place and spill at the peer or the owner. -/
def State.placeSpill (s : State) (p : Packet) : State :=
  let k := oaKey p.addr
  if s.serverOf (keyObj k / 4096) ≠ s.devId then s.takeSpill p k
  else match s.lookup k with
    | some (a, e) => s.comeHome p k a e
    -- objects that another tray has served come back to their owner (R266)
    | none => if bits p.ext 0 2 = 3 then s.takeSpill p k else s.respond p 4 []

/-- A free notice at a holder (R243): EXT 1 names one granule, EXT 0 the whole object.  Writes held for a granule that its owner has
pulled go after it (R259). -/
def State.freeNotice (s : State) (p : Packet) : State :=
  let hit (a : Nat) : Bool :=
    leKind (s.led a) != kEmpty &&
    (if p.ext = 1 then leKey (s.led a) == oaKey p.addr else leObj (s.led a) == oaObj p.addr)
  let t := (s.ledgerAddrs.filter hit).foldl (fun s a =>
    let e := s.led a
    let k := leKey e
    let held := (s.plc.moves.filter (fun m => m.key == k && m.why == .pulled))
    let s := if leKind e = kLocal ∨ leKind e = kRcopy then s.freeFrame (leAddr e)
      else if leKind e = kMoving then (s.dropFlight k).freeKeyFrames k else s
    (held.foldl (fun s m => m.writes.foldl (fun s w => s.landWrite m none w) s) s).setLed a 0) s
  t.respond p 0 []

/-- The owner of a granule held here pulls it, or has given the pull up, or has a mirror of it: the entry takes KIND, R0V and REPL0 of
the one sent; while it is MOVING its writes are held (R259, R262). -/
def State.holderEntry (s : State) (p : Packet) : State :=
  let k := oaKey p.addr
  let x := leNat (p.data.take 16)
  match s.lookup k with
  | none => s
  | some (a, e) =>
    if leKind e ≠ kLocal ∧ leKind e ≠ kMoving then s
    else
      let s := s.setLed a (setBits (setBits (setBits e 48 3 (leKind x)) 57 1 (b2n (leR0V x))) 104 12 (leRepl0 x))
      match s.moveOf k with
      | none =>
        if leKind x = kMoving then s.addMove ⟨k, .pulled, some (frameAddr (leAddr e)), p.src, 0, false, false, []⟩ else s
      | some m =>
        if leKind x = kLocal ∧ m.why = .pulled then
          m.writes.foldl (fun s w => s.objWriteFrom (keyOa k + w.off) w.data w.bad none) (s.dropMove k)
        else s

/-- An object record or owner entry arrives at the successor (R265), which sets its own alias for the owner; or an owner tells a
holder of a change (EXT 2). -/
def State.entryTransfer (s : State) (p : Packet) : State :=
  let owner := oaOwner p.addr
  if p.ext = 2 then (s.holderEntry p).respond p 0 []
  else
    let s := if s.serverOf owner = s.devId then s
      else match (List.range 16).find? (fun i => !s.flag (PLC_ALIAS i) PLC_ALIAS_V) with
        | some i => s.setReg (PLC_ALIAS i) (owner + s.devId * 2 ^ 12 + 2 ^ 24)
        | none => s
    if p.ext = 0 then
      let r := leNat (p.data.take 32)
      let t := if owner = s.devId then s.tablePut (objRecAddr (oaObj p.addr % 4096)) 32 r
        else { s with plc := { s.plc with adopted := mapSet (fun _ => 0) (oaObj p.addr) r s.plc.adopted } }
      t.respond p 0 []
    else
      let e := leNat (p.data.take 16)
      if leKind e = kPeer ∧ leDev e = s.devId ∧ !lePoison e then
        -- the granule lies here already: its entry takes the copies of the owner's
        (match s.lookup (oaKey p.addr) with
         | some (a, x) => s.setLed a (setBits (setBits x 57 2 (bits e 57 2)) 104 24 (bits e 104 24))
         | none => s).respond p 0 []
      else match s.putLed (oaKey p.addr) e with
        | none => ((s.raise PLC_EVENT PLC_EVENT_LEDGER_FULL).resolveEnd p.addr).respond p 2 []
        | some t => (if lePoison e then t.startMend (oaKey p.addr) e else t).respond p 0 []

/-- A LED request of an operation code, or any LED response of the requester. -/
def isLed (p : Packet) (op : Nat) : Bool := p.type == 6 && !p.rsp && p.args % 256 == op

def execLedLookup (p : Packet) (ue : Bool) (s : State) : Res :=
  done s (if isLed p opLookup then (s.ledcErr (oaKey p.addr) ue).ledLookup p else s)
def execLedProxyAnswer (p : Packet) (s : State) : Res :=
  done s (if p.type = 6 ∧ p.rsp then s.proxyAnswer p else s)
def execLedReplicaAdd (p : Packet) (s : State) : Res :=
  done s (if isLed p opReplAdd then (s.replicaAdd (oaKey p.addr) p.src).respond p 0 []
    else if p.type = 6 ∧ p.rsp then s.freeTag p.tag else s)
def execLedReplicaDrop (p : Packet) (s : State) : Res :=
  done s (if isLed p opReplDrop then (s.replicaDrop (oaKey p.addr) p.src).respond p 0 []
    else if p.type = 6 ∧ p.rsp then s.freeTag p.tag else s)
def execLedPoisonNotice (p : Packet) (s : State) : Res :=
  done s (if isLed p opPoison then (s.poisonNotice (oaKey p.addr) p.ext).respond p 0 []
    else if p.type = 6 ∧ p.rsp then s.freeTag p.tag else s)
def execLedPlaceSpill (p : Packet) (s : State) : Res :=
  done s (if isLed p opSpill then s.placeSpill p else if p.type = 6 ∧ p.rsp then s.freeTag p.tag else s)
def execLedFreeNotice (p : Packet) (s : State) : Res :=
  done s (if isLed p opFree then s.freeNotice p else if p.type = 6 ∧ p.rsp then s.freeTag p.tag else s)
def execLedEntryTransfer (p : Packet) (s : State) : Res :=
  done s (if isLed p opTransfer then s.entryTransfer p else if p.type = 6 ∧ p.rsp then s.freeTag p.tag else s)

end Sys2Proof.Machine
end

