-- ==== Sys2Proof/Machine/Crc.lean ====
section
/-! DEFINITION. Check words: CRC-32 (R462), CRC-64 of a hallmark (R422) and CRC-16 of a link check (R274). -/

namespace Sys2Proof.Machine

/-- One reflected CRC step over `k` bits. -/
def crcStepR (poly : Nat) : Nat → Nat → Nat
  | 0, c => c
  | k + 1, c => crcStepR poly k (if c % 2 = 1 then (c / 2) ^^^ poly else c / 2)

/-- Reflected CRC register over bytes. -/
def crcR (poly : Nat) : List Byte → Nat → Nat
  | [], c => c
  | b :: l, c => crcR poly l (crcStepR poly 8 (c ^^^ b.toNat))

/-- CRC-32 of R462. -/
def crc32 (l : List Byte) : Nat := crcR 0xEDB88320 l 0xFFFFFFFF ^^^ 0xFFFFFFFF

/-- One step, most significant bit first, of a `w`-bit CRC over `k` bits. -/
def crcStepF (w poly : Nat) : Nat → Nat → Nat
  | 0, c => c
  | k + 1, c => crcStepF w poly k (if 2 ^ (w - 1) ≤ c then ((2 * c) % 2 ^ w) ^^^ poly else 2 * c)

/-- CRC register over bytes, each byte most significant bit first. -/
def crcF (w poly : Nat) : List Byte → Nat → Nat
  | [], c => c
  | b :: l, c => crcF w poly l (crcStepF w poly 8 (c ^^^ b.toNat * 2 ^ (w - 8)))

end Sys2Proof.Machine
end

