-- ==== Sys2Proof/Machine/Host.lean ====
section
/-! DEFINITION. The PCIe endpoint (R355 to R363), host-window reads (R358, R362), mailboxes (R377 to R385) and doorbells
(R386). -/

namespace Sys2Proof.Machine

/-! ### requests to host memory -/

/-- The next tag that no request in flight has: of 16,384, with at most 4,096 in flight (R355). -/
def State.freshTag (s : State) : Nat :=
  (((List.range (s.hif.reqs.length + 1)).map (fun i => (s.hif.nextTag + i) % 16384)).find? (fun t =>
    !s.hif.reqs.any (fun r => r.tag == t))).getD s.hif.nextTag
/-- Put a read on the link. -/
def State.sendReq (s : State) (r : HostReq) : State :=
  let t := s.freshTag
  let s := s.emit (.hostRead t (s.hostAddr r.off) r.len)
  { s with hif := { s.hif with reqs := s.hif.reqs ++ [{ r with tag := t }], nextTag := (t + 1) % 16384 } }
/-- Answer the member whose read has ended (R216). -/
def State.reqDenied (s : State) (p : Packet) : State := s.emit (.packet (Packet.reply p 2 (Packet.blank p) true))
/-- Read host memory for a packet of a member (R362): at most 4,096 reads are in flight (R355); without a host path it ends. -/
def State.hostReq (s : State) (off len : Nat) (p : Packet) : State :=
  if !s.canHost then (s.ended (hwBase + off) 4).reqDenied p
  else if s.hif.reqs.length < 4096 then s.sendReq ⟨0, off, len, p⟩
  else { s with hif := { s.hif with reqQ := s.hif.reqQ ++ [⟨0, off, len, p⟩] } }

/-- Take a request out of those in flight; one that waits is sent. -/
def State.dropReq (s : State) (tag : Nat) : State :=
  let s : State := { s with hif := { s.hif with reqs := s.hif.reqs.filter (fun r => r.tag != tag) } }
  match s.hif.reqQ with
  | r :: rest =>
    if s.hif.reqs.length < 4096 then ({ s with hif := { s.hif with reqQ := rest } } : State).sendReq r else s
  | [] => s

/-- A request ends with error: the member gets STATUS ENDED (R358, R216). -/
def State.reqEnds (s : State) (r : HostReq) : State := ((s.dropReq r.tag).ended (hwBase + r.off) 4).reqDenied r.asker

/-- A completion arrives (R358): its bytes become what the window shows. -/
def State.hostCpl (s : State) (r : HostReq) (st : CplStatus) (v : List Byte) : State :=
  match st with
  | .ok | .poisoned =>
    let bad := st == .poisoned
    let d := v.take r.len
    let s := (s.dropReq r.tag).bump HIF_RD_BYTES_LO d.length
    let s := s.memPut (hwBase + r.off) d bad
    let s := if bad then s.raise HIF_EVENT HIF_EVENT_POISON_RX else s
    s.emit (.packet (Packet.reply r.asker 0 d bad))
  | .unsupported | .abort => (s.raise HIF_EVENT HIF_EVENT_CPL_ERR).reqEnds r
/-- How the reads of a page by the device's own units end from now on; with OK the bytes are what the host's memory then holds. -/
def State.pageCpl (s : State) (o : Nat) (e : Option HostEnd) (v : List Byte) : State :=
  let s : State := { s with hif := { s.hif with pages := mapSet (fun _ => none) (o / 4096) e s.hif.pages } }
  if e.isNone then s.memPut (hwBase + o / 4096 * 4096) (v.take 4096) false else s
/-- The end that a completion status stands for. -/
def CplStatus.hostEnd : CplStatus → Option HostEnd
  | .ok => none
  | .poisoned => some .poisoned
  | .unsupported => some .unsupported
  | .abort => some .abort

def execPcieCompletion (tag : CplFor) (st : CplStatus) (v : List Byte) (s : State) : Res :=
  done s (match tag with
    | .page o => s.pageCpl (o % 2 ^ 44) (CplStatus.hostEnd st) v
    | .tag t => match s.hif.reqs.find? (fun r => r.tag == t) with
      | some r => s.hostCpl r st v
      | none => s)

def execPcieCompletionTimeout (tag : CplFor) (s : State) : Res :=
  done s (match tag with
    | .page o => s.pageCpl (o % 2 ^ 44) (some .timeout) []
    | .tag t => match s.hif.reqs.find? (fun r => r.tag == t) with
      | some r => (s.raise HIF_EVENT HIF_EVENT_CPL_TIMEOUT).reqEnds r
      | none => s)

/-! ### the link -/

/-- Vectors whose pending bit is set and whose mask is clear. -/
def State.pbaReady (s : State) : List Nat :=
  (List.range 512).filter (fun v => bit (s.reg (MSIX_PBA (v / 32))) (v % 32) && !s.flag (MSIX_CTRL v) MSIX_CTRL_MASK)
/-- Send the pending vectors that are unmasked once the link carries messages (standard MSI-X, R387). -/
def State.drainPba (s : State) : State :=
  if s.linkUp then s.pbaReady.foldl (fun s v =>
    (s.setReg (MSIX_PBA (v / 32)) (s.reg (MSIX_PBA (v / 32)) - 2 ^ (v % 32))).emit (.msix v)) s
  else s


/-- The link trains (R355): widths 4, 8 and 16 and the three rates only; without Flit mode it does not reach L0 (R356). A MEMBER does not train its
link (R5), nor does a link in reset or before stage PCIE (R391). -/
def State.pcieUp (s : State) (width rate : Nat) (l0p flit : Bool) : State :=
  if s.isMember || s.boot.perst || !s.pcieOn || s.flag HIF_STAT HIF_STAT_LINK_UP || !(width == 4 || width == 8 || width == 16) ||
     decide (3 ≤ rate) then s
  else if !flit then s.raise HIF_EVENT HIF_EVENT_NOFLIT
  else
    let s := (s.setFld HIF_STAT HIF_STAT_WIDTH width).setFld HIF_STAT HIF_STAT_RATE rate
    let s := (s.setFlag HIF_STAT HIF_STAT_LINK_UP true).setFlag HIF_STAT HIF_STAT_FLIT true
    (s.setFlag HIF_STAT HIF_STAT_L0P l0p).setHostPath.drainPba

def execPcieLinkUp (width rate : Nat) (l0p flit : Bool) (s : State) : Res := done s (s.pcieUp width rate l0p flit)

/-- The Foreman retries training after 100 ms (R356): HIF_EVENT.NOFLIT was set, and the link is still down. -/
def execPcieNoflitRetry (s : State) : Res :=
  done s (if s.isMember || s.boot.perst || !s.pcieOn || s.flag HIF_STAT HIF_STAT_LINK_UP then s else s.emit (.pin "PCIE_TRAIN" true))

/-- End every host-window request in flight (R362). -/
def State.endAllReqs (s : State) : State :=
  let waiting := s.hif.reqQ
  let s : State := { s with hif := { s.hif with reqQ := [] } }
  waiting.foldl (fun s r => (s.ended (hwBase + r.off) 4).reqDenied r.asker) (s.hif.reqs.foldl (fun s r => s.reqEnds r) s)

/-- The link leaves L0 (HIF_EVENT.LINK_DOWN). -/
def State.pcieDown (s : State) : State :=
  if !s.flag HIF_STAT HIF_STAT_LINK_UP then s
  else
    let s := s.setReg HIF_STAT (setBits (s.reg HIF_STAT) 0 12 0)
    let s := s.setHostPath
    (s.raise HIF_EVENT HIF_EVENT_LINK_DOWN).endAllReqs

def execPcieLinkDown (s : State) : Res := done s s.pcieDown

/-- D3hot (R357): requests of the device end, and the device keeps its state; a step that has not yet arrived on channel 15 will not
commit. -/
def State.enterD3 (s : State) : State :=
  if !s.flag HIF_STAT HIF_STAT_LINK_UP || s.flag HIF_STAT HIF_STAT_D3HOT then s
  else
    let s := (s.setFlag HIF_STAT HIF_STAT_D3HOT true).setHostPath.endAllReqs
    if s.running && !(s.chan 15).closed then s.setFlag STEP_STAT STEP_STAT_FIN false else s

def execD3hotEntry (s : State) : Res := done s s.enterD3

/-- Return to D0. -/
def execD0Return (s : State) : Res :=
  done s (if s.flag HIF_STAT HIF_STAT_D3HOT then (s.setFlag HIF_STAT HIF_STAT_D3HOT false).setHostPath.drainPba else s)

/-! ### BAR2 (R361) -/

/-- The function answers accesses of the host: link up, in D0 (R357), and through IDE when it is required (R412). -/
def State.barOpen (s : State) (ide : Bool) : Bool :=
  s.linkUp && (!s.boot.ideReq || (ide && s.flag HIF_STAT HIF_STAT_IDE))

/-- Size of BAR2 and the local address of an offset. -/
def State.bar2Size (s : State) : Nat := 2 ^ (34 + s.fld HIF_STAT HIF_STAT_BAR2_SIZE)
def State.bar2Addr (s : State) (off : Nat) : Nat :=
  s.fld HIF_WIN_BASE HIF_WIN_BASE_ADDR * 2 ^ 34 / s.bar2Size * s.bar2Size + off

/-- Where the whole of a BAR2 access lands. -/
def State.bar2Region (s : State) (off n : Nat) : Option Region :=
  let a := s.bar2Addr off
  if n = 0 ∨ s.bar2Size < off + n ∨ regionOf a ≠ regionOf (a + n - 1) then none
  else match regionOf a with
    | .dram => some .dram
    | .faceStore => some .faceStore
    | _ => none

/-- A host read of BAR2. -/
def State.bar2Rd (s : State) (off n : Nat) (ide : Bool) : State :=
  let a := s.bar2Addr off
  if !s.linkUp && !s.flag HIF_STAT HIF_STAT_D3HOT then s
  else if !s.barOpen ide then s.emit .cplUR
  else match s.bar2Region off n with
    | none => (s.raise HIF_EVENT HIF_EVENT_BAR2_BAD).emit .cplUR
    | some .dram =>
      if !s.served a n then (s.ended a 1).emit (.cplPoisoned (s.memRead a n).1)
      else if s.mustWait a n then s
      else
        let r := s.localGet 0 a n
        r.2.emit (if r.1.2 then .cplPoisoned r.1.1 else .cpl r.1.1)
    | some _ =>
      let r := s.memRead a n
      s.emit (if r.2 then .cplPoisoned r.1 else .cpl r.1)

def execBar2Read (off n : Nat) (ide : Bool) (s : State) : Res := done s (s.bar2Rd off n ide)

/-- A host write of BAR2; a poisoned one is stored poisoned (R358). -/
def State.bar2Wr (s : State) (off : Nat) (v : List Byte) (poison ide : Bool) : State :=
  let a := s.bar2Addr off
  if !s.barOpen ide then s
  else match s.bar2Region off v.length with
    | none => s.raise HIF_EVENT HIF_EVENT_BAR2_BAD
    | some .dram =>
      if !s.served a v.length then s.ended a 1
      else if s.mustWait a v.length then s
      else
        let s := if poison then s.raise HIF_EVENT HIF_EVENT_POISON_RX else s
        (linePieces a v.length).foldl (fun s p => s.dcStore 0 p.1 ((v.drop (p.1 - a)).take p.2) poison .none) s
    | some _ =>
      let s := if poison then s.raise HIF_EVENT HIF_EVENT_POISON_RX else s
      s.memWrite a v poison

def execBar2Write (off : Nat) (v : List Byte) (poison ide : Bool) (s : State) : Res := done s (s.bar2Wr off v poison ide)

/-! ### the peer register window (R363) -/

/-- Send one half of a peer access and remember it. -/
def State.peerSend (s : State) (dev off : Nat) (v : Option (List Byte)) (last : Bool) : State :=
  let t := s.fab.nextTag
  let a := dev * 2 ^ 48 + regBase + off
  let s := match v with
    | none => s.send { type := 0, ord := true, ak := true, src := 0, dst := dev, args := 1, addr := a } .peer
    | some b => s.send (wrPkt dev a true b false 0) .peer
  { s with hif := { s.hif with peer := s.hif.peer ++ [⟨t, v.isNone, off, last, []⟩] } }

/-- An access of the host to the peer window: 32 bits, or 64 bits as two in address order (R367). -/
def State.peerAccess (s : State) (off n : Nat) (v : Option (List Byte)) : State :=
  let refuse (s : State) (o : Output) : State := if v.isNone then s.emit o else s
  let dev := s.fld HIF_PEER_SEL HIF_PEER_SEL_DEV
  if !s.linkUp && !s.flag HIF_STAT HIF_STAT_D3HOT then s
  else if !s.linkUp then refuse s .cplUR
  else if !(n == 4 || n == 8) || off % n != 0 || (match v with | some b => b.length != n | none => false) then
    refuse (s.raise HIF_EVENT HIF_EVENT_SIZE) .cplUR
  else if !s.isAnchor || !s.flag HIF_PEER_SEL HIF_PEER_SEL_V || !s.flag HIF_CTRL HIF_CTRL_PEER_EN || 0x4000000 ≤ off then
    refuse s .cplUR
  else if !s.inGeom dev then
    refuse (s.raise HIF_EVENT HIF_EVENT_PEER_FAIL) .cplCA
  else if n = 4 then s.peerSend dev off v true
  else (s.peerSend dev off (v.map (fun b => b.take 4)) false).peerSend dev (off + 4) (v.map (fun b => b.drop 4)) true

def execPeerWindowAccess (off n : Nat) (v : Option (List Byte)) (s : State) : Res := done s (s.peerAccess off n v)

/-- The answer to a peer access arrives (R363): a STATUS other than OK completes with Completer Abort and sets PEER_FAIL. -/
def State.peerAnswer (s : State) (tag status : Nat) (data : List Byte) (poison : Bool) : State :=
  match s.hif.peer.find? (fun e => e.tag == tag) with
  | none => s
  | some e =>
    let s := { s with hif := { s.hif with peer := s.hif.peer.filter (fun x => x.tag != tag) } }
    if status ≠ 0 then
      -- a 64-bit access ends with its first failing half
      let s := if e.last then s
        else { s with hif := { s.hif with peer := s.hif.peer.filter (fun x => x.tag != (tag + 1) % 65536) } }
      let s := s.raise HIF_EVENT HIF_EVENT_PEER_FAIL
      if e.read then s.emit .cplCA else s
    else if !e.read then s
    else
      let got := e.got ++ data.take 4
      if e.last then s.emit (if poison then .cplPoisoned got else .cpl got)
      else
        let l := s.hif.peer.map (fun x => if x.tag = (tag + 1) % 65536 then { x with got := got } else x)
        { s with hif := { s.hif with peer := l } }

/-! ### mailboxes toward the Foreman -/

/-- A host write of H2F_DATA_m (R378, R382). -/
def State.h2fPut (s : State) (m v : Nat) : State :=
  let full := s.flag (H2F_STAT m) H2F_STAT_FULL
  let s := (s.setReg (H2F_DATA m) v).h2fFull m true
  let s := s.setFlag (H2F_STAT m) H2F_STAT_TIMING true
  if full then (s.setFlag (H2F_STAT m) H2F_STAT_COLLIDE true).raise MBX_EVENT MBX_EVENT_COLLIDE else s

/-- A host read of F2H_DATA_m pops it (R378): the word returned, and the state. -/
def State.f2hPop (s : State) (m : Nat) : Nat × State :=
  if !s.flag (F2H_STAT m) F2H_STAT_FULL then (0xFFFFFFFF, s)
  else
    let w := s.reg (F2H_DATA m)
    match mapGet (fun _ => []) m s.hif.f2hQ with
    | [] => (w, (s.setReg (F2H_DATA m) 0xFFFFFFFF).f2hFull m false)
    | x :: q =>
      let s := { s with hif := { s.hif with f2hQ := mapSet (fun _ => []) m q s.hif.f2hQ } }
      (w, (s.setReg (F2H_DATA m) x).setFld (F2H_STAT m) F2H_STAT_QUEUED q.length)

/-- The 1 ms timer of mailbox m expires (R382): a TIMEOUT answer with the command's FWD and DEV, a CORRECTED fault that names
the mailbox, and the Foreman's next answer will be late. -/
def State.mboxTimeout (s : State) (m : Nat) : State :=
  let w := s.reg (H2F_DATA m)
  let s := s.setFlag (H2F_STAT m) H2F_STAT_TIMING false
  let s := s.f2hPut m (stTimeout + w / 256 % 8192 * 256)
  let s := (s.raise MBX_EVENT MBX_EVENT_TIMEOUT).fault 0 0x0403 0 m
  { s with hif := { s.hif with late := setInsert m s.hif.late } }

/-- The same for the die mailbox of die d (R385). -/
def State.dieTimeout (s : State) (d : Nat) : State :=
  let w := s.reg (H2D_DATA d)
  let s := s.setFlag (H2D_STAT d) H2D_STAT_TIMING false
  let s := s.d2hPut d (stTimeout + w / 256 % 8192 * 256)
  let s := (s.raise MBX_EVENT MBX_EVENT_TIMEOUT).fault 0 0x0403 0 (16 + d)
  { s with hif := { s.hif with late := setInsert (16 + d) s.hif.late } }

/-- The host's STEP_STOP waits for its boundary and has not been answered RUNNING (R25, R382). -/
def State.stopWaits (s : State) : Bool :=
  !s.flag (H2F_STAT 0) H2F_STAT_FULL && !s.eng.stopTold && (match s.eng.stop with | some (.own _) => true | _ => false)
/-- RUNNING of a STEP_STOP that waits longer than 1 ms; the timer may have stopped at the answer of a later word. -/
def State.stopTell (s : State) : State :=
  ({ s with eng := { s.eng with stopTold := true } } : State).f2hPush 0 (ansWord stRunning 0)

/-- A CFG_SET of the host waits for a compaction or a configuration read (R405). -/
def State.setWaits (s : State) : Bool :=
  !s.flag (H2F_STAT 2) H2F_STAT_FULL && s.boot.held.any (fun a => match a.src with | .own _ => true | _ => false)

/-- The held CFG_SETs of the host have been answered RUNNING. -/
def State.setTell (s : State) : State :=
  let tell (a : Append) : Append := match a.src with | .own _ => { a with told := true } | _ => a
  { s with boot := { s.boot with held := s.boot.held.map tell } }

/-- The timer of a mailbox runs out: a command that has been taken and takes longer is answered RUNNING, else TIMEOUT (R382). -/
def State.mboxExpire (s : State) (m : Nat) : State :=
  if m = 0 && s.stopWaits then s.stopTell
  else if m < 16 then
    (if !s.flag (H2F_STAT m) H2F_STAT_TIMING then s
     else if m = 2 && s.setWaits then s.setTell.f2hPush 2 (ansWord stRunning 0)
     else s.mboxTimeout m)
  else
    let d := m - 16
    if !s.flag (H2D_STAT d) H2D_STAT_TIMING then s
    else if !s.flag (H2D_STAT d) H2D_STAT_FULL && !(s.dieCmds d).isEmpty then s.d2hPush d (ansWord stRunning 0)
    else s.dieTimeout d

def execMailboxTimeout (m : Fin 32) (s : State) : Res := done s (s.mboxExpire m.val)

/-- PING, and the mailbox layer's answer to a code that mailbox m does not know (R379, R383). -/
def State.pingCmd (s : State) (m : Nat) : State :=
  match s.cmdAt m with
  | none => s
  | some src =>
    let own := match src with | .own _ => true | _ => false
    if own && wFwd src.word then s
    else if m = 15 ∧ wCode src.word = 0xF0 then
      let t := s.takeCmd m src
      t.answer m src (ansWord stAccepted
        (t.fld PKG_ROLE PKG_ROLE_ROLE + 4 * b2n t.running + 8 * b2n (t.flag STEP_STAT STEP_STAT_HOLD)))
    else if knownCode m (wCode src.word) then s
    else if m = 0 ∧ s.eng.stop.isSome then (s.takeCmd m src).stopWord src []
    else (s.takeCmd m src).answer m src (ansWord stBadCmd 0)

def execPing (m : Fin 16) (s : State) : Res := done s (s.pingCmd m.val)

/-! ### forwarding (R384) -/

/-- The Foreman takes a word with FWD = 1; while a STEP_STOP waits, one of mailbox 0 is kept behind it (R25). -/
def State.forward (s : State) (m : Nat) : State :=
  match s.cmdAt m with
  | some (.own w) =>
    if !wFwd w then s
    else
      let t := s.takeCmd m (.own w)
      if m = 0 ∧ s.eng.stop.isSome then t.stopWord (.own w) [] else t.forwardWord m w
  | _ => s

def execMailboxForward (m : Fin 16) (s : State) : Res := done s (s.forward m.val)

/-- Remove the first occurrence. -/
def eraseFirst (x : Nat × Nat) : List (Nat × Nat) → List (Nat × Nat)
  | [] => []
  | y :: l => if x = y then l else y :: eraseFirst x l

/-- The final answer of a forwarded command reaches the host; UNREACHABLE when the member's does not come. -/
def State.fwdFinal (s : State) (m dev w : Nat) : State :=
  let s := { s with hif := { s.hif with fwdOut := eraseFirst (m, dev) s.hif.fwdOut } }
  s.f2hPush m (fwdWord w dev)

def execForwardAnswerTimeout (m : Fin 16) (s : State) : Res :=
  done s (match s.hif.fwdOut.find? (fun e => e.1 == m.val) with
    | some e => s.fwdFinal m.val e.2 stUnreachable
    | none => s)

/-- A CTL packet of a subtype. -/
def isCtl (p : Packet) (sub : Nat) : Bool := p.type == 8 && !p.rsp && p.args % 256 == sub

/-- The member's Foreman reads the block of a forwarded command from the anchor's host window (R384 step 3). -/
def State.setFwdIn (s : State) (m : Nat) (c : Option FwdCmd) : State :=
  { s with hif := { s.hif with fwdIn := mapSet (fun _ => none) m c s.hif.fwdIn } }
/-- Bytes of the image that CFG_WRITE and FW_WRITE read from host memory (R406): ARG2, at most what a bank or a slot holds. -/
def imageLen (code : Nat) (blk : List Byte) : Nat :=
  if code = 0x32 then min (blkNat blk 24 4) 0x40000 else if code = 0x34 then min (blkNat blk 24 4) 0x400000 else 0
/-- The member reads n bytes, rounded out to 32-byte units, of the window of the command's anchor. -/
def State.readFor (s : State) (m : Nat) (c : FwdCmd) (off n : Nat) : State :=
  s.send { type := 0, ord := true, ak := true, src := 0, dst := c.anchor, args := (off % 32 + n + 31) / 32,
           addr := c.anchor * 2 ^ 48 + hwBase + off / 32 * 32 % 2 ^ 44 } (.block m)
/-- Step 3 of R384: the member reads the command block. -/
def State.readBlk (s : State) (m : Nat) (c : FwdCmd) : State := s.readFor m c (c.ring + wIndex c.word * 64) 64
/-- The member reads the next piece of the image. -/
def State.readImage (s : State) (m : Nat) (c : FwdCmd) (blk : List Byte) : State :=
  let o := blkNat blk 8 8 + c.image.length
  s.readFor m c o (min (imageLen (wCode c.word) blk - c.image.length) (512 - o % 32))
/-- What is still missing of a forwarded command's image is asked for. -/
def State.nextImage (s : State) (m : Nat) (c : FwdCmd) (blk : List Byte) : State :=
  if m = 2 ∧ c.image.length < imageLen (wCode c.word) blk then (s.setFwdIn m (some { c with more := true })).readImage m c blk
  else s.setFwdIn m (some { c with more := false })
/-- A read of the member for the command has returned, or has failed: its block first, then its image piece by piece. -/
def State.blkCame (s : State) (m : Nat) (v : Option (List Byte)) : State :=
  match mapGet (fun _ => none) m s.hif.fwdIn with
  | none => s
  | some c => match c.blk, v with
    | some (some b), some d =>
      let got := (d.drop ((blkNat b 8 8 + c.image.length) % 32)).take (imageLen (wCode c.word) b - c.image.length)
      s.nextImage m { c with image := c.image ++ got } b
    | some (some _), none => s.setFwdIn m (some { c with more := false, lost := true })
    | _, some b => s.nextImage m { c with blk := some (some b) } b
    | _, none => s.setFwdIn m (some { c with blk := some none })
/-- An MBOX_FWD arrives: a command at a member from its anchor, or an answer at the anchor; a RUNNING answer is followed by the
final one. -/
def State.mboxArrive (s : State) (p : Packet) : State :=
  let w := leNat (p.data.take 4)
  let m := bits (blkNat p.data 4 4) 0 4
  if bit (blkNat p.data 4 4) 4 then
    if s.hif.fwdOut.contains (m, p.src) then
      (if wCode w = stRunning then s.f2hPush m (fwdWord w p.src) else s.fwdFinal m p.src w)
    else (s.bumpSat MBX_LATE MBX_LATE_COUNT 1).raise MBX_EVENT MBX_EVENT_LATE
  else if s.isMember && s.flag (LD_DEVID 0) LD_DEVID_ANCHOR_V && p.src == s.fld (LD_DEVID 0) LD_DEVID_ANCHOR then
    let c : FwdCmd := { word := w, ring := blkNat p.data 8 8, anchor := p.src, tag := p.tag }
    match mapGet (fun _ => none) m s.hif.fwdIn with
    | some _ => s.answer m (.forwarded c) (ansWord stBusy 0)
    | none =>
      let s := s.setFwdIn m (some c)
      if needsBlk m (wCode w) then s.readBlk m c else s
  else s

def execMboxFwd (p : Packet) (s : State) : Res := done s (if isCtl p 3 then s.mboxArrive p else s)

/-! ### die mailboxes (R385) -/

/-- Domain of die d's mailboxes. -/
def diePd (d : Nat) : Nat := 11 + 6 * d
/-- Faces of a die that hold a descriptor. -/
def State.busyFaces (s : State) (d : Nat) : Nat := ((List.range 64).filter (fun f => !(s.face d f).held.isEmpty)).length

/-- A host write of H2D_DATA. -/
def State.h2dPut (s : State) (d v : Nat) : State :=
  if !s.pdOn (diePd d) then s.raise MBX_EVENT MBX_EVENT_PD_ABORT
  else
    let full := s.flag (H2D_STAT d) H2D_STAT_FULL
    let s := (s.setReg (H2D_DATA d) v).setFlag (H2D_STAT d) H2D_STAT_FULL true
    let s := s.setFlag (H2D_STAT d) H2D_STAT_TIMING true
    if full then (s.setFlag (H2D_STAT d) H2D_STAT_COLLIDE true).raise MBX_EVENT MBX_EVENT_COLLIDE else s

/-- A host read of D2H_DATA: the word, or none for Completer Abort. -/
def State.d2hPop (s : State) (d : Nat) : Option Nat × State :=
  if !s.pdOn (diePd d) then (none, s.raise MBX_EVENT MBX_EVENT_PD_ABORT)
  else if !s.flag (D2H_STAT d) D2H_STAT_FULL then (some 0xFFFFFFFF, s)
  else
    let w := s.reg (D2H_DATA d)
    match mapGet (fun _ => []) d s.hif.d2hQ with
    | [] =>
      let s := (s.setReg (D2H_DATA d) 0xFFFFFFFF).setFlag (D2H_STAT d) D2H_STAT_FULL false
      (some w, if s.d2hAny then s else s.unpend 2)
    | x :: q =>
      let s := { s with hif := { s.hif with d2hQ := mapSet (fun _ => []) d q s.hif.d2hQ } }
      (some w, (s.setReg (D2H_DATA d) x).setFld (D2H_STAT d) D2H_STAT_QUEUED q.length)

/-- The die controller takes a word of its mailbox with this code: `f` gives the meaning. -/
def State.dieServe (s : State) (d code : Nat) (f : State → State) : State :=
  let w := s.reg (H2D_DATA d)
  if !s.pdOn (diePd d) || !s.flag (H2D_STAT d) H2D_STAT_FULL || wFwd w || wCode w ≠ code then s
  else f (s.setFlag (H2D_STAT d) H2D_STAT_FULL false)

/-- DIE_PING, and the answer to a word that the die mailbox does not know or that has FWD = 1. -/
def State.diePingCmd (s : State) (d : Nat) : State :=
  let w := s.reg (H2D_DATA d)
  let known := wCode w = 0x41 ∨ wCode w = 0x42
  if !s.pdOn (diePd d) || !s.flag (H2D_STAT d) H2D_STAT_FULL || (decide known && !wFwd w) then s
  else
    let s := s.setFlag (H2D_STAT d) H2D_STAT_FULL false
    if wFwd w ∨ wCode w ≠ 0x40 then s.d2hPush d (ansWord stBadCmd 0)
    else s.d2hPush d (ansWord stAccepted (s.busyFaces d))

def execDiePing (d : DieIx) (s : State) : Res := done s (s.diePingCmd d.val)

/-- The die controller begins a command. -/
def State.addDieCmd (s : State) (d code : Nat) : State := s.setDieCmds d (s.dieCmds d ++ [code])

/-- DIE_FLUSH starts the walk of the 8 controllers; the answer follows the last (R225). -/
def execDieFlush (d : DieIx) (s : State) : Res :=
  done s (s.dieServe d.val 0x41 (fun t =>
    ((List.range 8).foldl (fun t c => t.startFlush d.val c) t).addDieCmd d.val 0x41))

/-- The answer to DIE_QUIESCE once no face holds a descriptor. -/
def State.dieQuiesceAnswer (s : State) (d : Nat) : State :=
  if s.busyFaces d = 0 then s.dieAnswer d 0x42 else s

def execDieQuiesce (d : DieIx) (s : State) : Res :=
  done s (s.dieServe d.val 0x42 (fun t =>
    (((List.range 64).foldl (fun t f => t.setFlag (FSQ_CTRL d.val f) FSQ_CTRL_EN false) t).addDieCmd d.val 0x42).dieQuiesceAnswer
      d.val))

/-! ### doorbells (R386) -/

/-- Doorbell j rings on this device. -/
def State.ringLocal (s : State) (j v : Nat) : State :=
  let s := (s.bumpSat (DB_COUNT j) DB_COUNT_COUNT 1).setReg (DB_LAST j) v
  let th := s.fld (DB_CFG j) DB_CFG_THRESH
  if th ≠ 0 ∧ th ≤ s.reg (DB_COUNT j) ∧ !s.hif.dbFired.contains j then
    ({ s with hif := { s.hif with dbFired := setInsert j s.hif.dbFired } } : State).fire (16 + j)
  else s

/-- A ring by a unit of the device: a MEMBER sends it to its anchor. -/
def State.ring (s : State) (j v : Nat) : State :=
  if s.isMember then
    s.sendPlain { type := 5, ord := true, src := 0, dst := s.fld (LD_DEVID 0) LD_DEVID_ANCHOR, args := j % 64 + v % 2 ^ 32 * 2 ^ 16 }
  else s.ringLocal j v

def execDbl (p : Packet) (s : State) : Res :=
  done s (if p.type = 5 ∧ !p.rsp then s.ringLocal (bits p.args 0 6) (bits p.args 16 32) else s)

/-- A read of DB_COUNT_j clears it and re-arms its vector. -/
def State.dbRead (s : State) (j : Nat) : Nat × State :=
  (s.reg (DB_COUNT j),
   (({ s with hif := { s.hif with dbFired := setErase j s.hif.dbFired } } : State).setReg (DB_COUNT j) 0).unpend (16 + j))

/-! ### faults forwarded by members (R440) -/

/-- A member's record at its anchor goes to the fault ring with FWD set, under the anchor's limit of its class. -/
def State.faultFwd (s : State) (p : Packet) : State :=
  let b := p.data
  let h := blkNat b 0 2
  let r : FaultRec := ⟨bits h 0 3, true, bits h 4 12, blkNat b 2 2, blkNat b 4 4, blkNat b 8 8, blkNat b 16 4, blkNat b 20 4,
    blkNat b 24 8⟩
  let n := mapGet (fun _ => 0) r.cls s.obs.win
  if s.limited r.cls then s.bumpSat FR_SUPPR (supprFld r.cls) 1
  else ({ s with obs := { s.obs with win := mapSet (fun _ => 0) r.cls (n + 1) s.obs.win } } : State).faultRing r

def execFaultFwd (p : Packet) (s : State) : Res :=
  done s (if isCtl p 4 && s.isAnchor then s.faultFwd p else s)

end Sys2Proof.Machine
end

