-- ==== Sys2Proof/Machine/Observe.lean ====
section
/-! DEFINITION. Observation: hallmarks (R420 to R425), trace packets by kind (R429), the emission of a spoil dump (R432 to
R434), and mailbox 4 (R442). -/

namespace Sys2Proof.Machine

/-! ### trace kinds (R429) -/

/-- DESC_START and DESC_END. -/
def State.traceDesc (s : State) (ended : Bool) (d f ix layer opc : Nat) : State :=
  let v := d + f * 2 ^ 4 + ix % 2 ^ 20 * 2 ^ 10 + layer % 2 ^ 12 * 2 ^ 30 + opc * 2 ^ 42
  if ended then
    let (n, s) := s.draw
    s.capture 2 (v + Config.descCycles n % 2 ^ 64 * 2 ^ 64)
  else s.capture 1 v
def State.tracePhase (s : State) (phase micro : Nat) : State := s.capture 3 (phase + micro * 2 ^ 8 + s.stepNum * 2 ^ 32)
def State.traceBar (s : State) (c epoch : Nat) (v : Bool) : State := s.capture 4 (c + b2n v * 2 ^ 8 + epoch * 2 ^ 32)
def State.traceStep (s : State) (committed : Bool) (cause : Nat) : State :=
  s.capture 5 (s.stepNum + b2n committed * 2 ^ 32 + cause * 2 ^ 64)
def State.traceSteer (s : State) (layer old new sev : Nat) : State :=
  s.capture 7 (layer + old * 2 ^ 16 + new * 2 ^ 24 + sev * 2 ^ 32)

/-! ### hallmarks -/

def hmFmt (h : Hallmark) : Nat := bits (h.words.headD 0) 1 4
def hmSgn (h : Hallmark) : Bool := bit (h.words.headD 0) 5
def hmAddr (h : Hallmark) : Nat := h.words.getD 1 0 + h.words.getD 2 0 * 2 ^ 32
def hmLen (h : Hallmark) : Nat := 64 * h.words.getD 3 0
/-- A hallmark is not taken, or not written. -/
def State.hmDrop (s : State) : State := (s.bumpSat HM_DROP HM_DROP_COUNT 1).raise TRC_EVENT TRC_EVENT_HM_DROP

/-- Entry w falls due at the close of a phase (R421); `micro` is none in a RED or COMMIT phase. -/
def State.watchDue (s : State) (w phase : Nat) (micro : Option Nat) : Bool :=
  let e := s.reg (WATCH_W0 w)
  let sync := match micro with | some m => m + 1 == hSyncEvery s.hdr | none => true
  bit e 0 && bits e 16 6 == phase && (!bit e 6 || sync) && s.stepNum % 2 ^ bits e 7 5 == 0
/-- The hallmarks due at a phase close join their dies' engines in ascending w. -/
def State.marksDue (s : State) (phase : Nat) (micro : Option Nat) : State :=
  ((List.range 64).filter (fun w => s.watchDue w phase micro)).foldl (fun s w =>
    let e := s.reg (WATCH_W0 w)
    let d := bits e 12 4
    let l := mapGet (fun _ => []) d s.obs.marks
    if s.obs.marks.any (fun m => m.2.any (fun h => h.watch == w)) then s.hmDrop
    else
      let h : Hallmark := { watch := w, words := [e, s.reg (WATCH_W1 w), s.reg (WATCH_W2 w), s.reg (WATCH_W3 w)], step := s.stepNum,
                            micro := micro.getD 0, phase := phase }
      { s with obs := { s.obs with marks := mapSet (fun _ => []) d (l ++ [h]) s.obs.marks } }) s

/-- One step of a compensated sum: s, c (R422). -/
def compAdd (a : Nat × Nat) (x : Nat) : Nat × Nat :=
  let y := f32Sub x a.2
  let t := f32Add a.1 y
  (t, f32Sub (f32Sub t a.1) y)
/-- One element joins the statistics (R422). -/
def hmElem (h : Hallmark) (x : Nat) : Hallmark :=
  match fv32 x with
  | .nan _ _ => { h with nanc := min 0xFFFFFFFF (h.nanc + 1) }
  | .inf _ => { h with infc := min 0xFFFFFFFF (h.infc + 1) }
  | v =>
    let a := compAdd (h.sum, h.sumc) x
    let q := compAdd (h.sq, h.sqc) (f32Mul x x)
    let lower := h.min == 0x7F800000 || v.ltFin (fv32 h.min)
    let upper := h.max == 0xFF800000 || (fv32 h.max).ltFin v
    { h with sum := a.1, sumc := a.2, sq := q.1, sqc := q.2, min := if lower then x else h.min, max := if upper then x else h.max }
/-- A sample is taken. -/
def hmTake (h : Hallmark) (v : List Byte) : Hallmark :=
  let w := fmtWidth (hmFmt h)
  let elems := (unpackCodes w (v.length * 8 / w) v).map (toF32 (hmFmt h) (hmSgn h))
  let h := elems.foldl hmElem h
  { h with taken := min 0xFFFFFFFF (h.taken + 1), next := h.next + 1, crc := crcF 64 0x42F0E1EBA9EA3693 v h.crc }
/-- The 64 bytes of a hallmark record (R424). -/
def hmBytes (dev : Nat) (h : Hallmark) : List Byte :=
  leBytes 4 (h.watch + dev * 2 ^ 6 + b2n (h.skipped != 0) * 2 ^ 18 + b2n h.poison * 2 ^ 19) ++ leBytes 4 h.step ++
  leBytes 4 (h.micro + h.phase * 2 ^ 8 + hmFmt h * 2 ^ 14) ++ leBytes 4 h.taken ++ leBytes 4 h.skipped ++ leBytes 4 0 ++
  leBytes 8 h.crc ++ leBytes 4 h.min ++ leBytes 4 h.max ++ leBytes 4 h.sum ++ leBytes 4 h.sumc ++ leBytes 4 h.sq ++
  leBytes 4 h.sqc ++ leBytes 4 h.nanc ++ leBytes 4 h.infc
/-- Write a record to the watch ring (R425). -/
def State.hmWrite (s : State) (h : Hallmark) : State :=
  let size := 2 ^ ringLog (s.fld HM_RING_LO HM_RING_LO_SIZE)
  let prod := s.reg HM_PROD
  let cons := s.reg HM_CONS
  let base := s.fld HM_RING_LO HM_RING_LO_ADDR * 4096 + s.fld HM_RING_HI HM_RING_HI_ADDR * 2 ^ 32
  let off := base + prod % size * 64
  let v := hmBytes s.devId h
  let reach := if s.isMember then s.flag (LD_DEVID 0) LD_DEVID_ANCHOR_V else s.canHost
  if !s.flag HM_RING_HI HM_RING_HI_V || decide (size ≤ ringUsed prod cons) || !reach then s.hmDrop
  else if s.isMember then
    let anchor := s.fld (LD_DEVID 0) LD_DEVID_ANCHOR
    let s := (s.send (wrPkt anchor (anchor * 2 ^ 48 + hwBase + off) true v false 0) .write).setReg HM_PROD (prod + 1)
    if s.flag HM_RING_HI HM_RING_HI_DB_EN then
      let (n, s) := s.draw
      s.ring (s.fld HM_RING_HI HM_RING_HI_DB) (Config.hallmarkValue n % 2 ^ 32)
    else s
  else
    let s := (s.hostPut off v).setReg HM_PROD (prod + 1)
    if prod = cons then s.fire 5 else s

/-- The next sample of the hallmark that die d takes; `skip` when a comparison holds the buffer (R423). -/
def State.hmSample (s : State) (d : Nat) (skip : Bool) : State :=
  match mapGet (fun _ => []) d s.obs.marks with
  | [] => s
  | h :: rest =>
    let pos := h.next * 49152
    let n := min 49152 (hmLen h - pos)
    let r := s.objRead (hmAddr h + pos) n
    let s := if skip then s else s.objSeenAs 2 (hmAddr h + pos) n none
    let h' : Hallmark := if skip || r.2 then
        { h with next := h.next + 1, skipped := min 0xFFFFFFFF (h.skipped + 1), poison := h.poison || (!skip && r.2) }
      else hmTake h r.1
    let s := if skip || r.2 then (s.bump HM_SKIP_LO 1).raise TRC_EVENT TRC_EVENT_HM_SKIP else s
    let last := hmLen h ≤ pos + 49152
    let put (l : List Hallmark) (s : State) : State :=
      { s with obs := { s.obs with marks := mapSet (fun _ => []) d l s.obs.marks } }
    if last then (put rest s).hmWrite h' else put (h' :: rest) s
def execHallmarkSample (d : DieIx) (skip : Bool) (s : State) : Res := done s (s.hmSample d.val skip)

/-- The far-end termination is checked (R427): LINK needs PORT_EN and PD2. -/
def execTraceLinkDetect (found : Bool) (s : State) : Res :=
  done s (s.setFlag TRC_STAT TRC_STAT_LINK (found && s.flag TRC_CTRL TRC_CTRL_PORT_EN && s.pdOn 2))

/-! ### limits, and mailbox 4 -/

/-- A 1 ms window ends (R439). -/
def execFaultLimitWindow (s : State) : Res :=
  done s { s with obs := { s.obs with win := [] } }

/-- The AON log, oldest first, filled to 64 records. -/
def State.logBytes (s : State) : List Byte :=
  let l := s.obs.log.reverse.flatMap FaultRec.bytes
  l ++ List.replicate (2048 - l.length) 0
/-- FAULT_LOG (R442): the log goes to host memory. -/
def execFaultLog (blk : List Byte) (s : State) : Res :=
  done s (s.serve 4 0x50 true blk (fun t b src =>
    (t.srcPut src (blkNat b 8 8) t.logBytes).answer 4 src (ansWord stAccepted 0)))
end Sys2Proof.Machine
end

