-- ==== Sys2Proof/Machine/Copy.lean ====
section
/-! DEFINITION. Working copies (R160 to R164): headers, the slot in use, and the fineness of a layer in a step (R131). -/

namespace Sys2Proof.Machine

/-! ### headers (R163) -/

def whWord (h : List Byte) : Nat := blkNat h 8 4
def whStep (h : List Byte) : Nat := blkNat h 4 4
def whLayer (h : List Byte) : Nat := bits (whWord h) 0 12
def whFine (h : List Byte) : Nat := bits (whWord h) 12 2
def whFlock (h : List Byte) : Bool := bit (whWord h) 14
def whRot (h : List Byte) : Nat := bits (whWord h) 15 3
def whWfmt (h : List Byte) : Nat := bits (whWord h) 18 4
def whSfmt (h : List Byte) : Nat := bits (whWord h) 22 4
def whValid (h : List Byte) : Bool := bit (whWord h) 26
def whSt (h : List Byte) : Nat := blkNat h 0x0C 4
def whSa (h : List Byte) : Nat := blkNat h 0x10 4
def whBsOff (h : List Byte) : Nat := blkNat h 0x1C 4
def whCsOff (h : List Byte) : Nat := blkNat h 0x20 4
def whShOff (h : List Byte) : Nat := blkNat h 0x24 4
def whShCount (h : List Byte) : Nat := blkNat h 0x28 4
def whOw (h : List Byte) : Nat := bits (blkNat h 0x2C 4) 0 6
def wcMagic : Nat := 0x57435031

/-- The header of a slot of a layer's working copy. -/
def State.wcHead (s : State) (b : List Byte) (slot : Nat) : List Byte × Bool := s.objRead (lWcSlotAddr b slot) 64
/-- A header with VALID = 1 and another MAGIC or LAYER_ID. -/
def whWrong (b h : List Byte) : Bool := whValid h && (blkNat h 0 4 != wcMagic || whLayer h != lLayerId b)
/-- A header that R160 lets a reader or a MAKE take as valid. -/
def State.wcGood (s : State) (b : List Byte) (slot : Nat) : Bool :=
  let r := s.wcHead b slot
  !r.2 && whValid r.1 && !whWrong b r.1
/-- A reader fails on the layer's headers: poisoned, or wrong (R160). -/
def State.wcFails (s : State) (b : List Byte) : Bool :=
  [0, 1].any (fun i => let r := s.wcHead b i; r.2 || whWrong b r.1)
/-- The slot a reader uses in a step: the larger STEP not above it, slot 0 on equal (R160). -/
def State.wcSlotAt (s : State) (b : List Byte) (step : Nat) : Option Nat :=
  let ok (i : Nat) : Bool := s.wcGood b i && decide (whStep (s.wcHead b i).1 ≤ step)
  if ok 0 ∧ ok 1 then some (if whStep (s.wcHead b 0).1 < whStep (s.wcHead b 1).1 then 1 else 0)
  else if ok 0 then some 0
  else if ok 1 then some 1
  else none
def State.wcSlot (s : State) (b : List Byte) : Option Nat := s.wcSlotAt b s.stepNum
/-- Header and slot address of the copy in use. -/
def State.wcInUse (s : State) (b : List Byte) : Option (List Byte × Nat) :=
  (s.wcSlot b).map (fun i => ((s.wcHead b i).1, lWcSlotAddr b i))
/-- No slot holds a valid header (R161). -/
def State.wcNone (s : State) (b : List Byte) : Bool := !s.wcGood b 0 && !s.wcGood b 1
/-- The slot MAKE writes (R160). -/
def State.wcFree (s : State) (b : List Byte) : Nat :=
  if !s.wcGood b 0 then 0
  else if !s.wcGood b 1 then 1
  else if whStep (s.wcHead b 0).1 < whStep (s.wcHead b 1).1 then 0 else 1

/-- Fineness of a layer in the running step (R131): the header's, or the descriptor's while there is none. -/
def State.fineOf (s : State) (b : List Byte) : Nat :=
  match s.wcInUse b with
  | some (h, _) => whFine h
  | none => lFine b

/-- ROT that the planisher takes for a layer's rows (R102): the header's, or the descriptor's while there is none. -/
def State.rotOf (s : State) (b : List Byte) : Nat :=
  match s.wcInUse b with
  | some (h, _) => whRot h
  | none => lRot b

/-! ### geometry of a slot (R162, R164) -/

/-- Weight format code of a grade (R127, R130). -/
def wFmtOf (fine ifmt : Nat) : Nat :=
  if ifmt = 1 then 6 else if ifmt = 2 then 7 else if ifmt = 3 then 8
  else match fine with | 0 => 0 | 1 => 1 | 2 => 3 | _ => 4
/-- Gradient format code (R127, R130). -/
def gFmtOf (fine ifmt : Nat) : Nat := if ifmt = 0 ∧ fine < 2 then 2 else 3
/-- Bytes of a weight row. -/
def wcRow (kp w : Nat) : Nat := roundUp (kp * w / 8) 64
def wcBsOff (n kp w : Nat) : Nat := 0x40 + n * wcRow kp w
def wcCsOff (n kp w : Nat) : Nat := wcBsOff n kp w + roundUp (n * (kp / 32)) 64
def wcShOff (n kp w : Nat) : Nat := wcCsOff n kp w + roundUp n 64
/-- Number of weight tiles of a layer, and of its shadow entries at an offset o_w (R164). -/
def wTiles (b : List Byte) : Nat := ceilDiv (lK b) 32 * ceilDiv (lN b) 32
def shCountOf (b : List Byte) (fine ow : Nat) : Nat :=
  if fine = 3 then 0 else if wTiles b ≤ ow then 0 else (wTiles b - ow + 63) / 64
/-- Bytes of a shadow entry at a weight width, and the shadow format one grade up (R145). -/
def shEntry (w : Nat) : Nat := 64 + 32 * (32 * w / 8)

end Sys2Proof.Machine
end

