-- ==== Sys2Proof/Machine/Crucible.lean ====
section
/-! DEFINITION. Crucible reduction (R295 to R329): the directory and its check, applying, opening, closing and cutting parts,
chain links, the touchstone, and the contribution packers. -/

namespace Sys2Proof.Machine

/-! ### the directory (R297, R298) -/

/-- Jobs whose entry is VALID, whether it passed the check or not. -/
def State.dirJobs (s : State) : List Nat :=
  s.regs.filterMap (fun r =>
    if 0x540000 ≤ r.1 ∧ r.1 < 0x580000 ∧ (r.1 - 0x540000) % 64 = 0 ∧ bit r.2.toNat 0 then some ((r.1 - 0x540000) / 64) else none)
/-- A VALID entry; a failing one counts as not VALID. -/
def State.dirValid (s : State) (job : Nat) : Bool := s.flag (DIR_W0 job) DIR_W0_VALID && !s.cru.bad.contains job
def State.dirRecv (s : State) (job : Nat) : Bool := s.dirValid job && s.flag (DIR_W0 job) DIR_W0_RECV
def State.dirLink (s : State) (job : Nat) : Bool := s.dirRecv job && s.flag (DIR_W0 job) DIR_W0_LINK
/-- A job homed on the device: received and not forwarded. -/
def State.dirHome (s : State) (job : Nat) : Bool := s.dirRecv job && !s.flag (DIR_W0 job) DIR_W0_LINK
def State.dirContrib (s : State) (job : Nat) : Bool := s.dirValid job && s.flag (DIR_W0 job) DIR_W0_CONTRIB
def State.jobK (s : State) (job : Nat) : Nat := s.reg (DIR_W2 job)
def State.bpr (s : State) (job : Nat) : Nat := ceilDiv (s.jobK job) 256
def State.nblk (s : State) (job : Nat) : Nat := s.fld (DIR_W3 job) DIR_W3_N * s.bpr job
def State.shardBlk (s : State) (job : Nat) : Nat := s.fld (DIR_W4 job) DIR_W4_SHARD_BLK
def State.nshard (s : State) (job : Nat) : Nat := ceilDiv (s.nblk job) (s.shardBlk job)
/-- Number of parts, and the Crucible of part i (R296). -/
def State.nparts (s : State) (job : Nat) : Nat := min (s.nshard job) 128
def State.cruOf (s : State) (job i : Nat) : Nat := (s.fld (DIR_W4 job) DIR_W4_CRU0 + i) % 128
/-- Part section of a Crucible (R300). -/
def State.partIx (s : State) (job C : Nat) : Nat := (C + 128 - s.fld (DIR_W4 job) DIR_W4_CRU0) % 128
/-- Blocks of the part of Crucible C, rising. -/
def State.partBlocks (s : State) (job C : Nat) : List Nat :=
  ((List.range (s.nshard job)).filter (fun h => h % 128 == s.partIx job C)).flatMap (fun h =>
    (List.range (min (s.shardBlk job) (s.nblk job - h * s.shardBlk job))).map (fun i => h * s.shardBlk job + i))
/-- Elements of block b that lie within K. -/
def State.blkLen (s : State) (job b : Nat) : Nat := min 256 (s.jobK job - 256 * (b % s.bpr job))

def State.resAddr (s : State) (job : Nat) : Nat := s.reg (DIR_W8 job) + s.reg (DIR_W9 job) * 2 ^ 32
def State.areaAddr (s : State) (job : Nat) : Nat := s.reg (DIR_W10 job) + s.reg (DIR_W11 job) * 2 ^ 32
/-- Word 6 of the entry: its POL stands in the bits of JOB_POL (R302). -/
def State.pol (s : State) (job : Nat) : Nat := s.reg (DIR_W6 job)
def polMode (p : Nat) : Nat := bits p 12 2
def polBackup (p : Nat) : Bool := bit p 14
def polDlen (p : Nat) : Bool := bit p 15
def polNanq (p : Nat) : Bool := bit p 16
def polZcnt (p : Nat) : Bool := bit p 17
def polWide (p : Nat) : Bool := bit p 19
def polDline (p : Nat) : Nat := bits p 20 5
/-- Effective witness exponent; none when sampling is off. -/
def State.witExp (s : State) (p : Nat) : Option Nat :=
  match bits p 25 4 with
  | 0 => let w := s.fld CRU_GCTRL CRU_GCTRL_WIT_DEF
         some (if 1 ≤ w ∧ w ≤ 14 then w else 10)
  | 15 => none
  | w => some w
/-- Is block b a touchstone sample of a step (R306)? -/
def sampled (w step b : Nat) : Bool := b % 2 ^ w == step * 40503 % 2 ^ w

/-- Is the object of an address owned here, pinned, with TIERMAX 0? -/
def State.pinnedHere (s : State) (oa : Nat) : Bool :=
  let r := s.objRec (oaObj oa)
  oaOwner oa == s.devId && orValid r && orPin r && orTmax r == 0
/-- Reason an entry fails R298; 0 when it passes. -/
def State.dirReason (s : State) (job : Nat) : Nat :=
  let nexp := s.fld (DIR_W1 job) DIR_W1_NEXP
  let nslot := s.fld (DIR_W1 job) DIR_W1_NSLOT
  let recv := s.flag (DIR_W0 job) DIR_W0_RECV
  let link := s.flag (DIR_W0 job) DIR_W0_LINK
  if nexp = 0 ∨ nslot = 0 ∨ nexp < nslot ∨ 16 < s.fld (DIR_W1 job) DIR_W1_NBKUP then 1
  else if 2 ^ 24 < s.nblk job then 2
  else if s.shardBlk job = 0 ∨ 65536 < s.nshard job then 3
  else if 20 < polDline (s.pol job) then 4
  else if link ∧ !recv then 5
  else if recv ∧ (!s.pinnedHere (s.areaAddr job) ∨ (!link ∧ !s.pinnedHere (s.resAddr job))) then 6
  else 0
/-- DIRECTORY_CHECK: at the first step start after a directory write. -/
def State.checkDirectory (s : State) : State :=
  if !s.cru.dirty then s
  else
    let bad := s.dirJobs.filter (fun j => s.dirReason j != 0)
    let s := { s with cru := { s.cru with dirty := false, bad := bad } }
    let s := s.setFlag CRU_GSTAT CRU_GSTAT_CHECKED bad.isEmpty
    bad.foldl (fun s j =>
      (s.setReg CRU_DIR_BAD (j + s.dirReason j * 4096)).raise CRU_GEVENT CRU_GEVENT_DIR_BAD) s

/-! ### the job tables (R329) -/

def jtFree : Nat := 0
def jtOpen : Nat := 1
def jtClosed : Nat := 3
def jtFailed : Nat := 4
def jtCut : Nat := 5
/-- Job-table entries in use: Crucible, entry, word 0. -/
def State.parts (s : State) : List (Nat × Nat × Nat) :=
  s.regs.filterMap (fun r =>
    let o := r.1 % 0x100000
    if 0x1000000 ≤ r.1 ∧ r.1 < 0x2000000 ∧ 0x20000 ≤ o ∧ o < 0x30000 ∧ 0x1000 ≤ o % 0x2000 ∧ o % 16 = 0 ∧ bit r.2.toNat 0 then
      some ((r.1 - 0x1000000) / 0x100000 * 8 + (o - 0x20000) / 0x2000, (o % 0x2000 - 0x1000) / 16, r.2.toNat)
    else none)
def ptState (w : Nat) : Nat := bits w 1 3
def ptJob (w : Nat) : Nat := bits w 4 12
def ptStep (w : Nat) : Nat := bits w 16 16
/-- The entry of a job at a Crucible. -/
def State.partAt (s : State) (job C : Nat) : Option (Nat × Nat) :=
  (s.parts.find? (fun p => p.1 == C && ptJob p.2.2 == job)).map (fun p => p.2)
/-- The status words that count parts. -/
def State.cruShow (s : State) (C : Nat) : State :=
  let opens := s.parts.filter (fun p => ptState p.2.2 == jtOpen)
  let s := s.setFld (CRU_STAT (C / 8) (C % 8)) CRU_STAT_PARTS (opens.filter (fun p => p.1 == C)).length
  let s := s.setFld CRU_GSTAT CRU_GSTAT_OPEN (opens.foldl (fun l p => setInsert (ptJob p.2.2) l) []).length
  s.graceCheck (C / 8)
def State.setPart (s : State) (C e st job step : Nat) : State :=
  (s.setReg (CRU_JOB_W0 (C / 8) (C % 8) e) (1 + st * 2 + job * 16 + step % 65536 * 65536)).cruShow C

/-- A step number newer, or older, than another, modulo 65,536. -/
def stepNewer (a b : Nat) : Bool := let x := (a + 65536 - b % 65536) % 65536; 0 < x && x < 32768
def stepOlder (a b : Nat) : Bool := stepNewer b a

/-! ### blocks (R300, R301, R314) -/

def State.brOff (_s : State) : Nat := 0x80400
def State.agOff (s : State) (job : Nat) : Nat := 0x80400 + roundUp (8 * s.nblk job) 64
def State.wsOff (s : State) (job : Nat) : Nat := s.agOff job + roundUp (s.nblk job) 64
/-- Row distance of masters and results (R192). -/
def State.resRow (s : State) (job : Nat) : Nat := roundUp (4 * s.jobK job) 64
def State.resBlk (s : State) (job b : Nat) : Nat := s.resAddr job + b / s.bpr job * s.resRow job + 1024 * (b % s.bpr job)
/-- Where the sums and the record of a block, or of its witness entry, lie in memory. -/
def State.sumAt (s : State) (wit : Bool) (job b : Nat) : Nat :=
  if wit then s.areaAddr job + s.wsOff job + 1088 * (b / 2 ^ (s.witExp (s.pol job)).getD 0) else s.resBlk job b
def State.sumLen (s : State) (wit : Bool) (job b : Nat) : Nat := if wit then 1024 else 4 * s.blkLen job b
def State.recAt (s : State) (wit : Bool) (job b : Nat) : Nat :=
  if wit then s.sumAt true job b + 1024 else s.areaAddr job + 0x80400 + 8 * b
/-- Number of a staging entry. -/
def stageKey (C : Nat) (wit : Bool) (job b : Nat) : Nat := ((C * 2 + b2n wit) * 4096 + job) * 2 ^ 24 + b
def stageCru (k : Nat) : Nat := k / 2 ^ 37
def stageWit (k : Nat) : Bool := bit k 36
def stageJob (k : Nat) : Nat := bits k 24 12
def stageBlk (k : Nat) : Nat := k % 2 ^ 24

def brCount (w : Nat) : Nat := bits w 0 8
def brTouch (w : Nat) : Bool := bit w 8
def brPoison (w : Nat) : Bool := bit w 13
def setBit (w i : Nat) : Nat := w ||| 2 ^ i

def State.showStaged (s : State) (C : Nat) : State :=
  s.setFld (CRU_STAT (C / 8) (C % 8)) CRU_STAT_STAGED (min 4096 (s.cru.stage.filter (fun e => stageCru e.1 == C)).length)
/-- Read a block: its sums and record, from the staging store or from memory; a poisoned read marks it POISON (R324, R325). -/
def State.blkRead (s : State) (C : Nat) (wit : Bool) (job b : Nat) : Staged × Bool :=
  match mapGet (fun _ => none) (stageKey C wit job b) s.cru.stage with
  | some e => (e, false)
  | none =>
    let r := s.objRead (s.recAt wit job b) 8
    let w := leNat r.1
    if brTouch w && !r.2 then
      let v := s.objRead (s.sumAt wit job b) (s.sumLen wit job b)
      let l := unpackCodes 32 (s.sumLen wit job b / 4) v.1
      (⟨l ++ List.replicate (256 - l.length) 0, if v.2 then setBit w 13 else w, 0⟩, v.2)
    else (⟨List.replicate 256 0, if r.2 then setBit 0 13 else w, 0⟩, r.2)
/-- What reading a block does to the device: one that is not staged is read from memory. -/
def State.blkSeen (s : State) (C : Nat) (wit : Bool) (job b : Nat) : State :=
  if (mapGet (fun _ => none) (stageKey C wit job b) s.cru.stage).isSome then s
  else
    let touched := brTouch (leNat (s.objRead (s.recAt wit job b) 8).1)
    let s := s.objSeen (s.recAt wit job b) 8 none
    if touched then s.objSeen (s.sumAt wit job b) (s.sumLen wit job b) none else s
/-- An uncorrectable read of a block record or of its sums shows at the Crucible it belongs to (R325). -/
def State.blkErr (s : State) (C : Nat) (bad : Bool) : State :=
  if bad then s.raise (CRU_EVENT (C / 8) (C % 8)) CRU_EVENT_STORE_UE else s
/-- Error patterns met in the staging entries that a command reads, by staging number: an uncorrectable one marks its block POISON
(R215, R325). -/
def State.stageErrs (s : State) (ue : List (Nat × List Nat)) : State :=
  ue.foldl (fun s x =>
    match mapGet (fun _ => none) x.1 s.cru.stage with
    | some e =>
      if x.2.any (fun m => bchDecode m == .uncorrectable) then
        let C := stageCru x.1
        let s : State := { s with cru := { s.cru with
          stage := mapSet (fun _ => none) x.1 (some { e with word := setBit e.word 13 }) s.cru.stage } }
        s.raise (CRU_EVENT (C / 8) (C % 8)) CRU_EVENT_STORE_UE
      else s
    | none => s) s
/-- Write a staged block back to memory (R314); a write-back that ends marks the block POISON (R324). -/
def State.stageOut (s : State) (k : Nat) (e : Staged) : State :=
  let job := stageJob k
  let wit := stageWit k
  let b := stageBlk k
  let n := s.sumLen wit job b
  let s := s.objWrite (s.sumAt wit job b) ((packCodes 32 e.sums).take n) false
  let w := if (s.objRead (s.sumAt wit job b) n).2 then setBit e.word 13 else e.word
  let s := (s.objWrite (s.recAt wit job b) (leBytes 8 w) false).usePromos .stagingBack
  { s with cru := { s.cru with stage := mapSet (fun _ => none) k none s.cru.stage } }
/-- The least recently used staging entry of a Crucible. -/
def State.stageLru (s : State) (C : Nat) : Option (Nat × Staged) :=
  s.cru.stage.foldl (fun m x =>
    match x.2 with
    | none => m
    | some e => if stageCru x.1 ≠ C then m else match m with
      | none => some (x.1, e)
      | some y => if e.use < y.2.use then some (x.1, e) else m) none
/-- Keep a block in the staging store, evicting when it is full. -/
def State.blkPut (s : State) (C : Nat) (wit : Bool) (job b : Nat) (sums : List Nat) (word : Nat) : State :=
  let k := stageKey C wit job b
  let held := (mapGet (fun _ => none) k s.cru.stage).isSome
  let full := !held && decide (4096 ≤ (s.cru.stage.filter (fun e => stageCru e.1 == C)).length)
  let s := if full then (match s.stageLru C with | some (q, e) => s.stageOut q e | none => s) else s
  let t := s.cru.tick
  let s := ({ s with cru := { s.cru with tick := t + 1, stage := mapSet (fun _ => none) k (some ⟨sums, word, t⟩) s.cru.stage } } : State)
  let s := s.showStaged C
  s.noteQueue (1024 + C / 8) (9 + C % 8) (s.fld (CRU_STAT (C / 8) (C % 8)) CRU_STAT_STAGED)
/-- Drop the staging entries of a job part, its blocks or its witness entries. -/
def State.stageDrop (s : State) (C : Nat) (wit : Bool) (job : Nat) : State :=
  ({ s with cru := { s.cru with stage := s.cru.stage.filter (fun e =>
      !(stageCru e.1 == C && stageWit e.1 == wit && stageJob e.1 == job)) } }).showStaged C
/-- The witness of a Crucible (R296). -/
def witnessOf (C : Nat) : Nat := C / 8 * 8 + (C % 8 ^^^ 4)

/-! ### opening and cutting (R315, R320) -/

/-- A job leaves its step: the words the device writes start anew. -/
def State.jobReset (s : State) (job step : Nat) : State :=
  let s := s.setReg (DIR_W12 job) (1 + step % 65536 * 65536)
  let s := ((s.setReg (DIR_W13 job) 0).setReg (DIR_W14 job) 0).setReg (DIR_W15 job) 0
  { s with cru := { s.cru with timers := setErase job s.cru.timers, fmts := s.cru.fmts.filter (fun e => e.1 / 2 ^ 24 != job),
                               sent := s.cru.sent.filter (fun e => e.1 / 128 != job + 4096),
                               lost := s.cru.lost.filter (fun k => k / 128 != job + 4096),
                               seen := s.cru.seen.filter (fun x => x / 128 != job) } }
def State.jobStep (s : State) (job : Nat) : Nat := s.fld (DIR_W12 job) DIR_W12_STEP
/-- No part opens here: R326, R328, R329. -/
def State.cruStopped (s : State) (C : Nat) : Bool :=
  !s.flag CRU_GCTRL CRU_GCTRL_EN || s.parStop.contains CRU_GCTRL ||
  !s.flag (CRU_CTRL (C / 8) (C % 8)) CRU_CTRL_EN || s.flag (CRU_STAT (C / 8) (C % 8)) CRU_STAT_PSTOP
/-- An open part is cut: its records stay and no result is written. -/
def State.cutPart (s : State) (C e w : Nat) : State :=
  let job := ptJob w
  let mine := s.cru.stage.filter (fun x => stageCru x.1 == C && !stageWit x.1 && stageJob x.1 == job)
  let s := mine.foldl (fun s x => match x.2 with
    | some y => s.objWrite (s.recAt false job (stageBlk x.1)) (leBytes 8 y.word) false
    | none => s) s
  let s := (s.stageDrop C false job).setPart C e jtCut job (ptStep w)
  let s := s.raise CRU_GEVENT CRU_GEVENT_CUT
  if s.jobStep job = ptStep w then s.setFld (DIR_W12 job) DIR_W12_JSTATE 4 else s
/-- Every part still open is cut (R320). -/
def State.cutAll (s : State) : State :=
  (s.parts.filter (fun p => ptState p.2.2 == jtOpen)).foldl (fun s p => s.cutPart p.1 p.2.1 p.2.2) s

/-- Open the part of a job at a Crucible for a step: its job-table entry, its records and its part section; none when the
Crucible is stopped or its job table is full. -/
def State.openPart (s : State) (job C step : Nat) : Option State :=
  if s.cruStopped C then none
  else
    let old := s.partAt job C
    let used := (s.parts.filter (fun p => p.1 == C)).map (fun p => p.2.1)
    let slot := match old with
      | some (e, _) => some e
      | none => (List.range 256).find? (fun e => !used.contains e)
    match slot with
    | none => none
    | some e =>
      let s := match old with
        | some (e', w) => if ptState w = jtOpen then s.cutPart C e' w else s
        | none => s
      let s := if s.jobStep job ≠ step % 65536 ∨ s.fld (DIR_W12 job) DIR_W12_JSTATE = 0 then s.jobReset job step else s
      let s := (s.stageDrop C false job).stageDrop (witnessOf C) true job
      let area := s.areaAddr job
      let s := s.objWrite (area + 4096 * s.partIx job C) (List.replicate 4096 0) false
      let blocks := s.partBlocks job C
      let s := blocks.foldl (fun s b => s.objWrite (area + 0x80400 + 8 * b) (List.replicate 8 0) false) s
      let s := match s.witExp (s.pol job) with
        | none => s
        | some w => (blocks.filter (sampled w step)).foldl (fun s b => s.objWrite (s.recAt true job b) (List.replicate 8 0) false) s
      let s := ((s.setReg (CRU_JOB_W1 (C / 8) (C % 8) e) 0).setReg (CRU_JOB_W2 (C / 8) (C % 8) e) (blocks.length % 2 ^ 24)).setReg
        (CRU_JOB_W3 (C / 8) (C % 8) e) 0
      some (s.setPart C e jtOpen job step)

/-! ### packets -/

/-- A contribution (R306). -/
def accPkt (dst step job slot copy shard b : Nat) (ext : Nat) (wide bad : Bool) (data : List Byte) : Packet :=
  { type := if wide then 2 else 3, poison := bad, src := 0, dst := dst, tag := step % 65536,
    args := job + slot % 4096 * 2 ^ 12 + copy * 2 ^ 24 + shard % 65536 * 2 ^ 26, addr := b, ext := ext, data := data }
def accExt (scale : Nat) (zero esc samp : Bool) (fmt count : Nat) : Nat :=
  scale + b2n zero * 2 ^ 8 + b2n esc * 2 ^ 9 + b2n samp * 2 ^ 10 + fmt * 2 ^ 12 + count * 2 ^ 16
/-- The DONE of R309. -/
def donePkt (dst job C slot copy : Nat) (lost : Bool) (npkt step : Nat) : Packet :=
  { type := 8, ord := true, src := 0, dst := dst, args := 6 + job * 2 ^ 8,
    addr := C * 2 ^ 4 + b2n lost * 2 ^ 11 + slot % 4096 * 2 ^ 12 + copy * 2 ^ 24, ext := npkt % 2 ^ 32 + step % 65536 * 2 ^ 32 }

/-- Count a contribution toward a Crucible, or take one back that was lost. -/
def State.countSent (s : State) (k : Nat) : State :=
  { s with cru := { s.cru with sent := mapSet (fun _ => 0) k (mapGet (fun _ => 0) k s.cru.sent + 1) s.cru.sent } }
/-- A contribution came back undelivered (R310): it is not in NPKT, and the DONE carries LOST.  Witness copies are not counted. -/
def State.contribLost (s : State) (p : Packet) : State :=
  let job := bits p.args 0 12
  let slot := bits p.args 12 12
  if 2 ≤ bits p.args 24 2 then s
  else
    let fwd := s.dirLink job && slot == s.fld (DIR_W5 job) DIR_W5_NEXT_SLOT && !(s.dirContrib job && slot == s.fld (DIR_W0 job) DIR_W0_SLOT)
    let k := (job + (if fwd then 4096 else 0)) * 128 + s.cruOf job (bits p.args 26 16)
    -- one of another step is in no count that is still open
    if p.tag % 65536 ≠ (if fwd then s.jobStep job else s.stepNum % 65536) then s
    else
      let sent := mapSet (fun _ => 0) k (mapGet (fun _ => 0) k s.cru.sent - 1) s.cru.sent
      { s with cru := { s.cru with sent := sent, lost := setInsert k s.cru.lost } }

/-! ### element codes (R305, R312) -/

/-- Format of an FMT code of a contribution; 0 is FP32. -/
def accFmt : Nat → Option Fmt
  | 1 => some .e4m3 | 2 => some .e5m2 | 3 => some .bf16 | _ => none
/-- A decoded element: code × 2^(SCALE − 127), exactly into FP32, ±Inf beyond its range; a code of 0xFF is NaN (R81). -/
def accElem (f : Fmt) (scale c : Nat) : Nat :=
  if scale = 255 then 0x7FC00000
  else match fmtDecode f true c with
    | .fin n m e => f32 (.fin n m (e + ((scale : Int) - 127)))
    | v => f32 v
/-- The 256 decoded FP32 images of a contribution. -/
def accVals (p : Packet) : List Nat :=
  if bit p.ext 8 then List.replicate 256 0
  else if p.type = 2 then unpackCodes 32 256 p.data
  else match accFmt (bits p.ext 12 4) with
    | some f => (unpackCodes f.width 256 p.data).map (accElem f (p.ext % 256))
    | none => List.replicate 256 0
def imgFin (v : Nat) : Bool := (fv32 v).isFin
def imgZero (v : Nat) : Bool := (fv32 v).isZero

/-- Encode elements at a block scale code: codes and their counts. -/
def blockCodes (f : Fmt) (zm : Bool) (scale : Nat) (vals : List Nat) : List Nat × ConvCnt :=
  vals.foldl (fun (acc : List Nat × ConvCnt) v =>
    let x : FV := match fv32 v with
      | .fin n m e => .fin n m (e - ((scale : Int) - 127))
      | y => y
    let r := fmtConvert f true zm .ne x
    (acc.1 ++ [r.1], acc.2.plus r.2)) ([], {})

/-! ### closing (R316 to R319, R321 to R323) -/

/-- Entry of a slot and copy in a part section, and the slot table entry (R300). -/
def State.psAddr (s : State) (job C slot copy : Nat) : Nat :=
  s.areaAddr job + 4096 * s.partIx job C + (2 * slot + copy) * 8
def State.slotEntry (s : State) (job slot : Nat) : Nat := s.objNat (s.areaAddr job + 0x80000 + 4 * slot) 4
/-- Complete slots of a part. -/
def State.slotsDone (s : State) (job C : Nat) : Nat :=
  ((List.range (s.fld (DIR_W1 job) DIR_W1_NSLOT)).filter (fun k => [0, 1].any (fun c =>
    let e := s.objNat (s.psAddr job C k c) 8
    bit e 48 && bits e 0 24 == bits e 24 24))).length

/-- Outcome of a touchstone comparison (R323): none when it is skipped; the elements of a poisoned sum are not finite (R312). -/
def touchstone (a v : Staged) : Option Bool :=
  if brCount a.word ≠ brCount v.word ∨ brPoison a.word ∨ brPoison v.word ∨ a.sums.any (fun x => !imgFin x) ∨ v.sums.any (fun x => !imgFin x) then none
  else
    let m := amaxOf ((a.sums ++ v.sums).map fv32)
    let tol := m.mul (.fin false 1 (-16))
    some ((a.sums.zip v.sums).all (fun p => (((fv32 p.1).add (fv32 p.2).negate).abs).leFin tol))

/-- The home layer that names a job. -/
def State.jobLayer (s : State) (job : Nat) : Option (List Byte) :=
  s.progLayers.find? (fun b => lJob b == job && lHome b == s.devId)

/-- The layer of a forwarded block: the first that names the job, wherever it has its home (R297). -/
def State.forwardLayer (s : State) (job : Nat) : Option (List Byte) := s.progLayers.find? (fun b => lJob b == job)
/-- The whole step number nearest STEP_NUM that a part's STEP, modulo 65,536, stands for. -/
def State.fullStep (s : State) (step : Nat) : Nat :=
  let ahead := (step + 65536 - s.stepNum % 65536) % 65536
  if stepNewer step (s.stepNum % 65536) then s.stepNum + ahead else s.stepNum + ahead - (if ahead = 0 then 0 else 65536)
/-- Conversion counts of a forwarded block go to the record of the layer that names the job (R93, R327), under the whole step number
of the part. -/
def State.forwardCnt (s : State) (d job step : Nat) (c : ConvCnt) : State :=
  match s.forwardLayer job with
  | none => s
  | some b =>
    let r : AssayRec := { layer := lLayerId b, step := s.fullStep step, sat := c.sat, und := c.und, nan := c.nan, inf := c.inf, flag := c.flag }
    s.setDie d { s.die d with merge := addRec r (s.die d).merge }
/-- Forward one block of a chain link to NEXT (R321, R322).  Its elements convert under the ZMODE of the layer that names the job,
native form where no layer does.  A clamp of the need code adds to no record: R89 counts those of the packer's scales, and the table
of R327 counts a link's conversion of the elements (DEDUCED). -/
def State.forwardBlk (s : State) (job C step b : Nat) (e : Staged) (bad : Bool) : State :=
  if !brTouch e.word then s
  else
    let fmt := mapGet (fun _ => 0) (job * 2 ^ 24 + b) s.cru.fmts
    let next := s.fld (DIR_W5 job) DIR_W5_NEXT
    let slot := s.fld (DIR_W5 job) DIR_W5_NEXT_SLOT
    let shard := b / s.shardBlk job
    let zero := e.sums.all imgZero
    let amax := amaxOf (e.sums.map fv32)
    let agA := s.areaAddr job + s.agOff job + b
    let a := s.objNat agA 1
    let s := s.objSeen agA 1 none
    let q := fvNat ((accFmt fmt).getD .fp32).qmax
    let need := max 1 (pickBlock amax q).code
    let idle := fmt = 0 ∨ amax.isZero
    let exceeds := !(amax.leFin (q.mul (.fin false 1 ((a : Int) - 127))))
    let scale := if idle then 0x7F else if a = 0 ∨ exceeds then need else a
    let esc := !idle && a != 0 && exceeds
    let enc := match accFmt fmt with
      | none => (([] : List Nat), ({} : ConvCnt))
      | some f => blockCodes f (match s.forwardLayer job with | some l => lZmode l | none => false) scale e.sums
    let data := if zero then [] else match accFmt fmt with
      | none => packCodes 32 e.sums
      | some f => packCodes f.width enc.1
    let s := if zero then s else s.forwardCnt (C / 8) job step enc.2
    let samp := match s.witExp (s.pol job) with | some w => sampled w step b | none => false
    let ext := accExt scale zero esc samp fmt (brCount e.word)
    let p (copy : Nat) : Packet := accPkt next step job slot copy shard b ext (fmt == 0) (bad || brPoison e.word) data
    let s := s.sendPlain (p 0)
    let s := if samp then s.sendPlain (p 2) else s
    let s := s.countSent ((job + 4096) * 128 + s.cruOf job shard)
    let s := s.bump (CRU_FWD_LO (C / 8) (C % 8)) 1
    let s := if esc then s.raise (CRU_EVENT (C / 8) (C % 8)) CRU_EVENT_ESC else s
    if idle then s else s.objWrite agA (leBytes 1 need) false

/-- Result elements of a block (R318); none when they are poisoned. -/
def resultVals (zm : Bool) (n : Nat) (e : Staged) : Option (List Nat) :=
  if brPoison e.word then none
  else if brCount e.word = 0 then some (List.replicate n 0)
  else some ((e.sums.take n).map (fun x => f32Store zm (f32 ((fv32 x).div (fvNat (brCount e.word))))))

/-- Close one block: its counts, and its result or its forward. -/
def State.closeBlk (s : State) (job C step : Nat) (zm failed : Bool) (b : Nat) : State :=
  let r := s.blkRead C false job b
  let s := s.blkSeen C false job b
  let e := r.1
  let s := s.blkErr C r.2
  let s := if brCount e.word < s.fld (DIR_W1 job) DIR_W1_NEXP then s.bumpSat (DIR_W13 job) DIR_W13_SHORT 1 else s
  let s := if bit e.word 11 then s.bumpSat (DIR_W14 job) DIR_W14_QUARB 1 else s
  let s := if bit e.word 9 then s.bumpSat (DIR_W15 job) DIR_W15_ESCB 1 else s
  let s := s.objWrite (s.recAt false job b) (leBytes 8 e.word) false
  if s.dirLink job then s.forwardBlk job C step b e failed
  else
    let n := s.blkLen job b
    let nf (s : State) : State := s.setFlag (DIR_W12 job) DIR_W12_NF true
    match (if failed then none else resultVals zm n e) with
    | none => nf (s.objWrite (s.resBlk job b) (List.replicate (4 * n) 0) true)
    | some v =>
      let s := s.objWrite (s.resBlk job b) (packCodes 32 v) false
      if v.any (fun x => !imgFin x) then nf s else s

/-- Compare the sampled blocks of a part with their witnesses; the failing blocks. -/
def State.compareBlks (s : State) (job C : Nat) : State × List Nat :=
  match s.witExp (s.pol job) with
  | none => (s, [])
  | some _ =>
    (s.partBlocks job C).foldl (fun (acc : State × List Nat) b =>
      let ra := acc.1.blkRead C false job b
      let a := ra.1
      let t := (acc.1.blkSeen C false job b).blkErr C ra.2
      if !bit a.word 12 then (t, acc.2)
      else
        let rv := t.blkRead (witnessOf C) true job b
        let v := rv.1
        let t := (t.blkSeen (witnessOf C) true job b).blkErr (witnessOf C) rv.2
        match touchstone a v with
        | none => (t.raise (CRU_EVENT (C / 8) (C % 8)) CRU_EVENT_WIT_SKIP, acc.2)
        | some true => (t, acc.2)
        | some false => (t.raise (CRU_EVENT (C / 8) (C % 8)) CRU_EVENT_WIT_MISMATCH, acc.2 ++ [b])) (s, [])

/-- A job closes when all its parts have closed (R319); a link then sends its DONE (R321). -/
def State.jobClose (s : State) (job : Nat) : State :=
  let step := s.jobStep job
  let sts := (List.range (s.nparts job)).map (fun i => match s.partAt job (s.cruOf job i) with
    | some (_, w) => if ptStep w = step then ptState w else 0
    | none => 0)
  if !(sts.all (fun x => x == jtClosed || x == jtFailed)) then s
  else
    let s := s.setFld (DIR_W12 job) DIR_W12_JSTATE (if sts.any (fun x => x == jtFailed) then 3 else 2)
    let s := if s.flag (DIR_W12 job) DIR_W12_NF then s.raise CRU_GEVENT CRU_GEVENT_NF else s
    if !s.dirLink job then s
    else (List.range (s.nparts job)).foldl (fun s i =>
      let C := s.cruOf job i
      let k := (job + 4096) * 128 + C
      s.send (donePkt (s.fld (DIR_W5 job) DIR_W5_NEXT) job C (s.fld (DIR_W5 job) DIR_W5_NEXT_SLOT) 0 (s.cru.lost.contains k)
        (mapGet (fun _ => 0) k s.cru.sent) step) .other) s

/-- A part closes (R318); `forced` is a part section lost to an uncorrectable error (R325). -/
def State.closePart (s : State) (job C e w : Nat) (forced : Bool) : State :=
  let step := ptStep w
  let cmp := s.compareBlks job C
  let s := cmp.1
  let failed := forced || !cmp.2.isEmpty
  let zm := match s.jobLayer job with | some b => lZmode b | none => false
  let blocks := s.partBlocks job C
  let s := blocks.foldl (fun s b => s.closeBlk job C step zm failed b) s
  let s := s.setReg (CRU_JOB_W3 (C / 8) (C % 8) e) (blocks.length % 2 ^ 24)
  let s := s.stageDrop C false job
  let s := s.setPart C e (if failed then jtFailed else jtClosed) job step
  let s := if cmp.2.isEmpty then s
    else ((s.setFlag (DIR_W12 job) DIR_W12_MISMATCH true).raise CRU_GEVENT CRU_GEVENT_MISMATCH).fault 2 0x0202
      (CRU_EVENT (C / 8) (C % 8)) (job + cmp.2.headD 0 * 2 ^ 24)
  let s := if forced then s.fault 2 0x0203 (CRU_EVENT (C / 8) (C % 8)) (job + C * 2 ^ 24) else s
  s.jobClose job

/-- After an arrival or a DONE: a complete part closes, and a part whose section is lost fails (R316, R325). -/
def State.partCheck (s : State) (job C : Nat) : State :=
  match s.partAt job C with
  | none => s
  | some (e, w) =>
    if ptState w ≠ jtOpen then s
    else if (s.objRead (s.areaAddr job + 4096 * s.partIx job C) 4096).2 then
      (s.objSeen (s.areaAddr job + 4096 * s.partIx job C) 4096 none).closePart job C e w true
    else
      let n := s.slotsDone job C
      let s := s.setReg (CRU_JOB_W1 (C / 8) (C % 8) e) n
      if n = s.fld (DIR_W1 job) DIR_W1_NSLOT then s.closePart job C e w false else s

/-! ### arrivals (R311 to R313) -/

/-- A discard: counted, with its event, and for BAD and FULL with CRU_BADINFO. -/
def State.cruDiscard (s : State) (C : Nat) (f : Fld) (info : Option (Nat × Nat × Nat)) : State :=
  let s := (s.bump (CRU_DISCARD_LO (C / 8) (C % 8)) 1).raise (CRU_EVENT (C / 8) (C % 8)) f
  match info with
  | none => s
  | some (job, why, slot) => s.setReg (CRU_BADINFO (C / 8) (C % 8)) (job + why * 2 ^ 12 + slot % 4096 * 2 ^ 16)

/-- Reason the fields of a contribution fail check 3 of R311; 0 when they pass. -/
def State.accReason (s : State) (p : Packet) : Nat :=
  let job := bits p.args 0 12
  let slot := bits p.args 12 12
  let copy := bits p.args 24 2
  let b := p.addr % 2 ^ 32
  if bits p.args 26 16 ≠ b / s.shardBlk job then 2
  else if s.nblk job ≤ b then 3
  else if s.fld (DIR_W1 job) DIR_W1_NSLOT ≤ slot then 4
  else if copy = 1 ∧ !(polBackup (s.pol job) && bit (s.slotEntry job slot) 1) then 5
  else if 2 ≤ copy ∧ (s.witExp (s.pol job)).isNone then 5
  else if p.type = 3 ∧ (accFmt (bits p.ext 12 4)).isNone then 6
  else 0

/-- What an arrival does to its block (R313). -/
inductive Applied where
  | dup | quar | over
  /-- The new sums and record, whether the sum was added to, and whether a non-finite element was. -/
  | put (sums : List Nat) (word : Nat) (added nf : Bool)
deriving DecidableEq, Repr

/-- R313, from the block, the packet, the slot table entry and the policy. -/
def applyAcc (e : Staged) (p : Packet) (slot pol : Nat) : Applied :=
  let backed := bit slot 1
  let bix := 16 + bits slot 2 4
  let zero := bit p.ext 8 && !p.poison
  let vals := accVals p
  let nf := p.poison || vals.any (fun v => !imgFin v)
  let n := bits p.ext 16 8
  let inc := if zero then (if bit slot 0 then n else if polZcnt pol then 1 else 0) else n
  if backed && bit e.word bix then .dup
  else if !zero && nf && polNanq pol then .quar
  else if 255 < brCount e.word + inc then .over
  else
    let first := !brTouch e.word
    let sums := if first then vals else if zero then e.sums else (e.sums.zip vals).map (fun x => f32Add x.1 x.2)
    let w := setBits e.word 0 8 (brCount e.word + inc)
    let w := setBit w 8
    let w := if bit p.ext 9 then setBit w 9 else w
    let w := if nf then setBit w 10 else w
    let w := if bit p.ext 10 then setBit w 12 else w
    let w := if p.poison then setBit w 13 else w
    let w := if backed && !(zero && bit slot 0) then setBit w bix else w
    .put sums w (!first && !zero) nf

/-- Apply a contribution that passed R311 at Crucible C, to the block or to its witness entry. -/
def State.cruAdd (s : State) (C : Nat) (wit : Bool) (p : Packet) : State :=
  let job := bits p.args 0 12
  let slot := bits p.args 12 12
  let b := p.addr % 2 ^ 32
  let ev := CRU_EVENT (C / 8) (C % 8)
  let s := (if p.poison then s.raise ev CRU_EVENT_POISON_IN else s).wake (18432 + C)
  let r := s.blkRead C wit job b
  let s := s.blkSeen C wit job b
  let s := s.blkErr C r.2
  let e := r.1
  let put (s : State) (word : Nat) : State := s.blkPut C wit job b e.sums word
  match applyAcc e p (s.slotEntry job slot) (s.pol job) with
  | .dup => (put s (setBit e.word 14)).cruDiscard C CRU_EVENT_DUP none
  | .quar => (put s (setBit e.word 11)).cruDiscard C CRU_EVENT_QUAR none
  | .over => s.cruDiscard C CRU_EVENT_BAD (some (job, 7, slot))
  | .put sums word added nf =>
    let fk := job * 2 ^ 24 + b
    let s := if brTouch e.word ∨ wit then s else
      { s with cru := { s.cru with fmts := mapSet (fun _ => 0) fk (if p.type = 2 then 0 else bits p.ext 12 4) s.cru.fmts } }
    let s := s.blkPut C wit job b sums word
    let s := s.bump (CRU_APPLIED_LO (C / 8) (C % 8)) 1
    let s := if added then s.bump (CRU_ADDS_LO (C / 8) (C % 8)) 256 else s
    if nf then s.raise ev CRU_EVENT_NANP else s

/-- A contribution arrives (R311, R313): the Crucible is that of its SHARD, or its witness for a witness copy; the one it was
sent to when the device has no entry for the job. -/
def State.cruArrive (s : State) (named : Nat) (p : Packet) : State :=
  let job := bits p.args 0 12
  let slot := bits p.args 12 12
  let copy := bits p.args 24 2
  let own := if s.dirRecv job then s.cruOf job (bits p.args 26 16) else named
  let C := if 2 ≤ copy then witnessOf own else own
  let part := s.partAt job own
  let late := match part with | some (_, w) => ptStep w == p.tag % 65536 && ptState w != jtOpen | none => false
  let stale := match part with | some (_, w) => stepOlder p.tag (ptStep w) | none => false
  if stale then s.cruDiscard C CRU_EVENT_STALE none
  else if late then s.cruDiscard C CRU_EVENT_LATE none
  else if !s.dirRecv job then s.cruDiscard C CRU_EVENT_BAD (some (job, 1, slot))
  else if s.nparts job ≤ s.partIx job own then s.cruDiscard C CRU_EVENT_BAD (some (job, s.accReason p, slot))
  else
    let isOpen := match part with | some (_, w) => ptStep w == p.tag % 65536 | none => false
    match (if isOpen then some s else s.openPart job own (p.tag % 65536)) with
    | none => s.cruDiscard C CRU_EVENT_FULL (some (job, 8, slot))
    | some s =>
      let why := s.accReason p
      if why ≠ 0 then s.cruDiscard C CRU_EVENT_BAD (some (job, why, slot))
      else
        let s := if 2 ≤ copy then s
          else
            let a := s.psAddr job own slot copy
            let v := s.objNat a 8
            s.objWriteNat a 8 (setBits v 0 24 (bits v 0 24 + 1))
        (s.cruAdd C (decide (2 ≤ copy)) p).partCheck job own

/-- A request packet of a type. -/
def reqOf (p : Packet) (t : Nat) : Bool := p.type == t && !p.rsp
def execAcc (d : DieIx) (c : CtlIx) (p : EntryRead Packet) (s : State) : Res :=
  done s (if reqOf p.val 2 then (s.stageErrs p.ue).cruArrive (8 * d.val + c.val) p.val else s)
def execAccb (d : DieIx) (c : CtlIx) (p : EntryRead Packet) (s : State) : Res :=
  done s (if reqOf p.val 3 then (s.stageErrs p.ue).cruArrive (8 * d.val + c.val) p.val else s)

/-- A DONE arrives (R309, R315 to R317); one of an older step or for a part that is not open changes nothing. -/
def State.cruDone (s : State) (p : Packet) : State :=
  let job := bits p.args 8 12
  let C := bits p.addr 4 7
  let slot := bits p.addr 12 12
  let step := bits p.ext 32 16
  if p.addr % 16 ≠ 0 then s.raise (LD_EVENT 0) LD_EVENT_DENIED
  else if !s.dirRecv job ∨ s.nparts job ≤ s.partIx job C ∨ s.fld (DIR_W1 job) DIR_W1_NSLOT ≤ slot ∨ 2 ≤ bits p.addr 24 2 then s
  else
    let part := s.partAt job C
    let old := match part with | some (_, w) => stepOlder step (ptStep w) || (ptStep w == step && ptState w != jtOpen) | none => false
    let isOpen := match part with | some (_, w) => ptStep w == step | none => false
    if old then s
    else match (if isOpen then some s else s.openPart job C step) with
      | none => s
      | some s =>
        let a := s.psAddr job C slot (bits p.addr 24 2)
        let v := s.objNat a 8
        let s := s.objWriteNat a 8 (bits v 0 24 + p.ext % 2 ^ 24 * 2 ^ 24 + 2 ^ 48 + b2n (bit p.addr 11) * 2 ^ 49)
        let s := if polDlen (s.pol job) then { s with cru := { s.cru with timers := setInsert job s.cru.timers } } else s
        s.partCheck job C
def execJobDone (p : EntryRead Packet) (s : State) : Res := done s (if ctlSub p.val 6 then (s.stageErrs p.ue).cruDone p.val else s)

/-- The deadline of a job (R317): every part still open closes. -/
def State.cruDeadline (s : State) (job : Nat) : State :=
  if !s.cru.timers.contains job then s
  else
    let s := { s with cru := { s.cru with timers := setErase job s.cru.timers } }
    let opens := s.parts.filter (fun p => ptJob p.2.2 == job && ptState p.2.2 == jtOpen && ptStep p.2.2 == s.jobStep job)
    if opens.isEmpty then s
    else
      let s := s.setFlag (DIR_W12 job) DIR_W12_DL true
      let s := opens.foldl (fun s p => s.closePart job p.1 p.2.1 p.2.2 false) s
      let s := s.raise CRU_GEVENT CRU_GEVENT_DEADLINE
      s.fault 2 0x0201 CRU_GEVENT (job + s.fld (DIR_W13 job) DIR_W13_SHORT * 2 ^ 24)
def execCruDeadline (job : EntryRead (Fin 4096)) (s : State) : Res := done s ((s.stageErrs job.ue).cruDeadline job.val.val)

/-! ### the step engine's side -/

/-- The receiving device starts its sync microstep (R315): every part of its jobs is open for the step; one that an earlier
contribution opened stays, one left from an earlier run of the step number opens anew. -/
def State.cruSync (s : State) : State :=
  let step := s.stepNum % 65536
  (s.dirJobs.filter (fun j => s.dirRecv j)).foldl (fun s job =>
    let again := s.cru.seen.any (fun x => x / 128 == job) && s.jobStep job == step
    let s := if again ∨ s.nparts job = 0 then s.jobReset job step else s
    let s := (List.range (s.nparts job)).foldl (fun s i =>
      let C := s.cruOf job i
      let stays := !again && (match s.partAt job C with | some (_, w) => ptStep w == step | none => false)
      let s := if stays then s else (s.openPart job C step).getD s
      { s with cru := { s.cru with seen := setInsert (job * 128 + C) s.cru.seen } }) s
    if s.nparts job = 0 then s.jobClose job else s) s

/-- Every job homed on the device has closed in this step (R197). -/
def State.jobsClosed (s : State) : Bool :=
  (s.dirJobs.filter (fun j => s.dirHome j)).all (fun j =>
    s.jobStep j == s.stepNum % 65536 && (s.fld (DIR_W12 j) DIR_W12_JSTATE == 2 || s.fld (DIR_W12 j) DIR_W12_JSTATE == 3))
/-- A job homed on the device whose NF or MISMATCH stands (R319). -/
def State.jobFailed (s : State) : Option Nat :=
  (s.dirJobs.filter (fun j => s.dirHome j && s.jobStep j == s.stepNum % 65536)).find? (fun j =>
    s.flag (DIR_W12 j) DIR_W12_NF || s.flag (DIR_W12 j) DIR_W12_MISMATCH)

/-- A step starts: the packers are empty and nothing has been sent; what a link has forwarded stands until its job's next step. -/
def State.packStart (s : State) : State :=
  { s with cru := { s.cru with packs := [], sent := s.cru.sent.filter (fun e => decide (4096 * 128 ≤ e.1)),
                               lost := s.cru.lost.filter (fun k => decide (4096 * 128 ≤ k)) } }

/-! ### the packers (R304 to R310) -/

/-- Send a block, or apply it here when TARGET is the device itself; a sampled block goes twice. -/
def State.sendBlk (s : State) (d : Nat) (layer : List Byte) (job b : Nat) (elems : List (Nat × Nat)) (bad : Bool) : State :=
  if s.eng.aborted then s
  else
    let pol := lJobPol layer
    let wide := polWide pol
    let fine := s.fineOf layer
    let fmt := if wide then 0 else if fine < 2 then 2 else 3
    let f := (accFmt fmt).getD .fp32
    let n := s.blkLen job b
    let vals := (List.range 256).map (fun i => mapGet (fun _ => 0) i elems)
    let zero := !bad && vals.all imgZero
    let pick := pickBlock (amaxOf (vals.map fv32)) (fvNat f.qmax)
    let scale := if wide ∨ zero then 0x7F else pick.code
    let enc := blockCodes f (lZmode layer) scale (vals.take n)
    let data := if zero then [] else if wide then packCodes 32 vals else packCodes f.width (enc.1 ++ List.replicate (256 - n) 0)
    let cnt := enc.2.plus pick.cnt
    let s := if wide then s else
      let r : AssayRec := { layer := lLayerId layer, step := s.stepNum, elems := n, sat := cnt.sat, und := cnt.und, nan := cnt.nan,
                            inf := cnt.inf, flag := cnt.flag }
      s.setDie d { s.die d with merge := addRec r (s.die d).merge }
    let samp := match s.witExp pol with | some w => sampled w s.stepNum b | none => false
    let shard := b / s.shardBlk job
    let slot := s.fld (DIR_W0 job) DIR_W0_SLOT
    let copy := s.fld (DIR_W0 job) DIR_W0_COPY
    let dst := s.fld (DIR_W0 job) DIR_W0_TARGET
    let p (c : Nat) : Packet := accPkt dst s.stepNum job slot c shard b (accExt scale zero false samp fmt 1) wide bad data
    let out (s : State) (q : Packet) : State := if dst = s.devId then s.cruArrive (s.cruOf job shard) q else s.sendPlain q
    let s := s.countSent (job * 128 + s.cruOf job shard)
    let s := out s (p copy)
    if samp then out s (p (copy + 2)) else s

/-- Add elements of one block to the packer of die d; a complete block leaves.  Poisoned elements count as no number. -/
def State.packAdd (s : State) (d : Nat) (layer : List Byte) (b off : Nat) (vals : List Nat) (bad : Bool) : State :=
  let job := lJob layer
  let vals := if bad then vals.map (fun _ => 0x7FC00000) else vals
  let open_ := mapGet (fun _ => []) d s.cru.packs
  let cur := (open_.find? (fun x => x.job == job && x.block == b)).getD ⟨job, b, [], false⟩
  let rest := open_.filter (fun x => !(x.job == job && x.block == b))
  let elems := (vals.zip (List.range vals.length)).foldl (fun l x => mapInsert (off + x.2) x.1 (mapErase (off + x.2) l)) cur.elems
  let bad := bad || cur.bad
  let keep (l : List OpenBlock) : State := { s with cru := { s.cru with packs := mapSet (fun _ => []) d l s.cru.packs } }
  if s.blkLen job b ≤ elems.length then (keep rest).sendBlk d layer job b elems bad
  else (keep (rest ++ [⟨job, b, elems, bad⟩])).noteQueue (1024 + d) 17 (rest.length + 1)

/-- Hand a run of elements of row n from column k on to the packer of die d. -/
def State.packRun (s : State) (d : Nat) (layer : List Byte) (n : Nat) : Nat → Nat → List Nat → Bool → State
  | 0, _, _, _ => s
  | fuel + 1, k, vals, bad =>
    if vals.isEmpty then s
    else
      let m := 256 - k % 256
      let b := n * s.bpr (lJob layer) + k / 256
      (s.packAdd d layer b (k % 256) (vals.take m) bad).packRun d layer n fuel (k + m) (vals.drop m) bad

/-- Elements of row n from column k on that the packer of die d still holds are poisoned: the block goes POISON, and they count as
no number in its scale (R305). -/
def State.packPoison (s : State) (d : Nat) (layer : List Byte) (n k m : Nat) : State :=
  let job := lJob layer
  let row := n * s.bpr job
  let l := (mapGet (fun _ => []) d s.cru.packs).map (fun x =>
    if x.job = job ∧ row + k / 256 ≤ x.block ∧ x.block ≤ row + (k + m - 1) / 256 then
      let c0 := 256 * (x.block - row)
      { x with bad := true, elems := x.elems.map (fun y => if k ≤ c0 + y.1 ∧ c0 + y.1 < k + m then (y.1, 0x7FC00000) else y) }
    else x)
  { s with cru := { s.cru with packs := mapSet (fun _ => []) d l s.cru.packs } }

/-- CONTRIBUTION_DONE (R309): the DONEs of the jobs of a mode, to every part. -/
def State.sendDones (s : State) (mode : Nat) : State :=
  let jobs := (s.progLayers.filter (fun b => s.dirContrib (lJob b) && polMode (lJobPol b) == mode)).foldl
    (fun l b => setInsert (lJob b) l) []
  let s := { s with cru := { s.cru with packs := s.cru.packs.filterMap (fun e =>
    let l := e.2.filter (fun x => !jobs.contains x.job)
    if l.isEmpty then none else some (e.1, l)) } }
  jobs.foldl (fun s job => (List.range (s.nparts job)).foldl (fun s i =>
    let C := s.cruOf job i
    let dst := s.fld (DIR_W0 job) DIR_W0_TARGET
    let p := donePkt dst job C (s.fld (DIR_W0 job) DIR_W0_SLOT) (s.fld (DIR_W0 job) DIR_W0_COPY)
      (s.cru.lost.contains (job * 128 + C)) (mapGet (fun _ => 0) (job * 128 + C) s.cru.sent) s.stepNum
    if dst = s.devId then s.cruDone p else s.send p .other) s) s

end Sys2Proof.Machine
end

