-- ==== Sys2Proof/Machine/Steering.lean ====
section
/-! DEFINITION. The steering engine (R148, R152 to R158): the decision, what it holds until the step boundary, and the headers
written there (R157, R163). -/

namespace Sys2Proof.Machine

/-! ### entries -/

/-- Demotion floor of a layer (R133). -/
def steerFloor (b : List Byte) : Nat := max (lFmin b) (if 32768 < lK b then 2 else 0)
/-- Word 0 of an entry as opened from the layer descriptor (R158). -/
def steerOpenW0 (b : List Byte) : Nat := 1 + lFine b * 2 + b2n (lFlock b) * 8 + steerFloor b * 16
def State.steerValid (s : State) (id : Nat) : Bool := s.flag (STEER_ENTRY_W0 id) STEER_ENTRY_W0_VALID
/-- Fineness a MAKE takes (R131, R132, R159, R161): the descriptor's for a locked layer or one with no valid header, else the held
decision's, the entry's, or that of the newest header. -/
def State.makeFine (s : State) (b : List Byte) : Nat :=
  if lFlock b || s.wcNone b then lFine b
  else match s.eng.changes.find? (fun c => c.layer == lLayerId b) with
    | some c => bits (c.words.headD 0) 1 2
    | none =>
      if s.steerValid (lLayerId b) then s.fld (STEER_ENTRY_W0 (lLayerId b)) STEER_ENTRY_W0_FINE
      else match s.wcSlotAt b (2 ^ 32) with
        | some i => whFine (s.wcHead b i).1
        | none => lFine b
/-- MEASURE merges its range's amax for a target STEP (R159). -/
def State.mergeWamax (s : State) (id target amax : Nat) : State :=
  let cur := if s.reg (STEER_ENTRY_W7 id) = target % 2 ^ 32 then s.reg (STEER_ENTRY_W4 id) else 0
  (s.setReg (STEER_ENTRY_W4 id) (maxImg cur amax)).setReg (STEER_ENTRY_W7 id) (target % 2 ^ 32)

/-! ### the update-to-weight ratio (R148) -/

/-- UW is written into die 0's record, after HEAD when its STEP differs, and into the entry.  A HEAD that reads poisoned is written anew
as well, with POISON for the counts it has lost (DESIGN CHOICE; R470 speaks of a merge and of a differing STEP). -/
def State.writeUw (s : State) (id : Nat) : State :=
  match s.eng.uw.find? (fun e => e.1 == id) with
  | none => s
  | some (_, dw2, w2) =>
    let uw := if (fv32 w2).isZero then 0x7F800000 else f32Sqrt (f32Div dw2 w2)
    let a := s.dieRecAddr s.stepNum id 0
    let old := s.memRead a 64
    let s := s.memSeen a 64
    let s := if old.2 ∨ sumStep old.1 ≠ s.stepNum then
        s.memWrite a (summaryBytes { layer := id, step := s.stepNum, poison := old.2 } s.devId false) false else s
    let s := (s.memWrite (a + 0x148) (leBytes 4 uw) false).setReg (STEER_ENTRY_W3 id) uw
    { s with eng := { s.eng with uw := mapErase id s.eng.uw } }
/-- Indices of the OPT descriptors in the COMMIT phases of the active program. -/
def State.optList (s : State) : List Nat :=
  match s.eng.active with
  | none => []
  | some p =>
    ((List.range (hPhases p.hdr)).filter (fun i => phKind (s.phaseW0 p i) == 3)).flatMap (fun i =>
      (List.range 16).flatMap (fun d => ((List.range (s.phaseCount p i d)).map (fun j => s.phaseFirst p i d + j)).filter (fun ix =>
        s.memNat (p.descAddr ix) 1 == 5)))
/-- LAYER_ID of the layer that descriptor ix names. -/
def State.descLayer (s : State) (p : Slot) (ix : Nat) : Nat := lLayerId (s.layerBytes p (bits (s.memNat (p.descAddr ix) 4) 16 12)).1
/-- An OPT descriptor of layer `id` has completed: once the layer's others have too, its ratio is set. -/
def State.optDoneUw (s : State) (id : Nat) : State :=
  match s.eng.active with
  | none => s
  | some p => if s.optList.all (fun ix => s.descLayer p ix != id || s.eng.optIdx.contains ix) then s.writeUw id else s

/-! ### measures (R152) -/

/-- 2^−k as a value. -/
def twoTo (k : Int) : FV := .fin false 1 k
/-- The thresholds of a decision. -/
structure SteerThr where
  sht    : Nat
  satt   : Nat
  undt   : Nat
  ovft   : Nat
  dmarg  : Nat
  uwLo   : Nat
  uwHi   : Nat
deriving DecidableEq, Repr

def State.steerThr (s : State) : SteerThr :=
  ⟨s.fld STEER_THR STEER_THR_SHT, s.fld STEER_THR STEER_THR_SATT, s.fld STEER_THR STEER_THR_UNDT, s.fld STEER_THR STEER_THR_OVFT,
   s.fld STEER_DEMOTE STEER_DEMOTE_DMARG, s.fld STEER_DEMOTE STEER_DEMOTE_UW_LO, s.fld STEER_DEMOTE STEER_DEMOTE_UW_HI⟩

/-- Some measure asks for promotion. -/
def steerAsks (t : SteerThr) (m : AssayRec) : Bool :=
  (!(fv32 m.shErr).isNan && !(fv32 m.shErr).leFin (twoTo (-(t.sht : Int)))) || decide (m.elems < m.sat * 2 ^ t.satt) || decide (m.elems < m.und * 2 ^ t.undt) ||
  decide (m.elems < m.ovf * 2 ^ t.ovft)
/-- Every measure is clean; `uw` is the entry's ratio. -/
def steerClean (t : SteerThr) (m : AssayRec) (uw : Nat) : Bool :=
  (m.shN == 0 || (fv32 m.shErr).leFin (twoTo (-((t.sht + t.dmarg : Nat) : Int)))) &&
  decide (m.sat * 2 ^ (t.satt + t.dmarg) ≤ m.elems) && decide (m.und * 2 ^ (t.undt + t.dmarg) ≤ m.elems) &&
  decide (m.ovf * 2 ^ (t.ovft + t.dmarg) ≤ m.elems) && m.nan == 0 && !m.flag &&
  (twoTo (-(t.uwLo : Int))).leFin (fv32 uw) && (fv32 uw).leFin (twoTo (-(t.uwHi : Int)))
/-- A fraction of severity, in FP32; 0 for no elements. -/
def steerFrac (n k elems : Nat) : Nat := if elems = 0 then 0 else f32 ((fvNat (n * 2 ^ k)).div (fvNat elems))
/-- Severity: the largest of four ratios. -/
def steerSev (t : SteerThr) (m : AssayRec) : Nat :=
  max (f32 ((fv32 m.shErr).mul (twoTo t.sht)))
    (max (steerFrac m.sat t.satt m.elems) (max (steerFrac m.und t.undt m.elems) (steerFrac m.ovf t.ovft m.elems)))

/-! ### the procedure (R154) -/

/-- An eligible layer while a decision is made. -/
structure Cand where
  id    : Nat
  fine  : Nat
  floor : Nat
  pend  : Bool
  pstep : Nat
  run   : Nat
  sev   : Nat
  asks  : Bool
  change : Nat
  dir    : Nat
deriving DecidableEq, Repr

/-- Comes `a` before `b` in the order of R154? -/
def candLe (a b : Cand) : Bool :=
  if a.pend ≠ b.pend then a.pend
  else if a.pend ∧ a.pstep ≠ b.pstep then decide (a.pstep < b.pstep)
  else if a.sev ≠ b.sev then decide (b.sev < a.sev)
  else decide (a.id ≤ b.id)
def candInsert (c : Cand) : List Cand → List Cand
  | [] => [c]
  | x :: l => if candLe c x then c :: x :: l else x :: candInsert c l
/-- The layers of req in order. -/
def candOrder (l : List Cand) : List Cand := l.foldl (fun o c => candInsert c o) []

/-- Promote while the budget lasts; the others become, or stay, pending. -/
def promoteAll (step : Nat) : Nat → List Cand → List Cand
  | _, [] => []
  | 0, c :: l => (if c.pend then c else { c with pend := true, pstep := step }) :: promoteAll step 0 l
  | n + 1, c :: l =>
    { c with fine := c.fine + 1, run := 0, pend := false, change := step, dir := 1 } :: promoteAll step n l
/-- Demote a layer that does not ask. -/
def demoteOne (step steps : Nat) (c : Cand) : Cand :=
  if steps ≠ 0 ∧ steps ≤ c.run ∧ c.floor < c.fine then { c with fine := c.fine - 1, run := 0, change := step, dir := 2 } else c

/-- What a decision gives: the layers as they are held, whether it was a storm, and the numbers promoted, requested, demoted. -/
structure Decision where
  cands    : List Cand
  storm    : Bool
  promoted : Nat
  asked    : Nat
  demoted  : Nat
deriving DecidableEq, Repr

/-- The procedure of R154 once severities, requests and runs are known.  The number asked is that of the set req: a layer at FN3 that
asks is not in it (DESIGN CHOICE for STEER_LASTCNT.REQUESTED, 'Layers that asked', R166). -/
def decideAll (freeze : Bool) (frac budget steps step : Nat) (l : List Cand) : Decision :=
  let req := l.filter (fun c => c.asks && c.fine != 3)
  let rest := l.filter (fun c => !(c.asks && c.fine != 3))
  if freeze then ⟨l, false, 0, req.length, 0⟩
  else if frac * l.length < req.length * 256 then ⟨l, true, 0, req.length, 0⟩
  else
    let up := promoteAll step budget (candOrder req)
    let down := rest.map (fun c => demoteOne step steps { c with pend := false })
    ⟨up ++ down, false, min budget req.length, req.length,
     ((rest.zip down).filter (fun p => decide (p.2.fine < p.1.fine))).length⟩

/-- Layers homed on the device, one entry per LAYER_ID. -/
def State.homedLayers (s : State) : List (List Byte) := (distinctLayers [] s.progLayers).filter (fun b => lHome b == s.devId)
/-- The home record of a layer for the step; empty when none was merged. -/
def State.homeRec (s : State) (id : Nat) : AssayRec :=
  let r := s.memRead (s.homeRecAddr s.stepNum id) 64
  if r.2 ∨ sumStep r.1 ≠ s.stepNum ∨ bits (blkNat r.1 0 4) 0 12 ≠ id then { layer := id } else summaryRec r.1
/-- Summaries are missing at a homed layer (R471). -/
def State.sumShort (s : State) (b : List Byte) : Bool :=
  s.dirRecv (lJob b) &&
  decide ((s.eng.merged.filter (fun x => x / 4096 == lLayerId b)).length < s.fld (DIR_W1 (lJob b)) DIR_W1_NEXP)
/-- Word 0 of a layer's entry, opened when it is not VALID. -/
def State.steerW0 (s : State) (b : List Byte) : Nat :=
  if s.steerValid (lLayerId b) then s.reg (STEER_ENTRY_W0 (lLayerId b)) else steerOpenW0 b
/-- A homed layer as a candidate, with its run updated. -/
def State.candOf (s : State) (b : List Byte) : Cand :=
  let id := lLayerId b
  let w := s.steerW0 b
  let keep := s.steerValid id
  let m := s.homeRec id
  let t := s.steerThr
  let clean := steerClean t m (s.reg (STEER_ENTRY_W3 id))
  { id := id, fine := bits w 1 2, floor := steerFloor b, pend := bit w 6, pstep := if keep then s.reg (STEER_ENTRY_W1 id) else 0,
    run := if clean then min 511 (bits w 8 9 + 1) else 0, sev := steerSev t m, asks := steerAsks t m,
    change := if keep then s.reg (STEER_ENTRY_W5 id) else 0, dir := if keep then s.fld (STEER_ENTRY_W6 id) STEER_ENTRY_W6_LAST_DIR else 0 }
/-- The change a decided candidate becomes; SLOT of word 0 is kept. -/
def Cand.held (slot : Bool) (c : Cand) : SteerChange :=
  ⟨c.id, [1 + c.fine * 2 + c.floor * 16 + b2n c.pend * 64 + b2n slot * 128 + c.run * 256, c.pstep, c.sev, c.change, c.dir]⟩

/-- STEERING_DECISION (R153, R154): the layers are decided and held. -/
def State.steerDecide (s : State) : State :=
  let homed := s.homedLayers
  let s := { s with eng := { s.eng with decided := true } }
  let on := s.flag STEER_CTRL STEER_CTRL_EN && !([STEER_CTRL, STEER_THR, STEER_DEMOTE, STEER_BUDGET].any (fun a => s.parStop.contains a))
  if !on then s
  else
    let locked := homed.filter (fun b => lFlock b || bit (s.steerW0 b) 3)
    let cands := (homed.filter (fun b => !(lFlock b || bit (s.steerW0 b) 3))).map s.candOf
    let short := homed.any s.sumShort
    let s := homed.foldl (fun s b => s.memSeen (s.homeRecAddr s.stepNum (lLayerId b)) 64) s
    let d := decideAll (s.flag STEER_CTRL STEER_CTRL_FREEZE) (s.fld STEER_BUDGET STEER_BUDGET_STORM_FRAC)
      (s.fld STEER_BUDGET STEER_BUDGET_PROMO_BUDGET) (s.fld STEER_DEMOTE STEER_DEMOTE_STEPS) s.stepNum cands
    let s := if cands.any (fun c => c.asks && c.fine == 3) then s.raise STEER_EVENT STEER_EVENT_AT_FINEST else s
    let s := if short then s.raise STEER_EVENT STEER_EVENT_SUM_SHORT else s
    let s := if d.storm then (s.setFlag STEER_CTRL STEER_CTRL_FREEZE true).raise STEER_EVENT STEER_EVENT_STORM else s
    let opened := (locked.filter (fun b => !s.steerValid (lLayerId b))).map (fun b =>
      SteerChange.mk (lLayerId b)
        [setBits (steerOpenW0 b) 7 1 (s.fld (STEER_ENTRY_W0 (lLayerId b)) STEER_ENTRY_W0_SLOT), 0, 0, 0, 0])
    let held := d.cands.map (fun c => Cand.held (s.flag (STEER_ENTRY_W0 c.id) STEER_ENTRY_W0_SLOT) c)
    let s := s.setFld STEER_STAT STEER_STAT_ELIGIBLE cands.length
    let s := s.setFlag STEER_STAT STEER_STAT_HELD true
    let s := s.setReg STEER_LASTCNT (d.promoted + d.asked * 2 ^ 6 + d.demoted * 2 ^ 19)
    { s with eng := { s.eng with changes := held ++ opened, lastDecided := some s.stepNum } }

/-- The COMMIT phases' OPT descriptors of the active program have all completed (R153). -/
def State.optsDone (s : State) : Bool := s.eng.active.isSome && s.optList.all (fun ix => s.eng.optIdx.contains ix)
/-- A COMMIT phase runs. -/
def State.inCommit (s : State) : Bool :=
  match s.eng.active with
  | none => false
  | some p => s.running && s.eng.mode == .phase && phKind (s.phaseW0 p (s.fld STEP_STAT STEP_STAT_PHASE)) == 3
def execSteeringDecision (s : State) : Res :=
  done s (if s.inCommit && !s.eng.decided && !s.eng.aborted && s.optsDone then s.steerDecide else s)

/-! ### the step boundary (R157) -/

/-- One held change: words 0, 1, 2, 5 and 6 of the entry, and FINE of every descriptor of the layer in the active program. -/
def State.applyChange (s : State) (c : SteerChange) : State :=
  let w := c.words
  let s := ((s.setReg (STEER_ENTRY_W0 c.layer) (w.getD 0 0)).setReg (STEER_ENTRY_W1 c.layer) (w.getD 1 0)).setReg
    (STEER_ENTRY_W2 c.layer) (w.getD 2 0)
  let s := (s.setReg (STEER_ENTRY_W5 c.layer) (w.getD 3 0)).setReg (STEER_ENTRY_W6 c.layer) (w.getD 4 0)
  match s.eng.active with
  | none => s
  | some p =>
    (List.range (hLayers p.hdr)).foldl (fun s i =>
      let b := (s.layerBytes p i).1
      if lLayerId b = c.layer ∧ !lFlock b then
        s.memWrite (p.layerAddr i) (leBytes 4 (setBits (lw b 0) 24 2 (bits (w.getD 0 0) 1 2))) false
      else s) s
/-- One held header, and SLOT of its entry. -/
def State.putHeader (s : State) (h : HeaderWrite) : State :=
  let id := whLayer h.bytes
  let slot1 := match s.layerById id with | some b => h.addr == lWcSlotAddr b 1 && h.addr != lWc b | none => false
  (s.objWrite h.addr h.bytes false).setFlag (STEER_ENTRY_W0 id) STEER_ENTRY_W0_SLOT slot1
/-- At the close of the last COMMIT phase: entries, FINE in the program, headers. -/
def State.steerApply (s : State) : State :=
  let s := s.eng.changes.foldl State.applyChange s
  let s := s.eng.headers.foldl State.putHeader s
  let pend := (s.eng.changes.filter (fun c => bit (c.words.headD 0) 6)).length
  let s := if s.eng.decided ∧ s.eng.lastDecided = some s.stepNum then
      (s.setReg STEER_LAST_STEP s.stepNum).setFld STEER_STAT STEER_STAT_PENDING pend
    else s
  let s := s.setFlag STEER_STAT STEER_STAT_HELD false
  { s with eng := { s.eng with changes := [], headers := [], decided := false } }
/-- An abort drops what is held (R157): a storm's FREEZE stands. -/
def State.steerDrop (s : State) : State :=
  let s := s.setFlag STEER_STAT STEER_STAT_HELD false
  { s with eng := { s.eng with changes := [], headers := [], decided := false, uw := [] } }

end Sys2Proof.Machine
end

