-- ==== Sys2Proof/Machine/Engine.lean ====
section
/-! DEFINITION. The step engine (R22 to R25, R168 to R173, R196 to R202) and the barrier channels of the package (R330 to
R343). -/

namespace Sys2Proof.Machine

/-! ### fabric groups (R336 to R340) -/

def State.grpLo (s : State) (c dim : Nat) : Nat := bits (s.reg (BAR_GRP c)) (8 * dim) 4
def State.grpHi (s : State) (c dim : Nat) : Nat := bits (s.reg (BAR_GRP c)) (8 * dim + 4) 4
def State.grpLen (s : State) (c dim : Nat) : Nat := s.grpHi c dim + 1 - s.grpLo c dim
def State.grpEn (s : State) (c : Nat) : Bool := s.flag (BAR_GRP c) BAR_GRP_EN
/-- Devices that VAL covers before stage `dim`. -/
def State.grpFan (s : State) (c dim : Nat) : Nat := (List.range dim).foldl (fun n i => n * s.grpLen c i) 1
/-- Line peers in a dimension. -/
def State.linePeers (s : State) (c dim : Nat) : List Nat :=
  (((List.range (s.grpLen c dim)).map (fun i => s.grpLo c dim + i)).filter (fun x => x != coord s.devId dim)).map
    (fun x => setBits s.devId (8 - 4 * dim) 4 x)
/-- The stage a FANIN names. -/
def State.stageOf (s : State) (c fanin : Nat) : Option Nat :=
  [0, 1, 2].find? (fun dim => decide (1 < s.grpLen c dim) && s.grpFan c dim == fanin)
/-- A group that fails R337. -/
def State.grpBad (s : State) (c : Nat) : Bool :=
  s.grpEn c && ([0, 1, 2].any (fun dim =>
    decide (s.grpHi c dim < s.grpLo c dim) || decide (coord s.devId dim < s.grpLo c dim) ||
    decide (s.grpHi c dim < coord s.devId dim)) ||
    !s.inGeom (setBits (setBits (setBits 0 8 4 (s.grpHi c 0)) 4 4 (s.grpHi c 1)) 0 4 (s.grpHi c 2)))

/-- A BAR packet (R282, R340). -/
def barPkt (dst : Nat) (m : BarMsg) : Packet :=
  { type := 4, ord := true, src := 0, dst := dst, args := m.ch + b2n m.val * 16 + b2n m.notice * 32 + m.epoch % 2 ^ 32 * 2 ^ 16,
    addr := m.group + m.fanin * 2 ^ 16 }
def barMsg (p : Packet) : BarMsg :=
  ⟨p.src, bits p.args 0 4, bit p.args 4, bit p.args 5, bits p.args 16 32, bits p.addr 0 16, bits p.addr 16 16⟩
def State.sendBar (s : State) (dst : Nat) (m : BarMsg) (count : Nat) : State := s.send (barPkt dst m) (.bar m count)
def State.gid (s : State) (c : Nat) : Nat := s.fld (BAR_GID c) BAR_GID_GID
/-- Send the partial AND of a stage to its line peers. -/
def State.sendStage (s : State) (c dim : Nat) : State :=
  let ch := s.chan c
  (s.linePeers c dim).foldl (fun s dst =>
    s.sendBar dst ⟨s.devId, c, ch.val, false, ch.epoch.getD 0, s.gid c, s.grpFan c dim⟩ 0) s
/-- Abort notices to the line peers of some dimensions (R342). -/
def State.sendNotice (s : State) (dims : List Nat) : State :=
  if !s.grpEn 15 then s
  else dims.foldl (fun s dim => (s.linePeers 15 dim).foldl (fun s dst =>
    s.sendBar dst ⟨s.devId, 15, false, true, (s.chan 15).epoch.getD 0, s.gid 15, 0⟩ 0) s) s
/-- The device holds the value 0 on channel 15: its notice, once per epoch. -/
def State.ownNotice (s : State) : State :=
  if (s.chan 15).sent then s
  else (s.setChan 15 { s.chan 15 with sent := true }).sendNotice [0, 1, 2]

/-! ### faces that hold work -/

/-- Leader bits of a die, the leader of a face, and the size of its gang (R14, R15). -/
def State.gangMap (s : State) (d : Nat) : Nat := s.pair (DIE_GANG_MAP_LO d)
def gangLeader (map f : Nat) : Nat := ((List.range (f + 1)).filter (fun i => bit map i)).getLastD 0
def gangSize (map leader : Nat) : Nat :=
  (((List.range 64).find? (fun i => decide (leader < i) && bit map i)).getD 64) - leader

/-- FSQ_STAT and FSQ_CUR_IDX of a leader face and its members: the running descriptor's LAYER, PHASE and index stay shown until
another one runs. -/
def State.showFace (s : State) (d f : Nat) : State :=
  let held := (s.face d f).held
  let run := held.find? (fun h => h.run != .waiting)
  let st := if s.flag (FSQ_STAT d f) FSQ_STAT_PARITY_STOP && run.isNone then 3
    else if run.isSome then 2 else if held.isEmpty then 0 else 1
  let s := s.setFld (FSQ_STAT d f) FSQ_STAT_CLAIMED held.length
  (List.range (gangSize (s.gangMap d) f)).foldl (fun s i =>
    let s := s.setFld (FSQ_STAT d (f + i)) FSQ_STAT_STATE st
    match run with
    | none => s
    | some h =>
      ((s.setFld (FSQ_STAT d (f + i)) FSQ_STAT_LAYER (dLayer h.words)).setFld (FSQ_STAT d (f + i)) FSQ_STAT_PHASE
        (dPhase h.words)).setFld (FSQ_CUR_IDX d (f + i)) FSQ_CUR_IDX_INDEX h.idx) s

/-- No face runs a descriptor. -/
def State.quiet (s : State) : Bool := s.faces.all (fun e => e.2.held.all (fun h => h.run == .waiting))

/-! ### die arrivals (R331) -/

/-- BARCH of the running phase. -/
def State.phaseBarch (s : State) : Nat :=
  match s.eng.active with
  | some p => phBarch (s.phaseW0 p (s.fld STEP_STAT STEP_STAT_PHASE))
  | none => 0
/-- PEND of a channel: granted, incomplete descriptors that the arrival awaits. -/
def State.diePend (s : State) (d c : Nat) : Nat :=
  if c = s.phaseBarch then (s.die d).granted.length
  else ((s.die d).granted.filter (fun g => g.barout && g.barch == c)).length
/-- Every descriptor of the list is granted. -/
def State.listed (s : State) (d : Nat) : Bool := (s.die d).window.isEmpty && (s.die d).nextIx == (s.die d).endIx
/-- What a die's channels show of its list: PEND, and LISTED of all 16; the die arrives on no channel 15 (R335). -/
def State.showPend (s : State) (d : Nat) : State :=
  (List.range 16).foldl (fun s c =>
    (s.setFld (BAR_CH d c) BAR_CH_PEND (if c = 15 then 0 else s.diePend d c)).setFlag (BAR_CH d c) BAR_CH_LISTED (s.listed d)) s
/-- The die's channels as they stand: PEND, LISTED and new arrivals. -/
def State.dieArrive (s : State) (d : Nat) : State :=
  (List.range 15).foldl (fun s c =>
    if s.listed d && s.diePend d c == 0 && !s.flag (BAR_CH d c) BAR_CH_DIE_ARR then
      (s.setFlag (BAR_CH d c) BAR_CH_DIE_ARR true).setReg (BAR_STAT d) (s.reg (BAR_STAT d) ||| 2 ^ c)
    else s) (s.showPend d)

/-- Held descriptors that have not started are dropped (R198, R200): they count in no phase. -/
def State.dropHeld (s : State) : State :=
  s.faces.foldl (fun s e =>
    let d := e.1 / 64
    let f := e.1 % 64
    let gone := (e.2.held.filter (fun h => h.run == .waiting)).map (fun h => h.idx)
    if gone.isEmpty then s
    else
      let s := s.setFace d f { s.face d f with held := (s.face d f).held.filter (fun h => h.run != .waiting) }
      let s := s.setDie d { s.die d with granted := (s.die d).granted.filter (fun g => !gone.contains g.idx) }
      ((s.showFace d f).showPend d).dieQuiesceAnswer d) s

/-! ### waiting at full power (R345, R346) -/

/-- The channel a face of a die waits on, when it waits (R345, R346). -/
def State.faceSpins (s : State) (d f c : Nat) : Bool :=
  let closed := bit (s.reg BAR_PSTAT) c
  let held := (s.face d (gangLeader (s.gangMap d) f)).held
  let barin := held.any (fun h => h.run == .waiting && dBarin h.words && dBarch h.words == c)
  let rests := !held.any (fun h => h.run != .waiting) &&
    ((c == s.phaseBarch && bit (s.reg (BAR_STAT d)) c) || (c == 15 && s.flag STEP_STAT STEP_STAT_C15_WAIT))
  s.running && s.eng.mode != .fill && !s.flag (FSQ_STAT d f) FSQ_STAT_GATED && s.flag (FSQ_CTRL d f) FSQ_CTRL_EN && !closed &&
    (barin || rests)
/-- SPIN_EN of a die: at its reset value 1 after a parity stop (R353). -/
def State.spinEn (s : State) (d : Nat) : Bool := s.parStop.contains (BAR_CTRL d) || s.flag (BAR_CTRL d) BAR_CTRL_SPIN_EN
/-- A face spins on some channel. -/
def State.spinsNow (s : State) (d f : Nat) : Bool := s.spinEn d && (List.range 16).any (fun c => s.faceSpins d f c)
/-- A face of the die spins on c: what BAR_CH.SPIN shows. -/
def State.dieSpins (s : State) (d c : Nat) : Bool :=
  s.spinEn d && (List.range 64).any (fun f => s.faceSpins d f c)

/-! ### BAR arrivals (R341) -/

def State.barDiscard (s : State) : State := (s.bump BAR_DISC_LO 1).raise BAR_PEVENT BAR_PEVENT_DISCARD
/-- The group is in its channel's fabric stages: FABRIC of BAR_PSTAT. -/
def State.showFabric (s : State) (c : Nat) : State :=
  let ch := s.chan c
  s.setFlag BAR_PSTAT ⟨16 + c, 1⟩ (ch.closed && decide (ch.stage < 3) && s.grpEn c)

/-- An abort notice before the device's own arrival (R198). -/
def State.abortNotice (s : State) : State :=
  if !s.running || s.eng.aborted || (s.chan 15).closed then s
  else
    let s := { s with eng := { s.eng with aborted := true, mode := .wait } }
    (s.setFlag STEP_STAT STEP_STAT_IN_WAIT false).dropHeld

/-- A BAR of the epoch in force: a notice, or an arrival at its stage (one per stage and line position). -/
def State.barTake (s : State) (m : BarMsg) : State :=
  let c := m.ch
  if m.notice then
    let s := (s.raise BAR_PEVENT BAR_PEVENT_NOTICE_RX).abortNotice
    if (s.chan 15).fwd then s
    else
      let came := ([0, 1, 2].find? (fun dim => coord m.src dim != coord s.devId dim)).getD 0
      (s.setChan 15 { s.chan 15 with fwd := true }).sendNotice ([0, 1, 2].filter (fun dim => dim != came))
  else match s.stageOf c m.fanin with
    | none => s
    | some dim =>
      if !(s.linePeers c dim).contains m.src then s.barDiscard
      else
        let ch := s.chan c
        let pos := coord m.src dim
        if ch.rx.any (fun r => r.stage == dim && r.pos == pos) then s
        else
          let s := s.setChan c { ch with rx := ch.rx ++ [⟨dim, pos, m.val⟩] }
          if c = 15 ∧ !m.val then s.abortNotice.ownNotice else s

/-- Epochs one ahead of an epoch (R341): the next phase, microstep or step. -/
def State.nextEpochs (s : State) (c cur : Nat) : List Nat :=
  let step := cur / 2 ^ 16
  let steps := [(step + 1) % 2 ^ 16 * 2 ^ 16] ++ (if s.running then [] else [s.stepNum % 2 ^ 16 * 2 ^ 16])
  match s.eng.active with
  | none => steps
  | some p =>
    if c = 15 then steps
    else
      let ph := bits cur 2 6
      let mu := bits cur 8 8
      let n := hPhases p.hdr
      let body (i : Nat) : Bool := decide (i < n) && decide (phKind (s.phaseW0 p i) < 2)
      let base := step * 2 ^ 16
      steps ++
        (if body (ph + 1) then [base + mu * 2 ^ 8 + (ph + 1) * 4]
         else if body ph && decide (mu + 1 < hSyncEvery p.hdr) then [base + (mu + 1) * 2 ^ 8]
         else if ph + 1 < n then [base + (ph + 1) * 4] else [])

/-- A channel opens for an epoch; BARs held for it are applied. -/
def State.newEpoch (s : State) (c e : Nat) : State :=
  let held := (s.chan c).held
  let s := s.setChan c { epoch := some e }
  let s := s.setFlag BAR_PSTAT ⟨c, 1⟩ false
  let s := s.setFlag BAR_PSTAT ⟨16 + c, 1⟩ false
  held.foldl (fun s m =>
    if m.epoch = e then s.barTake m
    else if (s.nextEpochs c e).contains m.epoch then s.setChan c { s.chan c with held := (s.chan c).held ++ [m] }
    else s.barDiscard) s

/-! ### phases (R19, R169, R331, R332) -/

/-- Microstep as STEP_STAT shows it, and PHASE. -/
def State.setPhase (s : State) (i mu : Nat) : State :=
  (s.setFld STEP_STAT STEP_STAT_PHASE i).setFld STEP_STAT STEP_STAT_MICRO mu
/-- Die d opens its list of phase i. -/
def State.dieOpen (s : State) (p : Slot) (i d : Nat) : State :=
  let first := s.phaseFirst p i d
  let n := s.phaseCount p i d
  let w := min 256 n
  let s := s.setDie d { s.die d with window := (List.range w).map (fun j => first + j), nextIx := first + w, endIx := first + n,
                                     granted := [] }
  let s := s.resetQueue (1024 + d) (i + s.fld STEP_STAT STEP_STAT_MICRO * 64)
    ((0, w) :: (17, (mapGet (fun _ => []) d s.cru.packs).length) ::
      (List.range 8).map (fun c => (9 + c, s.fld (CRU_STAT d c) CRU_STAT_STAGED)))
  let s := s.setReg (DIE_WORK_STAT d) (i + 64 + w * 2 ^ 7)
  let s := s.setReg (BAR_STAT d) 0
  let s := (List.range 15).foldl (fun s c => s.setReg (BAR_CH d c) 0) s
  s.dieArrive d
/-- PHASE_START. -/
def State.phaseStart (s : State) (p : Slot) (i mu : Nat) : State :=
  let e := s.stepNum % 2 ^ 16 * 2 ^ 16 + mu * 2 ^ 8 + i * 4
  let s := s.setPhase i mu
  let s := { s with eng := { s.eng with mode := .phase } }
  let s := s.setReg BAR_EPOCH e
  let s := (List.range 15).foldl (fun s c => s.newEpoch c e) s
  (List.range 16).foldl (fun s d => s.dieOpen p i d) s

/-! ### program slots (R24) -/

def State.showSlots (s : State) : State :=
  (s.setFlag STEP_STAT STEP_STAT_ACTIVE s.eng.active.isSome).setFlag STEP_STAT STEP_STAT_NEXT s.eng.next.isSome
/-- A program becomes ACTIVE: step number, steps left and gang maps (R16). -/
def State.activate (s : State) (p : Slot) : State :=
  let s := { s with eng := { s.eng with active := some p } }
  let s := if p.first = 0xFFFFFFFF then s else s.setReg STEP_NUM p.first
  let s := s.setReg STEP_LEFT (if p.steps = 0 then 0xFFFFFFFF else p.left)
  (List.range 16).foldl (fun s d =>
    let map := hGang p.hdr d
    let s := s.setPair (DIE_GANG_MAP_LO d) map
    (List.range 64).foldl (fun s f =>
      let l := gangLeader map f
      (s.setFld (FSQ_STAT d f) FSQ_STAT_GSZ (Nat.log2 (gangSize map l))).setFlag (FSQ_STAT d f) FSQ_STAT_LEADER (l == f)) s) s
/-- The slots at a step boundary. -/
def State.slotStep (s : State) : State :=
  match s.eng.active with
  | none => s
  | some p =>
    let left := p.left - 1
    let ended := p.steps != 0 && left == 0
    let s := { s with eng := { s.eng with active := some { p with left := left } } }
    let s := s.setReg STEP_LEFT (if p.steps = 0 then 0xFFFFFFFF else left)
    match s.eng.next with
    | some n =>
      if ended || p.steps == 0 || n.replace then ({ s with eng := { s.eng with next := none } }).activate n else s
    | none => if ended then { s with eng := { s.eng with active := none } } else s
/-- Both slots are emptied (R25). -/
def State.clearSlots (s : State) : State := ({ s with eng := { s.eng with active := none, next := none } }).showSlots

/-! ### STEP_RUN (R22, R23) -/

def stBadHeader : Nat := 0x02
def stBadCrc : Nat := 0x03
def stBadGang : Nat := 0x04
def stBadRange : Nat := 0x05
/-- What the checks of R23 give: a status with its DETAIL, or a program slot. -/
inductive RunCheck where
  | bad (status detail : Nat)
  | good (p : Slot)
deriving DecidableEq, Repr

/-- FP32 conditions of R171. -/
def fvFin : FV → Bool | .fin _ _ _ => true | _ => false
def inUnit (x : Nat) : Bool := fvFin (fv32 x) && (FV.fin false 0 0).leFin (fv32 x) && (fv32 x).ltFin (twoTo 0)
def paramsBad (h : List Byte) : Bool :=
  decide (hSyncEvery h < 1) || decide (256 < hSyncEvery h) || !inUnit (hBeta1 h) || !inUnit (hBeta2 h) ||
  !(fvFin (fv32 (hEps h)) && (FV.fin false 0 0).ltFin (fv32 (hEps h))) ||
  !(fvFin (fv32 (hWdecay h)) && (FV.fin false 0 0).leFin (fv32 (hWdecay h))) || hLrLen h == 0 ||
  (hInObj h != 0 && (decide (hInSlots h < 2) || hInStride h == 0))
/-- Part offsets (R17, R463). -/
def offsetsBad (h : List Byte) : Bool :=
  hLayerOff h % 64 != 0 || hPhaseOff h % 32 != 0 || hDescOff h % 64 != 0 || decide (hLayerOff h < 0x200) ||
  decide (hPhaseOff h < hLayerOff h + hLayers h * 128) || decide (hDescOff h < hPhaseOff h + hPhases h * 160) ||
  decide (hTotal h < hDescOff h + hDescs h * 64)
/-- A phase record that fails R464. -/
def State.phaseBad (s : State) (p : Slot) (i : Nat) : Bool :=
  let w := s.phaseW0 p i
  decide (4 ≤ phKind w) || phBarch w == 15 || phWdog w == 0 ||
  (List.range 16).any (fun d => decide (hDescs p.hdr < s.phaseFirst p i d + s.phaseCount p i d))
/-- The phase order of R168. -/
def orderBad (kinds : List Nat) : Bool :=
  let rest := kinds.dropWhile (fun k => decide (k < 2))
  let commits := rest.dropWhile (fun k => k == 2)
  rest.length == kinds.length || commits.isEmpty || commits.any (fun k => k != 3)
/-- A gang map that breaks R14 or R15. -/
def gangBad (map : Nat) : Bool :=
  !bit map 0 || (bitsOf 64 map).any (fun f =>
    let n := gangSize map f
    !([1, 2, 4, 8, 16, 32, 64].contains n) || f % n != 0)

/-- MAGIC, VERSION and TOTAL_LEN of a header (R18, check 4 of R23). -/
def headBad (h : List Byte) : Bool :=
  hMagic h != 0x50535A52 || hVersion h != 1 || decide (hTotal h < 512) || decide (268435456 < hTotal h)
/-- The checks of R23 in order. -/
def State.checkRun (s : State) (blk : List Byte) : RunCheck :=
  let addr := blkNat blk 8 8
  let steps := blkNat blk 0x10 4
  if s.eng.active.isSome ∧ s.eng.next.isSome then .bad stBusy 0
  else if addr % 4096 ≠ 0 ∨ 2 ^ 41 < addr + 512 then .bad stBadRange 0
  else
    let h := s.memRead addr 512
    let p : Slot := ⟨addr, steps, steps, blkNat blk 0x14 4, bit (blkNat blk 0x18 4) 0, h.1⟩
    if h.2 then .bad stBadCrc 1
    else if headBad h.1 then .bad stBadHeader 0
    else if 2 ^ 41 < addr + hTotal h.1 then .bad stBadRange 0
    else
      let body := s.memRead (addr + 0x10) (hTotal h.1 - 0x10)
      if body.2 then .bad stBadCrc 1
      else if crc32 body.1 ≠ hCrc h.1 then .bad stBadCrc 0
      else if hLayers h.1 < 1 ∨ 4096 < hLayers h.1 ∨ hPhases h.1 < 1 ∨ 64 < hPhases h.1 ∨ hDescs h.1 < 1 ∨ 1048576 < hDescs h.1 ∨
          paramsBad h.1 then .bad stBadHeader 0
      else if offsetsBad h.1 then .bad stBadRange 0
      else if (List.range (hPhases h.1)).any (s.phaseBad p) ∨
          orderBad ((List.range (hPhases h.1)).map (fun i => phKind (s.phaseW0 p i))) then .bad stBadRange 0
      else if (List.range 16).any (fun d => gangBad (hGang h.1 d)) then .bad stBadGang 0
      else .good p

/-- The Foreman's reads of a program that it checks: no further than the first check that fails. -/
def State.runSeen (s : State) (blk : List Byte) : State :=
  let addr := blkNat blk 8 8
  if (s.eng.active.isSome ∧ s.eng.next.isSome) ∨ addr % 4096 ≠ 0 ∨ 2 ^ 41 < addr + 512 then s
  else
    let h := s.memRead addr 512
    let n := hTotal h.1
    let s := s.memSeen addr 512
    if h.2 ∨ headBad h.1 ∨ 2 ^ 41 < addr + n then s else s.memSeen (addr + 512) (n - 512)
/-- A STEP_RUN is checked and answered. -/
def State.runCmd (s : State) (src : CmdSrc) (blk : List Byte) : State :=
  let r := s.checkRun blk
  let s := s.runSeen blk
  match r with
  | .bad st detail => s.answer 0 src (ansWord st detail)
  | .good p =>
    let s := if s.eng.active.isNone then s.activate p else { s with eng := { s.eng with next := some p } }
    s.showSlots.answer 0 src (ansWord stAccepted 0)
/-- STEP_RUN: kept while a STEP_STOP waits. -/
def execStepRun (blk : List Byte) (s : State) : Res :=
  done s (s.serve 0 0x10 false blk (fun t b src =>
    if t.eng.stop.isSome then t.stopWord src b else t.withBlk 0 src b (fun t b => t.runCmd src b)))
/-- STEP_STOP with no step running. -/
def State.stopNow (s : State) (src : CmdSrc) : State := s.clearSlots.answer 0 src (ansWord stAccepted 0)
def execStepStop (s : State) : Res :=
  done s (s.serve 0 0x11 false [] (fun t _ src =>
    if t.eng.stop.isSome then t.stopWord src []
    else if t.running then { t with eng := { t.eng with stop := some src } }
    else t.stopNow src))
/-- A word kept during a STEP_STOP is served. -/
def State.keptWord (s : State) (src : CmdSrc) (blk : List Byte) : State :=
  if src.isFwd then s.forwardWord 0 src.word
  else if wCode src.word = 0x11 then s.stopNow src
  else if wCode src.word ≠ 0x10 then s.answer 0 src (ansWord stBadCmd 0)
  else s.withBlk 0 src blk (fun t b => t.runCmd src b)

/-! ### the step boundary (R157, R173, R197, R201, R261) -/

/-- DONE of the input ring (R173). -/
def State.putDone (s : State) (g : Nat) : State :=
  if hInObj s.hdr = 0 then s else s.objWriteNat (hInObj s.hdr * 2 ^ 40 + 8) 8 g
/-- WWORK replica copies are freed, and the owner's lists cleared (R261). -/
def State.replicasEnd (s : State) : State :=
  let copies := s.frames.filter (fun fr => fmUsed (s.fm fr) && fmRcopy (s.fm fr) && fmClass (s.fm fr) == clWwork)
  let s := { s with plc := { s.plc with fetches := s.plc.fetches.filter (fun f => f.pull) } }
  let s := copies.foldl (fun s fr =>
    let s := match s.lookup (fmKey (s.fm fr)) with
      | some (a, e) => if leKind e = kRcopy ∧ leAddr e = fr then s.setLed a 0 else s
      | none => s
    s.freeFrame fr) s
  s.ledgerAddrs.foldl (fun s a =>
    let e := s.led a
    if leClass e = clWwork ∧ leKind e ≠ kEmpty ∧ leKind e ≠ kProxy ∧ leKind e ≠ kRcopy ∧ s.serverOf (leObj e / 4096) = s.devId then
      s.setLed a (setBits e 57 2 0)
    else s) s
/-- A change of fineness is traced (R429). -/
def State.traceChanges (s : State) : State :=
  s.eng.changes.foldl (fun s c =>
    let new := bits (c.words.headD 0) 1 2
    let old := if s.steerValid c.layer then s.fld (STEER_ENTRY_W0 c.layer) STEER_ENTRY_W0_FINE
      else match s.layerById c.layer with | some b => lFine b | none => new
    if old = new then s else s.traceSteer c.layer old new (c.words.getD 2 0)) s

def acLoss : Nat := 1
def acJobNf : Nat := 2
def acPeer : Nat := 3
def acDesc : Nat := 4
def acWdog : Nat := 5
def acPoison : Nat := 6
def acAbandoned : Nat := 7
/-- STEP_ABORT_CAUSE is written and the STEP-ABORTED fault recorded (R201). -/
def State.abortCause (s : State) (cause layer code src extra : Nat) : State :=
  let w := cause + layer % 4096 * 2 ^ 4 + s.fld STEP_STAT STEP_STAT_PHASE * 2 ^ 16 + s.micro * 2 ^ 22
  let s := { s with eng := { s.eng with cause := some w } }
  (s.setReg STEP_ABORT_CAUSE w).fault 3 code src (w + extra * 2 ^ 32)
/-- The cause of an abort that no local cause began. -/
def State.settleCause (s : State) : State :=
  if s.eng.cause.isSome then s
  else
    let fin := s.flag STEP_STAT STEP_STAT_FIN
    let job := if fin then none else s.jobFailed
    let layer := match job with
      | some j => (match s.homedLayers.find? (fun b => lJob b == j) with | some b => lLayerId b | none => 0)
      | none => 0
    let cause := if s.eng.lossNf then acLoss else if job.isSome then acJobNf else if fin || s.eng.aborted then acPeer else 0
    s.abortCause cause layer 0x0301 STEP_EVENT 0

/-- STEP_STOP takes effect, and the words kept behind it are served (R25). -/
def State.stopSettle (s : State) : State :=
  match s.eng.stop with
  | none => s
  | some src =>
    let words := s.eng.stopWords
    let s := { s with eng := { s.eng with stop := none, stopTold := false, stopWords := [] } }
    words.foldl (fun s x => s.keptWord x.1 x.2) (s.stopNow src)

/-- The step boundary, committed or aborted.  NEXT takes over before a STEP_STOP empties both slots: the spec gives no order of the
two, and STEP_NUM and the gang maps show which came first (DESIGN CHOICE). -/
def State.boundary (s : State) (committed : Bool) : State :=
  let sync := hSyncEvery s.hdr
  let s := if committed then
      (s.traceChanges.steerApply.replicasEnd).setReg STEP_COMMITS (s.reg STEP_COMMITS + 1)
    else
      let s := s.settleCause.steerDrop.cutAll.mergeAll.markAborted
      let s := (s.setReg STEP_ABORTS (s.reg STEP_ABORTS + 1)).setReg STEP_LAST_ABORT s.stepNum
      s.raise STEP_EVENT STEP_EVENT_ABORT
  let s := s.traceStep committed (match s.eng.cause with | some w => w % 2 ^ 32 | none => 0)
  let pm := match s.eng.cause with | some w => bits w 0 4 == acPoison | none => false
  let g := s.eng.g0 + sync
  let s := (s.setPair STEP_GMICRO_LO g).putDone g
  let s := s.setReg STEP_NUM (s.stepNum + 1)
  let s := s.setFlag STEP_CTRL STEP_CTRL_ABANDON false
  let s := if pm || s.eng.halt then s.setFlag STEP_CTRL STEP_CTRL_EN false else s
  let s := { s with eng := { s.eng with mode := .idle, merged := [], sums := [], halt := false },
                    cru := { s.cru with packs := [] } }
  let s := ((s.setFlag STEP_STAT STEP_STAT_RUNNING false).setFlag STEP_STAT STEP_STAT_C15_WAIT false).setFlag
    STEP_STAT STEP_STAT_IN_WAIT false
  let s := (List.range 16).foldl (fun s d => s.setFlag (DIE_WORK_STAT d) DIE_WORK_STAT_ACTIVE false) s
  let s := s.slotStep.showSlots.stopSettle.updHold.seeAnchor
  if s.flag HIF_STAT HIF_STAT_D3HOT && !committed then s.raise HIF_EVENT HIF_EVENT_D3_STEP else s

/-! ### local aborts (R200, R202) -/

/-- An abort in COMMIT reaches its boundary when the running descriptors have finished. -/
def State.abortSettle (s : State) : State :=
  if s.running && s.eng.aborted && s.eng.mode == .phase && (s.chan 15).closed && s.quiet then s.boundary false else s
/-- A local abort: FIN is cleared, unstarted descriptors are dropped, no more are granted. -/
def State.localAbort (s : State) (cause layer code src extra : Nat) : State :=
  if !s.running || s.eng.cause.isSome then s
  else
    let s := s.setFlag STEP_STAT STEP_STAT_FIN false
    let s := s.abortCause cause layer code src extra
    let mode := if (s.chan 15).closed then s.eng.mode else .wait
    let s := { s with eng := { s.eng with aborted := true, mode := mode } }
    (s.setFlag STEP_STAT STEP_STAT_IN_WAIT false).dropHeld.abortSettle
/-- A loss store that is not finite (R196, R200). -/
def State.lossStore (s : State) : State :=
  if !s.running then s
  else
    let s := (s.raise STEP_EVENT STEP_EVENT_LOSS_NF).setFlag STEP_STAT STEP_STAT_FIN false
    let s := { s with eng := { s.eng with lossNf := true } }
    if s.flag STEP_CTRL STEP_CTRL_EARLY_ABORT then s.localAbort acLoss 0 0x0301 STEP_EVENT 0 else s

/-! ### closing (R332, R335, R339) -/

/-- The device enters its commit wait (R197 step 1, R150). -/
def State.enterWait (s : State) : State :=
  let s := s.sendSummaries
  { s with eng := { s.eng with mode := .wait } }
/-- The next microstep waits for its batch (R173). -/
def State.microNext (s : State) (mu : Nat) : State :=
  let s := (s.setPhase 0 mu).setPair STEP_GMICRO_LO (s.eng.g0 + mu)
  { s with eng := { s.eng with mode := .fill } }
/-- Every channel 0 to 14 has closed in this phase (R332). -/
def State.allClosed (s : State) : Bool := (List.range 15).all (fun c => bit (s.reg BAR_PSTAT) c)
/-- The phase has closed: what runs next (R168, R169, R197). -/
def State.phaseEnd (s : State) : State :=
  match s.eng.active with
  | none => s
  | some p =>
    if s.eng.mode ≠ .phase ∨ s.eng.aborted then s
    else
      let i := s.fld STEP_STAT STEP_STAT_PHASE
      let mu := s.micro
      let kind := phKind (s.phaseW0 p i)
      let next := if i + 1 < hPhases p.hdr then some (phKind (s.phaseW0 p (i + 1))) else none
      let s := (s.tracePhase i mu).marksDue i (if kind < 2 then some mu else none)
      if kind < 2 then
        if next = some 0 ∨ next = some 1 then s.phaseStart p (i + 1) mu
        else
          let s := s.putDone (s.gmicro + 1)
          if mu + 1 < hSyncEvery p.hdr then s.microNext (mu + 1)
          else
            let s := s.sendDones 0
            if next = some 2 then s.phaseStart p (i + 1) 0 else (s.sendDones 1).enterWait
      else if kind = 2 then
        if next = some 2 then s.phaseStart p (i + 1) 0 else (s.sendDones 1).enterWait
      else if next.isSome then s.phaseStart p (i + 1) 0
      else s.boundary true
/-- Channel 15 closes with a value (R197 steps 3 and 4). -/
def State.c15Close (s : State) (v : Bool) : State :=
  match s.eng.active with
  | none => s
  | some p =>
    if s.eng.mode ≠ .voted then s
    else
      let s := s.setFlag STEP_STAT STEP_STAT_C15_WAIT false
      if v ∧ !s.eng.aborted then
        match (List.range (hPhases p.hdr)).find? (fun i => phKind (s.phaseW0 p i) == 3) with
        | some i => s.phaseStart p i 0
        | none => s
      else s.boundary false
/-- CLOSED of a channel in every die. -/
def State.showClosed (s : State) (c : Nat) : State :=
  (List.range 16).foldl (fun s d => s.setReg (BAR_STAT d) (s.reg (BAR_STAT d) ||| 2 ^ (16 + c))) s
/-- A channel without a group that all dies have arrived on closes no later than the phase's own channel. -/
def State.closeWith (s : State) (c : Nat) : State :=
  if bit (s.reg BAR_PSTAT) c || s.grpEn c || !(List.range 16).all (fun d => s.flag (BAR_CH d c) BAR_CH_DIE_ARR) then s
  else
    let s := (List.range 16).foldl (fun s d => s.setFlag (BAR_CH d c) BAR_CH_PKG_AND true) s
    let s := s.setChan c { s.chan c with closed := true, val := true, stage := 3 }
    ((s.traceBar c ((s.chan c).epoch.getD 0) true).setFlag BAR_PSTAT ⟨c, 1⟩ true).showClosed c
/-- A channel closes.  The phase ends when its own channel and every other one have closed (R332). -/
def State.closeChan (s : State) (c : Nat) : State :=
  let ch := s.chan c
  let s := s.traceBar c (ch.epoch.getD 0) ch.val
  let s := (s.setFlag BAR_PSTAT ⟨c, 1⟩ true).setFlag BAR_PSTAT ⟨16 + c, 1⟩ false
  if c = 15 then s.c15Close ch.val
  else
    let s := s.showClosed c
    let s := if c = s.phaseBarch then (List.range 15).foldl (fun s k => s.closeWith k) s else s
    if bit (s.reg BAR_PSTAT) s.phaseBarch && s.allClosed then s.phaseEnd else s
/-- The stage running has one arrival from each line peer. -/
def State.stageFull (s : State) (c : Nat) : Bool :=
  let ch := s.chan c
  (s.linePeers c ch.stage).all (fun d => ch.rx.any (fun r => r.stage == ch.stage && r.pos == coord d ch.stage))
/-- The stage ends with the AND of its arrivals. -/
def State.stageNext (s : State) (c : Nat) : State :=
  let ch := s.chan c
  s.setChan c { ch with stage := ch.stage + 1, val := ch.val && (ch.rx.filter (fun r => r.stage == ch.stage)).all (fun r => r.val) }
/-- Enter stages from the one that runs on, as far as arrivals allow. -/
def State.stageEnter (s : State) (c : Nat) : Nat → State
  | 0 => s
  | fuel + 1 =>
    let k := (s.chan c).stage
    if 3 ≤ k then s
    else if s.grpLen c k ≤ 1 then (s.stageNext c).stageEnter c fuel
    else
      let s := s.sendStage c k
      if s.stageFull c then (s.stageNext c).stageEnter c fuel else s
/-- After stages moved: the channel closes, or shows that it is in the fabric. -/
def State.stageShow (s : State) (c : Nat) : State :=
  if (s.chan c).stage = 3 then s.closeChan c else s.showFabric c
/-- The device arrives on a channel with a value (R335, R339). -/
def State.chanArrive (s : State) (c : Nat) (v : Bool) : State :=
  let s := s.setChan c { s.chan c with closed := true, val := v, stage := if s.grpEn c then 0 else 3 }
  (s.stageEnter c 4).stageShow c
/-- A BAR arrival may complete the stage that runs. -/
def State.barProgress (s : State) (c : Nat) : State :=
  let ch := s.chan c
  if !ch.closed || 3 ≤ ch.stage || !s.stageFull c then s
  else ((s.stageNext c).stageEnter c 4).stageShow c

/-- PACKAGE_BARRIER_CLOSE: all 16 dies have arrived. -/
def State.pkgClose (s : State) (c : Nat) : State :=
  if !s.running || s.eng.mode != .phase || (s.chan c).closed ||
      !(List.range 16).all (fun d => s.flag (BAR_CH d c) BAR_CH_DIE_ARR) then s
  else ((List.range 16).foldl (fun s d => s.setFlag (BAR_CH d c) BAR_CH_PKG_AND true) s).chanArrive c true
def execPackageBarrierClose (c : Fin 15) (s : State) : Res := done s (s.pkgClose c.val)

/-- A BAR packet arrives (R341). -/
def State.barArrive (s : State) (p : Packet) : State :=
  let m := barMsg p
  let c := m.ch
  let fits := if m.notice then c == 15 && m.fanin == 0 else (s.stageOf c m.fanin).isSome
  if !s.grpEn c || m.group != s.gid c || !fits then s.barDiscard
  else
    let hold := s.setChan c { s.chan c with held := (s.chan c).held ++ [m] }
    match (s.chan c).epoch with
    | none => hold
    | some e =>
      if m.epoch = e then (s.barTake m).barProgress c
      else if (s.nextEpochs c e).contains m.epoch then hold
      else s.barDiscard
def execBarPacket (p : Packet) (s : State) : Res := done s (if p.type == 4 && !p.rsp then s.barArrive p else s)

/-- Stage of a BAR for BAR_LOST: 3 for a notice. -/
def State.barStage (s : State) (m : BarMsg) : Nat := if m.notice then 3 else (s.stageOf m.ch m.fanin).getD 0
/-- A BAR packet came back (R343): it waits for its timer, and after the eighth return it is lost. -/
def State.barReturned (s : State) (dst : Nat) (m : BarMsg) (count : Nat) : State :=
  if count < 8 then { s with eng := { s.eng with back := s.eng.back ++ [⟨dst, m, count + 1⟩] } }
  else
    let w := m.ch + dst * 2 ^ 4 + s.barStage m * 2 ^ 16
    ((s.setReg BAR_LOST w).raise BAR_PEVENT BAR_PEVENT_LOST).fault 0 0x0402 BAR_PEVENT w
/-- BAR_RESEND. -/
def State.barResend (s : State) : State :=
  match s.eng.back with
  | [] => s
  | b :: rest => ({ s with eng := { s.eng with back := rest } }).sendBar b.dst b.msg b.count
def execBarResend (s : State) : Res := done s s.barResend

/-! ### starting (R169, R173, R337) -/

/-- A step may start. -/
def State.canStart (s : State) : Bool :=
  !s.running && !s.eng.grpFail && s.eng.active.isSome && s.flag STEP_CTRL STEP_CTRL_EN && s.flag PKG_ROLE PKG_ROLE_HOST_PATH &&
  !([STEP_CTRL, STEP_C15_WDOG] ++ (List.range 16).flatMap (fun c => [BAR_GRP c, BAR_GID c])).any (fun a => s.parStop.contains a)
/-- The tallies of every die are cleared (R29). -/
def State.clearTallies (s : State) : State :=
  { s with regs := s.regs.filter (fun r => !(decide (0x1000000 ≤ r.1) && decide (r.1 < 0x2000000) &&
    decide (0x1000 ≤ r.1 % 0x100000) && decide (r.1 % 0x100000 < 0x1400))) }
/-- The counter sets of the link dies start again with a step (R416). -/
def State.linkQueues (s : State) : State :=
  (List.range 4).foldl (fun s k =>
    s.resetQueue (1040 + k) (s.stepNum % 2 ^ 16)
      ((33, s.obs.fifo.length) :: (List.range 32).map (fun j => (j + 1, s.replayFlits (32 * k + j))))) s
/-- A step starts. -/
def State.stepBegin (s : State) : State :=
  let s := s.checkDirectory.packStart.clearTallies
  let e := s.eng
  let e : StepEng := { e with g0 := s.gmicro, aborted := false, cause := none, lossNf := false,
                              decided := false, changes := [], headers := [], optDone := [], optIdx := [], uw := [], halt := false,
                              mode := .fill }
  let s := { s with eng := e }
  let s := (s.setFlag STEP_STAT STEP_STAT_RUNNING true).setFlag STEP_STAT STEP_STAT_FIN true
  let s := (s.setFlag STEP_STAT STEP_STAT_HOLD false).setPhase 0 0
  let s := (List.range 16).foldl (fun s d => s.setFlag (DIE_WORK_STAT d) DIE_WORK_STAT_ACTIVE true) s
  (s.newEpoch 15 (s.stepNum % 2 ^ 16 * 2 ^ 16)).linkQueues
def State.stepStart (s : State) : State :=
  if !s.canStart then s
  else if (List.range 16).any s.grpBad then
    ({ s with eng := { s.eng with grpFail := true } } : State).raise BAR_PEVENT BAR_PEVENT_GROUP_BAD
  else s.stepBegin
/-- STEP_START: a MEMBER that holds for its host path looks at it again first (R7). -/
def execStepStart (s : State) : Res :=
  done s (if s.running || s.flag PKG_ROLE PKG_ROLE_HOST_PATH then s else s.seeAnchor).stepStart

/-- FILL of the input ring (R172); none when its read returns poisoned data. -/
def State.readFill (s : State) : Option Nat :=
  let r := s.objRead (hInObj s.hdr * 2 ^ 40) 8
  if r.2 then none else some (leNat r.1)
/-- The microstep starts once FILL > G; else it waits. -/
def State.microTry (s : State) : State :=
  match s.eng.active with
  | none => s
  | some p =>
    if !s.running || s.eng.mode != .fill then s
    else
      let s := if hInObj p.hdr = 0 then s else s.objSeen (hInObj p.hdr * 2 ^ 40) 8 none
      let ready := hInObj p.hdr == 0 || (match s.readFill with | some n => decide (s.gmicro < n) | none => false)
      if !ready then s.setFlag STEP_STAT STEP_STAT_IN_WAIT true
      else
        let mu := s.micro
        let s := (s.setFlag STEP_STAT STEP_STAT_IN_WAIT false).clearTallies
        let s := if mu + 1 = hSyncEvery p.hdr then s.cruSync else s
        s.phaseStart p 0 mu
/-- MICROSTEP_START: the first read of FILL. -/
def execMicrostepStart (s : State) : Res := done s (if s.flag STEP_STAT STEP_STAT_IN_WAIT then s else s.microTry)
/-- INPUT_FILL_POLL: FILL is read again. -/
def execInputFillPoll (s : State) : Res := done s (if s.flag STEP_STAT STEP_STAT_IN_WAIT then s.microTry else s)

/-! ### the commit wait (R197 to R199) -/

/-- Arrival on channel 15 with a value; a 0 is told at once (R342). -/
def State.vote (s : State) (v : Bool) : State :=
  let s := { s with eng := { s.eng with mode := .voted } }
  let s := s.setFlag STEP_STAT STEP_STAT_C15_WAIT true
  let s := if v then s else s.ownNotice
  s.chanArrive 15 v
/-- ABANDON takes effect in the commit wait (R199): before the arrival the device arrives with 0 and its boundary is the settling of
channel 15 (R200); a device that has arrived takes its boundary at once, as the channel may never settle or settle with 1. -/
def State.abandonNow (s : State) : State :=
  if s.running && s.flag STEP_CTRL STEP_CTRL_ABANDON && s.quiet && (s.eng.mode == .wait || s.eng.mode == .voted) then
    let voted := s.eng.mode == .voted
    let s := s.localAbort acAbandoned 0 0x0301 STEP_EVENT 0
    if voted then s.boundary false else s.vote false
  else s
/-- C15_ARRIVE. -/
def State.c15Arrive (s : State) : State :=
  if !s.running || s.eng.mode != .wait || !s.quiet then s
  else if s.flag STEP_CTRL STEP_CTRL_ABANDON then s.abandonNow
  else if s.eng.aborted then s.vote false
  else if !(s.jobsClosed && s.eng.sums.isEmpty) then s
  else
    let s := if s.jobFailed.isSome then s.setFlag STEP_STAT STEP_STAT_FIN false else s
    s.vote (s.flag STEP_STAT STEP_STAT_FIN)
def execC15Arrive (s : State) : Res := done s s.c15Arrive

/-- A watchdog's dump, with its hold (R431). -/
def State.wdogDump (s : State) (on : Bool) (trigger : Nat) : State :=
  if !on then s
  else
    let started := s.obs.dump.isNone
    let s := s.startDump trigger
    if started && s.flag DUMP_CFG DUMP_CFG_HALT then { s with eng := { s.eng with halt := true } } else s
/-- The phase watchdog expires (R347, R348): WDOG in the dies that have not arrived, or in every die while only a fabric group is
awaited. -/
def State.phaseWdog (s : State) : State :=
  if !s.running || s.eng.aborted || !(s.eng.mode == .phase || s.eng.mode == .fill) then s
  else
    let c := s.phaseBarch
    let late := (List.range 16).filter (fun d => s.eng.mode == .fill || !s.flag (BAR_CH d c) BAR_CH_DIE_ARR)
    let mask := late.foldl (fun n d => n + 2 ^ d) 0
    let told := if late.isEmpty then List.range 16 else late
    let s := told.foldl (fun s d => s.raise (DIE_WORK_EVENT d) DIE_WORK_EVENT_WDOG) s
    let s := s.wdogDump (s.flag DUMP_CFG DUMP_CFG_WDOG) 0
    s.localAbort acWdog 0 0x0302 (DIE_WORK_EVENT (told.headD 0)) mask
def execPhaseWatchdog (s : State) : Res := done s s.phaseWdog
/-- The channel 15 watchdog expires: the wait goes on. -/
def State.c15Wdog (s : State) : State :=
  if !s.running || !(s.eng.mode == .wait || s.eng.mode == .voted) then s
  else
    let s := (s.raise STEP_EVENT STEP_EVENT_C15_WDOG).fault 0 0x0401 STEP_EVENT (s.stepNum % 2 ^ 16 * 2 ^ 16)
    s.wdogDump (s.flag DUMP_CFG DUMP_CFG_C15) 1
def execC15Watchdog (s : State) : Res := done s s.c15Wdog

def State.abandon (s : State) : State := (s.setFlag STEP_CTRL STEP_CTRL_ABANDON true).abandonNow

end Sys2Proof.Machine
end

