-- ==== Sys2Proof/Machine/Work.lean ====
section
/-! DEFINITION. How faces pull and finish work (R27 to R31): the window, the claim and its checks (R31, R69, R135, R159, R177,
R178, R182, R186, R193, R299, R308, R333, R465), starting, completion and the tallies. -/

namespace Sys2Proof.Machine

/-! ### what a descriptor is -/

/-- The work a descriptor asks for. -/
inductive DescKind where
  | nop | gemm | layerData | plain | gradPair | send | attnFwd | attnKv | attnQ | measure | make | publish | opt
deriving DecidableEq, Repr

/-- FORM of a VEC descriptor, and its other K0 fields (R465). -/
def vForm (w : List Nat) : Nat := bits (dK0 w) 0 2
def vIfmt (w : List Nat) : Nat := bits (dK0 w) 2 4
def vPfmt (w : List Nat) : Nat := bits (dK0 w) 6 4
def vPsr (w : List Nat) : Bool := bit (dK0 w) 10
/-- Number of selected input columns. -/
def vCols (w : List Nat) : Nat := if dNcnt w = 0 then dKcnt w - dN0 w else dNcnt w

/-- Kind of a descriptor in a phase of KIND `kind`; none for codes that fail at the claim. -/
def descKind (kind : Nat) (w : List Nat) : Option DescKind :=
  match dOpc w with
  | 0 => some .nop
  | 1 => some .gemm
  | 2 => match bits (dK0 w) 0 2 with | 0 => some .attnFwd | 1 => some .attnKv | 2 => some .attnQ | _ => none
  | 3 => if kind = 2 then some .send
         else match vForm w with | 0 => some .layerData | 1 => some .plain | 2 => some .gradPair | _ => none
  | 4 => match dK0 w with | 0 => some .measure | 1 => some .make | 2 => some .publish | _ => none
  | 5 => some .opt
  | _ => none

/-- KIND of the running phase. -/
def State.phaseKind (s : State) : Nat :=
  match s.eng.active with
  | some p => phKind (s.phaseW0 p (s.fld STEP_STAT STEP_STAT_PHASE))
  | none => 0

/-- Rotation block and exponents (R104). -/
def rotB (rot : Nat) : Nat := if rot = 0 then 1 else 2 ^ (4 + rot)
def rotF (rot : Nat) : Nat := (if rot = 0 then 0 else 4 + rot) / 2
def rotC (rot : Nat) : Nat := (if rot = 0 then 0 else 4 + rot) - rotF rot
/-- Outlier cap of a code (R111). -/
def ocapOf (code : Nat) : Nat := match code with | 0 => 0 | 1 => 1 | 2 => 2 | 3 => 4 | _ => 8

/-- Class GRADACC (R240). -/
def clGradacc : Nat := 5
/-- A store of the descriptor goes into a GRADACC object. -/
def State.intoGrad (s : State) (w : List Nat) : Bool := s.classOf (s.ringAddr (dOut w)) == clGradacc
/-- An accumulate-store of this microstep rounds stochastically: a BF16 accumulator that is added to (R189, R190). -/
def State.gradSr (s : State) : Bool := hAccFmt s.hdr && s.micro != 0
/-- Shadow operands of a layer exist: the header of its copy holds a shadow section (R144, R163). -/
def State.shadowOn (s : State) (b : List Byte) : Bool :=
  match s.wcInUse b with | some (h, _) => whShCount h != 0 | none => false
/-- The face runs shadow units (R144, AS_CTRL). -/
def State.faceShadow (s : State) (d f : Nat) : Bool := s.flag (AS_CTRL d f) AS_CTRL_EN && s.flag (AS_CTRL d f) AS_CTRL_SHADOW_EN
/-- SR of a GEMM as the face sequencer resolves it (R59). -/
def gemmSr (b : List Byte) (w : List Nat) : Bool := lSrl b == 1 || (lSrl b == 2 && decide (16384 < dKcnt w))

/-! ### checks at the claim -/

/-- Why a claimed descriptor fails; all but `clash` set DESC_BAD. -/
inductive ClaimFail where
  | bad | clash
  /-- A check of R110, R111 or R120: PL_EVENT.CHECK as well. -/
  | check
  /-- BARIN on the phase's channel: BAR_EVENT.BARIN_REJ as well (R333). -/
  | barin
deriving DecidableEq, Repr

/-- The layer entry against R135. -/
def layerBad (b : List Byte) : Bool :=
  decide (lFine b < lFmin b) || (lIfmt b != 0 && !lFlock b) || (decide (32768 < lK b) && decide (lFine b < 2)) || lK b == 0 ||
  lN b == 0 || decide (4 < lRot b) || lK b % rotB (lRot b) != 0

/-- No usable working copy (R160, R161). -/
def State.copyBad (s : State) (b : List Byte) : Bool := s.wcFails b || (s.wcInUse b).isNone

/-- R299 and R302 for a descriptor that adds to the layer's reduction. -/
def State.jobBad (s : State) (b : List Byte) : Bool := decide (2 ≤ polMode (lJobPol b)) || !s.dirContrib (lJob b)

/-- R69. -/
def State.gemmBad (s : State) (kind : Nat) (b : List Byte) (w : List Nat) : Bool :=
  dK0 w % 32 != 0 || dKcnt w % 32 != 0 || dKcnt w == 0 || decide (2097152 < dKcnt w) || dMcnt w == 0 || dNcnt w == 0 || lSrl b == 3 ||
  (kind == 0 && lIfmt b == 3 && lAsgn b != lWsgn b) || decide (1 < kind) || s.copyBad b || (s.intoGrad w && s.jobBad b)

/-- The fields of R465 with the form's own rules. -/
def State.vecBad (s : State) (kind : Nat) (b : List Byte) (w : List Nat) : Bool :=
  let form := vForm w
  let fmtOk (c : Nat) : Bool := 3 ≤ c && c ≤ 5
  form == 3 || !fmtOk (vIfmt w) || (if form = 1 then !fmtOk (vPfmt w) else vPfmt w != 0) || dKcnt w == 0 || dMcnt w == 0 ||
  decide (dKcnt w < dN0 w + max 1 (dNcnt w)) || (form != 1 && (dN0 w != 0 || dNcnt w != 0)) ||
  (form == 0 && kind == 3) || (form == 2 && kind != 1) ||
  (dVprog w == 0 && (dAux w != 0 || (form == 0 && dKcnt w != lK b && dKcnt w != lKp b) || (form == 2 && dKcnt w != lN b))) ||
  (form != 1 && s.copyBad b) || (s.intoGrad w && s.jobBad b) ||
  (form == 0 && kind == 0 && decide (s.fineOf b < 3) && s.shadowOn b && s.classOf (s.ringAddr (lAsh b)) == clGradacc && s.jobBad b) ||
  (form == 2 && (dM0 w % 32 != 0 ||
    (dMcnt w % 32 != 0 && dM0 w + dMcnt w != s.objNat (s.ringAddr (dOut w) + 0x0C) 4)))
/-- A planishing descriptor against R110 and R111. -/
def State.planishBad (s : State) (kind : Nat) (b : List Byte) (w : List Nat) : Bool :=
  kind == 0 && vForm w == 0 && decide (s.fineOf b < 2) &&
  (decide (32768 < lK b) || decide (4 < lOcap b) || !(lClipm b == 0 || (decide (0x38 ≤ lClipm b) && decide (lClipm b ≤ 0x7E))))

/-- R308. -/
def State.sendBad (s : State) (b : List Byte) (w : List Nat) : Bool :=
  dK0 w != 0 || dKcnt w != 0 || dN0 w != 0 || dNcnt w != 0 || dOut w != 0 || dAux w != 0 || s.jobBad b

/-- An ATTN descriptor stores into a GRADACC object: one of the addresses its MODE writes, in the frame at IN_ADDR (R183). -/
def State.attnGrad (s : State) (w : List Nat) : Bool :=
  let frame := (s.objRead (s.ringAddr (dIn w)) 128).1
  let outs : List Nat := match bits (dK0 w) 0 2 with | 0 => [0x18, 0x20] | 1 => [0x38, 0x40] | _ => [0x30]
  outs.any (fun o => s.classOf (blkNat frame o 8) == clGradacc)
/-- R182, R184, R59 and R299. -/
def State.attnBad (s : State) (b : List Byte) (w : List Nat) : Bool :=
  lSrl b == 3 || (s.attnGrad w && s.jobBad b) || dM0 w % 128 != 0 || dMcnt w % 128 != 0 || decide (128 < dN0 w + dNcnt w) || dKcnt w % 128 != 0 || dKcnt w == 0 || dOut w != 0 ||
  dAux w != 0 || !lFlock b || decide (lFine b < 2)

/-- R193. -/
def State.optBad (s : State) (kind : Nat) (b : List Byte) (w : List Nat) : Bool :=
  dK0 w != 0 || lHome b != s.devId || kind != 3 || s.classOf (dOut w) != clWmaster || s.classOf (dAux w) != clOptstate ||
  (lRot b != 0 && s.copyBad b)

/-- The check of a kind; none where it passes. -/
def State.kindFail (s : State) (kind : Nat) (b : List Byte) (w : List Nat) (k : DescKind) : Option ClaimFail :=
  let bad (x : Bool) : Option ClaimFail := if x then some .bad else none
  match k with
  | .nop => none
  | .gemm => bad (s.gemmBad kind b w)
  | .layerData => if s.vecBad kind b w then some .bad else if s.planishBad kind b w then some .check else none
  | .plain => bad (s.vecBad kind b w)
  | .gradPair => bad (s.vecBad kind b w)
  | .send => bad (s.sendBad b w)
  | .attnFwd => bad (s.attnBad b w)
  | .attnKv => bad (s.attnBad b w)
  | .attnQ => bad (s.attnBad b w)
  | .measure => bad (lHome b != s.devId || (s.classOf (s.ringAddr (dAux w)) == clGradacc && s.jobBad b))
  | .make => bad (lHome b != s.devId || (s.classOf (lWc b) == clGradacc && s.jobBad b))
  | .publish => bad (lHome b != s.devId || !s.wcNone b)
  | .opt => bad (s.optBad kind b w)

/-- The (class, stream) pairs a descriptor will draw (R176 to R178), for a leader face whose gang starts at f. -/
def State.drawsOf (s : State) (d f : Nat) (b : List Byte) (w : List Nat) (k : DescKind) : List StreamUse :=
  let on (c : Bool) (u : StreamUse) : List StreamUse := if c then [u] else []
  let drop (p : Nat) := on (lDropStrm b != 0 && p != 0) ⟨0, lDropStrm b⟩
  let sr (c : Bool) := on c ⟨1, lSrStrm b⟩
  let rots (fine rot : Nat) := on (decide (fine < 2) && rot != 0) ⟨2, lRotsStrm b⟩
  let samp (c : Bool) := on c ⟨3, lSampStrm b⟩
  let grad := s.intoGrad w && s.gradSr
  let home := s.flag STEER_CTRL STEER_CTRL_SHADOW_EN
  let fwd := s.phaseKind == 0
  match k with
  | .gemm =>
    sr (gemmSr b w || grad) ++
    samp (fwd && s.shadowOn b && (List.range (gangSize (s.gangMap d) f)).any (fun i => s.faceShadow d (f + i)))
  | .layerData => drop (hDropP s.hdr) ++ rots (s.fineOf b) (s.rotOf b) ++ samp (fwd && s.shadowOn b) ++ sr grad
  | .plain => sr (vPsr w || grad)
  | .attnFwd => drop (hAttnDropP s.hdr) ++ sr (gemmSr b w || (s.attnGrad w && s.gradSr))
  | .attnKv => drop (hAttnDropP s.hdr) ++ sr (gemmSr b w || (s.attnGrad w && s.gradSr))
  | .attnQ => drop (hAttnDropP s.hdr) ++ sr (gemmSr b w || (s.attnGrad w && s.gradSr))
  | .measure => rots (s.makeFine b) (lRot b)
  | .make => rots (s.makeFine b) (lRot b) ++ samp (home && decide (s.makeFine b < 3))
  | .publish => samp (home && decide (lFine b < 3))
  | .opt => rots (s.fineOf b) (s.rotOf b)
  | .nop => []
  | .gradPair => []
  | .send => []

/-- One stream under two classes (R178). -/
def streamClash (own held : List StreamUse) : Bool :=
  own.any (fun u => (own ++ held).any (fun v => u.stream == v.stream && u.cls != v.cls))

/-- A claimed descriptor as the checks leave it. -/
inductive Claimed where
  | fails (why : ClaimFail) (layer : Nat)
  | holds (h : Held)
deriving DecidableEq, Repr

/-- The words of descriptor `ix`, and whether its read returns poisoned data. -/
def State.descAt (s : State) (p : Slot) (ix : Nat) : List Nat × Bool :=
  let r := s.memRead (p.descAddr ix) 64
  (wordsOf r.1 16, r.2)

/-- The checks of a claim in order (R31). -/
def State.checkClaim (s : State) (p : Slot) (d f ix : Nat) : Claimed :=
  let r := s.descAt p ix
  let w := r.1
  let kind := s.phaseKind
  if r.2 ∨ 5 < dOpc w ∨ dDie w ≠ d ∨ dBarch w = 15 ∨ hLayers p.hdr ≤ dLayer w then .fails .bad (dLayer w)
  else
    let l := s.layerBytes p (dLayer w)
    let b := l.1
    let id := lLayerId b
    if l.2 then .fails .bad (dLayer w)
    else if dBarin w ∧ dBarch w = s.phaseBarch then .fails .barin id
    else if layerBad b then .fails .bad id
    else match descKind kind w with
      | none => .fails .bad id
      | some k =>
        match s.kindFail kind b w k with
        | some why => .fails why id
        | none =>
          let draws := s.drawsOf d f b w k
          if draws.any (fun u => u.stream == 0) then .fails .bad id
          else if streamClash draws ((s.face d f).held.flatMap (fun h => h.draws)) then .fails .clash id
          else .holds ⟨ix, w, b, draws, .waiting⟩

/-! ### claims (R27, R28) -/

/-- A tally has reached what a descriptor waits for. -/
def State.tallyMet (s : State) (w : List Nat) : Bool :=
  dWaitCount w == 0 || decide (dWaitCount w ≤ s.reg (DIE_TALLY (dWaitDie w) (dWaitTally w)))
/-- Eligible for a leader face whose gang has `size` faces; a WCOPY of a COMMIT phase waits for the decision (R153). -/
def State.eligible (s : State) (p : Slot) (f size ix : Nat) : Bool :=
  let r := s.descAt p ix
  let w := r.1
  (if dTmode w then dFace w == f else 2 ^ dGsz w == size) && (r.2 || s.tallyMet w) &&
  !(dOpc w == 4 && s.inCommit && !s.eng.decided && !r.2)

/-- A member face that is power-gated or stopped keeps its gang from claiming (R16). -/
def State.faceStopped (s : State) (d f : Nat) : Bool :=
  s.flag (FSQ_STAT d f) FSQ_STAT_GATED || s.flag (FSQ_STAT d f) FSQ_STAT_PARITY_STOP || s.flag (PL_STAT d f) PL_STAT_PSTOP ||
  s.flag (AS_STAT d f) AS_STAT_PSTOP
def State.mayClaim (s : State) (d f : Nat) : Bool :=
  s.running && s.eng.mode == .phase && !s.eng.aborted && bit (s.gangMap d) f && s.flag (FSQ_CTRL d f) FSQ_CTRL_EN &&
  decide ((s.face d f).held.length < 4) &&
  !(List.range (gangSize (s.gangMap d) f)).any (fun i => s.faceStopped d (f + i))

/-- The window takes in the next descriptors of the list, up to 256. -/
def State.refill (s : State) (d : Nat) : State :=
  let x := s.die d
  let n := min (256 - x.window.length) (x.endIx - x.nextIx)
  let x : Die := { x with window := x.window ++ (List.range n).map (fun i => x.nextIx + i), nextIx := x.nextIx + n }
  ((s.setDie d x).noteQueue (1024 + d) 0 x.window.length).setFld (DIE_WORK_STAT d) DIE_WORK_STAT_WINDOW x.window.length

/-- A descriptor leaves a face without having run. -/
def State.dropDesc (s : State) (d f ix : Nat) : State :=
  let s := s.setFace d f { s.face d f with held := (s.face d f).held.filter (fun h => h.idx != ix) }
  let s := s.setDie d { s.die d with granted := (s.die d).granted.filter (fun g => g.idx != ix) }
  s.showFace d f
/-- A descriptor fails under R31. -/
def State.reject (s : State) (d f ix layer : Nat) (why : ClaimFail) : State :=
  let s := match why with
    | .clash => (s.raise (FSQ_EVENT d f) FSQ_EVENT_DESC_STREAM_CLASH).raise (DIE_WORK_EVENT d) DIE_WORK_EVENT_DESC_STREAM_CLASH
    | .bad => (s.raise (FSQ_EVENT d f) FSQ_EVENT_DESC_BAD).raise (DIE_WORK_EVENT d) DIE_WORK_EVENT_DESC_BAD
    | .check =>
      ((s.raise (FSQ_EVENT d f) FSQ_EVENT_DESC_BAD).raise (DIE_WORK_EVENT d) DIE_WORK_EVENT_DESC_BAD).raise (PL_EVENT d f)
        PL_EVENT_CHECK
    | .barin =>
      ((s.raise (FSQ_EVENT d f) FSQ_EVENT_DESC_BAD).raise (DIE_WORK_EVENT d) DIE_WORK_EVENT_DESC_BAD).raise (BAR_EVENT d)
        BAR_EVENT_BARIN_REJ
  let s := s.setFld (DIE_WORK_BADIDX d) DIE_WORK_BADIDX_INDEX ix
  (((s.dropDesc d f ix).localAbort acDesc layer 0x0301 STEP_EVENT 0).showPend d).dieQuiesceAnswer d

/-- Number of a die controller's pointer over the claims of its 64 faces (R27, R349). -/
def claimArb (d : Nat) : Nat := 512 + d
/-- The oldest eligible descriptor is granted to the claiming face, which checks it.  The layer entry at its LAYER is looked
up with it, also where OPC, DIE, BARCH or LAYER already fails the claim: no rule says whether it is read then (DESIGN CHOICE). -/
def State.faceClaim (s : State) (d f : Nat) : State :=
  match s.eng.active with
  | none => s
  | some p =>
    if !s.mayClaim d f then s
    else
      match (s.die d).window.find? (fun ix => s.eligible p f (gangSize (s.gangMap d) f) ix) with
      | none => s
      | some ix =>
        let w := (s.descAt p ix).1
        let s := (s.memSeen (p.descAddr ix) 64).memSeen (p.layerAddr (dLayer w)) 128
        let s := s.rotNext (claimArb d) f 64
        let x := s.die d
        let s := s.setDie d { x with window := x.window.filter (fun i => i != ix),
                                     granted := x.granted ++ [⟨ix, f, dBarout w, dBarch w⟩] }
        let s := s.refill d
        match s.checkClaim p d f ix with
        | .fails why layer => s.reject d f ix layer why
        | .holds h =>
          let s := s.setFace d f { s.face d f with held := (s.face d f).held ++ [h] }
          ((s.noteQueue (64 * d + f) 0 (s.face d f).held.length).showFace d f).dieArrive d
/-- Faces of a die that claim in one cycle, served from the rotating pointer on (R27, R349). -/
def State.claimCycle (s : State) (d : Nat) (faces : List Nat) : State :=
  (((List.range 64).map (fun i => (s.rot (claimArb d) + i) % 64)).filter (fun f => faces.contains f)).foldl
    (fun s f => s.faceClaim d f) s
/-- FACE_CLAIM. -/
def execFaceClaim (d : DieIx) (f : Claimer) (s : State) : Res :=
  done s (s.claimCycle d.val ((f.face :: f.also).map (fun x => x.val)))

/-! ### starting -/

/-- The next descriptor the face may start: the oldest held one that is ready, while none runs. -/
def State.readyHeld (s : State) (d f : Nat) : Option Held :=
  let l := (s.face d f).held
  if l.any (fun h => h.run != .waiting) then none
  else l.find? (fun h => !dBarin h.words || bit (s.reg (BAR_STAT d)) (16 + dBarch h.words))
/-- The descriptor that runs on a face. -/
def State.runningHeld (s : State) (d f : Nat) : Option Held := (s.face d f).held.find? (fun h => h.run == .running)
def State.setRun (s : State) (d f ix : Nat) (r : Run) : State :=
  s.setFace d f { s.face d f with held := (s.face d f).held.map (fun h => if h.idx = ix then { h with run := r } else h) }

/-- A descriptor starts on a gang: the counter sets of its faces start again (R416). -/
def State.faceQueues (s : State) (d f ix : Nat) : State :=
  (List.range (gangSize (s.gangMap d) f)).foldl (fun s i =>
    let x := s.face d (f + i)
    s.resetQueue (64 * d + f + i) ix [(0, x.held.length), (5, s.faceFlight d (f + i)), (7, min 8 x.recs.length)]) s
/-- The unit that a descriptor starts: what `go` does once it is marked running.  AS_STAT.LAYER is the LAYER_ID of the descriptor started
last, of whatever kind, also while nothing is on the store path (DESIGN CHOICE; R165: 'Layer on the store path'). -/
def State.descStart (s : State) (d f : Nat) (k : DescKind) (go : State → Held → State) : State :=
  match s.readyHeld d f with
  | none => s
  | some h =>
    if descKind s.phaseKind h.words ≠ some k then s
    else
      let s := ((s.setRun d f h.idx .running).showFace d f).faceQueues d f h.idx
      let s := s.traceDesc false d f h.idx (dLayer h.words) (dOpc h.words)
      let s := s.setFld (AS_STAT d f) AS_STAT_LAYER (lLayerId h.layer)
      go s h
def execDescNop (d : DieIx) (f : FaceIx) (s : State) : Res := done s (s.descStart d.val f.val .nop (fun s _ => s))

/-! ### the planisher's state as it shows -/

/-- STEP that the header of a copy made now will carry (R107). -/
def State.copyStep (s : State) : Nat := if s.phaseKind = 3 then s.stepNum + 1 else s.stepNum
/-- Layer and step of the signs a held descriptor's rows take; none when it rotates none (R107, R178). -/
def State.signNeed (s : State) (h : Held) : Option (Nat × Nat) :=
  if !h.draws.any (fun u => u.cls == 2) then none
  else
    let made := dOpc h.words == 4
    let step := if made then s.copyStep else match s.wcInUse h.layer with | some (hd, _) => whStep hd | none => 0
    some (lLayerId h.layer, step)
/-- A half holds these signs, full when `ready`. -/
def SignHalf.serves (x : SignHalf) (k : Nat × Nat) : Bool := x.layer == some k.1 && x.step == k.2
/-- A full half holds the signs of the running descriptor's rows. -/
def State.signsReady (s : State) (d f : Nat) : Bool :=
  match s.runningHeld d f with
  | none => false
  | some h => match s.signNeed h with
    | none => false
    | some k => [(s.face d f).signs0, (s.face d f).signs1].any (fun x => x.serves k && x.ready)
def State.showSigns (s : State) (d f : Nat) : State := s.setFlag (PL_STAT d f) PL_STAT_SIGNS_READY (s.signsReady d f)
/-- Show the planisher's mode, the layer of its row and its signs. -/
def State.plMode (s : State) (d f mode layer : Nat) : State :=
  ((s.setFld (PL_STAT d f) PL_STAT_MODE mode).setFld (PL_STAT d f) PL_STAT_LAYER layer).showSigns d f
/-- A row enters the planisher. -/
def State.plPush (s : State) (d f : Nat) (r : PlRow) : State :=
  let x := s.face d f
  let rows := x.rows ++ [r]
  (s.setFace d f { x with rows := rows }).setFld (PL_STAT d f) PL_STAT_ROWBUF (min 2 rows.length)

/-! ### completion (R29, R31) -/

/-- Nothing of the descriptor's GEMM is left: no tile waits and every bench of the gang is empty. -/
def State.gemmDone (s : State) (d f : Nat) : Bool :=
  match (s.face d f).gemm with
  | none => true
  | some g =>
    g.queue.all (fun e => e.2.isEmpty) &&
    (List.range (16 * gangSize (s.gangMap d) f)).all (fun i =>
      let b := s.bench d (f + i / 16) (i % 16)
      b.passes.isEmpty && b.tile.isNone && b.late.isEmpty && b.park.isEmpty && b.shadow.isEmpty)
/-- The running descriptor has done its work: rows out of the planisher, passes drained, store streams acknowledged. -/
def State.workDone (s : State) (d f : Nat) : Bool :=
  (s.face d f).rows.isEmpty && s.gemmDone d f &&
  !(List.range (gangSize (s.gangMap d) f)).any (fun i => s.storesOpen d (f + i))

/-- The last two acts of a completion: the job doorbell, then the report to the die controller. -/
def State.report (s : State) (d f : Nat) (h : Held) : State :=
  let w := h.words
  let s := if dDbEn w then s.ring (dDoorbell w) (s.devId + h.idx % 2 ^ 20 * 2 ^ 12) else s
  let s := s.traceDesc true d f h.idx (dLayer w) (dOpc w)
  let s := (List.range (gangSize (s.gangMap d) f)).foldl (fun s i => s.dropLoads d (f + i)) s
  let s := if dOpc w = 5 then
      ({ s with eng := { s.eng with optDone := setInsert (lLayerId h.layer) s.eng.optDone,
                                    optIdx := setInsert h.idx s.eng.optIdx } } : State).optDoneUw (lLayerId h.layer)
    else s
  let s := s.setFace d f { s.face d f with gemm := none }
  let s := (s.dropDesc d f h.idx).showSigns d f
  let s := s.setFld (DIE_WORK_STAT d) DIE_WORK_STAT_DONE (s.fld (DIE_WORK_STAT d) DIE_WORK_STAT_DONE + 1)
  ((s.bump (FSQ_DONE_LO d f) 1).dieArrive d).dieQuiesceAnswer d |>.abortSettle

/-- DESC_COMPLETE: the records go to the die controller, and the tally is posted, or the report follows at once. -/
def State.descComplete (s : State) (d f : Nat) : State :=
  match s.runningHeld d f with
  | none => s
  | some h =>
    if !s.workDone d f then s
    else
      let w := h.words
      let s := s.sendRecs d f (gangSize (s.gangMap d) f)
      if dPostEn w then
        let s := ((s.setRun d f h.idx .posted).showFace d f).showSigns d f
        { s with eng := { s.eng with tallies := s.eng.tallies ++ [TallyMsg.mk (dPostDie w) (dPostTally w) d f false] } }
      else s.report d f h
def execDescComplete (d : DieIx) (f : FaceIx) (s : State) : Res := done s (s.descComplete d.val f.val)

/-- Change the first member of a list that satisfies a test. -/
def mapFirst {α : Type} (t : α → Bool) (g : α → α) : List α → List α
  | [] => []
  | x :: l => if t x then g x :: l else x :: mapFirst t g l
/-- TALLY_INCREMENT: the oldest increment on its way to the tally lands. -/
def State.tallyLand (s : State) (d t : Nat) : State :=
  let mine (m : TallyMsg) : Bool := m.dstDie == d && m.tally == t && !m.landed
  if !s.eng.tallies.any mine then s
  else
    let s := { s with eng := { s.eng with tallies := mapFirst mine (fun m => { m with landed := true }) s.eng.tallies } }
    s.setReg (DIE_TALLY d t) (s.reg (DIE_TALLY d t) + 1)
def execTallyIncrement (d : DieIx) (t : Fin 256) (s : State) : Res := done s (s.tallyLand d.val t.val)

/-- TALLY_ACK: the acknowledged face rings its doorbell and reports. -/
def State.tallyAck (s : State) (d f : Nat) : State :=
  let mine (m : TallyMsg) : Bool := m.srcDie == d && m.face == f && m.landed
  match (s.face d f).held.find? (fun h => h.run == .posted) with
  | none => s
  | some h =>
    if !s.eng.tallies.any mine then s
    else
      let s := { s with eng := { s.eng with tallies := s.eng.tallies.filter (fun m => !mine m) } }
      s.report d f h
def execTallyAck (d : DieIx) (f : FaceIx) (s : State) : Res := done s (s.tallyAck d.val f.val)

end Sys2Proof.Machine
end

