-- ==== Sys2Proof/Machine/Vec.lean ====
section
/-! DEFINITION. The vector unit: rows in and out (R466), dropout (R181), accumulate-stores (R189, R190, R472), the loss test
(R196), and the descriptors of FORM 0, 1 and 2 (R465, R186) and SEND (R308). -/

namespace Sys2Proof.Machine

/-! ### rows -/

/-- Element format of a code; FP32 for a code that names none. -/
def fmtAt (c : Nat) : Fmt := (fmtOf c).getD .fp32
/-- Bytes of a packed row, padded with 0 to its distance (R466). -/
def rowBytes (w stride : Nat) (codes : List Nat) : List Byte :=
  let v := packCodes w codes
  v ++ List.replicate (stride - v.length) 0
/-- Convert FP32 images; element i rounds by `rnd i`. -/
def convRow (f : Fmt) (sgn zm : Bool) (rnd : Nat → Rnd) (vals : List Nat) : List Nat × ConvCnt :=
  (vals.zip (List.range vals.length)).foldl (fun (acc : List Nat × ConvCnt) x =>
    let r := fmtConvert f sgn zm (rnd x.2) (fv32 x.1)
    (acc.1 ++ [r.1], acc.2.plus r.2)) ([], {})
/-- A list cut or filled with +0 to n places. -/
def fitRow (n : Nat) (l : List Nat) : List Nat := l.take n ++ List.replicate (n - l.length) 0

/-- Where the selected columns of input row r of a VEC descriptor stand. -/
def State.vecInputAt (s : State) (w : List Nat) (r : Nat) : Nat :=
  s.ringAddr (dIn w) + r * rowStride (dKcnt w) (fmtWidth (vIfmt w)) + dN0 w * (fmtWidth (vIfmt w) / 8)
/-- What reading that row does to the device. -/
def State.vecSeen (s : State) (d f : Nat) (w : List Nat) (r : Nat) : State :=
  s.faceSeen d f (s.vecInputAt w r) (vCols w * fmtWidth (vIfmt w) / 8)
/-- Selected columns of input row r of a VEC descriptor, as FP32 images, and its poison. -/
def State.vecInput (s : State) (d f : Nat) (w : List Nat) (r : Nat) : List Nat × Bool :=
  let fw := fmtWidth (vIfmt w)
  let x := s.codesAt d f (s.vecInputAt w r) fw (vCols w)
  (x.1.map (toF32 (vIfmt w) true), x.2)
/-- Row r as the routine leaves the selected columns `x`: the copy, or what a routine of the run-time computes; `n` numbers the run,
`width` is the width of its rows. -/
def State.routineRow (s : State) (d f : Nat) (zm : Bool) (w : List Nat) (n width r : Nat) (x : List Nat × Bool) : List Nat × Bool :=
  if dVprog w = 0 then x
  else
    let aux (o : Nat) : Nat × Bool := let v := s.faceRead d f (s.ringAddr (dAux w) + o) 4; (leNat v.1, v.2)
    let y := (List.range width).map (fun i => (Config.vecElem n r i).eval zm x.1 aux)
    (y.map (fun e => e.1), x.2 || y.any (fun e => e.2))
/-- What the routine's reads of its second operand for row r do to the device. -/
def State.routineSeen (s : State) (d f : Nat) (w : List Nat) (n width r : Nat) : State :=
  if dVprog w = 0 ∨ dAux w = 0 then s
  else s.facesSeen d f ((List.range width).flatMap (fun i => (Config.vecElem n r i).auxAt.map (fun o => (s.ringAddr (dAux w) + o, 4))))
def State.vecRow (s : State) (d f : Nat) (zm : Bool) (w : List Nat) (n width r : Nat) : List Nat × Bool :=
  s.routineRow d f zm w n width r (s.vecInput d f w r)

/-- Rows of a descriptor's range. -/
def rangeRows (w : List Nat) : List Nat := (List.range (dMcnt w)).map (fun i => dM0 w + i)

/-! ### dropout (R181) -/

/-- FP32 image of 256 / (256 − p). -/
def dropFactor (p : Nat) : Nat := f32 ((fvNat 256).div (fvNat (256 - p)))
/-- The mask and factor of a layer input's row m. -/
def State.dropRow (s : State) (b : List Byte) (m : Nat) (vals : List Nat) : List Nat :=
  let p := hDropP s.hdr
  if lDropStrm b = 0 ∨ p = 0 then vals
  else
    let fac := dropFactor p
    (vals.zip (List.range vals.length)).map (fun x =>
      if s.drawDrop (lLayerId b) (lDropStrm b) m x.2 < p then 0 else f32Mul x.1 fac)

/-! ### accumulate-stores -/

/-- Element width of a gradient accumulator, and the distance of its rows (R190). -/
def State.gradW (s : State) : Nat := if hAccFmt s.hdr then 16 else 32
def State.gradRow (s : State) (b : List Byte) : Nat := roundUp (lK b * s.gradW / 8) 64
/-- The running phase is a body phase of the sync microstep. -/
def State.isSync (s : State) : Bool := decide (s.phaseKind < 2) && s.micro + 1 == hSyncEvery s.hdr

/-- Codes stored from address a on that lie in the loss region and are not finite (R196); w is their width, fc their format. -/
def State.lossHit (s : State) (a w fc : Nat) (codes : List Nat) : Bool :=
  let lo := hLossAddr s.hdr
  let hi := lo + hLossLen s.hdr
  hLossLen s.hdr != 0 && (codes.zip (List.range codes.length)).any (fun x =>
    decide (lo < a + (x.2 + 1) * (w / 8)) && decide (a + x.2 * (w / 8) < hi) && !(fmtDecode (fmtAt fc) true x.1).isFin)

/-- One piece of an accumulate-store, inside one 64-byte beat: `a` is its address, n and k its row and first column.  The last
component says that it left a value in the loss region that is not finite.  A BF16 element rounds stochastically where it is added to
(R190), or where the store is one of PSR = 1 (`sr`, R90). -/
def State.gradPiece (s : State) (d f : Nat) (b : List Byte) (a n k : Nat) (vals : List Nat) (bad sr : Bool) :
    State × ConvCnt × Bool :=
  let w := s.gradW
  let zm := lZmode b
  let add := s.micro != 0
  let s := if add then s.faceSeen d f a (vals.length * w / 8) else s
  let old := s.codesAt d f a w vals.length
  let sum := if add then
      (vals.zip (old.1.map (toF32 (if w = 16 then 3 else 5) true))).map (fun x => f32Add x.2 x.1)
    else vals
  let first := a % 2 ^ 40 / (w / 8)
  let rnd (i : Nat) : Rnd := if (add || sr) && w == 16 then .sr (s.drawStore (lLayerId b) (lSrStrm b) (first + i)) else .ne
  let r := convRow (if w = 16 then .bf16 else .fp32) true zm rnd sum
  let bad := bad || (add && old.2)
  let cnt := if w = 16 then r.2 else {}
  let hit := s.lossHit a w (if w = 16 then 3 else 5) r.1
  if s.isSync && polMode (lJobPol b) == 0 then
    (s.packRun d b n (vals.length + 1) k (if add then r.1.map (toF32 (if w = 16 then 3 else 5) true) else sum) bad,
     if add then cnt else {}, hit)
  else (s.faceStore d f a (packCodes w r.1) bad, cnt, hit)

/-- An accumulate-store of a run of elements: row n of the accumulator at `base`, from column k on (R189, R472). -/
def State.gradStore (s : State) (d f : Nat) (b : List Byte) (base n : Nat) (sr : Bool) :
    Nat → Nat → List Nat → Bool → State × ConvCnt × Bool
  | 0, _, _, _ => (s, {}, false)
  | fuel + 1, k, vals, bad =>
    if vals.isEmpty then (s, {}, false)
    else
      let e := s.gradW / 8
      let a := base + n * s.gradRow b + k * e
      let m := max 1 ((64 - a % 64) / e)
      let r := s.gradPiece d f b a n k (vals.take m) bad sr
      let t := r.1.gradStore d f b base n sr fuel (k + m) (vals.drop m) bad
      (t.1, r.2.1.plus t.2.1, r.2.2 || t.2.2)

/-! ### vector stores -/

/-- Assay statistics of a row the vector unit stored without a scale (R137 to R139). -/
def State.rowStat (s : State) (d f : Nat) (b : List Byte) (vals : List Nat) (c : ConvCnt) : State :=
  let v := vals.map fv32
  s.storeStat d f (lLayerId b) vals.length c v v

/-- Store row r of a VEC output of FORM 0 or 1: format, width of a row and its first elements; the rest of the row is +0.  A store
into GRADACC accumulates the values that the output format leaves.  The second component is the loss test of R196. -/
def State.vecStore (s : State) (d f : Nat) (b : List Byte) (oa fc width r : Nat) (sgn : Bool) (sr : Bool) (vals : List Nat)
    (bad : Bool) : State × Bool :=
  if s.classOf oa = clGradacc then
    let e := s.gradW / 8
    let rnd (i : Nat) : Rnd :=
      if sr then .sr (s.drawStore (lLayerId b) (lSrStrm b) ((oa + r * s.gradRow b) % 2 ^ 40 / e + i)) else .ne
    let c := convRow (fmtAt fc) sgn (lZmode b) rnd vals
    let t := s.gradStore d f b oa r sr (vals.length + 1) 0 (c.1.map (toF32 fc sgn)) bad
    (t.1.rowStat d f b vals (c.2.plus t.2.1), t.2.2)
  else
    let w := fmtWidth fc
    let stride := rowStride width w
    let a := oa + r * stride
    let rnd (i : Nat) : Rnd := if sr then .sr (s.drawStore (lLayerId b) (lSrStrm b) (a % 2 ^ 40 / (w / 8) + i)) else .ne
    let c := convRow (fmtAt fc) sgn (lZmode b) rnd vals
    let s := s.faceStore d f a (rowBytes w stride (fitRow width c.1)) bad
    (s.rowStat d f b vals c.2, s.lossHit a w fc c.1)
/-- A vector-unit store of codes that are no elements of an accumulator.  Into a GRADACC object it is an accumulate-store as well
(R189): after the first microstep the sum of such codes is not stated, so its bytes are free; in a STREAM sync microstep the elements
that the bytes reach go to the contribution path. -/
def State.codeStore (s : State) (d f : Nat) (b : List Byte) (oa : Nat) (v : List Byte) (bad : Bool) : State :=
  let stream := s.isSync && polMode (lJobPol b) == 0
  if s.classOf oa != clGradacc || (s.micro == 0 && !stream) then s.faceStore d f oa v bad
  else
    let add := s.micro != 0
    let (n, s) := (if add then s.faceSeen d f oa v.length else s).draw
    let bad := bad || (add && (s.faceRead d f oa v.length).2)
    if stream then
      let e := s.gradW / 8
      let off := (oa + 2 ^ 40 - lGrad b % 2 ^ 40) % 2 ^ 40
      let at' := off % s.gradRow b
      let m := ceilDiv (at' % e + v.length) e
      let vals := (List.range m).map (fun i => toF32 (if e = 2 then 3 else 5) true (leNat ((List.range e).map (fun j => Config.codeSum n (i * e + j)))))
      s.packRun d b (off / s.gradRow b) (m + 1) (at' / e) vals bad
    else s.faceStore d f oa ((List.range v.length).map (Config.codeSum n)) bad

/-- FORM 1. -/
def State.vecPlain (s : State) (d f : Nat) (h : Held) : State :=
  let w := h.words
  let b := h.layer
  let (n, s) := s.draw
  let width := if dVprog w = 0 then vCols w else Config.vecWidth n
  let oa := s.ringAddr (dOut w)
  (rangeRows w).foldl (fun s r =>
    let s := (s.vecSeen d f w r).routineSeen d f w n width r
    let x := s.vecRow d f (lZmode b) w n width r
    let t := s.vecStore d f b oa (vPfmt w) width r true (vPsr w) x.1 x.2
    if t.2 then t.1.lossStore else t.1) (s.plMode d f 0 (lLayerId b))
def execDescVecPlain (d : DieIx) (f : FaceIx) (s : State) : Res :=
  done s (s.descStart d.val f.val .plain (fun s h => s.vecPlain d.val f.val h))

/-! ### FORM 0 -/

/-- Activation format code of a layer in the step (R127, R130). -/
def aFmtOf (fine ifmt : Nat) : Nat := wFmtOf fine ifmt
/-- Token rows of a planished tensor, and its offsets (R117, R118): FMT width w, row length kp, outlier cap. -/
def State.plRows (s : State) (d f oa : Nat) : Nat := s.faceNat d f (oa + 4) 4
def plSOff (rows kp w : Nat) : Nat := 0x40 + roundUp (rows * kp * w / 8) 64
def plLOff (rows kp w : Nat) : Nat := plSOff rows kp w + roundUp rows 64
def plLRow (kp ocap : Nat) : Nat := ceilDiv kp 128 * 2 * ocap
/-- Effective outlier cap code (R111). -/
def effOcap (b : List Byte) (fine : Nat) : Nat := if fine = 0 then lOcap b else 0
/-- Header words 0x0C to 0x1B of a planished tensor. -/
def plHeader (b : List Byte) (fine rot step rows : Nat) : List Byte :=
  let w := if fine = 0 then 4 else 8
  leBytes 4 (fine + rot * 2 ^ 4 + effOcap b fine * 2 ^ 7) ++ leBytes 4 step ++ leBytes 4 (plSOff rows (lKp b) w) ++
  leBytes 4 (plLOff rows (lKp b) w)

/-- Shadow rows (R143 to R145): bytes of an entry, and the place of row m when its group is sampled. -/
def shRowEntry (kp w : Nat) : Nat := roundUp (32 * kp * w / 8) 64
def State.shRowAt (s : State) (b : List Byte) (fine m : Nat) : Option Nat :=
  let w := fmtWidth (wFmtOf (fine + 1) 0)
  let o := (s.drawSamp s.stepNum (lLayerId b) (lSampStrm b)).2
  let g := m / 32
  if s.shadowOn b ∧ fine < 3 ∧ g % 64 = o then
    some (s.ringAddr (lAsh b) + 0x40 + g / 64 * shRowEntry (lKp b) w + m % 32 * (lKp b * w / 8))
  else none
/-- Rows of a layer input that has no header (FN2): those that the program's FORM 0 descriptors with this OUT_ADDR write. -/
def State.inputRows (s : State) (w : List Nat) : Nat :=
  match s.eng.active with
  | none => 0
  | some p => (List.range (hDescs p.hdr)).foldl (fun n ix =>
      let x := (s.descAt p ix).1
      if dOpc x = 3 ∧ vForm x = 0 ∧ dOut x = dOut w then max n (dM0 x + dMcnt x) else n) 0
/-- The header of the shadow-row object, with the rows of the layer's input. -/
def State.shHeader (s : State) (d f : Nat) (b : List Byte) (fine rows : Nat) : State :=
  if !s.shadowOn b ∨ 3 ≤ fine then s
  else
    let oa := s.ringAddr (lAsh b)
    let o := (s.drawSamp s.stepNum (lLayerId b) (lSampStrm b)).2
    s.codeStore d f b oa (leBytes 4 0x53484131 ++ leBytes 4 s.stepNum ++ leBytes 4 (wFmtOf (fine + 1) 0) ++
      leBytes 4 rows ++ leBytes 4 (lKp b) ++ leBytes 4 o) false
/-- Store the shadow form of a row, when its group is sampled; its conversions count unless the row's statistics are withheld. -/
def State.shRow (s : State) (d f : Nat) (b : List Byte) (fine m : Nat) (vals : List Nat) (bad withheld : Bool) : State :=
  match s.shRowAt b fine m with
  | none => s
  | some a =>
    let fc := wFmtOf (fine + 1) 0
    let c := convRow (fmtAt fc) true (lZmode b) (fun _ => .ne) vals
    let s := s.codeStore d f b a (packCodes (fmtWidth fc) c.1) bad
    if withheld then s else s.storeStat d f (lLayerId b) 0 c.2 [] (vals.map fv32)

/-- FORM 0 in a FWD phase: the input of the layer, planished at FN0 and FN1 (the rows go to the planisher), converted at FN2 and
FN3. -/
def State.vecInputOf (s : State) (d f : Nat) (h : Held) : State :=
  let w := h.words
  let b := h.layer
  let fine := s.fineOf b
  let kp := lKp b
  let oa := s.ringAddr (dOut w)
  let (n, s) := s.draw
  let step := match s.wcInUse b with | some (hd, _) => whStep hd | none => 0
  let row (s : State) (r : Nat) : List Nat × Bool :=
    let x := s.vecRow d f (lZmode b) w n (lK b) r
    (s.dropRow b r (fitRow (lK b) x.1), x.2)
  if fine < 2 then
    let rows := s.plRows d f oa
    let s := s.codeStore d f b (oa + 0x0C) (plHeader b fine (s.rotOf b) step rows) false
    let s := (s.shHeader d f b fine rows).plMode d f 1 (lLayerId b)
    (rangeRows w).foldl (fun s r =>
      let s := (s.vecSeen d f w r).routineSeen d f w n (lK b) r
      let x := row s r
      s.plPush d f ⟨.planish, r, fitRow kp x.1, x.2⟩) s
  else
    let s := (s.shHeader d f b fine (s.inputRows w)).plMode d f 0 (lLayerId b)
    (rangeRows w).foldl (fun s r =>
      let s := (s.vecSeen d f w r).routineSeen d f w n (lK b) r
      let x := row s r
      let t := s.vecStore d f b oa (aFmtOf fine (lIfmt b)) kp r (lIfmt b == 0 || lAsgn b) false x.1 x.2
      t.1.shRow d f b fine r (fitRow kp x.1) x.2 false) s

/-- The last part of an input-gradient row: dropout and store (R181, R465). -/
def State.gradInRow (s : State) (d f : Nat) (h : Held) (r : Nat) (vals : List Nat) (bad : Bool) : State :=
  let b := h.layer
  (s.vecStore d f b (s.ringAddr (dOut h.words)) 5 (lKp b) r true false (s.dropRow b r (vals.take (lK b))) bad).1
/-- The vector unit takes a row that UNROT_A has given back on the load path: its routine, then the store (R100, R465). -/
def State.gradLoaded (s : State) (d f : Nat) (h : Held) (r : Nat) (vals : List Nat) (bad : Bool) : State :=
  let (n, s) := s.draw
  let s := s.routineSeen d f h.words n (lK h.layer) r
  let x := s.routineRow d f (lZmode h.layer) h.words n (lK h.layer) r (vals.take (vCols h.words), bad)
  s.gradInRow d f h r (fitRow (lK h.layer) x.1) x.2
/-- FORM 0 in a BWD phase: the input gradient, through UNROT_A on the load path where it applies; a row is filled up to whole
blocks. -/
def State.vecGradOf (s : State) (d f : Nat) (h : Held) : State :=
  let w := h.words
  let b := h.layer
  let rot := decide (s.fineOf b < 2) && s.rotOf b != 0
  let s := s.plMode d f (if rot then 3 else 0) (lLayerId b)
  (rangeRows w).foldl (fun s r =>
    let s := s.vecSeen d f w r
    let x := s.vecInput d f w r
    if rot then s.plPush d f ⟨.gradIn, r, fitRow (roundUp (vCols w) (rotB (s.rotOf b))) x.1, x.2⟩ else s.gradLoaded d f h r x.1 x.2) s
def execDescVecLayerData (d : DieIx) (f : FaceIx) (s : State) : Res :=
  done s (s.descStart d.val f.val .layerData (fun s h =>
    if s.phaseKind = 0 then s.vecInputOf d.val f.val h else s.vecGradOf d.val f.val h))

/-! ### FORM 2 (R186) -/

/-- Geometry of a gradient pair: token rows, channels, element width. -/
def gpRsd (n w : Nat) : Nat := roundUp (roundUp n 32 * w / 8) 64
def gpRsw (rows w : Nat) : Nat := roundUp (roundUp rows 32 * w / 8) 64
def gpGdBs (rows n w : Nat) : Nat := 0x40 + rows * gpRsd n w
def gpGw (rows n w : Nat) : Nat := gpGdBs rows n w + roundUp (rows * (roundUp n 32 / 32)) 64
def gpGwBs (rows n w : Nat) : Nat := gpGw rows n w + n * gpRsw rows w

/-- Quantise up to 32 elements as one block at a per-tensor scale (R88): block code, element codes, counts, the values after their
scales. -/
def quantBlock (f : Fmt) (zm : Bool) (scale : Nat) (vals : List Nat) : Nat × List Nat × ConvCnt × List FV :=
  let q := fvNat f.qmax
  let pick := pickBlock (amaxOf (vals.map fv32)) (q.mul (fv32 scale))
  let den := (ue8m0 pick.code).mul (fv32 scale)
  let x := vals.map (fun v => (fv32 v).div den)
  let r := x.foldl (fun (acc : List Nat × ConvCnt) v =>
    let c := fmtConvert f true zm .ne v
    (acc.1 ++ [c.1], acc.2.plus c.2)) ([], {})
  (pick.code, r.1, r.2.plus pick.cnt, x)

/-- What a FORM 2 descriptor reads: dY, one row per token, the channel scales and the token scales. -/
structure PairIn where
  rows : Nat
  n    : Nat
  dy   : List (List Nat × Bool)
  cs   : List Nat
  ts   : List Nat
  bad  : Bool
deriving DecidableEq, Repr

def State.pairIn (s : State) (d f : Nat) (h : Held) (k : Nat) : PairIn :=
  let w := h.words
  let b := h.layer
  let rows := s.faceNat d f (s.ringAddr (dOut w) + 0x0C) 4
  let n := lN b
  let dy := (List.range rows).map (fun r => let x := s.vecRow d f (lZmode b) w k n r; (fitRow n x.1, x.2))
  let c := match s.wcInUse b with
    | some (hd, a) => s.faceRead d f (a + whCsOff hd) n
    | none => (List.replicate n 0x38, false)
  let pl := s.ringAddr (lIn b)
  let t := if s.fineOf b < 2 then s.faceRead d f (pl + s.faceNat d f (pl + 0x14) 4) rows else (List.replicate rows 0x38, false)
  ⟨rows, n, dy, c.1.map (fun x => f32 (e4m3 x.toNat)), t.1.map (fun x => f32 (e4m3 x.toNat)), c.2 || t.2⟩

/-- What reading it does to the device. -/
def State.pairSeen (s : State) (d f : Nat) (h : Held) (k : Nat) : State :=
  let w := h.words
  let b := h.layer
  let rows := s.faceNat d f (s.ringAddr (dOut w) + 0x0C) 4
  let s := (List.range rows).foldl (fun s r => (s.vecSeen d f w r).routineSeen d f w k (lN b) r) (s.faceSeen d f (s.ringAddr (dOut w) + 0x0C) 4)
  let s : State := match s.wcInUse b with
    | some (hd, a) => s.faceSeen d f (a + whCsOff hd) (lN b)
    | none => s
  let pl := s.ringAddr (lIn b)
  if s.fineOf b < 2 then s.facesSeen d f [(pl + 0x14, 4), (pl + s.faceNat d f (pl + 0x14) 4, rows)] else s
/-- dY × c_n of token row m, and dY × t_m of channel j. -/
def PairIn.gd (x : PairIn) (m : Nat) : List Nat := ((x.dy.getD m ([], false)).1.zip x.cs).map (fun p => f32Mul p.1 p.2)
def PairIn.gw (x : PairIn) (j m : Nat) : Nat := f32Mul ((x.dy.getD m ([], false)).1.getD j 0) (x.ts.getD m 0)
/-- The channels' elements of a run of token rows. -/
def PairIn.gwRun (x : PairIn) (j m n : Nat) : List Nat := (List.range n).map (fun i => x.gw j (m + i))

/-- FORM 2. -/
def State.vecPair (s : State) (d f : Nat) (h : Held) : State :=
  let b := h.layer
  let w := h.words
  let (k, s) := s.draw
  let s := s.pairSeen d f h k
  let x := s.pairIn d f h k
  let fc := gFmtOf (s.fineOf b) (lIfmt b)
  let fm := fmtAt fc
  let ew := fmtWidth fc
  let zm := lZmode b
  let oa := s.ringAddr (dOut w)
  let aGd := (List.range x.rows).foldl (fun a m => amax2 a (amaxOf ((x.gd m).map fv32))) (.fin false 0 0)
  let aGw := (List.range x.rows).foldl (fun a m =>
    amax2 a (amaxOf ((List.range x.n).map (fun j => fv32 (x.gw j m))))) (.fin false 0 0)
  let sGd := pickTensor aGd (fvNat fm.qmax)
  let sGw := pickTensor aGw (fvNat fm.qmax)
  let head := leBytes 4 s.stepNum ++ leBytes 4 s.micro
  let tail := leBytes 4 fc ++ leBytes 4 0x40 ++ leBytes 4 (gpGw x.rows x.n ew) ++ leBytes 4 sGd ++ leBytes 4 sGw
  let hBad := x.bad || x.dy.any (fun r => r.2)
  let s := ((s.plMode d f 0 (lLayerId b)).codeStore d f b (oa + 4) head hBad).codeStore d f b (oa + 0x14) tail hBad
  let np := roundUp x.n 32
  let rp := roundUp x.rows 32
  let stat (s : State) (raw : List Nat) (c : ConvCnt) (scaled : List FV) : State :=
    s.storeStat d f (lLayerId b) raw.length c (raw.map fv32) scaled
  let s := (rangeRows w).foldl (fun s m =>
    let row := x.gd m
    let bad := x.bad || (x.dy.getD m ([], false)).2
    (List.range (np / 32)).foldl (fun s i =>
      let vals := (row.drop (32 * i)).take 32
      let q := quantBlock fm zm sGd vals
      let s := s.codeStore d f b (oa + 0x40 + m * gpRsd x.n ew + 32 * i * ew / 8) (packCodes ew (fitRow 32 q.2.1)) bad
      let s := s.codeStore d f b (oa + gpGdBs x.rows x.n ew + m * (np / 32) + i) (leBytes 1 q.1) bad
      stat s vals q.2.2.1 q.2.2.2) s) s
  (List.range (ceilDiv (dMcnt w) 32)).foldl (fun s i =>
    let m := dM0 w + 32 * i
    let cnt := min 32 (x.rows - m)
    let bad := x.bad || ((x.dy.drop m).take cnt).any (fun r => r.2)
    (List.range x.n).foldl (fun s j =>
      let vals := x.gwRun j m cnt
      let q := quantBlock fm zm sGw vals
      let s := s.codeStore d f b (oa + gpGw x.rows x.n ew + j * gpRsw x.rows ew + m * ew / 8) (packCodes ew (fitRow 32 q.2.1)) bad
      let s := s.codeStore d f b (oa + gpGwBs x.rows x.n ew + j * (rp / 32) + m / 32) (leBytes 1 q.1) bad
      stat s vals q.2.2.1 q.2.2.2) s) s
def execDescVecGradientPair (d : DieIx) (f : FaceIx) (s : State) : Res :=
  done s (s.descStart d.val f.val .gradPair (fun s h => s.vecPair d.val f.val h))

/-! ### SEND (R307, R308) -/

/-- Hand row n of an accumulator to the packer, piece by piece: a poisoned beat poisons the elements it holds. -/
def State.sendRow (s : State) (d f : Nat) (b : List Byte) (base n : Nat) : Nat → Nat → State
  | 0, _ => s
  | fuel + 1, k =>
    if lK b ≤ k then s
    else
      let e := s.gradW / 8
      let a := base + n * s.gradRow b + k * e
      let m := min (lK b - k) (max 1 ((64 - a % 64) / e))
      let s := s.faceSeen d f a (m * e)
      let x := s.codesAt d f a s.gradW m
      (s.packRun d b n (m + 1) k (x.1.map (toF32 (if e = 2 then 3 else 5) true)) x.2).sendRow d f b base n fuel (k + m)
def State.vecSend (s : State) (d f : Nat) (h : Held) : State :=
  (rangeRows h.words).foldl (fun s r =>
    s.sendRow d f h.layer (s.ringAddr (dIn h.words)) r (lK h.layer) 0) s
def execDescSend (d : DieIx) (f : FaceIx) (s : State) : Res :=
  done s (s.descStart d.val f.val .send (fun s h => (s.plMode d.val f.val 0 (lLayerId h.layer)).vecSend d.val f.val h))

end Sys2Proof.Machine
end

