-- ==== Sys2Proof/Machine/Window.lean ====
section
/-! DEFINITION. Table arithmetic of a bench: decoded operands (R38), the anchor (R39), column sums in the window (R35, R40 to R42),
special products (R43), joined columns (R44, R45), and the stages D1 to D3 and D6 of a drain (R58, R59, R61). -/

namespace Sys2Proof.Machine

/-! ### operands -/

/-- Activation width Wa of a format (R38). -/
def actWidth : Fmt → Nat
  | .bf16 => 8 | .int8 => 8 | .e8m15 => 16 | .int16 => 16 | _ => 4
/-- Join degree of a weight format (R44), and its code in a pass instruction. -/
def joinOf : Fmt → Nat
  | .bf16 => 2 | .int8 => 2 | .e8m15 => 4 | .int16 => 4 | _ => 1
def joinCode (j : Nat) : Nat := if j = 4 then 2 else if j = 2 then 1 else 0

/-- A value m × 2^e of a format as significand and LSB exponent (R38). -/
def sigOf (f : Fmt) (m : Nat) (e : Int) : Nat × Int :=
  match f with
  | .fp4 => (m * 2 ^ (e + 1).toNat, -1)
  | .e5m2 => (2 * m, e - 1)
  | _ => (m, e)
/-- Decode an element code; `x` is the exponent code of its UE8M0 block scale, 0x7F where it has none (R38, R81). -/
def opdOf (f : Fmt) (sgn : Bool) (x c : Nat) : Opd :=
  if x = 255 then ⟨false, 0, 0, 3⟩
  else match fmtDecode f sgn c with
    | .nan n _ => ⟨n, 0, 0, 3⟩
    | .inf n => ⟨n, 0, 0, if n then 2 else 1⟩
    | .fin n m e => let r := sigOf f m e; ⟨n, r.1, r.2 + ((x : Int) - 127), 0⟩
/-- Widen a BF16 operand to E8M15 (R46). -/
def Opd.widen (o : Opd) : Opd := { o with u := o.u * 256, t := o.t - 8 }
/-- The value of an operand. -/
def Opd.value (o : Opd) : FV :=
  if o.spc = 3 then .nan false (2 ^ 22) else if o.spc = 2 then .inf true else if o.spc = 1 then .inf false else .fin o.neg o.u o.t
def Opd.isZero (o : Opd) : Bool := o.spc == 0 && o.u == 0
/-- The zero weight of a column beyond NOUT (R49). -/
def Opd.zero : Opd := ⟨false, 0, 0, 0⟩

/-- Top exponent of the finite nonzero operands of a tile, −512 where it has none (R39); `w` is Wa, or 4J for weights. -/
def tileExp (w : Nat) (rows : List (List Opd)) : Int :=
  rows.foldl (fun a r => r.foldl (fun a o =>
    if o.spc = 0 ∧ o.u ≠ 0 then max a (o.t + w - 1) else a) a) (-512)

/-! ### one column of one wave -/

/-- Saturation of a column sum at 56 bits (R42). -/
def sat56 (x : Int) : Int := if x < -(2 ^ 55) then -(2 ^ 55) else if 2 ^ 55 - 1 < x then 2 ^ 55 - 1 else x

/-- Offset of an operand below its tile's exponent, saturated at 63 (R37, R44). -/
def offset (top e : Int) : Nat := min 63 (top - e).toNat

/-- The slot that the weight stage writes for slice j of a weight (R34, R44).  A special weight has no U or T in R38: its slot is written
as of U = 0 and T = 0 (DESIGN CHOICE; a sett adds nothing for it, R43). -/
def settOf (jn j : Nat) (wexp : Int) (w : Opd) : Sett :=
  ⟨bits w.u (4 * j) 4, w.neg, offset (wexp + 4 * (jn - 1 - j : Nat)) (w.t + 4 * jn - 1), w.spc⟩
/-- The slots of a weight tile by physical column and row; the columns past it hold zero weights (R49), whose
WSH no rule gives and is 63 here (DESIGN CHOICE; a slot with SIG 0 adds nothing at any WSH). -/
def settsOf (jn : Nat) (wts : List (List Opd)) : List (List Sett) :=
  let wexp := tileExp (4 * jn) wts
  let cols := wts.flatMap (fun c => (List.range jn).map (fun j => c.map (settOf jn j wexp)))
  cols ++ List.replicate (32 - cols.length) (List.replicate 32 ⟨0, false, 63, 0⟩)
/-- What one sett adds, in window units, and whether bits were lost (R35, R41). -/
def settAdd (wa : Nat) (aexp : Int) (a : Opd) (w : Sett) : Int × Bool :=
  if a.spc ≠ 0 ∨ w.wspc ≠ 0 ∨ a.u = 0 then (0, false)
  else
    let da := offset aexp (a.t + wa - 1)
    let mag := a.u * w.sig
    let sh : Int := 44 - wa - da - w.wsh
    let v := if da = 63 then 0 else shl mag sh
    (if a.neg != w.sgn then -(v : Int) else v, decide (sh < 0) && mag % 2 ^ (-sh).toNat != 0)

/-- Special result of a column (R43): 0 none, else the code of an operand. -/
def specialOf (prods : List (Opd × Opd)) : Nat :=
  let nan (p : Opd × Opd) : Bool :=
    p.1.spc == 3 || p.2.spc == 3 || (p.1.spc != 0 && p.2.isZero) || (p.2.spc != 0 && p.1.isZero)
  let infs := (prods.filter (fun p => p.1.spc != 0 || p.2.spc != 0)).map (fun p =>
    (if p.1.spc = 0 then p.1.neg else p.1.spc == 2) != (if p.2.spc = 0 then p.2.neg else p.2.spc == 2))
  if prods.any nan then 3
  else if infs.contains true && infs.contains false then 3
  else if infs.contains true then 2
  else if infs.contains false then 1
  else 0

/-- The column sums of the slices of an output column, joined in D1 (R45), in window units. -/
def joinSum (wa jn : Nat) (aexp wexp : Int) (prods : List (Opd × Opd)) : Int :=
  (List.range jn).foldl (fun s j =>
    s + sat56 (prods.foldl (fun c p => c + (settAdd wa aexp p.1 (settOf jn j wexp p.2)).1) 0)) 0
/-- Products that lost bits (R41). -/
def lostCount (wa jn : Nat) (aexp wexp : Int) (prods : List (Opd × Opd)) : Nat :=
  (prods.filter (fun p => (List.range jn).any (fun j => (settAdd wa aexp p.1 (settOf jn j wexp p.2)).2))).length

/-- FP32 image that D3 gives for a column: the sum rounded to nearest even, or its special result; an exact zero is +0, or −0 in
ZMODE BV1 when every product is a negative zero (R43, R61). -/
def d3Image (zm : Bool) (anchor sum : Int) (prods : List (Opd × Opd)) : Nat :=
  match specialOf prods with
  | 3 => 0x7FC00000
  | 2 => 0xFF800000
  | 1 => 0x7F800000
  | _ =>
    if sum = 0 then
      if zm && prods.all (fun p => (p.1.isZero || p.2.isZero) && (p.1.neg != p.2.neg)) then 0x80000000 else 0
    else f32 (fvOfInt false sum (anchor - 46))

/-- A pass: the FP32 images of its sums by row and output column as D3 gives them, and its truncation count. -/
def passSums (wa jn : Nat) (zm : Bool) (acts wts : List (List Opd)) : List (List Nat) × Nat :=
  let aexp := tileExp wa acts
  let wexp := tileExp (4 * jn) wts
  let cell (a w : List Opd) : Nat :=
    let prods := a.zip w
    d3Image zm (aexp + wexp) (joinSum wa jn aexp wexp prods) prods
  (acts.map (fun a => wts.map (cell a)),
   acts.foldl (fun n a => wts.foldl (fun n w => n + lostCount wa jn aexp wexp (a.zip w)) n) 0)

/-- D6: the accumulator plus the pass result (R59). -/
def d6Add (r : Rnd) (acc x : Nat) : Nat := f32r r ((fv32 acc).add (fv32 x))

end Sys2Proof.Machine
end

