-- ==== Sys2Proof/Machine/Gemm.lean ====
section
/-! DEFINITION. GEMM on a face: formats (R128, R130), the checks at the start (R120, R469), tiles (R70) and their reissue (R73),
the operands of a pass in memory (R84, R117 to R119, R162, R186 to R188, R466), and the pass instruction (R47). -/

namespace Sys2Proof.Machine

/-! ### formats -/

/-- Format codes of a GEMM: streamed operand, sett operand, output; kind 0 forward, 1 data gradient, 2 weight gradient. -/
structure GemmFmt where
  a : Nat
  w : Nat
  o : Nat
deriving DecidableEq, Repr

def gemmFmt (fine ifmt kind : Nat) : GemmFmt :=
  if kind = 0 then ⟨aFmtOf fine ifmt, wFmtOf fine ifmt, if fine = 3 then 5 else 3⟩
  else
    let fb := if ifmt = 0 then fine else 2
    ⟨if fb = 3 then 4 else gFmtOf fb 0, wFmtOf fb 0, 5⟩

/-- Which of the three GEMMs a descriptor asks for (R129). -/
def State.gemmKind (s : State) (w : List Nat) : Nat :=
  if s.phaseKind ≠ 1 then 0 else if s.classOf (dAux w) = clWwork then 1 else 2

/-! ### checks at the start -/

/-- The header of the planished tensor at `oa` against R120; `need` is the least row length. -/
def State.planishedBad (s : State) (d f : Nat) (b : List Byte) (oa fmt need : Nat) : Bool :=
  let r := s.faceRead d f oa 64
  let h := r.1
  let step := match s.wcInUse b with | some (hd, _) => whStep hd | none => 0
  r.2 || blkNat h 0 4 != 0x504C4E31 || bits (blkNat h 0x0C 4) 0 4 != fmt || bits (blkNat h 0x0C 4) 4 3 != lRot b ||
  blkNat h 0x10 4 != step || decide (blkNat h 8 2 < need)
/-- The header of the gradient pair at `oa` against R469. -/
def State.pairBad (s : State) (d f : Nat) (oa fmt : Nat) : Bool :=
  let r := s.faceRead d f oa 64
  let h := r.1
  r.2 || blkNat h 0 4 != 0x47505231 || blkNat h 0x14 4 != fmt || blkNat h 4 4 != s.stepNum || blkNat h 8 4 != s.micro
/-- The start checks of a GEMM: `check` for a planished header, `bad` for a gradient pair. -/
def State.gemmStartFail (s : State) (d f : Nat) (h : Held) : Option ClaimFail :=
  let w := h.words
  let b := h.layer
  let kind := s.gemmKind w
  let fine := s.fineOf b
  let ft := gemmFmt fine (lIfmt b) kind
  let pair := kind != 0 && s.pairBad d f (s.ringAddr (dIn w)) (gFmtOf (if lIfmt b = 0 then fine else 2) 0)
  let pl :=
    if 2 ≤ fine then false
    else if kind = 0 then s.planishedBad d f b (s.ringAddr (dIn w)) ft.a (dK0 w + dKcnt w)
    else if kind = 2 then s.planishedBad d f b (s.ringAddr (dAux w)) ft.w (dN0 w + dNcnt w)
    else false
  if pl then some .check else if pair then some .bad else none

/-! ### tiles -/

/-- Output columns of a pass. -/
def Gemm.cols (g : Gemm) : Nat := 32 / joinOf (fmtAt (bits g.w0 6 4))
def Gemm.blocks (g : Gemm) : Nat := ceilDiv g.ncnt g.cols
def Gemm.tiles (g : Gemm) : Nat := ceilDiv g.mcnt 512 * g.blocks
/-- First row and number of rows of a tile, first column and number of columns. -/
def Gemm.row0 (g : Gemm) (t : Nat) : Nat := g.m0 + t / g.blocks * 512
def Gemm.rows (g : Gemm) (t : Nat) : Nat := min 512 (g.mcnt - t / g.blocks * 512)
def Gemm.col0 (g : Gemm) (t : Nat) : Nat := g.n0 + t % g.blocks * g.cols
def Gemm.ncols (g : Gemm) (t : Nat) : Nat := min g.cols (g.ncnt - t % g.blocks * g.cols)

/-- A bench takes passes. -/
def State.takes (s : State) (d f b : Nat) : Bool :=
  s.flag (BENCH_CTRL d f b) BENCH_CTRL_EN && !s.flag (BENCH_STAT d f b) BENCH_STAT_PSTOP
/-- The tiles that wait for bench g. -/
def Gemm.waiting (g : Gemm) (n : Nat) : List Nat := ((g.queue.find? (fun e => e.1 == n)).map (fun e => e.2)).getD []
def Gemm.setWaiting (g : Gemm) (n : Nat) (l : List Nat) : Gemm :=
  { g with queue := g.queue.map (fun e => if e.1 = n then (n, l) else e) }
/-- Tiles go to benches in turn. -/
def dealTiles (live : List Nat) : Nat → List Nat → Gemm → Gemm
  | _, [], g => g
  | i, t :: l, g =>
    let n := live.getD (i % live.length) 0
    dealTiles live (i + 1) l (g.setWaiting n (setInsert t (g.waiting n)))
/-- The tiles of the benches of member face `i` that take no passes go to its other benches, in tile order (R73). -/
def State.reissue (s : State) (d leader i : Nat) (g : Gemm) : Gemm :=
  let live := ((List.range 16).filter (fun b => s.takes d (leader + i) b)).map (fun b => 16 * i + b)
  let dead := ((List.range 16).filter (fun b => !s.takes d (leader + i) b)).map (fun b => 16 * i + b)
  if live.isEmpty then g
  else
    let moved := dead.foldl (fun l n => (g.waiting n).foldl (fun l t => setInsert t l) l) []
    dealTiles live 0 moved (dead.foldl (fun g n => g.setWaiting n []) g)
/-- The same on every face of a gang. -/
def State.reissueAll (s : State) (d leader : Nat) : State :=
  match (s.face d leader).gemm with
  | none => s
  | some g =>
    let g := (List.range (gangSize (s.gangMap d) leader)).foldl (fun g i => s.reissue d leader i g) g
    s.setFace d leader { s.face d leader with gemm := some g }

/-! ### DESC_GEMM -/

/-- The GEMM of a descriptor that has passed its checks, its tiles dealt to the benches of the gang. -/
def State.gemmOf (s : State) (d f : Nat) (h : Held) : Gemm :=
  let w := h.words
  let b := h.layer
  let kind := s.gemmKind w
  let fine := s.fineOf b
  let ft := gemmFmt fine (lIfmt b) kind
  let copy := s.wcInUse b
  let head := match copy with | some (hd, _) => hd | none => []
  let inA := s.ringAddr (dIn w)
  let pl := s.faceRead d f inA 64
  let side := kind == 0 && decide (fine < 2) && bits (blkNat pl.1 0x0C 4) 7 3 != 0
  let sa := if fine < 2 then whSa head else 0x3F800000
  let g : Gemm :=
    { kind := kind
      w0 := joinCode (joinOf (fmtAt ft.w)) + ft.a * 2 ^ 2 + ft.w * 2 ^ 6 + b2n (lAsgn b) * 2 ^ 10 + b2n (lWsgn b) * 2 ^ 11 +
        b2n (gemmSr b w) * 2 ^ 12 + b2n side * 2 ^ 15 + b2n (lZmode b) * 2 ^ 16 + ft.o * 2 ^ 17
      m0 := dM0 w, mcnt := dMcnt w, n0 := dN0 w, ncnt := dNcnt w, k0 := dK0 w, kcnt := dKcnt w
      inA := inA
      auxA := if kind = 2 then s.ringAddr (dAux w) else match copy with | some (_, a) => a | none => 0
      outA := s.ringAddr (dOut w)
      f3 := if kind = 0 then sa else if kind = 1 then blkNat pl.1 0x20 4 else blkNat pl.1 0x24 4
      f4 := if kind = 2 then sa else whSt head
      layer := b
      outRs := rowStride (if kind = 0 then lN b else if kind = 1 then lKp b else lK b) (fmtWidth ft.o)
      grad := s.intoGrad w
      queue := [] }
  let nb := 16 * gangSize (s.gangMap d) f
  { g with queue := (List.range nb).map (fun n => (n, (List.range (ceilDiv (g.tiles - n) nb)).map (fun j => n + j * nb))) }
/-- The GEMM starts, or fails a check of its header. -/
def State.gemmStart (s : State) (d f : Nat) (h : Held) : State :=
  let s := s.faceSeen d f (s.ringAddr (dIn h.words)) 64
  match s.gemmStartFail d f h with
  | some why => s.reject d f h.idx (lLayerId h.layer) why
  | none => (s.setFace d f { s.face d f with gemm := some (s.gemmOf d f h) }).reissueAll d f
def execDescGemm (d : DieIx) (f : FaceIx) (s : State) : Res :=
  done s (s.descStart d.val f.val .gemm (fun s h => s.gemmStart d.val f.val h))

/-! ### operands in memory -/

/-- One row of the streamed operand over a slice of 32. -/
structure ActRow where
  ops  : List Opd
  tok  : Nat
  outl : List (Nat × Nat)
  bad  : Bool
deriving DecidableEq, Repr

/-- Address of the outlier list of row m over the 128-block of element k, and its length (R119). -/
def outlierAt (pl : List Byte) (oa m k : Nat) : Nat × Nat :=
  let cap := ocapOf (bits (blkNat pl 0x0C 4) 7 3)
  (oa + blkNat pl 0x18 4 + m * plLRow (blkNat pl 8 2) cap + k / 128 * (2 * cap), 2 * cap)
/-- Outliers of row m of a planished tensor that fall in the 32 elements from k on: index in the slice and E4M3 code (R63, R119). -/
def State.outliers (s : State) (d f : Nat) (pl : List Byte) (oa m k : Nat) : List (Nat × Nat) × Bool :=
  let l := outlierAt pl oa m k
  if l.2 = 0 then ([], false)
  else
    let r := s.faceRead d f l.1 l.2
    (((List.range (l.2 / 2)).map (fun i => blkNat r.1 (2 * i) 2)).filterMap (fun e =>
      let p := bits e 8 7
      if bit e 15 ∧ k % 128 ≤ p ∧ p < k % 128 + 32 then some (p - k % 128, bits e 0 8) else none), r.2)

/-- Where element k of row m of an input stands, planished (with header `pl`) or not; `fc` is its format. -/
def inputAt (b : List Byte) (fine oa fc m k : Nat) (pl : List Byte) : Nat :=
  let w := fmtWidth fc
  if fine < 2 then oa + 0x40 + m * (blkNat pl 8 2 * w / 8) + k * w / 8 else oa + m * rowStride (lKp b) w + k * w / 8
/-- Row m of an input over 32 elements from k on. -/
def State.inputRow (s : State) (d f : Nat) (b : List Byte) (fine oa fc m k : Nat) : ActRow :=
  let fm := fmtAt fc
  if fine < 2 then
    let pl := s.faceRead d f oa 64
    let r := s.codesAt d f (inputAt b fine oa fc m k pl.1) (fmtWidth fc) 32
    let t := s.faceRead d f (oa + blkNat pl.1 0x14 4 + m) 1
    let o := s.outliers d f pl.1 oa m k
    ⟨r.1.map (opdOf fm true 127), leNat t.1, o.1, pl.2 || r.2 || t.2 || o.2⟩
  else
    let r := s.codesAt d f (inputAt b fine oa fc m k []) (fmtWidth fc) 32
    ⟨r.1.map (opdOf fm (lAsgn b) 127), 0x38, [], r.2⟩
/-- The ranges that row is read from. -/
def State.inputReads (s : State) (d f : Nat) (b : List Byte) (fine oa fc m k : Nat) : List (Nat × Nat) :=
  let pl := if fine < 2 then (s.faceRead d f oa 64).1 else []
  let row := (inputAt b fine oa fc m k pl, 4 * fmtWidth fc)
  if fine < 2 then [row, (oa + blkNat pl 0x14 4 + m, 1)] ++ (if (outlierAt pl oa m k).2 = 0 then [] else [outlierAt pl oa m k]) else [row]

/-- Where element k of row m of the GD (kind 1) or GW (kind 2) section of a gradient pair with header `h` stands, and its block
scale. -/
def pairAt (kind oa m k : Nat) (h : List Byte) : Nat × Nat :=
  let w := fmtWidth (blkNat h 0x14 4)
  let rows := blkNat h 0x0C 4
  let n := blkNat h 0x10 4
  let base := oa + blkNat h (if kind = 1 then 0x18 else 0x1C) 4
  let rs := if kind = 1 then gpRsd n w else gpRsw rows w
  (base + m * rs + k * w / 8,
   base + (if kind = 1 then rows else n) * rs + m * (roundUp (if kind = 1 then n else rows) 32 / 32) + k / 32)
/-- Row m of a section over 32 elements from k on. -/
def State.pairRow (s : State) (d f : Nat) (kind oa m k : Nat) (widen : Bool) : ActRow :=
  let h := s.faceRead d f oa 64
  let fc := blkNat h.1 0x14 4
  let a := pairAt kind oa m k h.1
  let r := s.codesAt d f a.1 (fmtWidth fc) 32
  let x := s.faceRead d f a.2 1
  let ops := r.1.map (opdOf (fmtAt fc) true (leNat x.1))
  ⟨if widen then ops.map Opd.widen else ops, 0x38, [], h.2 || r.2 || x.2⟩

/-- One column of the sett operand over a slice of 32, with its F2 code. -/
structure SettCol where
  ops : List Opd
  wch : Nat
  bad : Bool
deriving DecidableEq, Repr

/-- A weight element as an operand in format `fc`: an integer copy that a backward GEMM reads converts to BF16. -/
def weightOpd (hf fc : Nat) (sgn : Bool) (x c : Nat) : Opd :=
  if fmtAt hf = fmtAt fc then opdOf (fmtAt fc) sgn x c
  else opdOf (fmtAt fc) sgn x (fmtConvert (fmtAt fc) sgn false .ne (fmtDecode (fmtAt hf) sgn c)).1
/-- Where element k of channel n of a working copy at `slot` with header `h` stands, its block scale and its channel scale. -/
def weightAt (b : List Byte) (slot n k : Nat) (h : List Byte) : Nat × Nat × Nat :=
  let w := fmtWidth (whWfmt h)
  (slot + 0x40 + n * wcRow (lKp b) w + k * w / 8, slot + whBsOff h + n * (lKp b / 32) + k / 32, slot + whCsOff h + n)
/-- Channel n of a working copy at `slot`, 32 elements from k on. -/
def State.weightRow (s : State) (d f : Nat) (b : List Byte) (slot fc n k : Nat) : SettCol :=
  let h := s.faceRead d f slot 64
  let a := weightAt b slot n k h.1
  let r := s.codesAt d f a.1 (fmtWidth (whWfmt h.1)) 32
  let x := s.faceRead d f a.2.1 1
  let c := s.faceRead d f a.2.2 1
  ⟨r.1.map (weightOpd (whWfmt h.1) fc (lWsgn b) (leNat x.1)), leNat c.1, h.2 || r.2 || x.2 || c.2⟩
/-- Element `col` of channels k to k + 31 of a working copy: a column of the transposed weights; no channel lies past N. -/
def State.weightCol (s : State) (d f : Nat) (b : List Byte) (slot fc col k : Nat) : SettCol :=
  let h := s.faceRead d f slot 64
  let hf := whWfmt h.1
  let w := fmtWidth hf
  let one (n : Nat) : Opd × Bool :=
    if lN b ≤ n then (Opd.zero, false)
    else
      let r := s.codeAt d f (weightAt b slot n 0 h.1).1 w col
      let x := s.faceRead d f (weightAt b slot n col h.1).2.1 1
      (weightOpd hf fc (lWsgn b) (leNat x.1) r.1, r.2 || x.2)
  let l := (List.range 32).map (fun i => one (k + i))
  ⟨l.map (fun p => p.1), 0x38, h.2 || l.any (fun p => p.2)⟩
/-- Element `col` of token rows k to k + 31 of the layer input X′, outliers in their places (R187); no row lies past the pair's
ROWS. -/
def State.inputCol (s : State) (d f : Nat) (b : List Byte) (fine oa fc rows col k : Nat) : SettCol :=
  let one (m : Nat) : Opd × Bool :=
    if rows ≤ m then (Opd.zero, false)
    else
      let r := s.inputRow d f b fine oa fc m (col / 32 * 32)
      let o := match r.outl.find? (fun e => e.1 == col % 32) with
        | some (_, c) => opdOf .e4m3 true 127 c
        | none => r.ops.getD (col % 32) Opd.zero
      (o, r.bad)
  let l := (List.range 32).map (fun i => one (k + i))
  ⟨l.map (fun p => p.1), 0x38, l.any (fun p => p.2)⟩

/-- Streamed row m and sett column c of a GEMM over the slice from k on. -/
def State.gemmAct (s : State) (d f : Nat) (g : Gemm) (m k : Nat) : ActRow :=
  if g.kind = 0 then s.inputRow d f g.layer (s.fineOf g.layer) g.inA (bits g.w0 2 4) m k
  else s.pairRow d f g.kind g.inA m k (bits g.w0 2 4 == 4)
def State.gemmSett (s : State) (d f : Nat) (g : Gemm) (c k : Nat) : SettCol :=
  let fc := bits g.w0 6 4
  if g.kind = 0 then s.weightRow d f g.layer g.auxA fc c k
  else if g.kind = 1 then s.weightCol d f g.layer g.auxA fc c k
  else s.inputCol d f g.layer (s.fineOf g.layer) g.auxA fc (s.faceNat d f (g.inA + 0x0C) 4) c k

/-- The ranges that streamed row m and sett column c are read from, the element first. -/
def State.actReads (s : State) (d f : Nat) (g : Gemm) (m k : Nat) : List (Nat × Nat) :=
  if g.kind = 0 then s.inputReads d f g.layer (s.fineOf g.layer) g.inA (bits g.w0 2 4) m k
  else
    let h := (s.faceRead d f g.inA 64).1
    let a := pairAt g.kind g.inA m k h
    [(a.1, 4 * fmtWidth (blkNat h 0x14 4)), (a.2, 1)]
def State.settReads (s : State) (d f : Nat) (g : Gemm) (c k : Nat) : List (Nat × Nat) :=
  let fc := bits g.w0 6 4
  if g.kind = 2 then
    (List.range (min 32 (s.faceNat d f (g.inA + 0x0C) 4 - k))).flatMap (fun i =>
      s.inputReads d f g.layer (s.fineOf g.layer) g.auxA fc (k + i) (c / 32 * 32))
  else
    let h := (s.faceRead d f g.auxA 64).1
    let w := fmtWidth (whWfmt h)
    if g.kind = 0 then
      let a := weightAt g.layer g.auxA c k h
      [(a.1, 4 * w), (a.2.1, 1), (a.2.2, 1)]
    else
      (List.range (min 32 (lN g.layer - k))).flatMap (fun i =>
        let a := weightAt g.layer g.auxA (k + i) c h
        [(a.1, ceilDiv w 8), (a.2.1, 1)])

/-! ### PASS_ACCEPT -/

/-- The ranges that K-pass kp of a tile is filled from: the headers, then rows and columns. -/
def State.passReads (s : State) (d f : Nat) (g : Gemm) (t kp : Nat) : List (Nat × Nat) :=
  let k := g.k0 + 32 * kp
  [(g.inA, 64), (g.auxA, 64)] ++ (List.range (g.rows t)).flatMap (fun r => s.actReads d f g (g.row0 t + r) k) ++
  (List.range (g.ncols t)).flatMap (fun c => s.settReads d f g (g.col0 t + c) k)
/-- Address of element (m, c) of the output. -/
def Gemm.outAt (g : Gemm) (m c : Nat) : Nat := g.outA + m * g.outRs + c * fmtWidth (bits g.w0 17 4) / 8

/-- Words 0 and 1 of a pass instruction (R47) of m rows and n columns, without FIRSTK, LASTK and PTAG. -/
def passWord (w0 m n kp : Nat) : Nat := w0 + (m - 1 + (n - 1) * 2 ^ 9 + kp % 2 ^ 16 * 2 ^ 16) * 2 ^ 32
/-- PTAG put into a pass instruction. -/
def withTag (word ptag : Nat) : Nat := setBits word 46 2 ptag
/-- Words 0 and 1 of the pass instruction of K-pass kp of a tile. -/
def Gemm.instr (g : Gemm) (t kp ptag : Nat) : Nat :=
  withTag (passWord (g.w0 + b2n (kp == 0) * 2 ^ 13 + b2n (kp + 1 == g.kcnt / 32) * 2 ^ 14) (g.rows t) (g.ncols t) kp) ptag
/-- Words 2 and 3: the places of the tiles' first bytes in the rings that hold them; a tile that no stream holds has a place that
nothing states (`n` numbers the pass). -/
def State.passBases (s : State) (d f : Nat) (g : Gemm) (t kp n : Nat) : Nat :=
  let k := g.k0 + 32 * kp
  let place (i : Nat) (dir : Bool) (oa : Nat) : Nat := (s.ringPlace d f dir oa).getD (Config.tileBase n i) % 2 ^ 16
  let first (l : List (Nat × Nat)) (i : Nat) : Nat := (l.getD i (0, 0)).1
  let act := s.actReads d f g (g.row0 t) k
  place 0 false (first act 0) + place 1 false (first (s.settReads d f g (g.col0 t) k) 0) * 2 ^ 16 +
  place 2 true (g.outAt (g.row0 t) (g.col0 t)) * 2 ^ 32 + place 3 false (first act 2) * 2 ^ 48
/-- The pass with its operands, as its stages hold them; `n` numbers it. -/
def State.passOf (s : State) (d f : Nat) (g : Gemm) (t kp ptag n : Nat) : Pass :=
  let k := g.k0 + 32 * kp
  let acts := (List.range (g.rows t)).map (fun r => s.gemmAct d f g (g.row0 t + r) k)
  let cols := (List.range (g.ncols t)).map (fun c => s.gemmSett d f g (g.col0 t + c) k)
  { instr := g.instr t kp ptag + s.passBases d f g t kp n * 2 ^ 64, tile := t, acts := acts.map (fun a => a.ops),
    tok := acts.map (fun a => a.tok), wts := cols.map (fun c => c.ops), wch := cols.map (fun c => c.wch),
    outl := acts.map (fun a => a.outl), bad := acts.any (fun a => a.bad) || cols.any (fun c => c.bad) }

/-- Fields of word 0 that a fence compares (R56). -/
def fenceKey (instr : Nat) : Nat := instr % 2 ^ 12
/-- What BENCH_STAT shows of a bench: the passes it holds, what its drain still holds, the backlog, and what holds the next wave. -/
def State.showBench (s : State) (d f b : Nat) : State :=
  let x := s.bench d f b
  let fencing := match x.passes, x.fmts with
    | p :: _, some k => decide (fenceKey p.instr ≠ k)
    | _, _ => false
  let sstall := match x.passes with
    | p :: _ => decide (64 ≤ x.back) && bit p.instr 15 && !(p.outl.headD []).isEmpty
    | [] => false
  let s := s.setFld (BENCH_STAT d f b) BENCH_STAT_INFLIGHT (min 3 x.passes.length)
  let s := s.setFlag (BENCH_STAT d f b) BENCH_STAT_BUSY (!(x.late.isEmpty && x.park.isEmpty))
  let s := (s.setFlag (BENCH_STAT d f b) BENCH_STAT_SSTALL sstall).setFld (BENCH_STAT d f b) BENCH_STAT_BACKLOG x.back
  s.setFlag (BENCH_STAT d f b) BENCH_STAT_FENCING fencing
/-- The newest pass of a bench. -/
def State.showPass (s : State) (d f b instr : Nat) : State :=
  let s := s.setReg (BENCH_STAT d f b) (setBits (s.reg (BENCH_STAT d f b)) 0 12 instr)
  s.setReg (BENCH_CUR d f b) (setBits (s.reg (BENCH_CUR d f b)) 0 27
    (bits instr 46 2 + bits instr 32 9 * 2 ^ 2 + bits instr 48 16 * 2 ^ 11))

/-- The slots that the weight stage loads for a pass. -/
def Pass.setts (p : Pass) : List (List Sett) := settsOf (joinOf (fmtAt (bits p.instr 6 4))) p.wts
/-- A word of the face store that fills a stage was uncorrectable (R215, R216): the pass has poisoned data, and a REQUEST-ENDED fault
says so. -/
def State.stageFault (s : State) (d f word : Nat) : State :=
  if wordUe word then s.fault 1 0x0103 (FSQ_EVENT d f) (64 * d + f) else s
/-- The K-pass that a bench takes next: of its tile, or the first of its next tile. -/
def State.nextPass (s : State) (d f b : Nat) (g : Gemm) : Option (Nat × Nat × Gemm) :=
  let x := s.bench d f b
  let n := 16 * (f - gangLeader (s.gangMap d) f) + b
  match x.tile with
  | some t => some (t, x.kdone, g)
  | none => match g.waiting n with
    | [] => none
    | t :: l => some (t, 0, g.setWaiting n l)
/-- The bench takes K-pass kp of tile t; its weights enter the LOADING slots where no other pass's wait there (R55). -/
def State.takePass (s : State) (d f b : Nat) (g : Gemm) (t kp word : Nat) : State :=
  let leader := gangLeader (s.gangMap d) f
  let (n, s) := (s.facesSeen d f (s.passReads d f g t kp)).draw
  let s := s.stageFault d f word
  let p := s.passOf d f g t kp (s.fld (BENCH_CUR d f b) BENCH_CUR_PTAG + 1) n
  let p := { p with bad := p.bad || wordUe word || wordPoison word }
  let last := kp + 1 == g.kcnt / 32
  let x := s.bench d f b
  let x : Bench := { x with passes := x.passes ++ [p], tile := if last then none else some t, kdone := if last then 0 else kp + 1,
                            loading := if x.passes.isEmpty then p.setts else x.loading }
  let s := s.setFace d leader { s.face d leader with gemm := some g }
  ((s.setBench d f b x).showPass d f b p.instr).showBench d f b
/-- A byte of the range stands on a line that a load stream of the face visits and has not brought yet: its tile is not in the face
store (R68). -/
def State.awaits (s : State) (d f : Nat) (r : Nat × Nat) : Bool :=
  (objLines r.1 r.2).any (fun p => (s.ringOf d f p.1).isNone && (s.streamsOf d f false).any (fun x =>
    match streamFind (s.sdesc d f x) p.1 with
    | some (line, _) => decide ((s.strm d f x).freed ≤ line)
    | none => false))
/-- PASS_ACCEPT: the bench takes its next pass while a half of its stages is free and the tiles are in the face store. -/
def State.passAccept (s : State) (d f b word : Nat) : State :=
  match (s.face d (gangLeader (s.gangMap d) f)).gemm with
  | none => s
  | some g =>
    if !s.takes d f b || decide (2 ≤ (s.bench d f b).passes.length) then s
    else match s.nextPass d f b g with
      | none => s
      | some (t, kp, g') => if (s.passReads d f g' t kp).any (s.awaits d f) then s else s.takePass d f b g' t kp word
def execPassAccept (d : DieIx) (f : FaceIx) (b : BenchRead) (s : State) : Res := done s (s.passAccept d.val f.val b.bench.val b.word)

end Sys2Proof.Machine
end

