-- ==== Sys2Proof/Machine/Bench.lean ====
section
/-! DEFINITION. A bench at work: pass timing and fences (R51, R56), the side lane (R63 to R67), drains (R58 to R60), poison and
hardware faults (R42, R71, R72), the park (R66), shadow units (R146, R147), and a bench that stops (R73). -/

namespace Sys2Proof.Machine

/-! ### timing -/

/-- Cycle from which wave 0 of a pass is held by nothing but a fence, given when its stages are full (R51, R53), and the first
cycle a fence leaves to it (R56). -/
def Bench.natural (x : Bench) (ready : Nat) : Nat :=
  match x.fmts with
  | none => ready
  | some _ => max ready (x.base + max x.rows 32)
def Bench.fenced (x : Bench) (instr : Nat) : Bool :=
  match x.fmts with
  | none => false
  | some k => k != fenceKey instr
/-- Cycle of wave 0 by its face's duty and a fence: the first admitted one from there on (R452). -/
def Bench.afterFence (x : Bench) (duty instr ready : Nat) : Nat :=
  waveSlot duty (if x.fenced instr then max (x.natural ready) (x.d7 + 1) else x.natural ready)
/-- The timing of a pass of M rows whose wave 0 is built in `first` and whose last wave in `last`. -/
def Bench.ran (x : Bench) (instr m last : Nat) : Bench :=
  { x with base := last + 1 - m, rows := m, fmts := some (fenceKey instr), d7 := last + 70 }
/-- Cycle of the last of m waves whose first may go in cycle c. -/
def lastWave (duty : Nat) : Nat → Nat → Nat
  | 0, c => c - 1
  | m + 1, c => lastWave duty m (waveSlot duty c + 1)
/-- Count a pass, its fence and the fence's delay; its waves keep the bench's clock running. -/
def State.countPass (s : State) (d f b : Nat) (x : Bench) (instr ready : Nat) : State :=
  let s := (s.bump (BENCH_PASS_LO d f b) 1).wake ((64 * d + f) * 16 + b)
  if x.fenced instr then
    (s.bump (BENCH_FENCE_LO d f b) 1).bump (BENCH_FENCE_CYC_LO d f b)
      (x.afterFence s.duty instr ready - waveSlot s.duty (x.natural ready))
  else s
/-- A pass that no PASS_ACCEPT brings, a shadow unit's or attention's, whose stages are full from cycle `ready` on: its weights pass
through LOADING into LIVE (R54, R55), and it is the newest pass. -/
def State.readyPass (s : State) (d f b ready word : Nat) (wts : List (List Opd)) : State :=
  let x := s.bench d f b
  let own := settsOf (joinOf (fmtAt (bits word 6 4))) wts
  let m := bits word 32 9 + 1
  let tagged := withTag word (s.fld (BENCH_CUR d f b) BENCH_CUR_PTAG + 1)
  let s := s.countPass d f b x word ready
  let y := x.ran word m (lastWave s.duty m (x.afterFence s.duty word ready))
  (s.setBench d f b { y with live := own, loading := match x.passes with | p :: _ => p.setts | [] => own }).showPass d f b tagged
/-- Passes of one format made ready one after the other, the first in cycle `ready`: their words, and the weights of the last. -/
def State.readyPasses (s : State) (d f b ready : Nat) (words : List Nat) (wts : List (List Opd)) : State :=
  (words.foldl (fun (x : State × Nat) w => (x.1.readyPass d f b x.2 w wts, 0)) (s, ready)).1

/-- Progress through the rows of a pass: the next wave's earliest cycle, the side lane and the late port, stall cycles, and for
each row with outliers whether its correction is on time. -/
structure RowRun where
  next  : Nat
  lane  : Nat
  comps : List Nat
  frees : List Nat
  port  : Nat
  stall : Nat
  fates : List (Option Bool)
deriving DecidableEq, Repr

/-- One row: n outliers, join degree J (R63 to R67).  An entry waits for the one 128 places before it to be free; a wave waits for
the entry 64 places before its own to be complete.  At duty n the rows go in n of every 16 cycles (R452); a cycle the duty keeps
empty is no stall of the side lane. -/
def RowRun.row (r : RowRun) (duty j n : Nat) : RowRun :=
  let w := waveSlot duty r.next
  if n = 0 then { r with next := w + 1, fates := r.fates ++ [none] }
  else
    let s1 := max r.lane (r.frees.getD 127 0)
    let comp := s1 + n + 5
    let t := waveSlot duty (max w (r.comps.getD 63 0))
    let onTime := decide (comp < t + j + 35)
    let lateAt := max (max (comp + 1) (t + 71)) r.port
    { next := t + 1, lane := s1 + n, comps := (comp :: r.comps).take 64,
      frees := ((if onTime then t + 68 else lateAt + 1) :: r.frees).take 128,
      port := if onTime then r.port else lateAt + 1, stall := r.stall + (t - w), fates := r.fates ++ [some onTime] }

/-! ### SIDE_LANE_START -/

/-- Correction of a row: its outliers times the weight rows they fall on, summed in FP32 (R64). -/
def correction (outl : List (Nat × Nat)) (wts : List (List Opd)) : List Nat :=
  wts.map (fun col => outl.foldl (fun a e =>
    f32Add a (f32Mul (f32 (e4m3 e.2)) (f32 (col.getD e.1 Opd.zero).value))) 0)
/-- The side lane starts the oldest pass that it has not started, and fills its correction entries (R64). -/
def State.sideStart (s : State) (d f b cycle : Nat) : State :=
  let x := s.bench d f b
  match x.passes.find? (fun p => bit p.instr 15 && p.lane.isNone) with
  | none => s
  | some p =>
    let n := p.outl.foldl (fun n l => n + l.length) 0
    let run (p : Pass) : Pass :=
      { p with lane := some cycle, corr := p.outl.map (fun l => if l.isEmpty then [] else correction l p.wts) }
    let x := { x with passes := mapFirst (fun p => bit p.instr 15 && p.lane.isNone) run x.passes }
    (s.setBench d f b x).bump (BENCH_SIDE_LO d f b) n
def execSideLaneStart (d : DieIx) (f : FaceIx) (b : BenchIx) (cycle : Nat) (s : State) : Res :=
  done s (s.sideStart d.val f.val b.val cycle)

/-! ### drains -/

def addRows (a b : List Nat) : List Nat := (a.zip b).map (fun p => f32Add p.1 p.2)
/-- Values written over the first places of a row. -/
def overRow (old new : List Nat) : List Nat := new ++ old.drop new.length
/-- The drain store with the rows of a pass written; what they do not reach stays. -/
def overRows (old new : List (List Nat)) : List (List Nat) :=
  (new.zip (List.range new.length)).map (fun r => overRow (old.getD r.2 []) r.1) ++ old.drop new.length

/-- F1 to F4 (R60): the token scale, the channel scales and the two per-tensor scales. -/
def finalRow (tok f3 f4 : Nat) (vals wch : List Nat) : List Nat :=
  (vals.zip wch).map (fun p =>
    f32Mul (f32Mul (f32Mul (f32Mul p.1 (f32 (e4m3 tok))) (f32 (e4m3 p.2))) f3) f4)

/-- Width in elements of an output row (R466). -/
def Gemm.width (g : Gemm) : Nat := if g.kind = 0 then lN g.layer else if g.kind = 1 then lKp g.layer else lK g.layer
/-- F1 to F5 of row r of a tile, written to its place in the output; the counts go to the record of face f. -/
def State.rowOut (s : State) (d f : Nat) (g : Gemm) (t r : Nat) (vals : List Nat) (tok : Nat) (wch : List Nat) (bad : Bool) : State :=
  let fc := bits g.w0 17 4
  let w := fmtWidth fc
  let zm := bit g.w0 16
  let m := g.row0 t + r
  let c := g.col0 t
  -- a weight gradient has only output columns below K (R49, R136)
  let vals := if g.kind = 2 then vals.take (lK g.layer - c) else vals
  let v := convRow (fmtAt fc) true zm (fun _ => .ne) (finalRow tok g.f3 g.f4 vals wch)
  let res : State × ConvCnt :=
    if g.grad then
      let r := s.gradStore d f g.layer g.outA m false (vals.length + 1) c (v.1.map (toF32 fc true)) bad
      (r.1, r.2.1)
    else
      let pad := if c + vals.length = g.width then g.outRs - g.width * w / 8 else 0
      (s.faceStore d f (g.outAt m c) (packCodes w v.1 ++ List.replicate pad 0) bad, {})
  let cnt := v.2.plus res.2
  res.1.faceRec d f { layer := lLayerId g.layer, elems := vals.length, sat := cnt.sat, und := cnt.und, nan := cnt.nan,
                      inf := cnt.inf, flag := cnt.flag }
/-- The rows of a tile that have been written are poisoned where they are: in the output, or with the packer that took them. -/
def State.tilePoison (s : State) (d f : Nat) (g : Gemm) (t : Nat) (skip : List Nat) : State :=
  let n := if g.kind = 2 then min (g.ncols t) (lK g.layer - g.col0 t) else g.ncols t
  ((List.range (g.rows t)).filter (fun r => !skip.contains r)).foldl (fun s r =>
    let m := g.row0 t + r
    if g.grad then
      if s.isSync && polMode (lJobPol g.layer) == 0 then s.packPoison d g.layer m (g.col0 t) n
      else s.facePoison d f (g.outA + m * s.gradRow g.layer + g.col0 t * (s.gradW / 8)) (n * (s.gradW / 8))
    else s.facePoison d f (g.outAt m (g.col0 t)) (n * fmtWidth (bits g.w0 17 4) / 8)) s

/-! ### shadow units to run (R146) -/

/-- The shadow units of a tile: sampled weight tiles its passes cover against sampled row groups that begin in it. -/
def State.shadowUnits (s : State) (d f : Nat) (g : Gemm) (t : Nat) : List (Nat × (Nat × Nat)) :=
  let b := g.layer
  match s.wcInUse b with
  | none => []
  | some (h, _) =>
    if g.kind ≠ 0 ∨ !s.faceShadow d f ∨ whShCount h = 0 ∨ 3 ≤ whFine h then []
    else
      let oR := (s.drawSamp s.stepNum (lLayerId b) (lSampStrm b)).2
      let nb := ceilDiv (lN b) 32
      let c := g.col0 t
      let blocks := (List.range nb).filter (fun i => decide (32 * i < c + g.ncols t) && decide (c < 32 * i + 32))
      let tiles := ((List.range (g.kcnt / 32)).flatMap (fun k => blocks.map (fun i => (g.k0 / 32 + k) * nb + i))).filter
        (fun i => i % 64 == whOw h)
      let groups := (List.range (ceilDiv (g.row0 t + g.rows t) 32)).filter (fun i =>
        decide (g.row0 t ≤ 32 * i) && i % 64 == oR)
      tiles.flatMap (fun i => groups.map (fun m => (t, (i, m))))
/-- AS_STAT.SHADOW_BUSY: a bench of the face owes a unit. -/
def State.showShadow (s : State) (d f : Nat) : State :=
  s.setFlag (AS_STAT d f) AS_STAT_SHADOW_BUSY ((List.range 16).any (fun b => !(s.bench d f b).shadow.isEmpty))

/-! ### PASS_WAVE0 -/

/-- A word that a store returned spoils what is made of it. -/
def wordSpoils (word : Nat) : Bool := wordUe word || wordPoison word
/-- The fault spoils the result of its pass. -/
def errSpoils : PassErr → Bool
  | .none => false
  | .winOvf => true
  | .store word => wordSpoils word
/-- Report a hardware fault of a pass: a column sum that left the window (R42) or an uncorrectable error (R71). -/
def State.passFault (s : State) (d f b : Nat) (err : PassErr) : State :=
  let ev := BENCH_EVENT d f b
  let unit := (64 * d + f) * 16 + b
  match err with
  | .none => s
  | .winOvf => (s.raise ev BENCH_EVENT_WIN_OVF).fault 1 0x0104 ev unit
  | .store word => if wordUe word then (s.raise ev BENCH_EVENT_STORE_UE).fault 1 0x0103 ev unit else s

/-- D4 to D7 of a pass: the new accumulators of its rows, and the late rows. -/
def State.drainRows (s : State) (g : Gemm) (p : Pass) (acc sums : List (List Nat)) (fates : List (Option Bool)) :
    List (List Nat) × List LateRow :=
  let kp := g.k0 / 32 + bits p.instr 48 16
  let first := bit p.instr 13
  (List.range (g.rows p.tile)).foldl (fun (x : List (List Nat) × List LateRow) r =>
    let sum := sums.getD r []
    let fate := fates.getD r none
    let corr := p.corr.getD r []
    let v := if fate = some true then addRows sum corr else sum
    let old := if first then v.map (fun _ => 0) else acc.getD r []
    let rnd (c : Nat) : Rnd :=
      if bit g.w0 12 then .sr (s.drawDrain (lLayerId g.layer) (lSrStrm g.layer) kp (g.row0 p.tile + r) (g.col0 p.tile + c)) else .ne
    let new := ((old.zip v).zip (List.range v.length)).map (fun e => d6Add (rnd e.2) e.1.1 e.1.2)
    (x.1 ++ [new], if fate = some false && !p.left then x.2 ++ [⟨p.tile, r, corr⟩] else x.2)) ([], [])

/-- A row whose last pass has left D7: to the park while a correction is outstanding, else through F1 to F5. -/
def State.lastRow (s : State) (d f b : Nat) (g : Gemm) (p : Pass) (bad : Bool) (r : Nat) (vals : List Nat) : State :=
  let x := s.bench d f b
  let tok := p.tok.getD r 0x38
  if x.late.any (fun l => l.tile == p.tile && l.row == r) then
    s.setBench d f b { x with park := x.park ++ [⟨p.tile, r, vals, tok, p.wch, bad⟩] }
  else s.rowOut d f g p.tile r vals tok p.wch bad

/-- The oldest accepted pass runs: its weights go from LOADING to LIVE behind the front and the next pass's enter LOADING (R54, R55),
its rows go through the array, D1 to D7, and F1 to F5 where it is the last of its tile. -/
def State.passRun (s : State) (d f b cycle : Nat) (err : PassErr) (x : Bench) (g : Gemm) (p : Pass) (rest : List Pass) : State :=
  let af := fmtAt (bits p.instr 2 4)
  let jn := joinOf (fmtAt (bits p.instr 6 4))
  let start : RowRun :=
    ⟨x.afterFence s.duty p.instr cycle, max x.laneAt (p.lane.getD 0), x.comps, x.frees, x.port, 0, []⟩
  let rr := p.outl.foldl (fun r l => r.row s.duty jn (if bit p.instr 15 then l.length else 0)) start
  let s := (s.countPass d f b x p.instr cycle).bump (BENCH_SSTALL_LO d f b) rr.stall
  let sums := passSums (actWidth af) jn (bit p.instr 16) p.acts p.wts
  let s := s.bump (BENCH_TRUNC_LO d f b) sums.2
  let s := s.faceRec d f { layer := lLayerId g.layer, trunc := sums.2 }
  let out := s.drainRows g p x.acc sums.1 rr.fates
  let bad := (!bit p.instr 13 && x.accBad) || p.bad || errSpoils err
  let s := if p.bad then s.raise (BENCH_EVENT d f b) BENCH_EVENT_POISON_IN else s
  let s := s.passFault d f b err
  let last := bit p.instr 14
  let shadow := if last then s.shadowUnits d f g p.tile else []
  let x : Bench :=
    { (x.ran p.instr (g.rows p.tile) (rr.next - 1)) with
      passes := rest, live := p.setts, loading := match rest with | q :: _ => q.setts | [] => x.loading,
      acc := overRows x.acc out.1, accBad := if last then false else bad, laneAt := rr.lane,
      comps := rr.comps, frees := rr.frees, port := rr.port, back := rr.comps.countP (fun c => decide (rr.next ≤ c)), late := x.late ++ out.2, shadow := x.shadow ++ shadow }
  let s := s.setBench d f b x
  let s := if last then
      ((List.range out.1.length).zip out.1).foldl (fun s r => s.lastRow d f b g p bad r.1 r.2) s
    else s
  (s.showBench d f b).showShadow d f
/-- PASS_WAVE0.  The first pass of a tile waits for the shadow units of the tile before it, and a pass with outliers for the side
lane to have started it. -/
def State.passWave0 (s : State) (d f b cycle : Nat) (err : PassErr) : State :=
  let x := s.bench d f b
  match (s.face d (gangLeader (s.gangMap d) f)).gemm, x.passes with
  | some g, p :: rest =>
    if (bit p.instr 13 && !x.shadow.isEmpty) || (bit p.instr 15 && p.lane.isNone) then s
    else s.passRun d f b cycle err x g p rest
  | _, _ => s
def execPassWave0 (d : DieIx) (f : FaceIx) (b : BenchIx) (cycle : Nat) (err : PassErr) (s : State) : Res :=
  done s (s.passWave0 d.val f.val b.val cycle err)

/-! ### LATE_ADD and PARK_RELEASE -/

/-- Poison a tile some of whose rows are written: those rows, and the parked ones that `x` holds (R71). -/
def State.spoilTile (s : State) (d f b : Nat) (g : Gemm) (t : Nat) (word : Nat) : State :=
  let x := s.bench d f b
  let mine := x.park.filter (fun q => q.tile == t)
  let s := s.setBench d f b { x with park := x.park.map (fun q => if q.tile = t then { q with bad := true } else q) }
  (s.tilePoison d f g t (mine.map (fun q => q.row))).passFault d f b (.store word)

/-- The oldest late entry is added: to the row's park entry, or to its accumulators (R65).  A parked row whose count reaches 0
goes behind those that reached it earlier (R66).  An error in what the add reads poisons the row's tile (R71). -/
def State.lateAdd (s : State) (d f b word : Nat) : State :=
  let x := s.bench d f b
  match x.late with
  | [] => s
  | l :: rest =>
    let mine (p : ParkRow) : Bool := p.tile == l.tile && p.row == l.row
    let x : Bench := { x with late := rest, back := min x.back rest.length }
    let parked := x.park.find? mine
    let x : Bench := match parked with
      | some p =>
        let p := { p with vals := addRows p.vals l.vals }
        if rest.any (fun e => e.tile == l.tile && e.row == l.row) then
          { x with park := x.park.map (fun q => if mine q then p else q) }
        else { x with park := x.park.filter (fun q => !mine q) ++ [p] }
      | none =>
        let row := x.acc.getD l.row []
        { x with acc := x.acc.set l.row (overRow row (addRows row l.vals)), accBad := x.accBad || wordSpoils word }
    let s := s.setBench d f b x
    let s := if !wordSpoils word then s
      else match parked, (s.face d (gangLeader (s.gangMap d) f)).gemm with
        | some _, some g => s.spoilTile d f b g l.tile word
        | _, _ => s.passFault d f b (.store word)
    s.showBench d f b
def execLateAdd (d : DieIx) (f : FaceIx) (b : BenchRead) (s : State) : Res := done s (s.lateAdd d.val f.val b.bench.val b.word)

/-- The first parked row whose count is 0 leaves through F1 to F5; an uncorrectable error in the park poisons its output tile. -/
def State.parkRelease (s : State) (d f b word : Nat) : State :=
  let x := s.bench d f b
  match (s.face d (gangLeader (s.gangMap d) f)).gemm,
        x.park.find? (fun p => !x.late.any (fun l => l.tile == p.tile && l.row == p.row)) with
  | some g, some p =>
    let s := s.setBench d f b { x with park := x.park.filter (fun q => !(q.tile == p.tile && q.row == p.row)) }
    let s := s.rowOut d f g p.tile p.row p.vals p.tok p.wch (p.bad || wordSpoils word)
    (if wordSpoils word then s.spoilTile d f b g p.tile word else s).showBench d f b
  | _, _ => s
def execParkRelease (d : DieIx) (f : FaceIx) (b : BenchIx) (word : Nat) (s : State) : Res :=
  done s (s.parkRelease d.val f.val b.val word)

/-! ### SHADOW_UNIT -/

/-- Results of one set of passes of a unit, F1 to F4 applied, with its truncation count. -/
def unitResult (g : Gemm) (af wf : Nat) (acts : List ActRow) (cols : List SettCol) : List (List Nat) × Nat :=
  let jn := joinOf (fmtAt wf)
  let n := 32 / jn
  let blocks := (List.range (ceilDiv cols.length n)).map (fun i => (cols.drop (i * n)).take n)
  let runs := blocks.map (fun cs =>
    let wts := cs.map (fun c => c.ops)
    let r := passSums (actWidth (fmtAt af)) jn (bit g.w0 16) (acts.map (fun a => a.ops)) wts
    let rows := (acts.zip r.1).map (fun p =>
      let v := if p.1.outl.isEmpty then p.2 else addRows p.2 (correction p.1.outl wts)
      finalRow p.1.tok g.f3 g.f4 (v.map (f32Add 0)) (cs.map (fun c => c.wch)))
    (rows, r.2))
  ((List.range acts.length).map (fun i => runs.flatMap (fun r => r.1.getD i [])), runs.foldl (fun n r => n + r.2) 0)

/-- Error of a unit (R147): layer-grade results c, shadow-grade results f, all finite.  Images of values that are not negative are
ordered as the values, an overflow to Inf included. -/
def unitErr (c f : List Nat) : Nat :=
  let abs (l : List Nat) : Nat := l.foldl (fun a x => max a (f32 (fv32 x).abs)) 0
  let mf := abs f
  if mf = 0 then (if c.all (fun x => (fv32 x).isZero) then 0 else 0x3F800000)
  else f32Div (abs ((c.zip f).map (fun (p : Nat × Nat) => f32Sub p.1 p.2))) mf

/-- A row of the shadow-row object over a slice, with the row's own token scale. -/
def State.shadowRow (s : State) (d f : Nat) (b : List Byte) (fc m k tok : Nat) : ActRow :=
  let w := fmtWidth fc
  let a := s.ringAddr (lAsh b) + 0x40 + m / 32 / 64 * shRowEntry (lKp b) w + m % 32 * (lKp b * w / 8) + k * w / 8
  let r := s.codesAt d f a w 32
  ⟨r.1.map (opdOf (fmtAt fc) true 127), tok, [], r.2⟩
/-- Channel c of shadow entry j of a copy, with the channel's own scale. -/
def State.shadowCol (s : State) (d f : Nat) (slot sh fc j c wch : Nat) : SettCol :=
  let w := fmtWidth fc
  let a := slot + sh + j * shEntry w
  let x := s.faceRead d f (a + c % 32) 1
  let r := s.codesAt d f (a + 64 + c % 32 * (32 * w / 8)) w 32
  ⟨r.1.map (opdOf (fmtAt fc) true (leNat x.1)), wch, x.2 || r.2⟩
/-- The header of the shadow-row object is not that of this step's rows. -/
def State.shadowAbsent (s : State) (d f : Nat) (b : List Byte) (fc : Nat) : Bool :=
  let r := s.faceRead d f (s.ringAddr (lAsh b)) 64
  let h := r.1
  r.2 || blkNat h 0 4 != 0x53484131 || blkNat h 4 4 != s.stepNum || bits (blkNat h 8 4) 0 4 != fc || blkNat h 0x10 4 != lKp b ||
  blkNat h 0x14 4 != (s.drawSamp s.stepNum (lLayerId b) (lSampStrm b)).2

/-- The passes of one set of a unit (R146): M = 32, with word 0 `w0`, over its columns. -/
def State.unitPasses (s : State) (d f b w0 kp : Nat) (cols : List SettCol) : State :=
  let n := 32 / joinOf (fmtAt (bits w0 6 4))
  let blocks := (List.range (ceilDiv cols.length n)).map (fun i => (cols.drop (i * n)).take n)
  s.readyPasses d f b 0 (blocks.map (fun cs => passWord (w0 + 3 * 2 ^ 13) 32 cs.length kp)) ((blocks.getLastD []).map (fun c => c.ops))
/-- A unit that runs: the record of its error, and the bench's counters. -/
def State.unitRun (s : State) (d f b : Nat) (g : Gemm) (fc kp : Nat) (c1 c2 : List ActRow × List SettCol) : State :=
  let r1 := unitResult g (bits g.w0 2 4) (bits g.w0 6 4) c1.1 c1.2
  let r2 := unitResult g fc fc c2.1 c2.2
  let c := r1.1.flatMap (fun l => l)
  let v := r2.1.flatMap (fun l => l)
  let jn := joinOf (fmtAt fc)
  let key2 := joinCode jn + fc * 2 ^ 2 + fc * 2 ^ 6 + bits g.w0 10 2 * 2 ^ 10 + bits g.w0 16 5 * 2 ^ 16
  let s := (s.unitPasses d f b g.w0 kp c1.2).unitPasses d f b key2 kp c2.2
  let s := s.bump (BENCH_TRUNC_LO d f b) (r1.2 + r2.2)
  let s := s.bump (BENCH_SIDE_LO d f b) (c1.1.foldl (fun n a => n + a.outl.length) 0)
  let nf := (c ++ v).any (fun x => !(fv32 x).isFin)
  let s := if nf then s.raise (AS_EVENT d f) AS_EVENT_SHADOW_NF else s
  let s := s.bump (AS_SHADOW_LO d f) 1
  s.faceRec d f { layer := lLayerId g.layer, trunc := r1.2 + r2.2, shN := 1, shErr := if nf then 0 else unitErr c v }

/-- SHADOW_UNIT: the oldest unit that the bench owes. -/
def State.shadowUnit (s : State) (d f b : Nat) : State :=
  let x := s.bench d f b
  match (s.face d (gangLeader (s.gangMap d) f)).gemm, x.shadow with
  | some g, (t, (i, m)) :: rest =>
    let s := s.setBench d f b { x with shadow := rest }
    let ly := g.layer
    let nb := ceilDiv (lN ly) 32
    let k := i / nb * 32
    let c0 := g.col0 t
    let cols := (List.range (g.ncols t)).filter (fun c => decide ((c0 + c) / 32 = i % nb))
    let rows := (List.range 32).filter (fun r => decide (32 * m + r < g.row0 t + g.rows t))
    let s := if !s.faceShadow d f then s else match s.wcInUse ly with
      | none => s.raise (AS_EVENT d f) AS_EVENT_SHADOW_DROP
      | some (h, slot) =>
        let fc := wFmtOf (whFine h + 1) 0
        let s := s.facesSeen d f (rows.flatMap (fun r => s.actReads d f g (32 * m + r) k) ++
          cols.flatMap (fun c => s.settReads d f g (c0 + c) k))
        let a1 := rows.map (fun r => s.gemmAct d f g (32 * m + r) k)
        let w1 := cols.map (fun c => s.gemmSett d f g (c0 + c) k)
        let a2 := (rows.zip a1).map (fun (p : Nat × ActRow) => s.shadowRow d f ly fc (32 * m + p.1) k p.2.tok)
        let w2 := (cols.zip w1).map (fun (p : Nat × SettCol) => s.shadowCol d f slot (whShOff h) fc ((i - whOw h) / 64) (c0 + p.1) p.2.wch)
        let bad := (a1 ++ a2).any (fun a => a.bad) || (w1 ++ w2).any (fun c => c.bad) || s.shadowAbsent d f ly fc
        if bad then s.raise (AS_EVENT d f) AS_EVENT_SHADOW_DROP else s.unitRun d f b g fc ((k - g.k0) / 32) (a1, w1) (a2, w2)
    (s.showBench d f b).showShadow d f
  | _, _ => s
def execShadowUnit (d : DieIx) (f : FaceIx) (b : BenchIx) (s : State) : Res := done s (s.shadowUnit d.val f.val b.val)

/-! ### a bench that stops (R73) -/

/-- The bench keeps the passes it holds; its tile in progress and its waiting tiles go to the other benches of the face.  The passes of
the tile in progress still run, and their late corrections go nowhere. -/
def State.benchStop (s : State) (d f b : Nat) : State :=
  let leader := gangLeader (s.gangMap d) f
  let x := s.bench d f b
  let n := 16 * (f - leader) + b
  match (s.face d leader).gemm with
  | none => s
  | some g =>
    let s := match x.tile with
      | none => s
      | some t =>
        let s := s.setBench d f b
          { x with tile := none, kdone := 0, late := x.late.filter (fun l => l.tile != t),
                   passes := x.passes.map (fun (p : Pass) => if p.tile = t then { p with left := true } else p) }
        s.setFace d leader { s.face d leader with gemm := some (g.setWaiting n (setInsert t (g.waiting n))) }
    (s.reissueAll d leader).showBench d f b
/-- A bench takes passes again: the tiles that wait for benches of its face that take none go to it (R73). -/
def State.benchStart (s : State) (d f : Nat) : State := s.reissueAll d (gangLeader (s.gangMap d) f)

end Sys2Proof.Machine
end

