-- ==== Sys2Proof/Machine/Attn.lean ====
section
/-! DEFINITION. Attention (R182 to R185): tiles of 128 rows, bench products in the grade's formats, the vector unit's FP32 work in
between.  The whole descriptor is one command. -/

namespace Sys2Proof.Machine

/-! ### frames, tiles and products -/

/-- What an ATTN descriptor works on (R182, R183). -/
structure AttnJob where
  causal : Bool
  dim    : Nat
  s      : Nat
  fc     : Nat
  /-- SR of its passes (R59). -/
  sr     : Bool
  frame  : List Byte
  layer  : List Byte
deriving DecidableEq, Repr

def AttnJob.addr (j : AttnJob) (off : Nat) : Nat := blkNat j.frame off 8
def AttnJob.fmt (j : AttnJob) : Fmt := fmtAt j.fc
/-- FP32 images of log2(e) / sqrt(d) and 1 / sqrt(d). -/
def AttnJob.f3 (j : AttnJob) : Nat := if j.dim = 64 then 0x3E38AA3B else 0x3E0293EE
def AttnJob.rs (j : AttnJob) : Nat := if j.dim = 64 then 0x3E000000 else 0x3DB504F3
def State.attnJob (s : State) (d f : Nat) (h : Held) : AttnJob × Bool :=
  let k := dK0 h.words
  let r := s.faceRead d f (s.ringAddr (dIn h.words)) 128
  (⟨bit k 2, if bit k 3 then 64 else 128, dKcnt h.words, wFmtOf (lFine h.layer) 0, gemmSr h.layer h.words, r.1, h.layer⟩, r.2)

/-- Address of element 0 of head h in token row i of an attention tensor of w-bit elements. -/
def AttnJob.at (j : AttnJob) (a w h i : Nat) : Nat := a + i * Config.attnRow a + h * (j.dim * w / 8)
/-- 128 rows of a tensor for one head, as codes. -/
def State.attnTile (s : State) (d f : Nat) (j : AttnJob) (off h i0 : Nat) : List (List Nat) × Bool :=
  let w := fmtWidth j.fc
  let a := j.addr off
  let rows := (List.range 128).map (fun i => s.codesAt d f (j.at a w h (i0 + i)) w j.dim)
  (rows.map (fun r => r.1), rows.any (fun r => r.2))
/-- What reading tiles of a head does to the device: field of the frame and first row of each. -/
def State.attnSeen (s : State) (d f : Nat) (j : AttnJob) (h : Nat) (l : List (Nat × Nat)) : State :=
  l.foldl (fun s t => s.facesSeen d f ((List.range 128).map (fun i =>
    if t.1 = 0x20 then (j.addr 0x20 + ((t.2 + i) * 128 + h) * 8, 8)
    else (j.at (j.addr t.1) (fmtWidth j.fc) h (t.2 + i), j.dim * fmtWidth j.fc / 8)))) s
/-- Statistics of 128 rows of a head: m and l. -/
def State.attnStats (s : State) (d f : Nat) (j : AttnJob) (h i0 : Nat) : List (Nat × Nat) × Bool :=
  let rows := (List.range 128).map (fun i => s.faceRead d f (j.addr 0x20 + ((i0 + i) * 128 + h) * 8) 8)
  (rows.map (fun r => (blkNat r.1 0 4, blkNat r.1 4 4)), rows.any (fun r => r.2))

def transpose (n : Nat) (m : List (List Nat)) : List (List Nat) := (List.range n).map (fun c => m.map (fun r => r.getD c 0))
def toImages (j : AttnJob) (m : List (List Nat)) : List (List Nat) := m.map (fun r => r.map (toF32 j.fc true))
def toCodes (j : AttnJob) (m : List (List Nat)) : List (List Nat) × ConvCnt :=
  let rows := m.map (convRow j.fmt true (lZmode j.layer) (fun _ => .ne))
  (rows.map (fun r => r.1), rows.foldl (fun c r => c.plus r.2) {})
/-- Matrix of FP32 images, with the truncated products, the K-passes of the drain store, the words of the bench passes that made it
(R47), and the weights of the last of them. -/
structure Mat where
  v     : List (List Nat)
  lost  : Nat
  kp    : Nat
  words : List Nat
  last  : List (List Opd)
deriving DecidableEq, Repr

/-- Word 0 of the passes of an attention product: the grade's format on both sides, OFMT FP32 (R184). -/
def AttnJob.word0 (j : AttnJob) : Nat :=
  joinCode (joinOf j.fmt) + j.fc * 2 ^ 2 + j.fc * 2 ^ 6 + b2n (lAsgn j.layer) * 2 ^ 10 + b2n (lWsgn j.layer) * 2 ^ 11 + b2n j.sr * 2 ^ 12 +
  b2n (lZmode j.layer) * 2 ^ 16 + 5 * 2 ^ 17

/-- How D6 rounds an element of an attention product (R59, R176): K0 div 32 is 0 in an ATTN descriptor; `row` and `col` are the
output row and column of its first element. -/
def State.attnRnd (s : State) (j : AttnJob) (row col kp r c : Nat) : Rnd :=
  if j.sr then .sr (s.drawDrain (lLayerId j.layer) (lSrStrm j.layer) kp (row + r) (col + c)) else .ne
/-- The bench product of rows `a` by columns `b`, K running along both, added to `acc` by successive K-passes (R70, R185). -/
def benchMul (j : AttnJob) (rnd : Nat → Nat → Nat → Rnd) (acc : Mat) (a b : List (List Nat)) : Mat :=
  let jn := joinOf j.fmt
  let n := 32 / jn
  let ops (m : List (List Nat)) : List (List Opd) := m.map (fun r => r.map (opdOf j.fmt true 127))
  let A := ops a
  let B := ops b
  let slice (m : List (List Opd)) (k : Nat) : List (List Opd) := m.map (fun r => (r.drop (32 * k)).take 32)
  (List.range ((a.headD []).length / 32)).foldl (fun (acc : Mat) k =>
    let blocks := (List.range (ceilDiv B.length n)).map (fun i => slice ((B.drop (i * n)).take n) k)
    let runs := blocks.map (fun w => passSums (actWidth j.fmt) jn (lZmode j.layer) (slice A k) w)
    let rows := (List.range a.length).map (fun r => runs.flatMap (fun x => x.1.getD r []))
    let places := (acc.v.zip rows).zip (List.range a.length)
    ⟨places.map (fun p => ((p.1.1.zip p.1.2).zip (List.range B.length)).map (fun q =>
       d6Add (rnd acc.kp p.2 q.2) q.1.1 q.1.2)), runs.foldl (fun n x => n + x.2) acc.lost, acc.kp + 1,
     acc.words ++ blocks.map (fun w => passWord j.word0 a.length w.length acc.kp), blocks.getLastD acc.last⟩) acc
def zeroMat (r c : Nat) : Mat := ⟨List.replicate r (List.replicate c 0), 0, 0, [], []⟩
/-- F3 and F5 of a product with OFMT FP32. -/
def Mat.finish (j : AttnJob) (f3 : Nat) (m : Mat) : Mat :=
  { m with v := m.v.map (fun r => r.map (fun x => f32Store (lZmode j.layer) (f32Mul x f3))) }

/-- Sequence tile of a token row, and the tiles of its sequence it is paired with: those not wholly masked. -/
def AttnJob.seqTile (j : AttnJob) (i : Nat) : Nat := i % j.s / 128
def AttnJob.keyTiles (j : AttnJob) (i : Nat) : List Nat :=
  (List.range (j.s / 128)).filter (fun t => !j.causal || decide (t ≤ j.seqTile i)) |>.map (fun t => i / j.s * j.s + 128 * t)
def AttnJob.queryTiles (j : AttnJob) (i : Nat) : List Nat :=
  (List.range (j.s / 128)).filter (fun t => !j.causal || decide (j.seqTile i ≤ t)) |>.map (fun t => i / j.s * j.s + 128 * t)
/-- What a descriptor's products and conversions leave beside their results: truncated products, bench passes with the weights of the
last, assay counts, poison. -/
structure AttnSide where
  lost  : Nat
  words : List Nat
  last  : List (List Opd)
  cnt   : ConvCnt
  bad   : Bool
deriving DecidableEq, Repr
def AttnSide.mat (x : AttnSide) (m : Mat) : AttnSide :=
  { x with lost := x.lost + m.lost, words := x.words ++ m.words, last := if m.words.isEmpty then x.last else m.last }
def AttnSide.plus (x y : AttnSide) : AttnSide :=
  ⟨x.lost + y.lost, x.words ++ y.words, if y.words.isEmpty then x.last else y.last, x.cnt.plus y.cnt, x.bad || y.bad⟩
def AttnSide.conv (x : AttnSide) (c : ConvCnt) : AttnSide := { x with cnt := x.cnt.plus c }

/-- Scores of a query tile against a key tile, masked. -/
def State.scores (s : State) (j : AttnJob) (q k : List (List Nat)) (iq ik : Nat) : Mat :=
  let m := (benchMul j (s.attnRnd j iq ik) (zeroMat 128 128) q k).finish j j.f3
  { m with v := (List.range 128).map (fun r =>
      ((m.v.getD r []).zip (List.range 128)).map (fun p =>
        if j.causal ∧ (iq + r) % j.s < (ik + p.2) % j.s then 0xFF800000 else p.1)) }
/-- Attention dropout on an entry of head h, query row i, key row k (R176, R184). -/
def State.attnDrop (s : State) (j : AttnJob) (h i k x : Nat) : Nat :=
  let p := hAttnDropP s.hdr
  if lDropStrm j.layer = 0 ∨ p = 0 then x
  else if s.drawAttn (lLayerId j.layer) (lDropStrm j.layer) h i (k % j.s) < p then 0
  else f32Mul x (dropFactor p)
def State.dropMat (s : State) (j : AttnJob) (h iq ik : Nat) (m : List (List Nat)) : List (List Nat) :=
  (m.zip (List.range m.length)).map (fun r => (r.1.zip (List.range r.1.length)).map (fun p =>
    s.attnDrop j h (iq + r.2) (ik + p.2) p.1))
def sumRow (l : List Nat) : Nat := l.foldl f32Add 0

/-- Store 128 rows of a head: format code fc. -/
def State.attnStore (s : State) (d f : Nat) (j : AttnJob) (off fc h i0 : Nat) (m : List (List Nat)) (bad : Bool) : State :=
  let w := fmtWidth fc
  let a := j.addr off
  (m.zip (List.range m.length)).foldl (fun s r =>
    if s.classOf a = clGradacc then
      let c := convRow (fmtAt fc) true (lZmode j.layer) (fun _ => .ne) r.1
      let t := s.gradStore d f j.layer a (i0 + r.2) false (j.dim + 1) (h * j.dim) (c.1.map (toF32 fc true)) bad
      t.1.rowStat d f j.layer r.1 (c.2.plus t.2.1)
    else
      let c := convRow (fmtAt fc) true (lZmode j.layer) (fun _ => .ne) r.1
      (s.faceStore d f (j.at a w h (i0 + r.2)) (packCodes w c.1) bad).rowStat d f j.layer r.1 c.2) s
/-- Benches of the gang that take passes, by their number in the gang (R73). -/
def State.attnBenches (s : State) (d f : Nat) : List Nat :=
  (List.range (16 * gangSize (s.gangMap d) f)).filter (fun g => s.takes d (f + g / 16) (g % 16))
/-- Counts of a tile's products and inner conversions.  The products run on a bench of the gang that takes passes, from a cycle on that
no rule gives; its face's assay unit takes their truncation count (R41), the leader's the conversions of its vector unit. -/
def State.attnNote (s : State) (d f : Nat) (j : AttnJob) (x : AttnSide) : State :=
  let (n, s) := s.draw
  let live := s.attnBenches d f
  let g := live.getD (Config.attnBench n % live.length) 0
  let m := f + g / 16
  let b := g % 16
  let s := (s.readyPasses d m b (Config.attnReady n) x.words x.last).bump (BENCH_TRUNC_LO d m b) x.lost
  let s := if x.bad then s.raise (BENCH_EVENT d m b) BENCH_EVENT_POISON_IN else s
  let s := (s.showBench d m b).faceRec d m { layer := lLayerId j.layer, trunc := x.lost }
  let c := x.cnt
  s.faceRec d f { layer := lLayerId j.layer, sat := c.sat, und := c.und, nan := c.nan, inf := c.inf, flag := c.flag }

/-! ### forward (R184) -/

/-- A query row in progress: running maximum, running sum, accumulator. -/
structure AttnRow where
  mr  : Nat
  lr  : Nat
  acc : List Nat
deriving DecidableEq, Repr

/-- One key tile of a query tile. -/
def State.fwdStep (s : State) (d f : Nat) (j : AttnJob) (h iq : Nat) (q : List (List Nat)) (x : List AttnRow × AttnSide) (ik : Nat) :
    List AttnRow × AttnSide :=
  let k := s.attnTile d f j 0x08 h ik
  let v := s.attnTile d f j 0x10 h ik
  let sc := s.scores j q k.1 iq ik
  let mn := (x.1.zip sc.v).map (fun p => p.2.foldl f32Max p.1.mr)
  let pr := (sc.v.zip mn).map (fun p => p.1.map (fun e => exp2Image (f32Sub e p.2)))
  let pc := toCodes j (s.dropMat j h iq ik pr)
  let pv := (benchMul j (s.attnRnd j iq (h * j.dim)) (zeroMat 128 j.dim) pc.1 (transpose j.dim v.1)).finish j one32
  let rows := ((x.1.zip mn).zip (pr.zip pv.v)).map (fun p =>
    let c := exp2Image (f32Sub p.1.1.mr p.1.2)
    AttnRow.mk p.1.2 (f32Add (f32Mul p.1.1.lr c) (sumRow p.2.1))
      ((p.1.1.acc.zip p.2.2).map (fun e => f32Add (f32Mul e.1 c) e.2)))
  let y := ((x.2.mat sc).mat pv).conv pc.2
  (rows, { y with bad := y.bad || k.2 || v.2 })
/-- One query tile of one head. -/
def State.fwdTile (s : State) (d f : Nat) (j : AttnJob) (bad : Bool) (h iq : Nat) : State :=
  let s := s.attnSeen d f j h ((0x00, iq) :: (j.keyTiles iq).flatMap (fun ik => [(0x08, ik), (0x10, ik)]))
  let q := s.attnTile d f j 0x00 h iq
  let x := (j.keyTiles iq).foldl (s.fwdStep d f j h iq q.1)
    (List.replicate 128 ⟨0xFF800000, 0, List.replicate j.dim 0⟩, ⟨0, [], [], {}, bad || q.2⟩)
  let s := s.attnStore d f j 0x18 j.fc h iq (x.1.map (fun r => r.acc.map (fun a => f32Div a r.lr))) x.2.bad
  let st (v : Nat) : List Byte := leBytes 4 (f32Store (lZmode j.layer) v)
  let s := (x.1.zip (List.range 128)).foldl (fun s r =>
    s.codeStore d f j.layer (j.addr 0x20 + ((iq + r.2) * 128 + h) * 8) (st r.1.mr ++ st r.1.lr) x.2.bad) s
  s.attnNote d f j x.2

/-- Heads of a descriptor, and the first rows of its tiles. -/
def attnHeads (w : List Nat) : List Nat := (List.range (dNcnt w)).map (fun i => dN0 w + i)
def attnTiles (w : List Nat) : List Nat := (List.range (dMcnt w / 128)).map (fun i => dM0 w + 128 * i)
/-- Run one routine for every head and tile. -/
def State.attnRun (s : State) (d f : Nat) (h : Held) (go : State → AttnJob → Bool → Nat → Nat → State) : State :=
  let s := s.faceSeen d f (s.ringAddr (dIn h.words)) 128
  let j := s.attnJob d f h
  let s := s.plMode d f 0 (lLayerId h.layer)
  (attnHeads h.words).foldl (fun s hd => (attnTiles h.words).foldl (fun s i => go s j.1 j.2 hd i) s) s
/-- The running descriptor's products go to the benches of its gang; while none takes passes, it waits (R73). -/
def State.attnGo (s : State) (d f : Nat) (h : Held) (go : State → AttnJob → Bool → Nat → Nat → State) : State :=
  if (s.attnBenches d f).isEmpty then s.setRun d f h.idx .stalled else s.attnRun d f h go
/-- An ATTN descriptor of a kind: the next one starts, or the one that waits for a bench tries again. -/
def State.attnStart (s : State) (d f : Nat) (k : DescKind) (go : State → AttnJob → Bool → Nat → Nat → State) : State :=
  match (s.face d f).held.find? (fun h => h.run == .stalled) with
  | some h => if descKind s.phaseKind h.words = some k then (s.setRun d f h.idx .running).attnGo d f h go else s
  | none => s.descStart d f k (fun s h => s.attnGo d f h go)
def execDescAttnFwd (d : DieIx) (f : FaceIx) (s : State) : Res :=
  done s (s.attnStart d.val f.val .attnFwd (fun s j bad hd i => s.fwdTile d.val f.val j bad hd i))

/-! ### backward (R185) -/

/-- What a backward pair gives: drop(p), ds, and the operand codes of q, do and k. -/
structure AttnPair where
  p    : List (List Nat)
  ds   : List (List Nat)
  q    : List (List Nat)
  go   : List (List Nat)
  k    : List (List Nat)
  side : AttnSide
deriving DecidableEq, Repr

def State.attnPair (s : State) (d f : Nat) (j : AttnJob) (h iq ik : Nat) : AttnPair :=
  let q := s.attnTile d f j 0x00 h iq
  let k := s.attnTile d f j 0x08 h ik
  let v := s.attnTile d f j 0x10 h ik
  let o := s.attnTile d f j 0x18 h iq
  let g := s.attnTile d f j 0x28 h iq
  let st := s.attnStats d f j h iq
  let dd := ((toImages j g.1).zip (toImages j o.1)).map (fun r => sumRow ((r.1.zip r.2).map (fun e => f32Mul e.1 e.2)))
  let sc := s.scores j q.1 k.1 iq ik
  let p := (sc.v.zip st.1).map (fun r => r.1.map (fun e => f32Div (exp2Image (f32Sub e r.2.1)) r.2.2))
  let gv := (benchMul j (s.attnRnd j iq ik) (zeroMat 128 128) g.1 v.1).finish j one32
  let dp := s.dropMat j h iq ik gv.v
  let ds := ((p.zip dp).zip dd).map (fun r => (r.1.1.zip r.1.2).map (fun e => f32Mul (f32Mul e.1 (f32Sub e.2 r.2)) j.rs))
  ⟨s.dropMat j h iq ik p, ds, q.1, g.1, k.1,
   ⟨sc.lost + gv.lost, sc.words ++ gv.words, gv.last, {}, q.2 || k.2 || v.2 || o.2 || g.2 || st.2⟩⟩

/-- The tiles of a pair of a query and a key tile. -/
def attnPairTiles (iq ik : Nat) : List (Nat × Nat) := [(0x00, iq), (0x08, ik), (0x10, ik), (0x18, iq), (0x28, iq), (0x20, iq)]
/-- BWD_KV: one key tile of one head. -/
def State.kvTile (s : State) (d f : Nat) (j : AttnJob) (bad : Bool) (h ik : Nat) : State :=
  let s := s.attnSeen d f j h ((j.queryTiles ik).flatMap (fun iq => attnPairTiles iq ik))
  let rnd := s.attnRnd j ik (h * j.dim)
  let x := (j.queryTiles ik).foldl (fun (x : Mat × Mat × AttnSide) iq =>
    let r := s.attnPair d f j h iq ik
    let p := toCodes j (transpose 128 r.p)
    let ds := toCodes j (transpose 128 r.ds)
    (benchMul j rnd x.1 p.1 (transpose j.dim r.go), benchMul j rnd x.2.1 ds.1 (transpose j.dim r.q),
     ((x.2.2.plus r.side).conv p.2).conv ds.2))
    (zeroMat 128 j.dim, zeroMat 128 j.dim, ⟨0, [], [], {}, bad⟩)
  let s := s.attnStore d f j 0x40 5 h ik (x.1.finish j one32).v x.2.2.bad
  let s := s.attnStore d f j 0x38 5 h ik (x.2.1.finish j one32).v x.2.2.bad
  s.attnNote d f j ((x.2.2.mat x.1).mat x.2.1)
def execDescAttnBwdKv (d : DieIx) (f : FaceIx) (s : State) : Res :=
  done s (s.attnStart d.val f.val .attnKv (fun s j bad hd i => s.kvTile d.val f.val j bad hd i))

/-- BWD_Q: one query tile of one head. -/
def State.dqTile (s : State) (d f : Nat) (j : AttnJob) (bad : Bool) (h iq : Nat) : State :=
  let s := s.attnSeen d f j h ((j.keyTiles iq).flatMap (fun ik => attnPairTiles iq ik))
  let x := (j.keyTiles iq).foldl (fun (x : Mat × AttnSide) ik =>
    let r := s.attnPair d f j h iq ik
    let ds := toCodes j r.ds
    (benchMul j (s.attnRnd j iq (h * j.dim)) x.1 ds.1 (transpose j.dim r.k), (x.2.plus r.side).conv ds.2))
    (zeroMat 128 j.dim, ⟨0, [], [], {}, bad⟩)
  let s := s.attnStore d f j 0x30 5 h iq (x.1.finish j one32).v x.2.bad
  s.attnNote d f j (x.2.mat x.1)
def execDescAttnBwdQ (d : DieIx) (f : FaceIx) (s : State) : Res :=
  done s (s.attnStart d.val f.val .attnQ (fun s j bad hd i => s.dqTile d.val f.val j bad hd i))

end Sys2Proof.Machine
end

