-- ==== Sys2Proof/Machine/Power.lean ====
section
/-! DEFINITION. The power governor (R449 to R456), supplies and clocks that fail (R448, R458), domains gated for idleness
(R459), and mailbox 3 (R460).  Points are 0 P0, 1 P1, 2 P2; powers are in mW. -/

namespace Sys2Proof.Machine

/-- The device has reached READY (R391). -/
def State.isReady (s : State) : Bool := s.fld AON_BOOT_STAT AON_BOOT_STAT_STAGE == 8

/-! ### readings -/

/-- A field of a governor register; reset values under a parity stop (R461). -/
def State.govFld (s : State) (a : Nat) (f : Fld) : Nat :=
  if s.parStop.contains PWR_CTRL || s.parStop.contains PWR_REQ || s.parStop.contains PWR_LIMIT then
    bits (regReset a).toNat f.lo f.w
  else s.fld a f

/-- p100: the average of the last two 50 µs readings of every rail. -/
def State.p100 (s : State) : Nat := s.pwr.rails.foldl (fun n e => n + (e.2.1 + e.2.2) / 2) 0
/-- p1: the average of p100 over the last ten ticks. -/
def State.p1 (s : State) : Nat := if s.pwr.hist.isEmpty then 0 else s.pwr.hist.foldl (· + ·) 0 / s.pwr.hist.length

/-- A limit in units of 10 W, within 1.0 to 5.0 kW (R451), in mW. -/
def limitMw (v : Nat) : Nat := max 100 (min 500 v) * 10000
/-- PLIM of the configuration in effect (R399). -/
def State.plim (s : State) : Nat := bits (blkNat s.boot.cfg 0x30 4) 4 12
def State.pcap (s : State) : Nat := limitMw (s.govFld PWR_LIMIT PWR_LIMIT_PCAP_LIM)
/-- The effective limit and which limit it is (PWR_STAT.LIMITER), the earlier on equal. -/
def State.effLimit (s : State) : Nat × Nat :=
  let a := limitMw s.plim
  let b := limitMw (s.govFld PWR_LIMIT PWR_LIMIT_SW_LIM)
  let r := if b < a then (b, 2) else (a, 1)
  if s.flag PWR_STAT PWR_STAT_PWR_CAP ∧ s.pcap < r.1 then (s.pcap, 3) else r

/-- The point requested (3 acts as P1), the cooling ceiling and the ceiling point (R451). -/
def State.reqPoint (s : State) : Nat := let p := s.govFld PWR_REQ PWR_REQ_POINT; if p = 3 then 1 else p
def State.coolCeiling (s : State) : Nat :=
  if s.flag PWR_STAT PWR_STAT_COOL_OK then 0 else if s.govFld PWR_REQ PWR_REQ_ALLOW_P1 = 1 then 1 else 2
def State.ceiling (s : State) : Nat := max s.reqPoint s.coolCeiling
def State.point (s : State) : Nat := s.fld PWR_STAT PWR_STAT_POINT

/-- PMBus address of the VCORE_d regulator (R399, R449): of the configuration in effect, 0x40 + d where that gives none. -/
def State.vrmAddr (s : State) (d : Nat) : Nat :=
  let a := if blkNat s.boot.cfg 8 4 < 0x90 then 0 else blkNat s.boot.cfg (0x80 + d) 1 % 128
  if a = 0 then 0x40 + d else a
/-- The 16 VCORE regulators. -/
def State.vrms (s : State) : List Nat := (List.range 16).map s.vrmAddr
/-- Core voltage of a point in mV: 0.72, 0.63 and 0.58 V (R448, R450). -/
def pointMv (p : Nat) : Nat := match p with | 0 => 720 | 1 => 630 | _ => 580

/-! ### changing the point (R450) -/

/-- Cancel a step up that is ramping: the divider does not switch and the rails go back. -/
def State.cancelUp (s : State) : State :=
  match s.pwr.up with
  | none => s
  | some _ => ({ s with pwr := { s.pwr with up := none } } : State).emit (.voltage s.vrms (pointMv s.point))

/-- Down to a slower point: the divider switches at once, the rails ramp down after it. -/
def State.pointDown (s : State) (p : Nat) : State :=
  let s := s.cancelUp
  if p ≤ s.point then s
  else
    let s := (s.setFld PWR_STAT PWR_STAT_POINT p).setFlag PWR_STAT PWR_STAT_TRANS true
    (s.emit (.voltage s.vrms (pointMv p))).raise PWR_EVENT PWR_EVENT_POINT

/-- Up to a faster point: the rails ramp first. -/
def State.pointUp (s : State) (p : Nat) : State :=
  if s.point ≤ p ∨ s.pwr.up.isSome then s
  else
    let s := s.setFlag PWR_STAT PWR_STAT_TRANS true
    ({ s with pwr := { s.pwr with up := some p } } : State).emit (.voltage s.vrms (pointMv p))

/-- The rails have reached their voltage: an up-step switches the divider, unless the ceiling has fallen below its point meanwhile
(PWR_REQ was written): then it is cancelled and the rails go back, for the point never goes above the ceiling (R1). -/
def State.rampDone (s : State) : State :=
  match s.pwr.up with
  | none => s.setFlag PWR_STAT PWR_STAT_TRANS false
  | some p =>
    if p < s.ceiling then s.cancelUp
    else
      let s := (s.setFlag PWR_STAT PWR_STAT_TRANS false).setFld PWR_STAT PWR_STAT_POINT p
      ({ s with pwr := { s.pwr with up := none } } : State).raise PWR_EVENT PWR_EVENT_POINT

def execPointRampDone (s : State) : Res := done s (if s.flag PWR_STAT PWR_STAT_TRANS then s.rampDone else s)

/-- Set the duty: 16 where THROT_EN is 0 (R461). -/
def State.setDuty (s : State) (n : Nat) : State :=
  s.setFld PWR_STAT PWR_STAT_DUTY (if s.govFld PWR_CTRL PWR_CTRL_THROT_EN = 1 then n else 16)
def State.setLimiter (s : State) (v : Nat) : State := s.setFld PWR_STAT PWR_STAT_LIMITER v
def State.setQuiet (s : State) (n : Nat) : State := { s with pwr := { s.pwr with quiet := n } }

/-- P2 at duty 4 (R454, R455). -/
def State.floorPoint (s : State) : State := (s.pointDown 2).cancelUp.setDuty 4

/-! ### the tick (R452) -/

/-- Count a tick: averages, peak and energy (PWR_READ, PWR_ENERGY). -/
def State.tickRead (s : State) : State :=
  let p := s.p100
  let s := { s with pwr := { s.pwr with hist := (p :: s.pwr.hist).take 10 } }
  let s := s.setFld PWR_READ PWR_READ_AVG (min 65535 (s.p1 / 1000))
  let s := s.setFld PWR_READ PWR_READ_PEAK (max (s.fld PWR_READ PWR_READ_PEAK) (min 65535 (p / 1000)))
  let e := s.pwr.eRem + p
  ({ s with pwr := { s.pwr with eRem := e % 10000 } } : State).bump PWR_ENERGY_LO (e / 10000)

/-- p × ratio of one step up from point q is below the limit (1.43 from P1, 1.36 from P2). -/
def upFits (p lim q : Nat) : Bool := decide (p * (if q = 1 then 143 else 136) < lim * 100)

/-- The decision of a tick with GOV_EN = 1. -/
def State.govern (s : State) : State :=
  let lim := s.effLimit
  let q := s.point
  let c := s.ceiling
  if q < c then (s.pointDown (q + 1)).setLimiter (if s.reqPoint < s.coolCeiling then 4 else 0)
  else if lim.1 < s.p1 ∨ s.pwr.tj then
    let s := (if q < 2 then s.pointDown (q + 1) else if 4 < s.duty then s.cancelUp.setDuty (s.duty - 1) else s.cancelUp).setQuiet 0
    s.setLimiter (if s.pwr.tj then 5 else lim.2)
  else
    let s := s.setLimiter (if s.reqPoint < s.coolCeiling then 4 else 0)
    let n := if s.p1 * 10 < lim.1 * 9 then s.pwr.quiet + 1 else 0
    if n < 100 then s.setQuiet n
    else
      let s := s.setQuiet 0
      if s.duty < 16 then s.setDuty (s.duty + 1)
      else if c < q ∧ upFits s.p1 lim.1 q then s.pointUp (q - 1) else s

/-- The governor's tick every 100 µs, from READY on.  With THROT_EN = 0 the duty stays 16; with GOV_EN = 0 a cap in force keeps the
point and duty it set. -/
def State.tick (s : State) : State :=
  let s := s.tickRead.setDuty s.duty
  let met := decide (s.p100 ≤ s.pcap)
  let s := if met then { s with pwr := { s.pwr with capRun := false, capLate := false } } else s
  if s.pwr.capLate then s.floorPoint.setLimiter 3
  else if s.pwr.tj110 then s.floorPoint.setLimiter 5
  else if s.govFld PWR_CTRL PWR_CTRL_GOV_EN = 1 then s.govern
  else if s.pwr.tj then
    (if s.point < 2 then s.pointDown (s.point + 1) else if 4 < s.duty then s.setDuty (s.duty - 1) else s).setLimiter 5
  else if s.flag PWR_STAT PWR_STAT_PWR_CAP then (if s.point < s.ceiling then s.pointDown s.ceiling else s).setLimiter 3
  else
    let s := (s.setDuty 16).setLimiter (if s.reqPoint < s.coolCeiling then 4 else 0)
    if s.point < s.ceiling then s.pointDown s.ceiling else s.pointUp s.ceiling

def execGovernorTick (s : State) : Res := done s (if s.isReady then s.tick else s)

/-! ### pins (R446, R453, R454) -/

/-- The drop to the cooling ceiling when COOL_OK is low. -/
def State.coolDrop (s : State) : State :=
  if s.isReady && decide (s.point < s.coolCeiling) then (s.pointDown s.coolCeiling).setLimiter 4 else s

def State.coolChange (s : State) (level : Bool) : State :=
  if s.flag PWR_STAT PWR_STAT_COOL_OK = level then s
  else
    let s := (s.setFlag PWR_STAT PWR_STAT_COOL_OK level).raise PWR_EVENT PWR_EVENT_COOL
    let s := if s.isReady then s.cancelUp else s
    if level then s else s.coolDrop

def execCoolOkChange (level : Level) (s : State) : Res := done s (s.coolChange level)

/-- Up-ratio between two points, as a fraction (R452). -/
def upRatio (q target : Nat) : Nat × Nat :=
  if target ≤ q then (1, 1)
  else if q = 0 ∧ target = 1 then (143, 100)
  else if q = 0 then (143 * 136, 10000)
  else (136, 100)
/-- The prediction p100 / ratio at a slower point is at or below the limit. -/
def predicts (p q target lim : Nat) : Bool := decide (p * (upRatio q target).2 ≤ lim * (upRatio q target).1)

/-- The point and duty under PCAP_LIM (R454). -/
def State.capAct (s : State) : State :=
  let q := s.point
  let p := s.p100
  let target := if predicts p q q s.pcap then q else if q = 0 ∧ predicts p 0 1 s.pcap then 1 else 2
  let s := s.cancelUp
  let s := if q < target then s.pointDown target else s
  let f := p * (upRatio q target).2
  let n := if f = 0 then 16 else max 4 (min 16 (s.pcap * (upRatio q target).1 * 16 / f))
  (s.setDuty n).setLimiter 3

/-- PWR_CAP_N is taken low. -/
def State.capAssert (s : State) : State :=
  if s.flag PWR_STAT PWR_STAT_PWR_CAP then s
  else
    let s := (s.setFlag PWR_STAT PWR_STAT_PWR_CAP true).raise PWR_EVENT PWR_EVENT_CAP
    if s.isReady then ({ s with pwr := { s.pwr with capRun := true } } : State).capAct else s

def execPwrCapAssert (s : State) : Res := done s s.capAssert

/-- PWR_CAP_N is released. -/
def State.capRelease (s : State) : State :=
  if !s.flag PWR_STAT PWR_STAT_PWR_CAP then s
  else
    let s := (s.setFlag PWR_STAT PWR_STAT_PWR_CAP false).raise PWR_EVENT PWR_EVENT_CAP
    { s with pwr := { s.pwr with capRun := false, capLate := false } }

def execPwrCapRelease (s : State) : Res := done s s.capRelease

/-- The 1 ms deadline (R454). -/
def State.capDeadline (s : State) : State :=
  if !s.pwr.capRun then s
  else
    let s := { s with pwr := { s.pwr with capRun := false } }
    if s.p100 ≤ s.pcap then s
    else
      let s := (s.fault 0 0x0407 PWR_EVENT (s.p100 / 1000)).raise PWR_EVENT PWR_EVENT_CAP_LATE
      ({ s with pwr := { s.pwr with capLate := true } } : State).floorPoint

def execCapDeadline (s : State) : Res := done s s.capDeadline

/-! ### regulators (R449) -/

/-- One regulator is read; three failed reads in a row make the governor estimate its site, with 10 % added. -/
def State.pollRail (s : State) (r : Nat) (rd : Option (Nat × Nat)) (good : Bool) : State :=
  let old := mapGet (fun _ => (0, 0)) r s.pwr.rails
  let put (s : State) (w fails : Nat) : State :=
    { s with pwr := { s.pwr with rails := mapSet (fun _ => (0, 0)) r (w, old.1) s.pwr.rails,
                                 fails := mapSet (fun _ => 0) r fails s.pwr.fails } }
  match rd with
  | some (mv, a) =>
    let s := (s.setFld (PWR_RAIL r) PWR_RAIL_IOUT (min 1023 a)).setFld (PWR_RAIL r) PWR_RAIL_VOUT (min 1023 mv)
    put (s.setFlag (PWR_RAIL r) PWR_RAIL_PGOOD good) (mv * a) 0
  | none =>
    let n := mapGet (fun _ => 0) r s.pwr.fails + 1
    let s := if n = 3 then s.raise PWR_EVENT PWR_EVENT_TELEM else s
    if 3 ≤ n then
      let (k, s) := s.draw
      put s (Config.siteEstimate r k * 11 / 10) n
    else put s old.1 n

def execRegulatorPoll (r : Fin 16) (rd : Option (Nat × Nat)) (good : Bool) (s : State) : Res := done s (s.pollRail r.val rd good)

/-- STATUS_WORD of every regulator is read: bit 11 says that power is not good (PMBus 1.4). -/
def execPmbAlert (status : List Nat) (s : State) : Res :=
  done s ((List.range 16).foldl (fun s r => s.setFlag (PWR_RAIL r) PWR_RAIL_PGOOD (!bit (status.getD r 0) 11)) s)

/-! ### temperatures (R455, R456) -/

/-- Gate PD11 to PD122: every face is power-gated with its quadrant. -/
def State.gateSites (s : State) : State :=
  let s := (List.range 1024).foldl (fun s i => s.setFlag (FSQ_STAT (i / 64) (i % 64)) FSQ_STAT_GATED true) s
  -- the die caches lose what they hold (R225)
  let s := s.dram.lines.foldl (fun s e => match e.2 with | some c => s.dropLine e.1 c | none => s) s
  let s := s.setReg (PKG_PD_STAT 0) (s.reg (PKG_PD_STAT 0) % 2048)
  ((s.setReg (PKG_PD_STAT 1) 0).setReg (PKG_PD_STAT 2) 0).setReg (PKG_PD_STAT 3) 0

/-- A sensor trips. -/
def State.thermTrip (s : State) (sensor : Nat) : State :=
  if s.pwr.trip then s
  else
    let s := { (s.emit (.pin "THERMTRIP_N" false)) with pwr := { s.pwr with trip := true } }
    s.gateSites.fault 4 0x0505 0 sensor

def execThermtrip (sensor : Nat) (s : State) : Res := done s (s.thermTrip sensor)

/-- Number of the sensor at place i of a reading: 4d + q of the compute dies, then 64 + k of the link dies. -/
def State.dieTemps (s : State) (temps : List Nat) : State :=
  let t := temps.foldl max 0
  let i := temps.idxOf t
  let s := (s.setFld PWR_TEMP PWR_TEMP_TJ_MAX (min 255 t)).setFld PWR_TEMP PWR_TEMP_SENSOR i
  let tj := decide (100 ≤ t) || (s.pwr.tj && decide (97 ≤ t))
  let tj110 := decide (110 ≤ t) || (s.pwr.tj110 && decide (107 ≤ t))
  let s := if tj && !s.pwr.tj then s.raise PWR_EVENT PWR_EVENT_TJ_THROT else s
  let was := s.pwr.tj110
  let s := { s with pwr := { s.pwr with tj := tj, tj110 := tj110 } }
  let s := if tj110 && !was then s.floorPoint.setLimiter 5 else s
  if 120 ≤ t then s.thermTrip i else s

def execDieTempReading (temps : List Nat) (s : State) : Res := done s (if temps.length = 68 then s.dieTemps temps else s)

/-! ### rails and clocks (R448, R458) -/

/-- First domain of a main rail: 0 VLINK, 1 VSER, 2 + d VCORE_d, 18 + d VMEM_d. -/
def railDomain (rail : Nat) : Nat :=
  if rail = 0 then 1 else if rail = 1 then 4 else if rail < 18 then 11 + 6 * (rail - 2) else 107 + (rail - 18)

def execRailFault (rail : Nat) (s : State) : Res :=
  done s (if s.boot.perst ∨ 34 ≤ rail then s else s.fault 4 0x0503 0 (railDomain rail))

def execRefclkLoss (s : State) : Res := done s (s.fault 4 0x0503 0 0)

/-! ### gating for idleness (R74, R126, R165, R329, R459) -/

/-- IDLE_GATE of a unit: benches 16F + b, then the planishers, assay units and Crucibles.  A bench of a spinning face is not gated
(R345). -/
def State.idleGate (s : State) (u : Nat) : Bool :=
  if u < 16384 then s.flag (BENCH_CTRL (u / 1024) (u / 16 % 64) (u % 16)) BENCH_CTRL_IDLE_GATE && !s.spinsNow (u / 1024) (u / 16 % 64)
  else if u < 17408 then s.flag (PL_CTRL ((u - 16384) / 64) ((u - 16384) % 64)) PL_CTRL_IDLE_GATE
  else if u < 18432 then s.flag (AS_CTRL ((u - 17408) / 64) ((u - 17408) % 64)) AS_CTRL_IDLE_GATE
  else if u < 18560 then s.flag (CRU_CTRL ((u - 18432) / 8) ((u - 18432) % 8)) CRU_CTRL_IDLE_GATE
  else false

/-- The clock of a unit stands gated: it was found idle, and nothing has since given it work, cleared its IDLE_GATE or made its face spin. -/
def State.unitGated (s : State) (u : Nat) : Bool := s.pwr.idle.contains u && s.idleGate u

def execUnitIdleGate (unit : Nat) (s : State) : Res :=
  done s (if s.idleGate unit then { s with pwr := { s.pwr with idle := setInsert unit s.pwr.idle } } else s)

/-- Set the bit of a domain in PKG_PD_STAT. -/
def State.setPd (s : State) (j : Nat) (on : Bool) : State := s.setFlag (PKG_PD_STAT (j / 32)) ⟨j % 32, 1⟩ on

/-- Faces of quadrant q of a die (R13). -/
def quadFaces (q : Nat) : List Nat := (List.range 16).map (fun i => 16 * q + i)

/-- Gate or ungate a quadrant: its faces become GATED, or run again. -/
def State.gateQuad (s : State) (d q : Nat) (gate : Bool) : State :=
  let idle := (quadFaces q).all (fun f => (s.face d f).held.isEmpty && (s.face d f).rows.isEmpty)
  if gate && !idle then s
  else (quadFaces q).foldl (fun s f => s.setFlag (FSQ_STAT d f) FSQ_STAT_GATED gate) (s.setPd (13 + 6 * d + q) (!gate))

/-- The die has no dirty line left: its flush is over (R225). -/
def State.dieClean (s : State) (d : Nat) : Bool :=
  s.dram.lines.all (fun e => gchan (e.1 * 256) / 32 != d) && (List.range 8).all (fun c => !s.dram.flush.contains (8 * d + c))

/-- Gate or ungate a quadrant, or the common and controller domains of a die. -/
def State.gateDomain (s : State) (pd : Nat) (gate : Bool) : State :=
  let st := s.fld AON_BOOT_STAT AON_BOOT_STAT_STAGE
  -- start-up turns domains on in its own order (R392), and after a failed one the others stay off (R394)
  if pd < 11 ∨ 107 ≤ pd ∨ (!gate && (decide (st < 5) || st == 15)) then s
  else
    let d := (pd - 11) / 6
    let k := (pd - 11) % 6
    if 2 ≤ k then s.gateQuad d (k - 2) gate
    else if gate && !(s.dieClean d && (List.range 64).all (fun f => (s.face d f).held.isEmpty)) then s
    else s.setPd pd (!gate)

def execDomainIdleGating (pd : Fin 123) (gate : Bool) (s : State) : Res := done s (s.gateDomain pd.val gate)

/-! ### mailbox 3 (R460) -/

def stBadValue : Nat := 0x18

def State.opSet (s : State) (b : List Byte) : State × Nat :=
  let p := cbArg3 b % 4
  if p = 3 then (s, stBadValue) else (s.setFld PWR_REQ PWR_REQ_POINT p, stAccepted)
def execOpSet (blk : List Byte) (s : State) : Res :=
  done s (s.serve 3 0x60 true blk (fun t b src => let r := t.opSet b; r.1.answer 3 src (ansWord r.2 0)))

def State.limitSet (s : State) (b : List Byte) : State × Nat :=
  let sw := bits (cbArg2 b) 0 9
  let pc := bits (cbArg2 b) 16 9
  if sw = 0 ∨ pc = 0 then (s, stBadValue)
  else ((s.setFld PWR_LIMIT PWR_LIMIT_SW_LIM sw).setFld PWR_LIMIT PWR_LIMIT_PCAP_LIM pc, stAccepted)
def execLimitSet (blk : List Byte) (s : State) : Res :=
  done s (s.serve 3 0x61 true blk (fun t b src => let r := t.limitSet b; r.1.answer 3 src (ansWord r.2 0)))

/-- PWR_GET writes three words into its block. -/
def State.pwrGet (s : State) (src : CmdSrc) : State :=
  let v := leBytes 4 (s.reg PWR_STAT) ++ leBytes 4 (s.reg PWR_READ) ++ leBytes 4 (s.reg PWR_TEMP)
  (s.srcPut src (s.blkOff 3 src + 0x20) v).answer 3 src (ansWord stAccepted 0)
def execPwrGet (blk : List Byte) (s : State) : Res := done s (s.serve 3 0x62 true blk (fun t _ src => t.pwrGet src))

end Sys2Proof.Machine
end

