-- ==== Sys2Proof/Machine/Sha.lean ====
section
/-! DEFINITION. SHA-256 (FIPS 180-4) and ECDSA verification on P-256 (FIPS 186-4), by which the ROM verifies firmware
(R397, R398). -/

namespace Sys2Proof.Machine

/-- The largest r + i, i of k bits, whose e-th power does not exceed n: an integer root, one bit at a time. -/
def rootBits (e n : Nat) : Nat → Nat → Nat
  | 0, r => r
  | k + 1, r => rootBits e n k (if (r + 2 ^ k) ^ e ≤ n then r + 2 ^ k else r)
/-- The first 32 bits of the fraction of the e-th root of p. -/
def rootFrac (e p : Nat) : Nat := rootBits e (p * 2 ^ (32 * e)) 35 0 % 2 ^ 32
/-- The primes below 312, of which there are 64. -/
def smallPrimes : List Nat := (List.range 312).filter (fun n => 2 ≤ n && ((List.range 18).drop 2).all (fun d => n ≤ d || n % d != 0))
/-- FIPS 180-4 takes its round constants from cube roots, and the first state from square roots, of the first primes. -/
def shaK : List Nat := smallPrimes.map (rootFrac 3)
def shaH0 : List Nat := (smallPrimes.take 8).map (rootFrac 2)

def add32 (a b : Nat) : Nat := (a + b) % 2 ^ 32
def rotr32 (n x : Nat) : Nat := x / 2 ^ n + x % 2 ^ n * 2 ^ (32 - n)
def shaS0 (x : Nat) : Nat := rotr32 7 x ^^^ rotr32 18 x ^^^ x / 8
def shaS1 (x : Nat) : Nat := rotr32 17 x ^^^ rotr32 19 x ^^^ x / 1024
def shaB0 (x : Nat) : Nat := rotr32 2 x ^^^ rotr32 13 x ^^^ rotr32 22 x
def shaB1 (x : Nat) : Nat := rotr32 6 x ^^^ rotr32 11 x ^^^ rotr32 25 x

/-- Extend the message schedule, held newest word first. -/
def shaSched : Nat → List Nat → List Nat
  | 0, w => w
  | n + 1, w =>
    let t := add32 (add32 (shaS1 (w.getD 1 0)) (w.getD 6 0)) (add32 (shaS0 (w.getD 14 0)) (w.getD 15 0))
    shaSched n (t :: w)

/-- The compression rounds over pairs of a constant and a schedule word. -/
def shaRounds : List (Nat × Nat) → List Nat → List Nat
  | [], s => s
  | (k, w) :: l, s =>
    match s with
    | [a, b, c, d, e, f, g, h] =>
      let ch := (e &&& f) ^^^ ((0xFFFFFFFF ^^^ e) &&& g)
      let maj := (a &&& b) ^^^ (a &&& c) ^^^ (b &&& c)
      let t1 := (h + shaB1 e + ch + k + w) % 2 ^ 32
      shaRounds l [(t1 + shaB0 a + maj) % 2 ^ 32, a, b, c, (d + t1) % 2 ^ 32, e, f, g]
    | s => s

/-- Big-endian value of bytes. -/
def beNat (l : List Nat) : Nat := l.foldl (fun v b => v * 256 + b) 0

/-- One 64-byte block. -/
def shaBlock (h : List Nat) (blk : List Nat) : List Nat :=
  let w := (List.range 16).map (fun i => beNat ((blk.drop (4 * i)).take 4))
  let sched := (shaSched 48 w.reverse).reverse
  List.zipWith add32 h (shaRounds (shaK.zip sched) h)

/-- `n` blocks. -/
def shaBlocks : Nat → List Nat → List Nat → List Nat
  | 0, _, h => h
  | n + 1, m, h => shaBlocks n (m.drop 64) (shaBlock h (m.take 64))

/-- SHA-256 digest as a number. -/
def sha256 (msg : List Byte) : Nat :=
  let m := msg.map BitVec.toNat
  let n := m.length
  let pad := (64 - (n + 9) % 64) % 64
  let full := m ++ 0x80 :: List.replicate pad 0 ++ (List.range 8).map (fun i => n * 8 / 2 ^ (56 - 8 * i) % 256)
  (shaBlocks (full.length / 64) full shaH0).foldl (fun v x => v * 2 ^ 32 + x) 0

/-! ### P-256 -/

def p256P : Nat := 0xffffffff00000001000000000000000000000000ffffffffffffffffffffffff
def p256N : Nat := 0xffffffff00000000ffffffffffffffffbce6faada7179e84f3b9cac2fc632551
def p256B : Nat := 0x5ac635d8aa3a93e7b3ebbd55769886bc651d06b0cc53b0f63bce3c3e27d2604b
def p256Gx : Nat := 0x6b17d1f2e12c4247f8bce6e563a440f277037d812deb33a0f4a13945d898c296
def p256Gy : Nat := 0x4fe342e2fe1a7f9b8ee7eb4a7c0f9e162bce33576b315ececbb6406837bf51f5

/-- base^exp modulo m over `k` bits of the exponent, least significant first. -/
def powMod (m : Nat) : Nat → Nat → Nat → Nat → Nat
  | 0, _, _, acc => acc
  | k + 1, b, e, acc => powMod m k (b * b % m) (e / 2) (if e % 2 = 1 then acc * b % m else acc)
/-- Inverse modulo a prime. -/
def invMod (m a : Nat) : Nat := powMod m 256 (a % m) (m - 2) 1
/-- Difference modulo m of reduced values. -/
def subMod (m a b : Nat) : Nat := (a + m - b % m) % m

/-- A point in Jacobian coordinates; z = 0 is the point at infinity. -/
structure JPoint where
  x : Nat
  y : Nat
  z : Nat
deriving DecidableEq, Repr

def jDouble (p : JPoint) : JPoint :=
  if p.z = 0 ∨ p.y = 0 then ⟨1, 1, 0⟩
  else
    let P := p256P
    let zz := p.z * p.z % P
    let a := 3 * (subMod P p.x zz * ((p.x + zz) % P)) % P
    let yy := p.y * p.y % P
    let b := 4 * (p.x * yy) % P
    let x3 := subMod P (a * a % P) (2 * b % P)
    let y3 := subMod P (a * subMod P b x3 % P) (8 * (yy * yy % P) % P)
    ⟨x3, y3, 2 * p.y * p.z % P⟩

def jAdd (p q : JPoint) : JPoint :=
  if p.z = 0 then q else if q.z = 0 then p
  else
    let P := p256P
    let z1 := p.z * p.z % P
    let z2 := q.z * q.z % P
    let u1 := p.x * z2 % P
    let u2 := q.x * z1 % P
    let s1 := p.y * (z2 * q.z % P) % P
    let s2 := q.y * (z1 * p.z % P) % P
    if u1 = u2 then (if s1 = s2 then jDouble p else ⟨1, 1, 0⟩)
    else
      let h := subMod P u2 u1
      let r := subMod P s2 s1
      let hh := h * h % P
      let hhh := hh * h % P
      let v := u1 * hh % P
      let x3 := subMod P (subMod P (r * r % P) hhh) (2 * v % P)
      let y3 := subMod P (r * subMod P v x3 % P) (s1 * hhh % P)
      ⟨x3, y3, h * (p.z * q.z % P) % P⟩

/-- Scalar multiple over `k` bits, most significant first. -/
def jMul : Nat → Nat → JPoint → JPoint
  | 0, _, _ => ⟨1, 1, 0⟩
  | k + 1, n, p =>
    let r := jDouble (jMul k (n / 2) p)
    if n % 2 = 1 then jAdd r p else r

/-- ECDSA verification of digest `e` with signature (r, s) under the public key (qx, qy). -/
def ecdsaVerify (qx qy e r s : Nat) : Bool :=
  let P := p256P
  let N := p256N
  let onCurve := qy * qy % P == (qx * (qx * qx % P) + (P - 3) * qx + p256B) % P
  if qx < P && qy < P && onCurve && 0 < r && r < N && 0 < s && s < N then
    let w := invMod N s
    let u1 := e % N * w % N
    let u2 := r * w % N
    let R := jAdd (jMul 256 u1 ⟨p256Gx, p256Gy, 1⟩) (jMul 256 u2 ⟨qx, qy, 1⟩)
    if R.z = 0 then false
    else
      let zi := invMod P R.z
      R.x * (zi * zi % P) % P % N == r
  else false

end Sys2Proof.Machine
end

