-- ==== Sys2Proof/Machine/Nvm.lean ====
section
/-! DEFINITION. The attached NVM (R396): firmware slots and their choice (R397, R398), the configuration image (R399, R400) and
its journal (R401, R402). -/

namespace Sys2Proof.Machine

/-! ### the flash -/

/-- Bytes of the NVM from an offset; an erased byte is 0xFF. -/
def nvmBytes (m : List Host.Cell) (a : Nat) : Nat → List Byte
  | 0 => []
  | n + 1 => mapGet (fun _ => 0xFF) a m :: nvmBytes m (a + 1) n
def nvmNat (m : List Host.Cell) (a n : Nat) : Nat := leNat (nvmBytes m a n)
/-- Program bytes (bits only fall; the model programs erased places). -/
def nvmPut (m : List Host.Cell) (a : Nat) : List Byte → List Host.Cell
  | [] => m
  | b :: l => nvmPut (mapSet (fun _ => 0xFF) a b m) (a + 1) l
/-- Erase a range. -/
def nvmErase (m : List Host.Cell) (a n : Nat) : List Host.Cell := m.filter (fun c => c.1 < a || a + n ≤ c.1)
/-- A range holds a programmed byte. -/
def nvmUsed (m : List Host.Cell) (a n : Nat) : Bool := m.any (fun c => a ≤ c.1 && c.1 < a + n)

/-- The factory data (R396): 64 KiB that hold the identity certificate chain, its length in the first two bytes as SPDM lays a chain out. -/
def factoryBase : Nat := 0xA00000
def certChain (m : List Host.Cell) : List Byte := nvmBytes m factoryBase (nvmNat m factoryBase 2)
def fwBase (slot : Nat) : Nat := slot * 0x400000
def bankBase (b : Nat) : Nat := 0x800000 + b * 0x100000
def journalBase (b : Nat) : Nat := bankBase b + 0x40000

/-! ### firmware (R397, R398) -/

def fwLen (m : List Host.Cell) (slot : Nat) : Nat := nvmNat m (fwBase slot + 0xC) 4
def fwVersion (m : List Host.Cell) (slot : Nat) : Nat := nvmNat m (fwBase slot + 4) 4
def fwSvn (m : List Host.Cell) (slot : Nat) : Nat := nvmNat m (fwBase slot + 8) 1
def fwKeySlot (m : List Host.Cell) (slot : Nat) : Nat := nvmNat m (fwBase slot + 0x10) 4 % 4
/-- A big-endian integer of the NVM. -/
def nvmBe (m : List Host.Cell) (a n : Nat) : Nat := beNat ((nvmBytes m a n).map BitVec.toNat)

/-- Is a slot a candidate (R398)? -/
def fwCand (f : Fuses) (m : List Host.Cell) (slot : Nat) : Bool :=
  let k := fwKeySlot m slot
  nvmNat m (fwBase slot) 4 == 0x46575A52 && decide (1 ≤ fwLen m slot) && decide (fwLen m slot ≤ 4194048) && bit f.keyProg k &&
  !bit f.keyRev k && decide (f.svn ≤ fwSvn m slot) && sha256 (nvmBytes m (fwBase slot + 0x40) 64) == f.keyHash.getD k 0
/-- Does the signature verify? -/
def fwSigned (m : List Host.Cell) (slot : Nat) : Bool :=
  let b := fwBase slot
  let e := sha256 (nvmBytes m b 0x80 ++ nvmBytes m (b + 0x100) (fwLen m slot))
  ecdsaVerify (nvmBe m (b + 0x40) 32) (nvmBe m (b + 0x60) 32) e (nvmBe m (b + 0x80) 32) (nvmBe m (b + 0xA0) 32)
/-- Candidates in the order they are tried: the higher FW_VERSION first, slot 0 first on equal versions. -/
def fwOrder (f : Fuses) (m : List Host.Cell) : List Nat :=
  (if fwVersion m 0 < fwVersion m 1 then [1, 0] else [0, 1]).filter (fwCand f m)

/-! ### the configuration image (R399) -/

/-- Default port of a link (R271). -/
def defaultPort (l : Nat) : Nat :=
  if l < 24 then 2 else if l < 32 then 4 else if l < 56 then 0 else if l < 64 then 4
  else if l < 88 then 3 else if l < 96 then 5 else if l < 120 then 1 else 5
/-- The factory defaults held in ROM (R400). -/
def defaultCfg : List Byte :=
  leBytes 4 0x43465A52 ++ leBytes 4 1 ++ leBytes 4 0x90 ++ leBytes 36 0 ++ leBytes 4 (1 + 500 * 16) ++ leBytes 4 2 ++ leBytes 8 0 ++
  (List.range 64).map (fun i => BitVec.ofNat 8 (defaultPort (2 * i) + defaultPort (2 * i + 1) * 16)) ++ leBytes 16 0

def cfgLen (c : List Byte) : Nat := blkNat c 8 4
/-- The image with its CRC word taken as 0. -/
def cfgZeroCrc (c : List Byte) : List Byte := c.take 12 ++ leBytes 4 0 ++ c.drop 16
/-- An image passes its checks (R400). -/
def cfgGood (c : List Byte) : Bool :=
  let n := cfgLen c
  blkNat c 0 4 == 0x43465A52 && blkNat c 4 2 == 1 && decide (128 ≤ n) && decide (n ≤ 262144) && n % 4 == 0 && decide (n ≤ c.length) &&
  crc32 (cfgZeroCrc (c.take n)) == blkNat c 12 4
/-- The image stored in a bank, as many bytes as its LEN says. -/
def bankImage (m : List Host.Cell) (b : Nat) : List Byte := nvmBytes m (bankBase b) (min 262144 (nvmNat m (bankBase b + 8) 4))
def bankGood (m : List Host.Cell) (b : Nat) : Bool :=
  let n := nvmNat m (bankBase b + 8) 4
  decide (128 ≤ n) && decide (n ≤ 262144) && cfgGood (bankImage m b)
def bankGen (m : List Host.Cell) (b : Nat) : Nat := nvmNat m (bankBase b + 0x10) 4
/-- The bank in use (R400): the good one of the larger GEN. -/
def bankChoice (m : List Host.Cell) : Option Nat :=
  match bankGood m 0, bankGood m 1 with
  | true, true => some (if bankGen m 0 < bankGen m 1 then 1 else 0)
  | true, false => some 0
  | false, true => some 1
  | false, false => none

/-- A bank whose image place is programmed. -/
def bankUsed (m : List Host.Cell) (b : Nat) : Bool := nvmUsed m (bankBase b) 0x40000
/-- A programmed bank fails its check and has the larger GEN of the two (R400). -/
def bankBad (m : List Host.Cell) : Bool :=
  (List.range 2).any (fun b => bankUsed m b && bankUsed m (1 - b) && !bankGood m b && decide (bankGen m (1 - b) < bankGen m b))

/-- A word of an image replaced. -/
def cfgSetWord (c : List Byte) (off v : Nat) : List Byte := c.take off ++ leBytes 4 v ++ c.drop (off + 4)

/-! ### the journal (R401, R402) -/

def crc16 (b : List Byte) : Nat := crcF 16 0x1021 b 0xFFFF
/-- The 16 bytes of a record. -/
def recBytes (off val seq : Nat) : List Byte :=
  let b := leBytes 4 off ++ leBytes 4 val ++ leBytes 4 seq ++ leBytes 2 0xA55A
  b ++ leBytes 2 (crc16 b)
def fieldOk (len off : Nat) : Bool := off % 4 == 0 && decide (0x20 ≤ off) && decide (off < len)
/-- A record that replay applies. -/
def recGood (len seq : Nat) (r : List Byte) : Bool :=
  blkNat r 12 2 == 0xA55A && blkNat r 14 2 == crc16 (r.take 14) && fieldOk len (blkNat r 0 4) && blkNat r 8 4 == seq

/-- What a replay found: the image, records applied, the last sequence number, and whether it was truncated. -/
structure Replay where
  image : List Byte
  count : Nat
  last  : Nat
  trunc : Bool
deriving DecidableEq, Repr

/-- Replay the records of a bank from record i on. -/
def replayFrom (m : List Host.Cell) (base len : Nat) : Nat → Nat → Nat → List Byte → Replay
  | 0, i, last, c => ⟨c, i, last, false⟩
  | fuel + 1, i, last, c =>
    let r := nvmBytes m (base + 16 * i) 16
    if r.all (· == 0xFF) then ⟨c, i, last, false⟩
    else if recGood len ((last + 1) % 2 ^ 32) r then
      replayFrom m base len fuel (i + 1) ((last + 1) % 2 ^ 32) (cfgSetWord c (blkNat r 0 4) (blkNat r 4 4))
    else ⟨c, i, last, true⟩
def bankReplay (m : List Host.Cell) (b : Nat) : Replay :=
  let c := bankImage m b
  replayFrom m (journalBase b) (cfgLen c) 49152 0 (blkNat c 0x14 4) c

/-! ### the ROM's choice (R398) -/

/-- The ROM chooses an image and starts it (stage FW), or stops with FAIL 1 (R391, R394). -/
def State.romChoose (s : State) : State :=
  let f := s.boot.fuses
  let m := s.boot.nvm
  let cand := fwOrder f m
  match cand.find? (fwSigned m) with
  | none =>
    let s := (s.setFld AON_BOOT_STAT AON_BOOT_STAT_STAGE 15).setFld AON_BOOT_STAT AON_BOOT_STAT_FAIL 1
    if s.obs.faultN then s else { s.emit (.pin "FAULT_N" false) with obs := { s.obs with faultN := true } }
  | some slot =>
    let s := (s.setFld AON_BOOT_STAT AON_BOOT_STAT_FW_SLOT slot).setFld AON_BOOT_STAT AON_BOOT_STAT_KEY_SLOT (fwKeySlot m slot)
    let s := (s.setFld AON_BOOT_STAT AON_BOOT_STAT_STAGE 1).setFld AON_BOOT_STAT AON_BOOT_STAT_FAIL 0
    let s := s.setReg AON_FW_VER (fwVersion m slot)
    let s := if cand.head? = some slot then s else s.raise AON_EVENT AON_EVENT_BOOT_ALT
    let meas := sha256 (nvmBytes m (fwBase slot) 0x100 ++ nvmBytes m (fwBase slot + 0x100) (fwLen m slot))
    { s with boot := { s.boot with chosen := some slot, fwSvn := fwSvn m slot, fwMeas := meas } }

/-- The fuse words (R415). -/
def State.showFuses (s : State) : State :=
  let f := s.boot.fuses
  (s.setReg AON_FUSE_KEYS (f.keyProg % 16 + f.keyRev % 16 * 16)).setReg AON_FUSE_SEC (b2n f.dbgLock + f.svn % 128 * 2)

end Sys2Proof.Machine
end

