-- ==== Sys2Proof/Machine/Links.lean ====
section
/-! DEFINITION. Links and trunks (R271 to R280): training, lane health, sequenced and control flits, retry, credits. -/

namespace Sys2Proof.Machine

/-! ### registers of link L (R271, R294) -/

def lnkCtrl (l : Nat) : Nat := LNK_CTRL (l / 32) (l % 32)
def lnkStat (l : Nat) : Nat := LNK_STAT (l / 32) (l % 32)
def lnkEvent (l : Nat) : Nat := LNK_EVENT (l / 32) (l % 32)
/-- State of a link (R273). -/
def State.lstate (s : State) (l : Nat) : Nat := s.fld (lnkStat l) LNK_STAT_STATE
def State.lport (s : State) (l : Nat) : Nat := s.fld (lnkStat l) LNK_STAT_PORT
def lsDown : Nat := 0
def lsDetect : Nat := 1
def lsTrain : Nat := 2
def lsCheck : Nat := 3
def lsUp : Nat := 4
def lsRetrain : Nat := 5
def lsFailed : Nat := 6
def lsDisabled : Nat := 7

/-- Links of a trunk, rising, and those that are UP. -/
def State.trunkLinks (s : State) (t : Nat) : List Nat := (List.range 128).filter (fun l => s.lport l == t)
def State.upLinks (s : State) (t : Nat) : List Nat := (s.trunkLinks t).filter (fun l => s.lstate l == lsUp)

/-- Parity stops: a link die then uses the reset values of its RW fields (R294). -/
def State.ldFld (s : State) (k a : Nat) (f : Fld) : Nat :=
  if s.parStop.contains (LD_CTRL k) then bits (regReset a).toNat f.lo f.w else s.fld a f

/-- No link is on its way to UP. -/
def State.linksSettled (s : State) : Bool :=
  (List.range 128).all (fun l => !(s.lstate l == lsDetect || s.lstate l == lsTrain || s.lstate l == lsCheck || s.lstate l == lsRetrain))
/-- Stage LINKS ends once every link has trained or failed (R391). -/
def State.linksStage (s : State) : State :=
  if s.fld AON_BOOT_STAT AON_BOOT_STAT_STAGE = 6 ∧ s.flag (LD_STAT 0) LD_STAT_READY ∧ s.linksSettled then
    s.setFld AON_BOOT_STAT AON_BOOT_STAT_STAGE 7
  else s

/-- Set the state of a link; LD_STAT and LD_TRUNK count what is UP.  Training that ends leaves RETRAIN 0, and a trunk whose number of
UP links changes takes the new one once its ORD = 1 packets are acknowledged (R290). -/
def State.putLstate (s : State) (l st : Nat) : State :=
  let was := (s.upLinks (s.lport l)).length
  let s := (s.setFld (lnkStat l) LNK_STAT_STATE st).linksStage
  let s := if (st = lsTrain ∨ st = lsRetrain) ∨ !s.flag (lnkCtrl l) LNK_CTRL_RETRAIN then s
    else s.setFlag (lnkCtrl l) LNK_CTRL_RETRAIN false
  let k := l / 32
  let n := ((List.range 32).filter (fun j => s.lstate (32 * k + j) == lsUp)).length
  let s := s.setFld (LD_STAT k) LD_STAT_LINKS_UP n
  let t := s.lport l
  if 6 ≤ t then s
  else
    let u := (s.upLinks t).length
    let s := if u = was then s else { s with fab := { s.fab with trunkN := mapSet (fun _ => 0) t 0 s.fab.trunkN } }
    (List.range 4).foldl (fun s k =>
      (s.setFld (LD_TRUNK k t) LD_TRUNK_UP u).setFlag (LD_TRUNK k t) LD_TRUNK_DOWN (u == 0)) s

/-! ### packets as flits (R281) -/

/-- Message class (R279): 0 REQ, 1 RSP, 2 SYS. -/
def pktCls (p : Packet) : Nat :=
  if p.rsp then 1 else if p.type = 4 ∨ p.type = 5 ∨ p.type = 8 then 2 else 0
/-- A packet from its flit bytes. -/
def packetOf (b : List Byte) (bad : Bool) : Packet :=
  let h := blkNat b 0 8
  let g := blkNat b 8 8
  { type := bits h 0 4, rsp := bit h 4, ord := bit h 5, ak := bit h 6, poison := bit h 7 || bad, vc := bits h 8 4,
    src := bits h 18 12, dst := bits h 30 12, hops := bits h 42 6, dl := bit h 48, esc := bit h 49, detour := bit h 50,
    status := bits h 51 3, tag := bits g 0 16, args := bits g 16 48, addr := blkNat b 16 8, ext := blkNat b 24 8,
    data := (b.drop 32).take (32 * bits h 12 6) }
/-- Data flits that a header flit announces. -/
def headerLen (b : List Byte) : Nat := bits (blkNat b 0 8) 12 6

/-! ### control flits (R277) -/

/-- Send a control flit: ACK, NAK and the cumulative credits. -/
def State.sendLctl (s : State) (l : Nat) (nak : Bool) : State :=
  let k := s.link l
  (s.emit (.lctl l k.rxAck nak k.freed)).setLink l { k with owed := List.replicate 9 0, slots := 0 }

/-- An UP link that has nothing to send sends an IDLE with its counters (R277). -/
def State.sendIdle (s : State) (l : Nat) : State :=
  if s.lstate l = lsUp then
    let k := s.link l
    (s.emit (.idleFlit l k.rxAck k.freed)).setLink l { k with owed := List.replicate 9 0 }
  else s
/-- Every link with nothing to send. -/
def State.sendIdles (s : State) : State := (List.range 128).foldl State.sendIdle s

def execLctlSend (l : LinkIx) (s : State) : Res := done s (if s.lstate l.val = lsUp then s.sendLctl l.val false else s)

/-- Flits of one VC leave this end's buffer; 64 waiting credits are returned at once (R277). -/
def State.freeFlits (s : State) (l v n : Nat) : State :=
  let k := s.link l
  let owed := k.owed.getD v 0 + n
  let s := s.setLink l { k with freed := k.freed.set v ((k.freed.getD v 0 + n) % 256), owed := k.owed.set v owed }
  if 64 ≤ owed ∧ s.lstate l = lsUp then s.sendLctl l false else s

/-! ### sending on a link (R278, R279) -/

/-- Free credits of VC v on link l. -/
def State.credit (s : State) (l v : Nat) : Nat := (s.link l).credit.getD v 0
/-- Link l has credit on VC v, and replay room, for the whole packet. -/
def State.fits (s : State) (l v : Nat) (p : Packet) : Bool :=
  decide (pktFlits p ≤ s.credit l v) && decide (s.replayFlits l + pktFlits p ≤ 512)

/-- Put a packet on link l, VC v: a sequence number per flit, credits taken, a copy kept for replay (R278, R279).  A control flit goes
first where 128 flit slots would pass without one (R277). -/
def State.sendOn (s : State) (l v : Nat) (p : Packet) : State :=
  let n := pktFlits p
  let s := if 128 ≤ (s.link l).slots + n then s.sendLctl l false else s
  let k := s.link l
  let p' := { p with vc := v, hops := p.hops + 1 }
  let last := (k.txSeq + n + 4095) % 4096
  let s := s.setLink l { k with txSeq := (k.txSeq + n) % 4096, replay := k.replay ++ [(last, p')],
                                credit := k.credit.set v (k.credit.getD v 0 - n), slots := k.slots + n }
  let s := s.noteQueue (1040 + l / 32) (l % 32 + 1) (s.replayFlits l)
  (s.bump (LNK_FLITS_LO (l / 32) (l % 32)) n).emit (.linkPacket l p')

/-- The UP link of its trunk that a packet of a failed link goes on over, by R290. -/
def State.resendLink (s : State) (t : Nat) (p : Packet) : Option Nat :=
  match s.upLinks t with
  | [] => none
  | o :: more =>
    let l := if p.ord then (o :: more).getD ((p.src ^^^ p.dst) % (1 + more.length)) o
      else more.foldl (fun b m => if s.credit b p.vc < s.credit m p.vc then m else b) o
    if s.fits l p.vc p then some l else none
/-- The packets of failed links of a trunk go on, oldest first, as credits and replay room allow; one that must wait holds back the
later ones of its channel. -/
def State.resendPump (s : State) (t : Nat) : State :=
  let r := (mapGet (fun _ => []) t s.fab.resend).foldl (fun (a : State × List Packet) p =>
    match (if a.2.any (fun q => q.vc == p.vc) then none else a.1.resendLink t p) with
    | some l => (a.1.sendOn l p.vc { p with hops := p.hops - 1 }, a.2)
    | none => (a.1, a.2 ++ [p])) (s, ([] : List Packet))
  { r.1 with fab := { r.1.fab with resend := mapSet (fun _ => []) t r.2 r.1.fab.resend } }

/-! ### losing packets (R283) -/

/-- A packet cannot be delivered: its source is told, whatever it is. -/
def State.lose (s : State) (p : Packet) (st : Nat) : State := s.emit (.packet (Packet.failed p st))

/-! ### leaving UP (R280) -/

/-- A request of R280 for what the far end of a failed link accepted. -/
def isResync (p : Packet) : Bool := p.type == 8 && !p.rsp && p.args % 256 == 5
/-- Ask the far end of a failed link x under a TAG: the request is the first that goes on over the trunk's other links, on SYS E0. -/
def State.askResync (s : State) (x tag : Nat) : State :=
  let t := s.lport x
  let p : Packet := { type := 8, ord := true, vc := 6, src := s.devId, dst := s.fld (lnkStat x) LNK_STAT_NBR_ID, tag := tag, args := 5,
                      ext := (s.link x).rxAck + x * 2 ^ 12 }
  { s with fab := { s.fab with resend := mapSet (fun _ => []) t (p :: mapGet (fun _ => []) t s.fab.resend) s.fab.resend } }
/-- What failed links of a trunk keep until their RESYNC is answered, as link and keeping, oldest first of each link. -/
def State.lives (s : State) (x : Nat) : List Life := mapGet (fun _ => []) x s.fab.resync
def State.unanswered (s : State) (t : Nat) : List (Nat × Life) :=
  (s.trunkLinks t).flatMap (fun x => (s.lives x).map (fun f => (x, f)))
/-- The receiver of a link that leaves UP: partial packets are discarded, and what it has accepted is kept for the RESYNC. -/
def Link.ended (k : Link) : Link :=
  { k with part := [], partBad := [], replay := [], ends := if k.early then k.ends else k.ends ++ [k.rxAck], early := false }
/-- The trunk is DOWN: no RESYNC of its links is to come. -/
def State.forgetEnds (s : State) (t : Nat) : State :=
  (s.trunkLinks t).foldl (fun s x => s.setLink x { s.link x with ends := [], asked := [], early := false }) s

/-- An UP link goes to another state: its packets move to the trunk's other links after a RESYNC, or are lost with the trunk.
Any RESYNC not answered yet may have been on this link, and is asked again. -/
def State.leaveUp (s : State) (l st : Nat) : State :=
  if s.lstate l ≠ lsUp then s.putLstate l st
  else
    let t := s.lport l
    let k := s.link l
    let die := l / 32
    let due := s.unanswered t
    let mine := k.replay.filter (fun e => !isResync e.2)
    let behind := (mapGet (fun _ => []) t s.fab.resend).filter (fun p => !isResync p)
    let s := (s.putLstate l st).raise (lnkEvent l) LNK_EVENT_DOWN
    let s := s.setLink l k.ended
    if (s.upLinks t).isEmpty then
      let s := (s.forgetEnds t).raiseMask (LD_EVENT die) (2 ^ LD_EVENT_LINK_DOWN.lo + 2 ^ LD_EVENT_TRUNK_DOWN.lo)
      let lost := due.flatMap (fun x => x.2.kept.map (fun e => e.2)) ++ behind ++ mine.map (fun e => e.2)
      let s := { s with fab := { s.fab with
        resync := s.fab.resync.filter (fun e => s.lport e.1 != t), resend := mapSet (fun _ => []) t [] s.fab.resend } }
      lost.foldl (fun s p => s.lose p 3) s
    else
      let s := s.raise (LD_EVENT die) LD_EVENT_LINK_DOWN
      let tag := s.fab.nextTag
      let fresh : Life := ⟨tag, mine⟩
      let s := { s with fab := { s.fab with
        nextTag := (tag + 1) % 65536, resync := mapSet (fun _ => []) l (s.lives l ++ [fresh]) s.fab.resync,
        resend := mapSet (fun _ => []) t behind s.fab.resend } }
      ((due ++ [(l, fresh)]).foldr (fun x (s : State) => s.askResync x.1 x.2.tag) s).resendPump t

/-- A retrain starts (R273, R275): above RETRAIN_MAX in the hour the link is disabled instead, unless it leaves DISABLED so. -/
def State.retrain (s : State) (l : Nat) : State :=
  let r := LNK_RETRAINS (l / 32) (l % 32)
  let full := decide (s.ldFld (l / 32) (LD_HEALTH_CFG (l / 32)) LD_HEALTH_CFG_RETRAIN_MAX ≤ s.fld r LNK_RETRAINS_HOUR)
  let off := s.lstate l == lsDisabled
  let s := (s.bumpSat r LNK_RETRAINS_COUNT 1).bumpSat r LNK_RETRAINS_HOUR 1
  if full && !off then (s.leaveUp l lsDisabled).raise (lnkEvent l) LNK_EVENT_DISABLED
  else ((s.leaveUp l lsRetrain).raise (lnkEvent l) LNK_EVENT_RETRAIN).setFlag (lnkCtrl l) LNK_CTRL_RETRAIN true

def execLinkDown (l : LinkIx) (s : State) : Res := done s (if s.lstate l.val = lsUp then s.leaveUp l.val lsDown else s)

/-! ### training (R273, R274) -/

/-- Training of a link fails; in stage LINKS it is recorded as CORRECTED (R394). -/
def State.trainFails (s : State) (l : Nat) : State :=
  let t := s.putLstate l lsFailed
  if s.fld AON_BOOT_STAT AON_BOOT_STAT_STAGE = 6 then t.fault 0 0x0404 (lnkEvent l) l else t

def execLinkDetectDone (l : LinkIx) (found : Bool) (s : State) : Res :=
  done s (if s.lstate l.val = lsDetect then (if found then s.putLstate l.val lsTrain else s.trainFails l.val) else s)

/-- CRC-16 of the LD_GEOM value (R274), taken over its four bytes, low byte first. -/
def State.geomCrc (s : State) : Nat := crcF 16 0x1021 (leBytes 4 (s.reg (LD_GEOM 0))) 0xFFFF
/-- The link enters CHECK, where this end sends its identity (R274). -/
def State.enterCheck (s : State) (l : Nat) : State :=
  (s.putLstate l lsCheck).emit (.identity l ⟨s.devId, l, s.lport l, s.geomCrc⟩)
/-- Training ends: the eye is recorded, and RETRAIN reads 0 again (`putLstate`). -/
def State.trainDone (s : State) (l : Nat) (passed : Bool) (h w : Nat) : State :=
  let m := LNK_MARGIN (l / 32) (l % 32)
  let s := (s.setFld m LNK_MARGIN_EYE_H (min 255 h)).setFld m LNK_MARGIN_EYE_W (min 255 w)
  if passed then s.enterCheck l else s.trainFails l

def execLinkTrainDone (l : LinkIx) (passed : Bool) (eyeH eyeW : Nat) (s : State) : Res :=
  done s (if s.lstate l.val = lsTrain ∨ s.lstate l.val = lsRetrain then s.trainDone l.val passed eyeH eyeW else s)

/-- Opposite direction of the same dimension. -/
def oppositePort (t : Nat) : Nat := t ^^^ 1

/-- Does the far end pass the check? -/
def State.checkOk (s : State) (l : Nat) (f : LinkId) : Bool :=
  let t := s.lport l
  f.port == oppositePort t && f.crc == s.geomCrc && s.flag (LD_TRUNK 0 t) LD_TRUNK_NBR_V && f.dev == s.fld (LD_TRUNK 0 t) LD_TRUNK_NBR

/-- A link enters UP with full credits and sequence 0 on both ends (R280); packets it accepted before still wait for the router. -/
def State.enterUp (s : State) (l : Nat) : State :=
  let k := s.link l
  let s := s.setLink l { retries := k.retries, kept := k.kept ++ k.inbox, ends := k.ends, asked := k.asked }
  ((s.putLstate l lsUp).raise (lnkEvent l) LNK_EVENT_UP).resendPump (s.lport l)

def State.linkChecked (s : State) (l : Nat) (far : Option LinkId) : State :=
  let fail (s : State) := ((s.putLstate l lsFailed).raise (lnkEvent l) LNK_EVENT_CHECK_FAIL).fault 0 0x0404 (lnkEvent l) l
  match far with
  | some f =>
    -- CHECK shows who answered, also where it fails
    let t := (s.setFld (lnkStat l) LNK_STAT_NBR_ID f.dev).setFld (lnkStat l) LNK_STAT_NBR_LINK f.link
    if s.checkOk l f then t.enterUp l else fail t
  | none => fail s

def execLinkCheck (l : LinkIx) (far : Option LinkId) (s : State) : Res :=
  done s (if s.lstate l.val = lsCheck then s.linkChecked l.val far else s)

/-- The once-a-second check (R275); a FAILED link is retried at the same trigger (R273). -/
def State.healthCheck (s : State) (l eyeH eyeW : Nat) (hour : Bool) : State :=
  let k := s.link l
  let die := l / 32
  let s := if hour then s.setFld (LNK_RETRAINS die (l % 32)) LNK_RETRAINS_HOUR 0 else s
  let s := s.setLink l { k with retries := 0 }
  let auto := s.ldFld die (LD_HEALTH_CFG die) LD_HEALTH_CFG_AUTO_RETRAIN != 0
  if s.lstate l = lsUp then
    let m := LNK_MARGIN die (l % 32)
    let s := (s.setFld m LNK_MARGIN_EYE_H (min 255 eyeH)).setFld m LNK_MARGIN_EYE_W (min 255 eyeW)
    if auto && decide (s.ldFld die (LD_HEALTH_CFG die) LD_HEALTH_CFG_RETRY_LIM < k.retries) then s.retrain l else s
  else if s.lstate l = lsFailed && auto then s.retrain l
  else s

def execLinkHealthCheck (l : LinkIx) (eyeH eyeW : Nat) (hour : Bool) (s : State) : Res :=
  done s (s.healthCheck l.val eyeH eyeW hour)

/-- Is the link one that may train: a trunk's port, EN = 1, and the links stage reached (R273)? -/
def State.mayTrain (s : State) (l : Nat) : Bool :=
  decide (s.lport l < 6) && s.ldFld (l / 32) (lnkCtrl l) LNK_CTRL_EN != 0 && s.flag (LD_STAT (l / 32)) LD_STAT_READY

/-- A write of LNK_CTRL.RETRAIN. -/
def State.softRetrain (s : State) (l : Nat) : State := if s.mayTrain l then s.retrain l else s

/-- A link that is held DOWN and may train starts. -/
def State.releaseLink (s : State) (l : Nat) : State := if s.lstate l = lsDown ∧ s.mayTrain l then s.putLstate l lsDetect else s
/-- A write of LNK_CTRL.EN; DISABLED is left by reset or RETRAIN alone, and under CFG_PARITY EN counts as 1 (R294). -/
def State.linkEnable (s : State) (l : Nat) (en : Bool) : State :=
  let s := s.setFlag (lnkCtrl l) LNK_CTRL_EN en
  if s.ldFld (l / 32) (lnkCtrl l) LNK_CTRL_EN = 0 then (if s.lstate l = lsDown ∨ s.lstate l = lsDisabled then s else s.leaveUp l lsDown)
  else s.releaseLink l

/-! ### sequenced flits (R276, R278) -/

/-- Send a NAK; the eighth for one flit retrains the link. -/
def State.sendNak (s : State) (l : Nat) : State :=
  let k := s.link l
  let s := s.setLink l { k with naking := true, naks := k.naks + 1, retries := k.retries + 1 }
  let s := (s.bump (LNK_RETRY_LO (l / 32) (l % 32)) 1).sendLctl l true
  if 8 ≤ k.naks + 1 then s.retrain l else s

/-- Words of a flit that were corrected, that carry poison, and that cannot be corrected. -/
def corrWords (errs : List Nat) : Nat := (errs.filter (fun m => bchDecode m == .corrected)).length
def poisonWords (errs : List Nat) : Bool := errs.any (fun m => bchDecode m == .poison)
def badWords (errs : List Nat) : Bool := errs.any (fun m => bchDecode m == .uncorrectable)

/-- Store an accepted flit; a packet whose last flit it is waits for the router. -/
def State.takeFlit (s : State) (l v : Nat) (bytes : List Byte) (bad : Bool) : State :=
  let k := s.link l
  let b := mapGet (fun _ => []) v k.part ++ bytes
  let pb := if bad then setInsert v k.partBad else k.partBad
  if b.length < 32 * (1 + headerLen b) then s.setLink l { k with part := mapSet (fun _ => []) v b k.part, partBad := pb }
  else s.setLink l { k with part := mapSet (fun _ => []) v [] k.part, partBad := setErase v k.partBad,
                            inbox := k.inbox ++ [packetOf b (pb.contains v)] }

/-- A flit read as a sequenced one. -/
def State.seqBody (s : State) (l v : Nat) (bytes : List Byte) (seq : Nat) (errs : List Nat) : State :=
  let k := s.link l
  let want := (k.rxAck + 1) % 4096
  let s := s.bump (LNK_CE_LO (l / 32) (l % 32)) (corrWords errs)
  if seq % 16 = want % 16 ∧ !badWords errs then
    (s.setLink l { s.link l with rxAck := want, naking := false, naks := 0 }).takeFlit l v bytes (poisonWords errs)
  else if k.naking ∧ seq % 16 ≠ want % 16 then s
  else s.sendNak l

/-- Sequence numbers up to `ack` are acknowledged (modulo 4,096; at most 512 flits are outstanding). -/
def seqAcked (ack seq : Nat) : Bool := decide ((ack + 4096 - seq) % 4096 < 2048)

/-- A flit read as a control flit, with the errors of its words 1 to 3: credits first, then ACK and NAK (R277, R280).  The eighth NAK
in a row for one flit retrains the link (R278). -/
def State.ctlBody (s : State) (l kind ack : Nat) (nak : Bool) (cred errs : List Nat) : State :=
  let s := s.bump (LNK_CE_LO (l / 32) (l % 32)) (corrWords errs)
  if badWords errs || poisonWords errs then s.sendLctl l false
  else if 1 < kind then s
  else
    -- an IDLE carries the same counters
    let k := s.link l
    let credit := (List.range 9).map (fun v => k.credit.getD v 0 + (cred.getD v 0 % 256 + 256 - k.rxCred.getD v 0) % 256)
    let rx := (List.range 9).map (fun v => cred.getD v 0 % 256)
    let naks := (if k.nakAck = ack then k.nakIn else 0) + b2n nak
    let s := s.setLink l { k with credit := credit, rxCred := rx, replay := k.replay.filter (fun e => !seqAcked ack e.1),
                                  nakAck := ack, nakIn := naks }
    let s := s.resendPump (s.lport l)
    if !nak then s
    else if 8 ≤ naks then (s.emit (.replay l ((ack + 1) % 4096))).retrain l
    else s.emit (.replay l ((ack + 1) % 4096))

/-- The 32 data bytes of a control flit. -/
def lctlBytes (kind ack : Nat) (nak : Bool) (cred : List Nat) : List Byte :=
  leBytes 8 (kind + ack * 16 + b2n nak * 2 ^ 16) ++ (List.range 9).flatMap (fun v => leBytes 1 (cred.getD v 0)) ++ List.replicate 15 0

/-- A sequenced flit arrives; errors that give its word 0 the control syndrome make it a control flit (R276). -/
def State.seqFlit (s : State) (l v : Nat) (bytes : List Byte) (seq : Nat) (errs : List Nat) : State :=
  if isControl (errs.getD 0 0) then
    let w := blkNat bytes 0 8
    s.ctlBody l (bits w 0 4) (bits w 4 12) (bit w 16) ((List.range 9).map (fun v => blkNat bytes (8 + v) 1)) (errs.drop 1)
  else s.seqBody l v bytes seq errs

def execSeqFlitReceive (l : LinkIx) (vc : Fin 9) (bytes : List Byte) (seq : Fin 4096) (errs : List Nat) (s : State) : Res :=
  done s (if s.lstate l.val = lsUp then s.seqFlit l.val vc.val bytes seq.val errs else s)

def execNakRepeat (l : LinkIx) (s : State) : Res :=
  done s (if s.lstate l.val = lsUp ∧ (s.link l.val).naking then s.sendNak l.val else s)

/-- A control flit arrives; errors in word 0 that leave another syndrome make it a flit with sequence bits 0, on the VC its header
bits name (R276). -/
def State.lctlIn (s : State) (l kind ack : Nat) (nak : Bool) (cred errs : List Nat) : State :=
  let w0 := errs.getD 0 0 ^^^ bchControl
  if isControl w0 then s.ctlBody l kind ack nak cred (errs.drop 1)
  else
    let b := lctlBytes kind ack nak cred
    s.seqBody l (bits (blkNat b 0 8) 8 4 % 9) b 0 (w0 :: errs.drop 1)

def execLctlReceive (l : LinkIx) (kind : Fin 16) (ack : Fin 4096) (nak : Bool) (cred errs : List Nat) (s : State) : Res :=
  done s (if s.lstate l.val = lsUp then s.lctlIn l.val kind.val ack.val nak cred errs else s)

end Sys2Proof.Machine
end

