-- ==== Sys2Proof/Machine/Router.lean ====
section
/-! DEFINITION. The routers (R286 to R292): minimal directions, primary trunk and candidates, adaptive and escape channels,
detours, the link within a trunk, and the resync of a failed link (R280, R284). -/

namespace Sys2Proof.Machine

/-! ### geometry (R286, R287) -/

/-- Size of dimension i (0 x, 1 y, 2 z) and whether it wraps. -/
def State.dimSize (s : State) (i : Nat) : Nat := bits (s.reg (LD_GEOM 0)) (4 * i) 4 + 1
def State.dimWrap (s : State) (i : Nat) : Bool := bit (s.reg (LD_GEOM 0)) (12 + i)
/-- An id with coordinate i replaced. -/
def withCoord (id i v : Nat) : Nat := setBits id (8 - 4 * i) 4 v

/-- The expected neighbour of a device on a port (R286). -/
def State.neighbour (s : State) (id t : Nat) : Option Nat :=
  let i := t / 2
  let n := s.dimSize i
  let c := coord id i
  if 6 ≤ t ∨ n = 1 then none
  else if t % 2 = 0 then
    (if s.dimWrap i then some (withCoord id i ((c + 1) % n)) else if c + 1 < n then some (withCoord id i (c + 1)) else none)
  else
    (if s.dimWrap i then some (withCoord id i ((c + n - 1) % n)) else if 0 < c then some (withCoord id i (c - 1)) else none)

/-- Minimal direction of dimension i toward a destination: a port, or none where the dimension is resolved. -/
def State.minDir (s : State) (i dst : Nat) : Option Nat :=
  let c := coord s.devId i
  let g := coord dst i
  let n := s.dimSize i
  if c = g then none
  else if s.dimWrap i then
    let d := (g + n - c) % n
    some (if n - d < d then 2 * i + 1 else 2 * i)
  else some (if c < g then 2 * i else 2 * i + 1)

/-- The minimal directions of every unresolved dimension, x first; the head is the primary trunk. -/
def State.candidates (s : State) (dst : Nat) : List Nat := (List.range 3).filterMap (fun i => s.minDir i dst)

/-- Trunk t has an UP link. -/
def State.trunkUp (s : State) (t : Nat) : Bool := !(s.upLinks t).isEmpty
/-- The link die whose LD_CTRL and LD_ADAPT rule a trunk: that of its lowest link. -/
def State.trunkDie (s : State) (t : Nat) : Nat :=
  match s.trunkLinks t with
  | l :: _ => l / 32
  | [] => 0

/-! ### choice of trunk -/

/-- The most free credits of a VC on any UP link of a trunk. -/
def State.trunkCredit (s : State) (t v : Nat) : Nat := (s.upLinks t).foldl (fun m l => max m (s.credit l v)) 0

/-- Where a packet goes next. -/
inductive Route where
  /-- A trunk on a virtual channel kind (0 E0, 1 E1, 2 A), with the packet as it travels. -/
  | go (t kind : Nat) (p : Packet)
  /-- No credit yet. -/
  | wait
  /-- Dropped with a status. -/
  | drop (st : Nat)
deriving DecidableEq, Repr

/-- Does a hop on port t from this device cross the dateline of its dimension (R288)? -/
def State.crosses (s : State) (t : Nat) : Bool :=
  let i := t / 2
  let c := coord s.devId i
  s.dimWrap i && (if t % 2 = 0 then c + 1 == s.dimSize i else c == 0)

/-- The escape channel of a hop on trunk t, for a packet that arrived over `inPort`: a dimension is entered on E0, and E1
follows the crossing of the dateline. -/
def State.escapeOn (s : State) (t : Nat) (inPort : Option Nat) (p : Packet) : Route :=
  let same := match inPort with | some q => q / 2 == t / 2 | none => false
  let dl := same && p.dl
  .go t (b2n dl) { p with dl := dl || s.crosses t }

/-- Escape route of a packet (R288, R291): the primary trunk, or the opposite direction of its dimension in a torus.  A packet
on a detour goes on in the direction it travels until its dimension is resolved. -/
def State.escapeRoute (s : State) (inPort : Option Nat) (p : Packet) : Route :=
  match s.candidates p.dst with
  | [] => .wait
  | t :: _ =>
    let back := oppositePort t
    let onDetour := p.detour && (match inPort with | some q => decide (q = t) | none => false)
    let t' := if onDetour then back else t
    if s.trunkUp t' then s.escapeOn t' inPort p
    else if onDetour then .drop 3
    else if s.dimWrap (t / 2) && s.ldFld (s.trunkDie t) (LD_CTRL (s.trunkDie t)) LD_CTRL_DETOUR_EN != 0 && s.trunkUp back then
      s.escapeOn back inPort { p with detour := true }
    else .drop 3

/-- Rotating choice (R349): the first at or after the pointer among the numbers given, of n. -/
def rotPick (ptr n : Nat) (l : List Nat) : Option Nat :=
  ((List.range n).map (fun i => (ptr + i) % n)).find? (fun i => l.contains i)

/-- The candidates among which arbiter 0 breaks a tie for an adaptive packet (R289): those other than the primary with the most
credits, where the primary is not taken; none where the choice is made without the pointer. -/
def State.trunkTies (s : State) (p : Packet) : List Nat :=
  let v := 3 * pktCls p + 2
  match s.candidates p.dst with
  | [] => []
  | t :: _ =>
    let die := s.trunkDie t
    let up := (s.candidates p.dst).filter s.trunkUp
    let best := up.foldl (fun m c => max m (s.trunkCredit c v)) 0
    let tied := up.filter (fun c => s.trunkCredit c v == best)
    if (s.trunkUp t && decide (s.ldFld die (LD_ADAPT die) LD_ADAPT_THR ≤ s.trunkCredit t v)) || decide (best < pktFlits p) ||
       tied.contains t then []
    else tied
/-- Adaptive route (R289): arbiter 0 breaks ties between candidates other than the primary. -/
def State.adaptRoute (s : State) (inPort : Option Nat) (p : Packet) : Route :=
  let v := 3 * pktCls p + 2
  match s.candidates p.dst with
  | [] => .wait
  | t :: _ =>
    let die := s.trunkDie t
    let up := (s.candidates p.dst).filter s.trunkUp
    if up.isEmpty then s.escapeRoute inPort { p with esc := true }
    else if s.trunkUp t && decide (s.ldFld die (LD_ADAPT die) LD_ADAPT_THR ≤ s.trunkCredit t v) then .go t 2 p
    else
      let best := up.foldl (fun m c => max m (s.trunkCredit c v)) 0
      if best < pktFlits p then .wait
      else match rotPick (s.rot 0) 6 (s.trunkTies p) with
        | some c => .go c 2 p
        | none => .go t 2 p

/-- Route of a packet that is not for this device. -/
def State.route (s : State) (inPort : Option Nat) (p : Packet) : Route :=
  if 48 ≤ p.hops then .drop 5
  else match s.candidates p.dst with
    | [] => .drop 3
    | t :: _ =>
      let adapt := s.ldFld (s.trunkDie t) (LD_CTRL (s.trunkDie t)) LD_CTRL_ADAPT_EN != 0
      if p.ord || p.esc || !adapt then s.escapeRoute inPort p else s.adaptRoute inPort p

/-! ### choice of link, and sending -/

/-- ORD = 1 packets sent on a trunk and not known to have arrived: unacknowledged, or kept from a failed link. -/
def State.ordOut (s : State) (t : Nat) : Bool :=
  (s.trunkLinks t).any (fun l =>
    (s.link l).replay.any (fun e => e.2.ord) || (s.lives l).any (fun f => f.kept.any (fun e => e.2.ord))) ||
  (mapGet (fun _ => []) t s.fab.resend).any (fun p => p.ord)

/-- The UP link a packet takes (R290), and the number of links that ORD = 1 packets of the trunk are spread over from now on.  With
ADAPT_EN 0 every packet goes as ORD = 1 would (R294). -/
def State.pickLink (s : State) (t v : Nat) (p : Packet) : Option (Nat × Nat) :=
  let up := s.upLinks t
  let n := up.length
  let held := mapGet (fun _ => 0) t s.fab.trunkN
  let adapt := s.ldFld (s.trunkDie t) (LD_CTRL (s.trunkDie t)) LD_CTRL_ADAPT_EN != 0
  if n = 0 then none
  else if p.ord || !adapt then
    if held ≠ n ∧ s.ordOut t then none
    else
      let l := up.getD ((p.src ^^^ p.dst) % n) 0
      if pktFlits p ≤ s.credit l v then some (l, n) else none
  else
    let best := up.foldl (fun m l => max m (s.credit l v)) 0
    if best < pktFlits p then none
    else match rotPick (s.rot (1 + t)) 128 (up.filter (fun l => s.credit l v == best)) with
      | some l => some (l, held)
      | none => none

/-- A packet is at the router: sent here, or whole in the buffer of the link it came over (R279). -/
def State.atRouter (s : State) (fromLink : Option Nat) (p : Packet) : Bool :=
  match fromLink with
  | none => true
  | some l => (s.link l).inbox.contains p || (s.link l).kept.contains p
/-- A packet leaves the router and frees its flits. -/
def State.leaveRouter (s : State) (fromLink : Option Nat) (p : Packet) : State :=
  let s := { s with fab := { s.fab with waiting := s.fab.waiting.erase p } }
  match fromLink with
  | none => s
  | some l =>
    let k := s.link l
    if k.kept.contains p then s.setLink l { k with kept := k.kept.erase p }
    else (s.setLink l { k with inbox := k.inbox.erase p }).freeFlits l p.vc (pktFlits p)

/-- Keep a packet that cannot go yet. -/
def State.keepWaiting (s : State) (p : Packet) : State :=
  if s.fab.waiting.contains p then s else { s with fab := { s.fab with waiting := s.fab.waiting ++ [p] } }
/-- The arrival link of a packet that waits, when it came over one. -/
def State.arrivedOn (s : State) (p : Packet) : Option Nat := (List.range 128).find? (fun l => s.atRouter (some l) p)
/-- Port a packet arrived over. -/
def State.inPort (s : State) : Option Nat → Option Nat
  | none => none
  | some l => some (s.lport l)

/-- An earlier ORD = 1 packet of the same source, destination and class waits before this one (R290). -/
def State.ordBehind (s : State) (fromLink : Option Nat) (p : Packet) : Bool :=
  let queue := match fromLink with
    | none => []
    | some l => (s.link l).kept ++ (s.link l).inbox
  p.ord && (s.fab.waiting.takeWhile (fun w => w != p) ++ queue.takeWhile (fun w => w != p)).any (fun w =>
    w.ord && w.src == p.src && w.dst == p.dst && pktCls w == pktCls p)

/-- The link and trunk width with which a routed packet can go now, when it can. -/
def State.mayGo (s : State) (fromLink : Option Nat) (p : Packet) (t kind : Nat) (q : Packet) : Option (Nat × Nat) :=
  if s.ordBehind fromLink p then none
  else match s.pickLink t (3 * pktCls p + kind) q with
    | none => none
    | some (l, n) => if s.replayFlits l + pktFlits q ≤ 512 then some (l, n) else none

/-! ### the arbiter of an output link (R292, R349, R350): its 129 requesters are the 128 links and this device -/

/-- Number of an output's pointer, and of the requester a packet comes from. -/
def outArb (l : Nat) : Nat := 256 + l
def inputNo : Option Nat → Nat
  | none => 128
  | some l => l
/-- The same as the names of R351. -/
def linkArb (l : Nat) : Arbiter := .linkOut (Fin.ofNat 128 l)
def migReq (fromLink : Option Nat) : LowReq := .mig (fromLink.map (Fin.ofNat 128))
/-- Level of a packet at an output link (R350): SYS, a promoted MIG packet, normal, MIG. -/
def State.level (s : State) (l : Nat) (fromLink : Option Nat) (p : Packet) : Nat :=
  if pktCls p = 2 then 1
  else if p.type = 7 ∧ !p.rsp then (if s.fab.promo.contains (linkArb l, migReq fromLink) then 2 else 4)
  else 3
/-- Place of a packet in the order of an output's grants: level, then distance from the pointer. -/
def State.turn (s : State) (l : Nat) (fromLink : Option Nat) (p : Packet) : Nat :=
  s.level l fromLink p * 129 + (inputNo fromLink + 129 - s.rot (outArb l)) % 129

/-- The pointers that broke a tie in a packet's choice move past the winner: arbiter 0 of the trunks, 1 + t of the links of trunk t. -/
def State.tieRot (s : State) (t l kind : Nat) (p : Packet) : State :=
  let v := 3 * pktCls p + kind
  let adapt := s.ldFld (s.trunkDie t) (LD_CTRL (s.trunkDie t)) LD_CTRL_ADAPT_EN != 0
  let links := (s.upLinks t).filter (fun k => s.credit k v == s.credit l v)
  let s1 := if kind = 2 ∧ 2 ≤ (s.trunkTies p).length then s.rotNext 0 t 6 else s
  if !p.ord && adapt && decide (2 ≤ links.length) then s1.rotNext (1 + t) l 128 else s1
/-- The pointer of an output link after a grant; a promotion is used up. -/
def State.grantRot (s : State) (l : Nat) (fromLink : Option Nat) (q : Packet) : State :=
  let s := s.rotNext (outArb l) (inputNo fromLink) 129
  if q.type = 7 ∧ !q.rsp then s.usePromo (linkArb l) (migReq fromLink) else s

/-- Send a routed packet, or keep it until a link has credit and replay room. -/
def State.dispatch (s : State) (fromLink : Option Nat) (p : Packet) (t kind : Nat) (q : Packet) : State :=
  match s.mayGo fromLink p t kind q with
  | none => s.keepWaiting p
  | some (l, n) =>
    let s := ((((s.tieRot t l kind p).leaveRouter fromLink p).sendOn l (3 * pktCls p + kind) q)).grantRot l fromLink q
    { s with fab := { s.fab with trunkN := mapSet (fun _ => 0) t n s.fab.trunkN } }

/-- A router takes a whole packet (R279, R289): an unknown TYPE is discarded as DENIED wherever it goes (R281), a packet for this
device is delivered, where an unknown CTL subtype is discarded so (R284). -/
def State.forwardPacket (s : State) (p : Packet) (fromLink : Option Nat) (r : Route) : State :=
  if 8 < p.type then (s.leaveRouter fromLink p).raise (LD_EVENT 0) LD_EVENT_DENIED
  else if p.dst = s.devId then
    let s := s.leaveRouter fromLink p
    if p.type == 8 && !p.rsp && !(decide (1 ≤ p.args % 256) && decide (p.args % 256 ≤ 6)) then s.raise (LD_EVENT 0) LD_EVENT_DENIED else s
  else match r with
    | .go t kind q => s.dispatch fromLink p t kind q
    | .wait => s.keepWaiting p
    | .drop st => (s.leaveRouter fromLink p).lose p st

/-- The output link a packet could go on now. -/
def State.outLink (s : State) (fromLink : Option Nat) (p : Packet) : Option Nat :=
  if 8 < p.type ∨ p.dst = s.devId then none
  else match s.route (s.inPort fromLink) p with
    | .go t kind q => (s.mayGo fromLink p t kind q).map (fun g => g.1)
    | _ => none
/-- The waiting packet that the arbiter of link l grants before packet p: the first in its order of those that want the link. -/
def State.rival (s : State) (l : Nat) (fromLink : Option Nat) (p : Packet) : Option Packet :=
  (s.fab.waiting.foldl (fun (a : Nat × Option Packet) w =>
    let f := s.arrivedOn w
    let n := s.turn l f w
    if w = p ∨ a.1 ≤ n then a
    else if s.outLink f w = some l then (n, some w) else a) (s.turn l fromLink p, none)).2
/-- A packet at the router goes by its route, after the waiting packets that win over it at its output link; then it chooses again. -/
def State.arbitrate (s : State) (p : Packet) (fromLink : Option Nat) : Nat → State
  | 0 => s.forwardPacket p fromLink (s.route (s.inPort fromLink) p)
  | n + 1 =>
    let winner := match s.outLink fromLink p with
      | none => none
      | some l => s.rival l fromLink p
    match winner with
    | none => s.forwardPacket p fromLink (s.route (s.inPort fromLink) p)
    | some w =>
      let f := s.arrivedOn w
      (s.forwardPacket w f (s.route (s.inPort f) w)).arbitrate p fromLink n

def execPacketForward (p : Packet) (fromLink : Option LinkIx) (s : State) : Res :=
  let f := fromLink.map (fun l => l.val)
  done s (if s.atRouter f p then s.arbitrate p f s.fab.waiting.length else s)

/-- A waiting packet leaves the adaptive channels for good. -/
def State.markEsc (s : State) (p : Packet) (fromLink : Option Nat) : State :=
  let p' := { p with esc := true }
  let s := { s with fab := { s.fab with waiting := s.fab.waiting.replace p p' } }
  match fromLink with
  | none => s
  | some l =>
    let k := s.link l
    s.setLink l (if k.kept.contains p then { k with kept := k.kept.replace p p' } else { k with inbox := k.inbox.replace p p' })
/-- ESC_WAIT cycles without credit: the packet goes on over the escape channels to its end (R289). -/
def State.escape (s : State) (p : Packet) : State :=
  if p.ord || p.esc || !s.fab.waiting.contains p || p.dst = s.devId then s
  else
    let f := s.arrivedOn p
    (s.markEsc p f).arbitrate { p with esc := true } f s.fab.waiting.length

def execEscWait (p : Packet) (s : State) : Res := done s (s.escape p)

/-! ### resync (R280, R284): EXT [18:12] is the failed link as the sender of the request numbers it -/

/-- The answer to a RESYNC of a TAG at a link: that of an earlier one of this TAG, else what the link had accepted when it last left UP
unasked, else, where this end has not seen it fail, what it has accepted; partial packets are discarded. -/
def Link.resync (k : Link) (tag : Nat) : Nat × Link :=
  match k.asked.find? (fun e => e.1 == tag), k.ends with
  | some e, _ => (e.2, k)
  | none, a :: rest => (a, { k with ends := rest, asked := ((tag, a) :: k.asked).take 16 })
  | none, [] => (k.rxAck, { k with part := [], partBad := [], early := true, asked := ((tag, k.rxAck) :: k.asked).take 16 })
/-- A request: the last sequence number accepted on the failed link is the answer. -/
def State.resyncAsked (s : State) (p : Packet) : State :=
  let far := bits p.ext 12 7
  match (List.range 128).find? (fun l =>
      s.fld (lnkStat l) LNK_STAT_NBR_ID == p.src && s.fld (lnkStat l) LNK_STAT_NBR_LINK == far && s.lport l < 6) with
  | none => s.emit (.packet { Packet.reply p 4 [] false with args := p.args, ext := p.ext })
  | some l =>
    let r := (s.link l).resync p.tag
    (s.setLink l r.2).emit (.packet { Packet.reply p 0 [] false with args := p.args, ext := r.1 + far * 2 ^ 12 })

def execResync (p : Packet) (s : State) : Res := done s (if isResync p then s.resyncAsked p else s)

/-- The answer: the later whole packets of that failure go on over the trunk's other links, or are lost with the trunk. -/
def State.resyncDone (s : State) (p : Packet) : State :=
  let l := bits p.ext 12 7
  let t := s.lport l
  let kept := ((s.lives l).filter (fun f => f.tag == p.tag)).flatMap (fun f => f.kept)
  let s := { s with fab := { s.fab with
    resync := mapSet (fun _ => []) l ((s.lives l).filter (fun f => f.tag != p.tag)) s.fab.resync } }
  let later := (if p.status = 0 then kept.filter (fun e => !seqAcked (bits p.ext 0 12) e.1) else kept).map (fun e => e.2)
  if (s.upLinks t).isEmpty then later.foldl (fun s q => s.lose q 3) s
  else
    let q := mapGet (fun _ => []) t s.fab.resend ++ later
    { s with fab := { s.fab with resend := mapSet (fun _ => []) t q s.fab.resend } }.resendPump t

def execResyncResponse (p : Packet) (s : State) : Res :=
  done s (if p.type = 8 ∧ p.rsp ∧ p.args % 256 = 5 then s.resyncDone p else s)

end Sys2Proof.Machine
end

