-- ==== Sys2Proof/Machine/Boot.lean ====
section
/-! DEFINITION. Resets (R388 to R390), the start-up sequence (R391 to R394), the configuration in effect (R400), and compaction
of the journal (R403 to R405). -/

namespace Sys2Proof.Machine

/-! ### compaction (R404) -/

def State.cfgBank (s : State) : Nat := s.fld AON_CFG_STAT AON_CFG_STAT_BANK
def State.cfgRecords (s : State) : Nat := s.fld AON_CFG_STAT AON_CFG_STAT_RECORDS

/-- Program the merged image into the target, its CRC word left erased. -/
def State.programImage (s : State) (c : Compaction) : State :=
  let m := nvmPut s.boot.nvm (bankBase c.target) (c.image.take 12)
  { s with boot := { s.boot with nvm := nvmPut m (bankBase c.target + 16) (c.image.drop 16),
                                 compact := some { c with waiting := false } } }

/-- Start a compaction of an image; the target is erased first when it holds anything. -/
def State.startCompact (s : State) (image : List Byte) (target : Nat) (src : Option CmdSrc) : State :=
  let gen := (s.reg AON_CFG_GEN + 1) % 2 ^ 32
  let img := cfgSetWord (cfgSetWord image 0x10 gen) 0x14 (s.reg AON_CFG_SEQ)
  let img := cfgSetWord img 12 (crc32 (cfgZeroCrc img))
  let s := s.setFlag AON_CFG_STAT AON_CFG_STAT_COMPACTING true
  let wait := nvmUsed s.boot.nvm (bankBase target) 0x100000
  let c : Compaction := ⟨target, img, wait, src⟩
  if wait then { s with boot := { s.boot with compact := some c, erase := if s.boot.erase.contains target then s.boot.erase
                                                                           else s.boot.erase ++ [target] } }
  else s.programImage c

/-- Compact the bank in use onto the other bank (R404). -/
def State.compactNow (s : State) : State :=
  if s.boot.compact.isSome || s.flag AON_CFG_STAT AON_CFG_STAT_DEFAULTS then s
  else s.startCompact (bankReplay s.boot.nvm s.cfgBank).image (1 - s.cfgBank) none

/-- No bank is in use: the defaults are in effect and no CFG_WRITE has made one (R400, R407). -/
def State.noBank (s : State) : Bool := s.flag AON_CFG_STAT AON_CFG_STAT_DEFAULTS && s.reg AON_CFG_GEN == 0
/-- LEN of the image in the bank in use, which a record's OFFSET lies below (R401). -/
def State.storedLen (s : State) : Nat := nvmNat s.boot.nvm (bankBase s.cfgBank + 8) 4

/-- Hold an append during a compaction or a configuration read (R405). -/
def State.holdAppend (s : State) (a : Sys2Proof.Machine.Append) : State :=
  ({ s with boot := { s.boot with held := s.boot.held ++ [a] } } : State).setFlag AON_CFG_STAT AON_CFG_STAT_HELD true

/-- Append one record (R403): one whose read-back fails is left in place, and the Foreman compacts before the next; so it does after a
truncated replay (R402) and with a full journal. -/
def State.append (s : State) (x : Sys2Proof.Machine.Append) : State :=
  let a := journalBase s.cfgBank + 16 * s.cfgRecords
  let seq := (s.reg AON_CFG_SEQ + 1) % 2 ^ 32
  let n := s.cfgRecords + 1
  if s.boot.mustCompact ∨ 49152 < n then (s.holdAppend x).compactNow
  else if x.good then
    let s := { s with boot := { s.boot with nvm := nvmPut s.boot.nvm a (recBytes x.off x.val seq) } }
    let s := (s.setFld AON_CFG_STAT AON_CFG_STAT_RECORDS n).setReg AON_CFG_SEQ seq
    let s := s.answer 2 x.src (ansWord stAccepted 0)
    if 36864 < n then s.compactNow else s
  else
    let (k, s) := s.draw
    let s := { s with boot := { s.boot with nvm := nvmPut s.boot.nvm a (leBytes 16 (Config.badRecord k)), mustCompact := true } }
    let s := (s.setFld AON_CFG_STAT AON_CFG_STAT_RECORDS n).raise AON_EVENT AON_EVENT_NVM_ERR
    (s.answer 2 x.src (ansWord 0x13 0)).compactNow

/-- Write one held append, or hold it on while a compaction runs; without a bank there is no journal (R407). -/
def State.writeOne (s : State) (a : Sys2Proof.Machine.Append) : State :=
  if s.boot.compact.isSome then s.holdAppend a
  else if s.flag AON_CFG_STAT AON_CFG_STAT_DEFAULTS then s.answer 2 a.src (ansWord 0x16 0)
  else s.append a
/-- The appends held are taken out of the hold. -/
def State.dropHold (s : State) : State :=
  ({ s with boot := { s.boot with held := [] } } : State).setFlag AON_CFG_STAT AON_CFG_STAT_HELD false
/-- Appends held during a compaction are written to the journal now in use (R405). -/
def State.writeHeld (s : State) : State := s.boot.held.foldl State.writeOne s.dropHold

/-- The CRC word is programmed: the target is in use, the old bank is erased in the background. -/
def State.compactDone (s : State) (c : Compaction) : State :=
  let old := s.cfgBank
  let had := !s.noBank
  let m := nvmPut s.boot.nvm (bankBase c.target + 12) ((c.image.drop 12).take 4)
  let s := { s with boot := { s.boot with nvm := m, compact := none, mustCompact := false,
                                          erase := if had && !s.boot.erase.contains old then s.boot.erase ++ [old] else s.boot.erase } }
  let s := (s.setFld AON_CFG_STAT AON_CFG_STAT_BANK c.target).setFld AON_CFG_STAT AON_CFG_STAT_RECORDS 0
  let s := s.setFlag AON_CFG_STAT AON_CFG_STAT_COMPACTING false
  let s := (s.setReg AON_CFG_GEN (blkNat c.image 0x10 4)).raise AON_EVENT AON_EVENT_COMPACT_DONE
  let s := match c.src with
    | some src => s.answer 2 src (ansWord stAccepted 0)
    | none => s
  s.writeHeld

/-- The compaction fails to program or erase: the old bank stays in use.  Appends that had to wait for it because the journal takes no
more fail with it. -/
def State.compactFail (s : State) (c : Compaction) : State :=
  let s := ({ s with boot := { s.boot with compact := none } } : State).setFlag AON_CFG_STAT AON_CFG_STAT_COMPACTING false
  let s := s.raise AON_EVENT AON_EVENT_NVM_ERR
  let s := match c.src with
    | some src => s.answer 2 src (ansWord 0x13 0)
    | none => s
  if s.boot.mustCompact ∨ 49152 ≤ s.cfgRecords then s.boot.held.foldl (fun s a => s.answer 2 a.src (ansWord 0x13 0)) s.dropHold
  else s.writeHeld

/-- The firmware slot that is not running. -/
def State.spareSlot (s : State) : Nat := match s.boot.chosen with | some 0 => 1 | _ => 0
/-- A FW_WRITE has written its slot (R406): it is verified as the ROM verifies; a slot that fails is left erased.  In stage FAILED
the ROM then makes its choice again (R414). -/
def State.fwWriteDone (s : State) (src : CmdSrc) (image : List Byte) (failed : Bool) : State :=
  let slot := s.spareSlot
  let m := nvmErase s.boot.nvm (fwBase slot) 0x400000
  let s := { s with boot := { s.boot with fwWrite := none, nvm := m } }
  if failed then (s.raise AON_EVENT AON_EVENT_NVM_ERR).answer 2 src (ansWord 0x13 0)
  else
    let m' := nvmPut m (fwBase slot) image
    if image.length ≤ 0x400000 ∧ fwCand s.boot.fuses m' slot ∧ fwSigned m' slot then
      let s := { s with boot := { s.boot with nvm := m' } }
      let s := s.answer 2 src (ansWord stAccepted 0)
      if s.fld AON_BOOT_STAT AON_BOOT_STAT_STAGE = 15 then s.romChoose else s
    else s.answer 2 src (ansWord 0x14 0)

def execNvmWriteDone (failed : Bool) (s : State) : Res :=
  done s (match s.boot.fwWrite, s.boot.compact with
    | some (src, image), _ => s.fwWriteDone src image failed
    | none, some c => if c.waiting then s else if failed then s.compactFail c else s.compactDone c
    | none, none => s)

/-- A bank's erase ends; a compaction that waits for it goes on, or fails with an erase that failed (R407).  The command does not say which:
that is a free value. -/
def State.eraseDone (s : State) : State :=
  match s.boot.erase with
  | [] => s
  | b :: rest =>
    let (n, t) := s.draw
    let waits := match s.boot.compact with | some c => if c.waiting && c.target == b then some c else none | none => none
    if Config.eraseFailed n then
      let t := { t with boot := { t.boot with erase := rest } }
      match waits with
      | some c => t.compactFail c
      | none => t.raise AON_EVENT AON_EVENT_NVM_ERR
    else
      let t := { t with boot := { t.boot with erase := rest, nvm := nvmErase t.boot.nvm (bankBase b) 0x100000 } }
      match waits with
      | some c => t.programImage c
      | none => t

def execNvmEraseDone (s : State) : Res := done s s.eraseDone

/-! ### the configuration in effect (R390, R400) -/

def State.cfgWord (s : State) (off : Nat) : Nat := blkNat s.boot.cfg off 4
/-- Port code of a link in the configuration. -/
def State.cfgPort (s : State) (l : Nat) : Nat := bits (blkNat s.boot.cfg (0x40 + l / 2) 1) (4 * (l % 2)) 3

/-- Trunk widths, neighbours and port codes (R271, R286). -/
def State.applyPorts (s : State) : State :=
  let s := (List.range 128).foldl (fun s l => s.setFld (lnkStat l) LNK_STAT_PORT (s.cfgPort l)) s
  (List.range 4).foldl (fun s k => (List.range 6).foldl (fun s t =>
    let nb := s.neighbour s.devId t
    s.setReg (LD_TRUNK k t) (min 127 (s.trunkLinks t).length + 2 ^ 14 + (match nb with | some d => d * 2 ^ 15 + 2 ^ 27 | none => 0))) s) s

/-- The fields of a spill-peer word: its reserved bits read 0 (R9). -/
def spillBits (w : Nat) : Nat := w % 2 ^ 13 + bits w 16 13 * 2 ^ 16
/-- The image in effect after a warm reset (R390): a change of ROLE to or from MEMBER and IDE_REQ wait for a full reset. -/
def warmCfg (old new : List Byte) : List Byte :=
  let w := blkNat new 0x20 4
  let o := bits (blkNat old 0x20 4) 0 2
  let c := if (bits w 0 2 == 2) != (o == 2) then cfgSetWord new 0x20 (setBits w 0 2 o) else new
  cfgSetWord c 0x34 (setBits (blkNat new 0x34 4) 0 1 (bits (blkNat old 0x34 4) 0 1))
/-- The fields of the configuration in effect reach their registers. -/
def State.applyCfg (s : State) : State :=
  let w := s.cfgWord 0x20
  let s := (s.setFld PKG_ROLE PKG_ROLE_ROLE (bits w 0 2)).setFld PKG_ROLE PKG_ROLE_DEVID (bits w 2 12)
  let s := (List.range 4).foldl (fun s k =>
    (s.setReg (LD_DEVID k) (bits w 2 12 + bits w 14 12 * 2 ^ 12 + bits w 26 1 * 2 ^ 24)).setReg (LD_GEOM k) (s.cfgWord 0x24 % 2 ^ 15)) s
  let s := (s.setReg PLC_SPILL01 (spillBits (s.cfgWord 0x28))).setReg PLC_SPILL23 (spillBits (s.cfgWord 0x2C))
  let s := s.applyPorts
  ({ s with boot := { s.boot with ideReq := bit (s.cfgWord 0x34) 0 } } : State).setHostPath

/-- The configuration read (R400, R402). -/
def State.readConfig (s : State) (warm : Bool) : State :=
  let m := s.boot.nvm
  let old := s.boot.cfg
  let take (s : State) (c : List Byte) : State := { s with boot := { s.boot with cfg := if warm then warmCfg old c else c } }
  let s := if bankBad m then s.raise AON_EVENT AON_EVENT_CFG_BANK_BAD else s
  match bankChoice m with
  | none =>
    let s := (((take s defaultCfg).setReg AON_CFG_STAT 1).raise AON_EVENT AON_EVENT_CFG_DEFAULTS)
    ((s.setReg AON_CFG_GEN 0).setReg AON_CFG_SEQ 0).applyCfg
  | some b =>
    let r := bankReplay m b
    let s := (take s r.image).setReg AON_CFG_STAT (b * 2 + r.count * 16)
    let s := (s.setReg AON_CFG_GEN (bankGen m b)).setReg AON_CFG_SEQ r.last
    let s := { s with boot := { s.boot with mustCompact := r.trunc } }
    let s := (if r.trunc then s.raise AON_EVENT AON_EVENT_JOURNAL_TRUNC else s).applyCfg
    if r.trunc ∨ 36864 < r.count then s.compactNow else s

/-! ### resets (R388, R389) -/

/-- What lies behind the host window is the host's: no reset of the device changes it. -/
def hostCells (m : List Host.Cell) : List Host.Cell := m.filter (fun c => hwBase ≤ c.1)
def hostBeats (p : List Nat) : List Nat := p.filter (fun b => hwBase ≤ b * 64)

/-- Every domain resets; the ROM runs once PERST_N is deasserted (R391, R398). -/
def State.coldReset (s : State) (b : Boot) (keep : List (Nat × Word)) (log : List FaultRec) (cause : Nat) : State :=
  let t : State := { State.reset with
    pending := s.pending, out := s.out, freeN := s.freeN, mem := hostCells s.mem, poison := hostBeats s.poison,
    regs := keep, boot := b, obs := { log := log } }
  let t := (t.setFld AON_RST_CAUSE AON_RST_CAUSE_CAUSE cause).showFuses
  if b.perst then t else t.romChoose

/-- POWER-ON: only fuses and NVM remain. -/
def State.powerOn (s : State) : State :=
  s.coldReset { fuses := s.boot.fuses, nvm := s.boot.nvm, scan := s.boot.scan } [] [] 0
def execPowerOnReset (s : State) : Res := doneAlways s s.powerOn

/-- FUNDAMENTAL: PD0 keeps AON_RST_CAUSE, AON_EVENT and the fault log. -/
def State.fundReset (s : State) (hot : Bool) : State :=
  s.coldReset { fuses := s.boot.fuses, nvm := s.boot.nvm, scan := s.boot.scan, perst := if hot then s.boot.perst else true }
    (s.regs.filter (fun e => e.1 == AON_RST_CAUSE || e.1 == AON_EVENT)) s.obs.log (if hot then 2 else 1)
def execFundamentalReset (hot : Bool) (s : State) : Res :=
  done s (if hot && !s.flag HIF_STAT HIF_STAT_LINK_UP then s else s.fundReset hot)

/-- Registers that a warm reset keeps: those of PD0 and PD1 (R364, R377). -/
def warmKeeps (a : Nat) : Bool :=
  decide (a < 0x300000) || (decide (0x2400000 ≤ a) && decide (a < 0x2500000)) ||
  (decide (bar4Base ≤ a) && !(decide (bar4Base + 0x8000 ≤ a) && decide (a < bar4Base + 0xC000)))

/-- PD2 to PD122 lose their state. -/
def State.warmClear (s : State) : State :=
  let t : State := { s with
    regs := s.regs.filter (fun e => warmKeeps e.1), parStop := s.parStop.filter warmKeeps,
    mem := hostCells s.mem, poison := hostBeats s.poison,
    eng := {}, dies := [], faces := [], strms := [], benches := [], cru := {}, dram := {}, plc := {}, fab := {},
    hif := { s.hif with d2hQ := [], dieCmd := [], peer := [], late := s.hif.late.filter (fun m => m < 16),
                        fwdIn := s.hif.fwdIn.filter (fun e => match e.2 with | some c => !(needsBlk e.1 (wCode c.word) && (c.blk.isNone || c.more)) | none => true) },
    obs := { s.obs with fifo := [], dump := none, dumpHeld := [], dumpLost := 0, marks := [] }, queues := [],
    pwr := { s.pwr with up := none, quiet := 0 } }
  let t := (((t.setReg (PKG_PD_STAT 0) 3).setReg (PKG_PD_STAT 1) 0).setReg (PKG_PD_STAT 2) 0).setReg (PKG_PD_STAT 3) 0
  let t := ((t.setFld PWR_STAT PWR_STAT_POINT 2).setFld PWR_STAT PWR_STAT_DUTY 16).setFlag PWR_STAT PWR_STAT_TRANS false
  ((t.setFlag TRC_STAT TRC_STAT_LINK false).setFlag TRC_STAT TRC_STAT_DUMPING false).setFld TRC_STAT TRC_STAT_FIFO 0

/-- A warm reset abandons a compaction whose CRC word is not yet programmed (R405). -/
def State.abandonCompact (s : State) : State :=
  match s.boot.compact with
  | none => s
  | some c =>
    let s := ({ s with boot := { s.boot with compact := none } } : State).raise AON_EVENT AON_EVENT_COMPACT_ABANDONED
    match c.src with
    | some src => s.answer 2 src (ansWord 0x13 0)
    | none => s

/-- WARM (R389): from CFG onward, skipping PCIE; ignored before the firmware runs and while one runs. -/
def State.warmReset (s : State) : State :=
  let st := s.fld AON_BOOT_STAT AON_BOOT_STAT_STAGE
  if st ≤ 1 ∨ st = 15 ∨ s.boot.warming then s
  else
    let s := s.abandonCompact.warmClear
    let s := (s.setFld AON_RST_CAUSE AON_RST_CAUSE_CAUSE 3).bumpSat AON_RST_CAUSE AON_RST_CAUSE_WARMS 1
    let s := s.setFld AON_BOOT_STAT AON_BOOT_STAT_STAGE 2
    let s := { s with boot := { s.boot with warming := true, powerQ := [3, 5, 7, 9, 2], trained := [] } }
    (s.readConfig true).writeHeld

/-- VAON is removed (R448): nothing has an effect until it rises again. -/
def execStandbySupplyLoss (s : State) : Res := doneAlways s { s with boot := { s.boot with on := false, perst := true } }

/-! ### start-up (R391 to R394) -/

def State.stage (s : State) : Nat := s.fld AON_BOOT_STAT AON_BOOT_STAT_STAGE
def State.setStage (s : State) (n : Nat) : State := s.setFld AON_BOOT_STAT AON_BOOT_STAT_STAGE n
def State.setPowerQ (s : State) (l : List Nat) : State := { s with boot := { s.boot with powerQ := l } }

/-- The firmware starts and reads the configuration; the link-die cores and PD2 turn on before PCIE (R392). -/
def State.fwStart (s : State) : State :=
  if s.boot.perst ∨ s.boot.chosen.isNone ∨ s.stage ≠ 1 then s
  else ((s.setStage 2).readConfig false).setPowerQ [3, 5, 7, 9, 2]
def execFirmwareStart (s : State) : Res := done s s.fwStart

/-- Domains of the sites in the order of R392. -/
def siteDomains : List Nat :=
  (List.range 16).flatMap (fun d => [107 + d, 11 + 6 * d, 12 + 6 * d, 13 + 6 * d, 14 + 6 * d, 15 + 6 * d, 16 + 6 * d])

/-- Links that train: their port is a trunk's and EN is 1. -/
def State.linkWanted (s : State) (l : Nat) : Bool := decide (s.lport l < 6)
/-- Stage LINKS (R273): routing is enabled and every wanted link enters DETECT; a device outside its geometry keeps all DOWN. -/
def State.startLinks (s : State) : State :=
  if !s.inGeom s.devId then (s.raise (LD_EVENT 0) LD_EVENT_GEOM_BAD).setStage 7
  else
    let ls := (List.range 128).filter (fun l => s.linkWanted l && s.ldFld (l / 32) (lnkCtrl l) LNK_CTRL_EN != 0)
    let s := ls.foldl (fun s l => s.setFld (lnkStat l) LNK_STAT_STATE lsDetect) s
    ((List.range 4).foldl (fun s k => s.setFlag (LD_STAT k) LD_STAT_READY true) s).linksStage

/-- Stage PCIE begins: PD1 is configured and heads for Detect (R391, R393). -/
def State.startPcie (s : State) : State := ({ s with boot := { s.boot with pcie := true } } : State).setStage 3
/-- The queue of domains is empty: the next stage. -/
def State.powerStageDone (s : State) : State :=
  if s.stage = 2 then (if s.boot.warming then s.setStage 4 else s.startPcie).setPowerQ siteDomains
  else if s.stage = 4 then s.setStage 5
  else if s.stage = 6 then s.startLinks
  else s

/-- A domain reports power good. -/
def State.powerGood (s : State) (pd : Nat) : State :=
  match s.boot.powerQ with
  | [] => s
  | j :: rest =>
    if j ≠ pd then s
    else
      let s := (s.setPd pd true).setPowerQ rest
      let s := if s.stage = 3 then s.setStage 4 else s
      if rest.isEmpty then s.powerStageDone else s
def execDomainPowerGood (pd : Fin 123) (s : State) : Res := done s (s.powerGood pd.val)

/-- No power good within 100 µs (R394). -/
def State.powerBad (s : State) (pd : Nat) : State :=
  if s.boot.powerQ.head? = some pd then
    let s := ((s.setStage 15).setFld AON_BOOT_STAT AON_BOOT_STAT_FAIL 2).setPowerQ []
    s.fault 4 0x0503 0 pd
  else s
def execPowerGoodTimeout (pd : Fin 123) (s : State) : Res := done s (s.powerBad pd.val)

/-- SerDes domains that are turned on: those with a link that is not off (R273). -/
def State.serdesDomains (s : State) : List Nat :=
  ((List.range 4).filter (fun k => (List.range 32).any (fun j => s.linkWanted (32 * k + j)))).map (fun k => 4 + 2 * k)

/-- A channel's training ends (R236); after the last, the links train. -/
def State.channelTrained (s : State) (d ch : Nat) (passed : Bool) : State :=
  let g := 32 * d + ch
  if s.stage ≠ 5 ∨ s.boot.trained.contains g then s
  else
    let s := { s with boot := { s.boot with trained := setInsert g s.boot.trained } }
    let a := MC_STAT d (ch / 4)
    let s : State := if passed then s.setFld a MC_STAT_READY (s.fld a MC_STAT_READY ||| 2 ^ (ch % 4))
      else s.fault 4 0x0501 0 (d * 256 + ch)
    if s.boot.trained.length < 512 then s
    else
      let q := s.serdesDomains
      let s := (s.setStage 6).setPowerQ q
      if q.isEmpty then s.startLinks else s
def execDramChannelTrained (d : DieIx) (ch : ChanIx) (passed : Bool) (s : State) : Res := done s (s.channelTrained d.val ch.val passed)

/-- The placement area as it is laid out (R245, R246): frames outside the pool are NOPOOL, ledger buckets are empty. -/
def nopoolCells (g : Nat) : List Host.Cell :=
  (List.range (65536 - poolFrames g)).map (fun i => (fmAddr (g * 65536 + poolFrames g + i) + 7, 0x80))
/-- Addresses of the placement area. -/
def inPlacement (a : Nat) : Bool :=
  a < 0x20000000000 && (0xFFD80000 ≤ a % 2 ^ 32 || (a / 2 ^ 32 == 0 && 0xFFD60000 ≤ a % 2 ^ 32))

/-- The point of the configuration is requested at READY, and a cap recorded before is acted on (R446, R461). -/
def State.powerReady (s : State) : State :=
  let s := s.setFld PWR_REQ PWR_REQ_POINT (bits (s.cfgWord 0x30) 0 2)
  if s.flag PWR_STAT PWR_STAT_PWR_CAP then ({ s with pwr := { s.pwr with capRun := true } } : State).capAct else s

/-- The placement area is laid out and cleared, and the device is READY. -/
def State.ledgerCleared (s : State) : State :=
  if s.stage ≠ 7 then s
  else
    let rest : List Host.Cell := s.mem.filter (fun c => !inPlacement c.1)
    let s := { s with mem := ((List.range 512).flatMap nopoolCells).foldr (fun (c : Host.Cell) (m : List Host.Cell) => mapInsert c.1 c.2 m) rest }
    let s := (s.setFld PLC_FREE PLC_FREE_FRAMES 33533950).setFlag PLC_STAT PLC_STAT_READY true
    let s := { s with boot := { s.boot with warming := false } }
    (s.setStage 8).powerReady
def execLedgerClearDone (s : State) : Res := done s s.ledgerCleared

/-- PERST_N is deasserted: PKG_TIME starts (R393), and the ROM runs (R391). -/
def State.perstUp (s : State) : State :=
  if !s.boot.perst then s
  else
    let s := { s with boot := { s.boot with perst := false } }
    if s.stage = 0 ∧ s.boot.chosen.isNone then s.romChoose else s
def execPerstNDeassert (s : State) : Res := done s s.perstUp

/-- The readiness limit passes (R347, R393): PD1 must hold its configuration space by then. -/
def execPcieReadyDeadline (s : State) : Res :=
  done s (if s.boot.perst || s.isMember then s
          else if !s.pcieOn then s.fault 4 0x0504 0 0
          else { s with boot := { s.boot with cfgHeld := true } })

end Sys2Proof.Machine
end

