-- ==== Sys2Proof/Machine/RegWrite.lean ====
section
/-! DEFINITION. Register accesses of the host, the Foreman and the die controllers (R364 to R376): domains, access codes, sequence
clears, summaries, guarded pairs, shadows, the bit alias, and what a write of each register does beyond setting it. -/

namespace Sys2Proof.Machine

/-! ### domains and requesters -/

/-- Number of a requester in PKG_GUARD_ADDR.REQ and of its shadows (R372, R373). -/
def reqNo : Requester → Nat
  | .host => 0
  | .foreman => 1
  | .dieCtl => 2

/-- Domain of the register at `a` (R364, R377). -/
def regPd (a : Nat) : Nat :=
  if bar4Base ≤ a then
    let o := a - bar4Base
    if 0x8000 ≤ o ∧ o < 0xC000 then 11 + 6 * ((o - 0x8000) / 0x400) else 0
  else
    let n := a / 0x100000
    if n = 1 then 0
    else if 3 ≤ n ∧ n ≤ 5 then 3
    else if 0x10 ≤ n ∧ n < 0x20 then 11 + 6 * (n - 0x10)
    else if 0x20 ≤ n ∧ n < 0x24 then 3 + 2 * (n - 0x20)
    else 1
def State.regOn (s : State) (a : Nat) : Bool := s.pdOn (regPd a)

/-- An access to a block whose domain is off is refused (R365); the die mailboxes set their own flag (R385). -/
def State.pdRefuse (s : State) (a : Nat) : State :=
  if bar4Base ≤ a then s.raise MBX_EVENT MBX_EVENT_PD_ABORT else s.raise HIF_EVENT HIF_EVENT_PD_ACCESS

/-- A write of the host reaches the device while the link carries it and the function is in D0 (R357). -/
def State.onBus (s : State) (q : Requester) (f : State → State) : State := if q = .host && !s.linkUp then s else f s
/-- A read likewise; in D3hot it completes with Unsupported Request. -/
def State.busRead (s : State) (q : Requester) (f : State → State) : State :=
  if q ≠ .host || s.linkUp then f s
  else if s.flag HIF_STAT HIF_STAT_LINK_UP && s.flag HIF_STAT HIF_STAT_D3HOT && !s.isMember then s.emit .cplUR
  else s

/-- An access of 32 bits that is not aligned is refused (R367). -/
def State.sizeBad (s : State) : State := s.raise HIF_EVENT HIF_EVENT_SIZE

/-- The index of `a` in a table of `count` places of `stride` bytes from `base`. -/
def placeOf (base stride count a : Nat) : Option Nat :=
  if base ≤ a ∧ (a - base) % stride = 0 ∧ (a - base) / stride < count then some ((a - base) / stride) else none

/-- Die and offset of a die register; link die and offset of a link-die register. -/
def dieOf (a : Nat) : Option (Nat × Nat) :=
  if 0x1000000 ≤ a ∧ a < 0x2000000 then some ((a - 0x1000000) / 0x100000, a % 0x100000) else none
def ldOf (a : Nat) : Option (Nat × Nat) :=
  if 0x2000000 ≤ a ∧ a < 0x2400000 then some ((a - 0x2000000) / 0x100000, a % 0x100000) else none

/-! ### writes that a running step drops -/

/-- The flag a write to the register at `a` sets while a step runs, when it is then discarded (R204, R354, R167, R328, R420).
Words 0 to 11 of a directory entry are RW; the watch table is whole. -/
def dropFlag (a : Nat) : Option (Nat × Fld) :=
  if a = STEP_NUM ∨ a = STEP_COMMITS ∨ a = STEP_GMICRO_LO ∨ a = STEP_GMICRO_HI then some (STEP_EVENT, STEP_EVENT_WRITE_DROP)
  else if 0x302000 ≤ a ∧ a < 0x302080 then some (BAR_PEVENT, BAR_PEVENT_WRITE_DROP)
  else if 0x340000 ≤ a ∧ a < 0x360000 ∧ a % 32 = 0 then some (STEER_EVENT, STEER_EVENT_WRITE_DROP)
  else if 0x540000 ≤ a ∧ a < 0x580000 ∧ a % 64 < 48 then some (CRU_GEVENT, CRU_GEVENT_WRITE_DROP)
  else if 0x2401000 ≤ a ∧ a < 0x2401800 then some (TRC_EVENT, TRC_EVENT_WRITE_DROP)
  else none

/-! ### what a write does beyond setting the field -/

/-- Both EN and PORT_EN of TRC_CTRL are 0: PD2 is gated and its FIFO is lost; one is written 1: PD2 is on within 1 ms (R443,
R459), unless it waits its turn at start-up. -/
def State.tracePower (s : State) : State :=
  let want := s.flag TRC_CTRL TRC_CTRL_EN || s.flag TRC_CTRL TRC_CTRL_PORT_EN
  if want then
    (if s.pdOn 2 || s.boot.powerQ.contains 2 then s else s.setPd 2 true)
  else if s.pdOn 2 then
    let n := s.obs.fifo.length
    let t : State := { s with obs := { s.obs with fifo := [], lost := satAdd 16 s.obs.lost n } }
    (((t.setPd 2 false).setFlag TRC_STAT TRC_STAT_LINK false).setFld TRC_STAT TRC_STAT_FIFO 0).bump TRC_DROP_LO n
  else s
/-- TRC_STAT.LINK is 1 only while PORT_EN is 1 (R427). -/
def State.traceSet (s : State) : State :=
  (if s.flag TRC_CTRL TRC_CTRL_PORT_EN then s else s.setFlag TRC_STAT TRC_STAT_LINK false).tracePower

/-- A consumer count has caught up with its producer count: the vector is no longer pending (R425, R438). -/
def State.ringDone (s : State) (prod cons v : Nat) : State := if s.reg prod = s.reg cons then s.unpend v else s

/-- The unit whose IDLE_GATE stands in the die register at offset o, and the place of the bit (R74, R126, R165, R329). -/
def gateUnit (d o : Nat) : Option (Nat × Nat) :=
  let f := 64 * d + (o - 0x40000) / 0x1000
  if 0x20000 ≤ o ∧ o < 0x30000 ∧ o % 0x2000 = 0 then some (18432 + 8 * d + (o - 0x20000) / 0x2000, CRU_CTRL_IDLE_GATE.lo)
  else if o < 0x40000 ∨ 0x80000 ≤ o then none
  else if o % 0x1000 = 0x200 then some (16384 + f, PL_CTRL_IDLE_GATE.lo)
  else if o % 0x1000 = 0x300 then some (17408 + f, AS_CTRL_IDLE_GATE.lo)
  else if 0x400 ≤ o % 0x1000 ∧ o % 0x1000 < 0x800 ∧ o % 0x40 = 0 then some (16 * f + (o % 0x1000 - 0x400) / 0x40, BENCH_CTRL_IDLE_GATE.lo)
  else none
/-- IDLE_GATE written 0: the unit's clock runs. -/
def State.ungate (s : State) (d o m v : Nat) : State :=
  match gateUnit d o with
  | some (u, i) => if bit m i && !bit v i then s.wake u else s
  | none => s
/-- Effects of a write of a die register, by its offset and the bits written. -/
def State.dieEffect (s : State) (d o m v : Nat) : State :=
  let s := s.ungate d o m v
  if 0x10000 ≤ o ∧ o < 0x18000 then
    let c := (o - 0x10000) / 0x1000
    let r := o % 0x1000
    -- the stack's value of MC_GRACE reads alike in all controllers (R237)
    if r = 0x10 then (List.range 8).foldl (fun s k => s.setFld (MC_GRACE d k) MC_GRACE_LIMIT (s.fld (MC_GRACE d c) MC_GRACE_LIMIT)) s
    else if r = 0x100 && bit (m &&& v) DC_CTRL_FLUSH.lo then s.startFlush d c
    else s
  else if 0x40000 ≤ o ∧ o < 0x80000 ∧ 0x400 ≤ o % 0x1000 ∧ o % 0x1000 < 0x800 ∧ o % 0x40 = 0 then
    let f := (o - 0x40000) / 0x1000
    let b := (o % 0x1000 - 0x400) / 0x40
    if !bit m BENCH_CTRL_EN.lo then s
    else if bit v BENCH_CTRL_EN.lo then s.benchStart d f
    else s.benchStop d f b
  else s

/-- Effects of a write of the RW bits `m` with `v`, the field being set. -/
def State.regEffect (s : State) (a m v : Nat) : State :=
  if a = STEP_CTRL then
    let s := s.updHold
    if bit (m &&& v) STEP_CTRL_ABANDON.lo then s.abandon else s
  else if 0x540000 ≤ a ∧ a < 0x580000 then
    ({ s with cru := { s.cru with dirty := true } } : State).setFlag CRU_GSTAT CRU_GSTAT_CHECKED false
  else if 0x302000 ≤ a ∧ a < 0x302080 then { s with eng := { s.eng with grpFail := false } }
  else if a = TRC_CTRL then s.traceSet
  else if a = TRC_MARK then s.capture 8 v
  else if a = FR_CONS then s.ringDone FR_PROD FR_CONS 0
  else if a = HM_CONS then s.ringDone HM_PROD HM_CONS 5
  else if bar4Base + 0x10000 ≤ a then s.drainPba
  else match dieOf a with
    | some (d, o) => s.dieEffect d o m v
    | none => s

/-- The RW bits a write takes, `v` being the word it forms: CLIPM_DEF takes the codes 0x38 to 0x7E, and FLUSH of DC_CTRL only a 1 (it
reads 1 until done).  An alias write forms the whole word from the old one and its bit (R374). -/
def takenMask (a m v : Nat) : Nat :=
  match dieOf a with
  | some (_, o) =>
    if 0x40000 ≤ o ∧ o < 0x80000 ∧ o % 0x1000 = 0x204 ∧ (bits v 0 8 < 0x38 ∨ 0x7E < bits v 0 8) then m &&& 0xFFFFFF00
    else if 0x10000 ≤ o ∧ o < 0x18000 ∧ o % 0x1000 = 0x100 ∧ !bit v DC_CTRL_FLUSH.lo then m &&& (0xFFFFFFFF ^^^ 2 ^ DC_CTRL_FLUSH.lo)
    else m
  | none => m

/-- A link's control register: EN, then RETRAIN (R273, R275). -/
def State.lnkWrite (s : State) (l m v : Nat) : State :=
  let s := if bit m LNK_CTRL_EN.lo && bit v LNK_CTRL_EN.lo != s.flag (lnkCtrl l) LNK_CTRL_EN then
      s.linkEnable l (bit v LNK_CTRL_EN.lo) else s
  if bit (m &&& v) LNK_CTRL_RETRAIN.lo then s.softRetrain l else s

/-- Write the bits `m` of the RW fields of the register at `a` with `v` (R368). -/
def State.rwPut (s : State) (a m v : Nat) : State :=
  let drop := if s.running then dropFlag a else none
  match drop with
  | some (e, f) => s.raise e f
  | none =>
    let m := m &&& accMask .rw a
    let m := takenMask a m (maskWrite m (s.reg a) v)
    if m = 0 ∨ (s.running ∧ (placeOf (PLC_ALIAS 0) 4 16 a).isSome) then s
    else match placeOf (H2F_DATA 0) 8 16 a with
      | some k => s.h2fPut k v
      | none =>
        if bar4Base + 0x8000 ≤ a ∧ a < bar4Base + 0xC000 then s.h2dPut ((a - bar4Base - 0x8000) / 0x400) v
        else match ldOf a with
          | some (k, o) =>
            if 0x10000 ≤ o ∧ o < 0x12000 ∧ o % 0x100 = 0 then s.lnkWrite (32 * k + (o - 0x10000) / 0x100) m v
            else s.setReg a (maskWrite m (s.reg a) v)
          | none => (s.setReg a (maskWrite m (s.reg a) v)).regEffect a m v

/-! ### sequence clears (R370) -/

/-- A write to a sequence register: exact at the owner.  A vector whose flags are all 0 is no longer pending (R387). -/
def State.seqClear (s : State) (a v : Nat) : State :=
  let old := s.reg a
  if v % 256 ≠ old % 256 then s.bumpSat PKG_SQ_MISS PKG_SQ_MISS_COUNT 1
  else
    let new := old &&& (0xFFFFFFFF ^^^ (v / 256 * 256 &&& accMask .sq a))
    let s := s.setReg a new
    match eventVector a with
    | some (n, fm) => if new &&& fm = 0 then s.unpend n else s
    | none => s

/-! ### guarded pairs (R372) -/

/-- Open half of requester n: register and value. -/
def State.half (s : State) (n : Nat) : Option (Nat × Nat) := mapGet (fun _ => none) n s.hif.guard
def State.setHalf (s : State) (n : Nat) (h : Option (Nat × Nat)) : State :=
  { s with hif := { s.hif with guard := mapSet (fun _ => none) n h s.hif.guard } }
/-- The pair at A of requester n fails. -/
def State.guardFail (s : State) (a n cause : Nat) : State :=
  let s := s.setReg PKG_GUARD_ADDR (a % 2 ^ 26 + n * 2 ^ 26 + cause * 2 ^ 28)
  s.raise PKG_GUARD PKG_GUARD_GUARD_ERR
/-- Other requesters whose half at `a` is open. -/
def State.openOthers (s : State) (n a : Nat) : List Nat :=
  [0, 1, 2].filter (fun k => k != n && (match s.half k with | some h => h.1 == a | none => false))
/-- A write of another requester breaks the halves open at `a`. -/
def State.breakOthers (s : State) (n a : Nat) : State :=
  (s.openOthers n a).foldl (fun s k => (s.setHalf k none).guardFail a k 3) s

/-- A whole pair is taken: a warm reset (R389), or a key word, which a running step drops (R180). -/
def State.guardTaken (s : State) (a v : Nat) : State :=
  if a = AON_RST_CTRL then (if bit v 0 then s.warmReset else s)
  else if (placeOf (SPR_KEY 0) 8 4 a).isSome && s.running then s.raise STEP_EVENT STEP_EVENT_KEY_DROP
  else s.setReg a v

/-- The value, written at A. -/
def State.guardFirst (s : State) (q : Requester) (a v : Nat) : State :=
  (s.breakOthers (reqNo q) a).setHalf (reqNo q) (some (a, v))
/-- The complement, written at A + 4. -/
def State.guardSecond (s : State) (q : Requester) (a v : Nat) : State :=
  let n := reqNo q
  if !(s.openOthers n a).isEmpty then s.breakOthers n a
  else match s.half n with
    | some h =>
      if h.1 ≠ a then s.guardFail a n 2
      else if v ≠ 0xFFFFFFFF - h.2 then (s.setHalf n none).guardFail a n 1
      else (s.setHalf n none).guardTaken a h.2
    | none => s.guardFail a n 2
/-- The 256-cycle limit. -/
def State.guardExpire (s : State) (n : Nat) : State :=
  match s.half n with
  | some h => (s.setHalf n none).guardFail h.1 n 0
  | none => s
/-- An alias write to a WG bit. -/
def State.guardAlias (s : State) (q : Requester) (a : Nat) : State :=
  let s := [0, 1, 2].foldl (fun s k => match s.half k with
    | some h => if h.1 = a then s.setHalf k none else s
    | none => s) s
  s.guardFail a (reqNo q) 4

/-! ### writes -/

/-- A 32-bit write of a requester arrives at the register at `a` (R365, R368, R373). -/
def State.regPut (s : State) (q : Requester) (a v : Nat) : State :=
  if !s.regOn a then s.pdRefuse a
  else if isSQ a then s.seqClear a v
  else if isWG a then s.guardFirst q a v
  else if 4 ≤ a ∧ isWG (a - 4) then s.guardSecond q (a - 4) v
  else if pairOf a = 1 then { s with hif := { s.hif with wrSh := mapSet (fun _ => 0) (reqNo q) v s.hif.wrSh } }
  else if pairOf a = 2 then
    let lo := mapGet (fun _ => 0) (reqNo q) s.hif.wrSh
    if s.running && (dropFlag a).isSome then s.rwPut a 0xFFFFFFFF v
    else (s.rwPut (a - 4) 0xFFFFFFFF lo).rwPut a 0xFFFFFFFF v
  else s.rwPut a 0xFFFFFFFF v

/-- A write through the bit alias: bit b of the register at offset o (R374). -/
def State.aliasPut (s : State) (q : Requester) (o b : Nat) (v : Bool) : State :=
  if 0x2000000 ≤ o then s
  else if !s.regOn o then s.pdRefuse o
  else if bit (accMask .wg o) b then s.guardAlias q o
  else s.rwPut o (2 ^ b) (b2n v * 2 ^ b)

/-- A 32-bit write at an offset of BAR0: the register file, the bit alias, or nothing. -/
def State.bar0Put (s : State) (q : Requester) (off v : Nat) : State :=
  if off < 0x4000000 then s.regPut q off v
  else if 0x40000000 ≤ off ∧ off < 0x80000000 then
    let i := (off - 0x40000000) / 4
    s.aliasPut q (i / 32 * 4) (i % 32) (bit v 0)
  else s

/-- The peer window of BAR0 (R360, R363). -/
def peerWindow (q : Requester) (space : RegSpace) (off : Nat) : Bool :=
  q == .host && space == .bar0 && decide (0x4000000 ≤ off) && decide (off < 0x8000000)
/-- The register that an offset of a space names, for the tests of a pair. -/
def spaceReg (space : RegSpace) (off : Nat) : Nat := if space = .bar4 then bar4Base + off else off
/-- The host's write of the Resizable BAR control register (R361): BAR2's size in the standard's code, 14 for 16 GiB to 21 for
2 TiB. -/
def State.bar2Resize (s : State) (code : Nat) : State :=
  if 14 ≤ code ∧ code ≤ 21 then s.setFld HIF_STAT HIF_STAT_BAR2_SIZE (code - 14) else s
/-- A Configuration Request (R393): until PD1 holds the configuration space it is answered with Retry Status; how long that lasts no
rule says.  `f` serves it. -/
def State.configReq (s : State) (f : State → State) : State :=
  if s.isMember || !s.flag HIF_STAT HIF_STAT_LINK_UP then s
  else if s.boot.cfgHeld then f s
  else
    let (n, t) := s.draw
    if Config.cfgRetry n then t.emit .cplRetry
    else f { t with boot := { t.boot with cfgHeld := true } }

/-- A write access of 32 or 64 bits (R360, R363, R367). -/
def State.barPut (s : State) (q : Requester) (space : RegSpace) (off size v : Nat) : State :=
  if peerWindow q space off then s.peerAccess (off - 0x4000000) size (some (leBytes size v))
  else if space = .config ∨ space = .rebar then
    (if q = .host then s.configReq (fun t => if space = .rebar then t.bar2Resize v else t) else s)
  else s.onBus q (fun s =>
    let put (s : State) (o w : Nat) : State :=
      if space = .bar4 then (if o < 0x100000 then s.regPut q (bar4Base + o) w else s) else s.bar0Put q o w
    let a := spaceReg space off
    if !(size == 4 || size == 8) || off % size != 0 then s.sizeBad
    else if size = 4 then put s off (v % 2 ^ 32)
    else if pairOf a = 1 && !s.regOn a then s.pdRefuse a
    else put (put s off (v % 2 ^ 32)) (off + 4) (v / 2 ^ 32 % 2 ^ 32))

/-! ### reads -/

/-- The counter set that the register at `a` belongs to (R419): its group, its number in the group, and the offset in the set. -/
def queueSet (a : Nat) : Option (Nat × Nat × Nat) :=
  match dieOf a, ldOf a with
  | some (d, o), _ =>
    if 0xC0000 ≤ o ∧ o < 0xD0000 then some (64 * d + (o - 0xC0000) / 0x400, (o - 0xC0000) % 0x400 / 0x80, o % 0x80)
    else if 0xD0000 ≤ o ∧ o < 0xD0900 then some (1024 + d, (o - 0xD0000) / 0x80, o % 0x80)
    else none
  | none, some (k, o) =>
    if 0x30000 ≤ o ∧ (o - 0x30000) / 0x80 < (if k = 2 then 34 else 33) then some (1040 + k, (o - 0x30000) / 0x80, o % 0x80) else none
  | none, none => none
/-- Capacity of a queue (R416). -/
def queueCap (g i : Nat) : Nat :=
  if g < 1024 then [4, 48, 1024, 2048, 2048, 256, 2, 8].getD i 0
  else if g < 1040 then (if i = 0 then 256 else if i < 9 then 128 else if i < 17 then 4096 else 16384)
  else if i = 0 then 64 else if i < 33 then 512 else 4096
/-- The model holds the whole queue at each command: descriptors, stream lines and assay records of a face, window, staging entries and
scoreboard of a die, replay buffers and trace FIFO of a link die.  The other queues fill and drain within a command. -/
def queueHeld (g i : Nat) : Bool :=
  if g < 1024 then i == 0 || i == 5 || i == 7 else if g < 1040 then i == 0 || decide (9 ≤ i) else decide (1 ≤ i)
/-- A word of a counter set (R417, R418).  Whether the copy of the last reset's edge or a later one is read, MAX of a queue that the model
does not hold, within its capacity, and the counters of cycles are free. -/
def State.queueLook (s : State) (a g i o : Nat) : Nat × State :=
  let (n, t) := s.draw
  let x := s.qgroup g
  let shown (m : List (Nat × Nat)) : Nat :=
    if queueHeld g i then mapGet (fun _ => 0) i m else Config.queueCounter a n % (queueCap g i + 1)
  let edge := x.final.isSome && Config.queueEdge n
  let t := if edge then t else t.setQgroup g { x with final := none }
  let (tag, m) := if edge then x.final.getD (0, []) else (x.tag, x.max)
  (if o = 0 then shown m + b2n edge * 2 ^ 15 + tag % 2 ^ 16 * 2 ^ 16 else Config.queueCounter a n % 2 ^ 32, t)

/-- The 32 bits a read of `a` shows, with nothing cleared: guarded bits read 0 (R368); PKG_TIME and the counter sets count
cycles, so each look at them is free. -/
def State.regLook (s : State) (a : Nat) : Nat × State :=
  if a = PKG_TIME_LO ∨ a = PKG_TIME_HI then
    let r := s.now
    (if a = PKG_TIME_LO then r.1 % 2 ^ 32 else r.1 / 2 ^ 32 % 2 ^ 32, r.2)
  else match (queueSet a).filter (fun _ => !(regFields a).isEmpty) with
  | some q => s.queueLook a q.1 q.2.1 q.2.2
  | none =>
    let v := s.reg a &&& (0xFFFFFFFF ^^^ accMask .wg a)
    match dieOf a with
    | some (d, o) =>
      if 0x80100 ≤ o ∧ o < 0x80140 then (setBits v BAR_CH_SPIN.lo 1 (b2n (s.dieSpins d ((o - 0x80100) / 4))), s) else (v, s)
    | none => (v, s)

/-- Both words of a pair in one look: the time is one number. -/
def State.pairLook (s : State) (a : Nat) : (Nat × Nat) × State :=
  if a = PKG_TIME_LO then
    let r := s.now
    ((r.1 % 2 ^ 32, r.1 / 2 ^ 32 % 2 ^ 32), r.2)
  else
    let l := s.regLook a
    let h := l.2.regLook (a + 4)
    ((l.1, h.1), h.2)

/-- A read clears the RC bits (R371); PKG_EVENT_SUM read ends vector 9's pending state. -/
def State.clearRc (s : State) (a : Nat) : State :=
  let s := s.setReg a (s.reg a &&& (0xFFFFFFFF ^^^ accMask .rc a))
  if a = PKG_EVENT_SUM then s.unpend 9 else s

/-- A 32-bit read of a requester at the register at `a`, whose domain is on. -/
def State.regGet (s : State) (q : Requester) (a : Nat) : Nat × State :=
  let n := reqNo q
  if pairOf a = 2 then (mapGet (fun _ => 0) n s.hif.rdSh, s)
  else if pairOf a = 1 then
    let r := s.pairLook a
    (r.1.1, { r.2 with hif := { r.2.hif with rdSh := mapSet (fun _ => 0) n r.1.2 r.2.hif.rdSh } })
  else match placeOf (F2H_DATA 0) 8 16 a, placeOf (DB_COUNT 0) 16 64 a, placeOf (D2H_DATA 0) 0x400 16 a with
    | some m, _, _ => s.f2hPop m
    | none, some j, _ => s.dbRead j
    | none, none, some d => let r := s.d2hPop d; (r.1.getD 0, r.2)
    | none, none, none => let r := s.regLook a; (r.1, r.2.clearRc a)

/-- One bit read through the alias (R374): nothing is cleared, latched or popped. -/
def State.aliasRead (s : State) (i : Nat) : Option Nat × State :=
  let a := i / 32 * 4
  if 0x2000000 ≤ a then (some 0, s)
  else if !s.regOn a then (none, s.pdRefuse a)
  else let r := s.regLook a; (some (b2n (bit r.1 (i % 32))), r.2)
/-- A 32-bit read at an aligned offset of BAR0 or BAR4 (R360): none where the block's domain refuses it (R365); a reserved range reads
as 0. -/
def State.wordRead (s : State) (q : Requester) (space : RegSpace) (off : Nat) : Option Nat × State :=
  let a := spaceReg space off
  if (space = .bar4 ∧ 0x100000 ≤ off) ∨ (space ≠ .bar4 ∧ 0x4000000 ≤ off ∧ (off < 0x40000000 ∨ 0x80000000 ≤ off)) then (some 0, s)
  else if space ≠ .bar4 ∧ 0x40000000 ≤ off then s.aliasRead ((off - 0x40000000) / 4)
  else if !s.regOn a then (none, s.pdRefuse a)
  else let r := s.regGet q a; (some r.1, r.2)
/-- What the requester gets: the value, or Completer Abort to the host. -/
def State.answerRead (s : State) (q : Requester) : Option Nat → State
  | some v => s.emit (.regData q v)
  | none => if q = .host then s.emit .cplCA else s
/-- What the function's configuration space shows (R355): Device ID, class code and the size of BAR2; the rest is the standard's. -/
def State.configLook (s : State) (space : RegSpace) (off : Nat) : Nat × State :=
  let (n, t) := s.draw
  let free := Config.pcieConfig off n % 2 ^ 32
  if space = .rebar then (s.fld HIF_STAT HIF_STAT_BAR2_SIZE + 14, s)
  else if off = 0 then (setBits free 16 16 0x0B16, t)
  else if off = 8 then (setBits free 8 24 0x120000, t)
  else (free, t)
/-- A read access of 32 or 64 bits (R360, R363, R367): at a _LO offset both words in one access, elsewhere two accesses in order. -/
def State.barGet (s : State) (q : Requester) (space : RegSpace) (off size : Nat) : State :=
  if peerWindow q space off then s.peerAccess (off - 0x4000000) size none
  else if space = .config ∨ space = .rebar then
    (if q = .host then s.configReq (fun t => let r := t.configLook space off; r.2.answerRead q (some r.1)) else s)
  else s.busRead q (fun s =>
    if !(size == 4 || size == 8) || off % size != 0 then (let t := s.sizeBad; if q = .host then t.emit .cplUR else t)
    else
      let lo := s.wordRead q space off
      if size = 4 then lo.2.answerRead q lo.1
      else if lo.1.isNone && pairOf (spaceReg space off) == 1 then lo.2.answerRead q none
      else
        let hi := lo.2.wordRead q space (off + 4)
        hi.2.answerRead q (match lo.1, hi.1 with | some x, some y => some (x + y * 2 ^ 32) | _, _ => none))

/-- A read of a requester: the value goes back to it, or Completer Abort to the host (R365, R385). -/
def State.readTo (s : State) (q : Requester) (a : Nat) : State :=
  if a % 4 ≠ 0 then (let t := s.sizeBad; if q = .host then t.emit .cplUR else t)
  else if !s.regOn a then (let t := s.pdRefuse a; if q = .host then t.emit .cplCA else t)
  else let r := s.regGet q a; r.2.emit (.regData q r.1)

/-! ### the commands -/

/-- A write of a row that names its register: aligned, from a requester whose access arrives. -/
def State.rowPut (s : State) (q : Requester) (a v : Nat) : State :=
  s.onBus q (fun s => if a % 4 ≠ 0 then s.sizeBad else s.regPut q a v)
/-- A write of one field of a named register. -/
def State.fieldPut (s : State) (q : Requester) (a m v : Nat) : State :=
  s.onBus q (fun s => if !s.regOn a then s.pdRefuse a else s.rwPut a m v)

/-- Registers that an access reaches, through the alias too. -/
def accessRegs (space : RegSpace) (off size : Nat) : List Nat :=
  let one (o : Nat) : Nat :=
    if space ≠ .bar4 ∧ 0x40000000 ≤ o then (o - 0x40000000) / 128 * 4 else spaceReg space o
  if size = 8 then (if one off = one (off + 4) then [one off] else [one off, one (off + 4)]) else [one off]
/-- Writes of several requesters reach one register in one cycle: the race is logged (R376). -/
def State.logRace (s : State) (qs : List Requester) (a : Nat) : State :=
  (s.setReg PKG_RACE_ADDR (a % 2 ^ 26 + b2n (qs.contains .host) * 2 ^ 26 + b2n (qs.contains .foreman) * 2 ^ 27 +
    b2n (qs.contains .dieCtl) * 2 ^ 28)).bumpSat PKG_RACE_CNT PKG_RACE_CNT_COUNT 1
/-- The writes of one cycle, in the order host, Foreman, die controller (R376). -/
def Writer.inOrder (w : Writer) (v : Nat) : List (Requester × Nat) :=
  [Requester.host, .foreman, .dieCtl].filterMap (fun q => ((w.who, v) :: w.also).find? (fun x => x.1 == q))
/-- Apply them by `f`, and log the race when they are of more than one requester. -/
def State.writeAll (s : State) (w : Writer) (v : Nat) (regs : List Nat) (f : State → Requester → Nat → State) : State :=
  let l := Writer.inOrder w v
  let s := l.foldl (fun s x => f s x.1 x.2) s
  if 2 ≤ l.length then regs.foldl (fun s a => s.logRace (l.map (fun x => x.1)) a) s else s
/-- REGISTER_WRITE. -/
def execRegisterWrite (q : Writer) (space : RegSpace) (off size : Nat) (v : DWord) (s : State) : Res :=
  done s (s.writeAll q v.toNat (accessRegs space off size) (fun s r x => s.barPut r space off size x))
/-- SEQUENCE_CLEAR, of an SQ register. -/
def execSequenceClear (q : Requester) (off : Nat) (v : Word) (s : State) : Res :=
  done s (if isSQ off then s.rowPut q off v.toNat else s)
/-- SUMMARY_READ, and a read of any other register. -/
def execSummaryRead (q : Requester) (a : RegRead) (s : State) : Res := done s (s.barGet q a.space a.off a.size)
/-- BIT_ALIAS_WRITE. -/
def execBitAliasWrite (q : Requester) (off : Nat) (b : Fin 32) (v : Bool) (s : State) : Res :=
  done s (if off % 4 ≠ 0 then s else s.onBus q (fun s => s.aliasPut q off b.val v))
/-- PAIR_LO_READ. -/
def execPairLoRead (q : Requester) (off : Nat) (s : State) : Res :=
  done s (if pairOf off = 1 then s.busRead q (fun s => s.readTo q off) else s)
/-- PAIR_HI_READ. -/
def execPairHiRead (q : Requester) (off : Nat) (s : State) : Res :=
  done s (if pairOf off = 2 then s.busRead q (fun s => s.readTo q off) else s)
/-- PAIR_LO_WRITE. -/
def execPairLoWrite (q : Requester) (off : Nat) (v : Word) (s : State) : Res :=
  done s (if pairOf off = 1 then s.rowPut q off v.toNat else s)
/-- PAIR_HI_WRITE. -/
def execPairHiWrite (q : Requester) (off : Nat) (v : Word) (s : State) : Res :=
  done s (if pairOf off = 2 then s.rowPut q off v.toNat else s)
/-- GUARD_FIRST_HALF. -/
def execGuardFirstHalf (q : Writer) (off : Nat) (v : Word) (s : State) : Res :=
  done s (if isWG off then s.writeAll q v.toNat [off] (fun s r x => s.rowPut r off x) else s)
/-- GUARD_PAIR_EXPIRE. -/
def execGuardPairExpire (q : Requester) (s : State) : Res := done s (s.guardExpire (reqNo q))
/-- SPR_KEY_WRITE: the complement arrives at A + 4 of key word j. -/
def execSprKeyWrite (q : Requester) (j : Fin 4) (v : Word) (s : State) : Res := done s (s.rowPut q (SPR_KEY j.val + 4) v.toNat)
/-- WARM_RESET: the complement arrives at A + 4 of AON_RST_CTRL. -/
def execWarmReset (q : Requester) (v : Word) (s : State) : Res := done s (s.rowPut q (AON_RST_CTRL + 4) v.toNat)
/-- RING_CONSUMER_WRITE. -/
def execRingConsumerWrite (hallmark : Bool) (v : Word) (q : Requester) (s : State) : Res :=
  done s (s.rowPut q (if hallmark then HM_CONS else FR_CONS) v.toNat)
/-- TRACE_ENABLE_WRITE. -/
def execTraceEnableWrite (v : Word) (q : Requester) (s : State) : Res := done s (s.rowPut q TRC_CTRL v.toNat)
/-- TRC_MARK_WRITE. -/
def execTrcMarkWrite (v : Word) (q : Requester) (s : State) : Res := done s (s.rowPut q TRC_MARK v.toNat)
/-- STEER_ENTRY_WRITE: word w of entry l. -/
def execSteerEntryWrite (l : Fin 4096) (w : Fin 8) (v : Word) (q : Requester) (s : State) : Res :=
  done s (s.rowPut q (STEER_ENTRY_W0 l.val + 4 * w.val) v.toNat)
/-- FACE_CLAIM_DISABLE: FSQ_CTRL.EN is written 0. -/
def execFaceClaimDisable (d : DieIx) (f : FaceIx) (q : Requester) (s : State) : Res :=
  done s (s.fieldPut q (FSQ_CTRL d.val f.val) (2 ^ FSQ_CTRL_EN.lo) 0)
/-- BENCH_DISABLE: BENCH_CTRL.EN is written 0. -/
def execBenchDisable (d : DieIx) (f : FaceIx) (b : BenchIx) (q : Requester) (s : State) : Res :=
  done s (s.fieldPut q (BENCH_CTRL d.val f.val b.val) (2 ^ BENCH_CTRL_EN.lo) 0)
/-- STEP_HOLD: STEP_CTRL.EN is written 0. -/
def execStepHold (q : Requester) (s : State) : Res := done s (s.fieldPut q STEP_CTRL (2 ^ STEP_CTRL_EN.lo) 0)
/-- STEP_ABANDON: STEP_CTRL.ABANDON is written 1. -/
def execStepAbandon (q : Requester) (s : State) : Res :=
  done s (s.fieldPut q STEP_CTRL (2 ^ STEP_CTRL_ABANDON.lo) (2 ^ STEP_CTRL_ABANDON.lo))
/-- DC_FLUSH: DC_CTRL.FLUSH of controller c is written 1. -/
def execDcFlush (d : DieIx) (c : CtlIx) (q : Requester) (s : State) : Res :=
  done s (s.fieldPut q (DC_CTRL d.val c.val) (2 ^ DC_CTRL_FLUSH.lo) (2 ^ DC_CTRL_FLUSH.lo))
/-- LINK_RETRAIN: LNK_CTRL.RETRAIN is written 1. -/
def execLinkRetrain (l : LinkIx) (q : Requester) (s : State) : Res :=
  done s (s.fieldPut q (lnkCtrl l.val) (2 ^ LNK_CTRL_RETRAIN.lo) (2 ^ LNK_CTRL_RETRAIN.lo))
/-- LINK_ENABLE_WRITE: LNK_CTRL.EN is written. -/
def execLinkEnableWrite (l : LinkIx) (en : Bool) (q : Requester) (s : State) : Res :=
  done s (s.fieldPut q (lnkCtrl l.val) (2 ^ LNK_CTRL_EN.lo) (b2n en * 2 ^ LNK_CTRL_EN.lo))
/-- H2F_WRITE: the host writes H2F_DATA_m. -/
def execH2fWrite (m : Fin 16) (v : Word) (s : State) : Res := done s (s.rowPut .host (H2F_DATA m.val) v.toNat)
/-- H2D_WRITE: the host writes H2D_DATA of die d. -/
def execH2dWrite (d : DieIx) (v : Word) (s : State) : Res := done s (s.rowPut .host (H2D_DATA d.val) v.toNat)
/-- F2H_READ: the host reads F2H_DATA_m. -/
def execF2hRead (m : Fin 16) (s : State) : Res := done s (s.busRead .host (fun s => s.readTo .host (F2H_DATA m.val)))
/-- D2H_READ: the host reads D2H_DATA of die d. -/
def execD2hRead (d : DieIx) (s : State) : Res := done s (s.busRead .host (fun s => s.readTo .host (D2H_DATA d.val)))
/-- DB_COUNT_READ: the host reads DB_COUNT_j. -/
def execDbCountRead (j : Fin 64) (s : State) : Res := done s (s.busRead .host (fun s => s.readTo .host (DB_COUNT j.val)))

/-! ### the parity scrub (R375) -/

/-- Put registers under a parity stop until reset. -/
def State.stopRegs (s : State) (l : List Nat) : State := { s with parStop := l.foldl (fun p a => setInsert a p) s.parStop }

/-- The waiting descriptors of a stopped face's gang go back to the head of the window in list order (R31's parity stop, R124).  The
window may then hold more than 256 until claims shrink it: no rule puts its youngest back to the list (DESIGN CHOICE).  A stopped member
that is not the leader returns its leader's waiting descriptors, as its gang cannot run them, and sets CLAIM_RETURNED itself; with none
waiting nothing is returned and CLAIM_RETURNED stays 0 (both DESIGN CHOICE: the rules speak of a face with waiting descriptors). -/
def State.returnWaiting (s : State) (d f : Nat) : State :=
  let l := gangLeader (s.gangMap d) f
  let back := (((s.face d l).held.filter (fun h => h.run == .waiting)).map (fun h => h.idx)).foldl (fun l i => setInsert i l) []
  if back.isEmpty then s.showFace d l
  else
    let s := back.foldl (fun s ix => s.dropDesc d l ix) s
    let x := s.die d
    let s := (s.setDie d { x with window := back ++ x.window }).noteQueue (1024 + d) 0 (back ++ x.window).length
    let s := s.setFld (DIE_WORK_STAT d) DIE_WORK_STAT_WINDOW (s.die d).window.length
    ((s.raise (FSQ_EVENT d f) FSQ_EVENT_CLAIM_RETURNED).dieArrive d).dieQuiesceAnswer d
/-- A face stops (R31's parity stop, R124). -/
def State.faceStop (s : State) (d f : Nat) : State :=
  (s.setFlag (FSQ_STAT d f) FSQ_STAT_PARITY_STOP true).returnWaiting d f

/-- A register of face f fails its check. -/
def State.faceParity (s : State) (d f r : Nat) : State :=
  if r = 0 then (s.raise (FSQ_EVENT d f) FSQ_EVENT_CFG_PARITY).faceStop d f
  else if r = 0x200 ∨ r = 0x204 then
    ((s.raise (PL_EVENT d f) PL_EVENT_CFG_PARITY).setFlag (PL_STAT d f) PL_STAT_PSTOP true).faceStop d f
  else if r = 0x300 then
    ((s.raise (AS_EVENT d f) AS_EVENT_CFG_PARITY).setFlag (AS_STAT d f) AS_STAT_PSTOP true).faceStop d f
  else if 0x400 ≤ r ∧ r < 0x800 then
    let b := (r - 0x400) / 0x40
    ((s.raise (BENCH_EVENT d f b) BENCH_EVENT_CFG_PARITY).setFlag (BENCH_STAT d f b) BENCH_STAT_PSTOP true).benchStop d f b
  else s

/-- A register of die d at offset o fails its check (R237, R326, R353). -/
def State.dieParity (s : State) (d o : Nat) : State :=
  if 0x10000 ≤ o ∧ o < 0x18000 then
    let c := (o - 0x10000) / 0x1000
    (s.stopRegs [MC_CTRL d c, MC_GRACE d c, MC_SCRUB d c, DC_CTRL d c]).raise (MC_EVENT d c) MC_EVENT_CFG_PARITY
  else if 0x20000 ≤ o ∧ o < 0x30000 then
    let c := (o - 0x20000) / 0x2000
    (s.setFlag (CRU_STAT d c) CRU_STAT_PSTOP true).raise (CRU_EVENT d c) CRU_EVENT_CFG_PARITY
  else if 0x40000 ≤ o ∧ o < 0x80000 then s.faceParity d ((o - 0x40000) / 0x1000) (o % 0x1000)
  else if o = 0x80000 then (s.stopRegs [BAR_CTRL d]).raise (BAR_EVENT d) BAR_EVENT_CFG_PARITY
  else s

/-- The event register that carries CFG_PARITY for the register at `a`, 0 where none does. -/
def parityEvent (a : Nat) : Nat :=
  if bar4Base ≤ a then 0
  else if a = PWR_CTRL ∨ a = PWR_REQ ∨ a = PWR_LIMIT then PWR_EVENT
  else if a / 0x100000 = 2 then HIF_EVENT
  else if a = STEP_CTRL ∨ a = STEP_C15_WDOG then STEP_EVENT
  else if 0x301000 ≤ a ∧ a < 0x301100 then STEER_EVENT
  else if 0x302000 ≤ a ∧ a < 0x302080 then BAR_PEVENT
  else if a = PLC_CTRL ∨ a = PLC_WATER then PLC_EVENT
  else if a = CRU_GCTRL then CRU_GEVENT
  else if a / 0x100000 = 0x24 then TRC_EVENT
  else match dieOf a, ldOf a with
    | some (d, o), _ =>
      if 0x10000 ≤ o ∧ o < 0x18000 then MC_EVENT d ((o - 0x10000) / 0x1000)
      else if 0x20000 ≤ o ∧ o < 0x30000 then CRU_EVENT d ((o - 0x20000) / 0x2000)
      else if 0x40000 ≤ o ∧ o < 0x80000 then
        let f := (o - 0x40000) / 0x1000
        let r := o % 0x1000
        if r = 0 then FSQ_EVENT d f else if r < 0x300 then PL_EVENT d f else if r < 0x400 then AS_EVENT d f
        else BENCH_EVENT d f ((r - 0x400) / 0x40)
      else BAR_EVENT d
    | none, some (k, _) => LD_EVENT k
    | none, none => 0

/-- What the owner of the register at `a` does on a mismatch. -/
def State.parityOwner (s : State) (a : Nat) : State :=
  let e := parityEvent a
  if e = 0 then s
  else if e = PWR_EVENT then (s.stopRegs [PWR_CTRL]).raise e PWR_EVENT_CFG_PARITY
  else if e = HIF_EVENT then s.raise e HIF_EVENT_CFG_PARITY
  else if e = STEP_EVENT then (s.stopRegs [STEP_CTRL]).raise e STEP_EVENT_CFG_PARITY
  else if e = STEER_EVENT then (s.stopRegs [STEER_CTRL]).raise e STEER_EVENT_CFG_PARITY
  else if e = BAR_PEVENT then (s.stopRegs [BAR_GRP 0]).raise e BAR_PEVENT_CFG_PARITY
  else if e = PLC_EVENT then (s.stopRegs [PLC_CTRL]).raise e PLC_EVENT_CFG_PARITY
  else if e = CRU_GEVENT then (s.stopRegs [CRU_GCTRL]).raise e CRU_GEVENT_CFG_PARITY
  else if e = TRC_EVENT then s.raise e TRC_EVENT_CFG_PARITY
  else match dieOf a, ldOf a with
    | some (d, o), _ => s.dieParity d o
    | none, some (k, _) =>
      -- with the reset value of EN its links that were held DOWN start
      (List.range 32).foldl (fun s j => s.releaseLink (32 * k + j)) ((s.stopRegs [LD_CTRL k]).raise e LD_EVENT_CFG_PARITY)
    | none, none => s

/-- Is the register one the scrub checks: with RW fields, in a register file (the steering entries are protected words, R167)? -/
def parityChecked (a : Nat) : Bool := accMask .rw a != 0 && !(decide (0x340000 ≤ a) && decide (a < 0x360000))

/-- The scrub finds a mismatch in the register at `a`. -/
def State.parityScrub (s : State) (a : Nat) : State :=
  if !parityChecked a || !s.regOn a then s
  else
    let s := if s.flag PKG_CFGPAR_ADDR PKG_CFGPAR_ADDR_VALID then s
      else (s.setFld PKG_CFGPAR_ADDR PKG_CFGPAR_ADDR_OFFSET a).setFlag PKG_CFGPAR_ADDR PKG_CFGPAR_ADDR_VALID true
    let s := (s.bumpSat PKG_CFGPAR_CNT PKG_CFGPAR_CNT_COUNT 1).parityOwner a
    s.fault 0 0x0406 (parityEvent a) (a % 2 ^ 26)

/-- REG_PARITY_SCRUB. -/
def execRegParityScrub (off : Nat) (s : State) : Res := done s (s.parityScrub off)

end Sys2Proof.Machine
end

