-- ==== Sys2Proof/Machine/Dump.lean ====
section
/-! DEFINITION. The spoil dump (R431 to R434): its sections, where it goes, and DUMP_NOW. -/

namespace Sys2Proof.Machine

/-- A register as an MR copy: what a look at it shows, with nothing cleared or latched (R433).  The free values of one dump take one
number. -/
def State.regCopy (s : State) (a : Nat) : Nat := (s.regLook a).1
/-- Bytes of the descriptors every face held when the dump began, 4 × 64 each. -/
def State.dumpDescs (s : State) : List Byte :=
  (List.range 1024).flatMap (fun F =>
    let l := (mapGet (fun _ => []) F s.obs.dumpHeld).flatMap (leBytes 4)
    l.take 256 ++ List.replicate (256 - l.length) 0)
/-- Packets of 48 bytes of a section: kind, first payload word (SECTION and OFFSET) and payload. -/
def dumpData (sec : Nat) (v : List Byte) (base : Nat) : List TracePkt :=
  (List.range (ceilDiv v.length 48)).map (fun i =>
    TracePkt.mk 0x11 (sec + (base + 48 * i) % 2 ^ 40 * 2 ^ 8) (leNat ((v.drop (48 * i)).take 48)))
/-- Every 48-byte window of BAR0 that holds a register. -/
def State.dumpRegs (s : State) : List TracePkt :=
  (List.range (0x2500000 / 48)).flatMap (fun i =>
    let as_ := (List.range 12).map (fun j => 48 * i + 4 * j)
    if as_.any (fun a => !(regFields a).isEmpty) then dumpData 3 (as_.flatMap (fun a => leBytes 4 (s.regCopy a))) (48 * i) else [])
/-- A tensor section under DBG_LOCK, or its bytes. -/
def State.dumpTensor (s : State) (sec : Nat) (v : List TracePkt) : List TracePkt :=
  if s.boot.fuses.dbgLock then [TracePkt.mk 0x12 sec 0] else v
def State.dumpFaces (s : State) : List TracePkt :=
  (List.range 1024).flatMap (fun F =>
    let a := faceStoreBase (F / 64) (F % 64)
    dumpData 0x10 (getBytes s.mem a (2 ^ 22)) a)
def State.dumpDrains (s : State) : List TracePkt :=
  (List.range 16384).flatMap (fun b =>
    let acc := (mapGet (fun _ => {}) b s.benches : Bench).acc
    dumpData 0x11 ((List.range 512).flatMap (fun r => (List.range 32).flatMap (fun c => leBytes 4 ((acc.getD r []).getD c 0))))
      (b * 65536))
def State.dumpStages (s : State) : List TracePkt :=
  (List.range 128).flatMap (fun C =>
    dumpData 0x12 ((s.cru.stage.filter (fun e => e.1 / 2 ^ 37 == C)).flatMap (fun e => match e.2 with
      | some x => x.sums.flatMap (leBytes 4)
      | none => [])) (C * 2 ^ 22))
/-- The packets of a dump between DUMP_START and DUMP_END. -/
def State.dumpBody (s : State) : List TracePkt :=
  dumpData 1 s.dumpDescs 0 ++ dumpData 2 s.logBytes 0 ++ s.dumpRegs ++
  (if s.flag DUMP_CFG DUMP_CFG_TENSOR then
    s.dumpTensor 0x10 s.dumpFaces ++ s.dumpTensor 0x11 s.dumpDrains ++ s.dumpTensor 0x12 s.dumpStages
  else [])
/-- The bytes of a dump packet with its LOST; those on the port take the next packet sequence. -/
def dumpBytes (dev pseq lost : Nat) (p : TracePkt) : List Byte :=
  leBytes 2 p.kind ++ leBytes 2 pseq ++ leBytes 4 (dev + lost * 2 ^ 12) ++ leBytes 8 p.time ++ leBytes 48 p.payload

/-- Memory is a destination (R432). -/
def State.dumpMem (s : State) : Bool :=
  s.reg DUMP_LEN != 0 && (if s.isMember then s.flag (LD_DEVID 0) LD_DEVID_ANCHOR_V else s.canHost)
/-- Write one dump packet to the memory destination. -/
def State.dumpPut (s : State) (i : Nat) (v : List Byte) : State :=
  let a := (s.fld DUMP_ADDR_LO DUMP_ADDR_LO_ADDR * 65536 + s.reg DUMP_ADDR_HI * 2 ^ 32) % 2 ^ 48 + 64 * i
  if s.isMember then
    let anchor := s.fld (LD_DEVID 0) LD_DEVID_ANCHOR
    s.send (wrPkt anchor (anchor * 2 ^ 48 + a) true v false 0) .write
  else s.memWrite a v false

/-- DUMP_END (R433, R434): the dump has gone to the port, to memory up to DUMP_LEN, or nowhere. -/
def State.dumpEnd (s : State) : State :=
  match s.obs.dump with
  | none => s
  | some trigger =>
    let body := s.dumpBody
    let (_, s) := s.draw
    let (t0, s) := s.now
    let (t1, s) := s.now
    let tensor := b2n (s.flag DUMP_CFG DUMP_CFG_TENSOR)
    let all := [TracePkt.mk 0x10 (t0 * 8) (trigger + tensor * 2 ^ 8 + b2n s.boot.fuses.dbgLock * 2 ^ 16)] ++ body ++
      [TracePkt.mk 0x13 (t1 * 8) (body.length + 2)]
    -- the packets lost since the last one sent go with the first packet
    let s := if s.flag TRC_STAT TRC_STAT_LINK && !s.flag TRC_STAT TRC_STAT_DEST then
        all.foldl (fun s p => { (s.emit (.trace (dumpBytes s.devId s.obs.pseq s.obs.dumpLost p))) with
          obs := { s.obs with pseq := (s.obs.pseq + 1) % 65536, dumpLost := 0 } }) s
      else if s.dumpMem then
        let room := s.reg DUMP_LEN * 1024
        let fit := all.take room
        let s := (fit.zip (List.range fit.length)).foldl (fun s p => s.dumpPut p.2 (dumpBytes s.devId (p.2 % 65536) (if p.2 = 0 then s.obs.dumpLost else 0) p.1)) s
        let s := s.setReg DUMP_USED fit.length
        if room < all.length then s.raise TRC_EVENT TRC_EVENT_DUMP_SHORT else s
      else
        let lost := satAdd 16 s.obs.lost s.obs.dumpLost
        ({ s with obs := { s.obs with lost := lost } }.setReg DUMP_USED 0).raise TRC_EVENT TRC_EVENT_DUMP_LOST
    let s := { s with obs := { s.obs with dump := none, dumpHeld := [], dumpLost := 0, trunc := true } }
    let s := (s.setFlag TRC_STAT TRC_STAT_DUMPING false).setFlag TRC_STAT TRC_STAT_DEST false
    s.raise TRC_EVENT TRC_EVENT_DUMP_END
def execDumpEnd (s : State) : Res := done s s.dumpEnd

def stNoDest : Nat := 0x17
/-- DUMP_NOW (R442): during a dump it is a trigger that is missed (R431). -/
def execDumpNow (blk : List Byte) (s : State) : Res :=
  done s (s.serve 4 0x51 true blk (fun t _ src =>
    if t.obs.dump.isSome then (t.raise TRC_EVENT TRC_EVENT_DUMP_MISSED).answer 4 src (ansWord stBusy 0)
    else if !t.flag TRC_STAT TRC_STAT_LINK && !t.dumpMem then t.answer 4 src (ansWord stNoDest 0)
    else (t.startDump 3).answer 4 src (ansWord stAccepted 0)))

end Sys2Proof.Machine
end

