-- ==== Sys2Proof/Machine/Fabric.lean ====
section
/-! DEFINITION. Requests that arrive from the fabric and the answers to those of this device (R281 to R285): RD, WR, their
responses, failed deliveries; aging promotions (R351). -/

namespace Sys2Proof.Machine

/-! ### answers of the target -/

def stOk : Nat := 0
def stStale : Nat := 1
def stEnded : Nat := 2
def stDenied : Nat := 4

/-- A request is refused: DENIED is counted (R281, R285). -/
def State.deny (s : State) (p : Packet) : State :=
  (s.raise (LD_EVENT 0) LD_EVENT_DENIED).emit (.packet (Packet.reply p stDenied (Packet.blank p) true))
/-- A read answered with data. -/
def State.rdData (s : State) (p : Packet) (r : List Byte × Bool) : State :=
  s.emit (.packet (Packet.reply p stOk r.1 r.2))
/-- A request that is not OK is answered: an RD by zeros of its length (R282), marked poisoned. -/
def State.rdNone (s : State) (p : Packet) (st : Nat) : State := s.emit (.packet (Packet.reply p st (Packet.blank p) (p.type == 0)))

/-- The hint of an RD (R282). -/
def rdHint (p : Packet) : Nat := bits p.args 6 2
def wrHint (p : Packet) : Nat := bits p.args 0 2

/-- The address of an AK = 1 request names its target (R285). -/
def akOk (p : Packet) : Bool := bits p.addr 60 4 == 0 && bits p.addr 48 12 == p.dst
/-- SRC is the anchor of this device (R285). -/
def State.fromAnchor (s : State) (p : Packet) : Bool :=
  s.flag (LD_DEVID 0) LD_DEVID_ANCHOR_V && p.src == s.fld (LD_DEVID 0) LD_DEVID_ANCHOR

/-- A register word read by the anchor (R363, R367): its 32 bits lead the data. -/
def State.regAnswer (s : State) (p : Packet) (off : Nat) : State :=
  if off % 4 ≠ 0 then s.sizeBad.rdNone p stEnded
  else match s.wordRead .host .bar0 off with
    | (none, t) => t.rdNone p stEnded
    | (some v, t) => t.rdData p (leBytes 4 v ++ List.replicate (rdLen p - 4) 0, false)

/-- RD of a local address (R285, R361, R362, R366). -/
def State.rdLocal (s : State) (p : Packet) : State :=
  let a := p.addr % 2 ^ 48
  let n := rdLen p
  if !akOk p then s.deny p
  else match regionOf a with
    | .register => if s.fromAnchor p then s.regAnswer p (a - regBase) else s.deny p
    | .bitAlias => if s.fromAnchor p then s.regAnswer p (a - regBase) else s.deny p
    | .hostWindow => s.hostReq (a - hwBase) n p
    | .reserved => (s.ended a 0).rdNone p stEnded
    | _ =>
      if !s.served a n then (s.ended a (endCause a)).rdNone p stEnded
      else if regionOf a = .dram && s.mustWait a n then s
      else
        let r := s.localGet (rdHint p) a n
        r.2.rdData p r.1

/-- Where an object range stands at this holder (R250, R251): here, stale, or ended. -/
inductive Held3 where
  | here | stale | ended
deriving DecidableEq, Repr

/-- The whole range, every granule resolved again here; an evacuated device holds nothing (R265). -/
def State.holds (s : State) (oa n : Nat) : Held3 :=
  let l := (rangeKeys oa n).map s.whereIs
  if s.flag PLC_STAT PLC_STAT_EVACUATED then .stale
  else if l.any (fun w => w == .ended || w == .empty) then .ended
  else if l.all (fun w => match w with | .here _ => true | _ => false) then .here
  else .stale

/-- The first part of an object range here whose memory does not answer (R216). -/
def State.deadPart (s : State) (oa n : Nat) : Option Nat :=
  (granParts oa n).findSome? (fun q => match s.whereIs q.1 with
    | .here a => if s.served (a + q.2.1) q.2.2 then none else some (a + q.2.1)
    | _ => none)

/-- A request for an own granule in the host window of the anchor is passed on there (R250, R254), and answered with its answer. -/
def State.relay (s : State) (p : Packet) (dev off : Nat) : State :=
  s.send { p with ak := true, src := 0, dst := dev, addr := dev * 2 ^ 48 + hwBase + off + p.addr % 65536 } (.relay p)

/-- RD of an object address. -/
def State.rdObject (s : State) (p : Packet) : State :=
  let n := rdLen p
  let s := (s.ledcLook (oaKey p.addr)).touch p.addr n none
  let after (s : State) : State := s.pullAll p.addr n none
  match s.holds p.addr n with
  | .stale =>
    match s.whereIs (oaKey p.addr) with
    | .hostAt dev off => if s.flag PLC_STAT PLC_STAT_EVACUATED then s.rdNone p stStale else after (s.relay p dev off)
    | _ => s.rdNone p stStale
  | .ended => (s.resolveEnd p.addr).rdNone p stEnded
  | .here =>
    match s.whereIs (oaKey p.addr) with
    | .here a =>
      if hwBase ≤ a then after (s.hostReq (a - hwBase + p.addr % 65536) n p)
      else match s.deadPart p.addr n with
      | some x => (s.ended x (endCause x)).rdNone p stEnded
      | none =>
        if s.mustWait (a + p.addr % 65536) n then s
        else
          let viaMirror := s.beatLost (a + p.addr % 65536) n && s.mirrored (oaKey p.addr)
          let r := if viaMirror || 65536 < p.addr % 65536 + n then (s.objRead p.addr n, s) else s.localGet (rdHint p) (a + p.addr % 65536) n
          after (r.2.rdData p r.1)
    | _ => s.rdNone p stStale

/-- RD. -/
def execRd (p : Packet) (s : State) : Res :=
  done s (if p.type ≠ 0 ∨ p.rsp ∨ p.dst ≠ s.devId then s else if p.ak then s.rdLocal p else s.rdObject p)

/-! ### WR -/

/-- The words of a run of register bytes: only whole aligned words are accesses of R367. -/
def regWords (a : Nat) (v : List Byte) : List (Nat × Nat) :=
  if a % 4 ≠ 0 ∨ v.length % 4 ≠ 0 then [] else (List.range (v.length / 4)).map (fun i => (a + 4 * i, leNat ((v.drop (4 * i)).take 4)))

/-- Registers written by the anchor, in address order. -/
def State.regRuns (s : State) (p : Packet) (base : Nat) (put : State → Nat → Nat → State) : State :=
  let runs := wrRuns p base 0 p.data []
  let bad := runs.any (fun r => (regWords r.1 r.2).isEmpty)
  let off := runs.any (fun r => (regWords r.1 r.2).any (fun w => !s.regOn w.1))
  let t := runs.foldl (fun s r => (regWords r.1 r.2).foldl (fun s w => put s w.1 w.2) s) s
  (if bad then t.sizeBad else t).rdNone p (if bad || off then stEnded else stOk)

/-- WR of a local address. -/
def State.wrLocal (s : State) (p : Packet) : State :=
  let a := p.addr % 2 ^ 48
  let runs := wrRuns p a 0 p.data []
  if !akOk p then s.deny p
  else match regionOf a with
    | .register =>
      if s.fromAnchor p then s.regRuns p (a - regBase) (fun s o v => s.regPut .host o v) else s.deny p
    | .bitAlias =>
      if s.fromAnchor p then
        s.regRuns p (a - regBase) (fun s o v =>
          let i := (o - 0x40000000) / 4
          s.aliasPut .host (i / 32 * 4) (i % 32) (bit v 0))
      else s.deny p
    | .reserved => (s.ended a 0).rdNone p stEnded
    | _ =>
      if !s.served a p.data.length then (s.ended a (endCause a)).rdNone p stEnded
      else if regionOf a = .dram && s.mustWait a p.data.length then s
      else (runs.foldl (fun s r => s.localPut (wrHint p) r.1 r.2 p.poison) s).rdNone p stOk

/-- WR of an object address; only the owner writes WWORK granules (R260).  It is acknowledged when a mirror has it too (R262), and
waits in a capped channel whose window is spent. -/
def State.wrObject (s : State) (p : Packet) : State :=
  let n := p.data.length
  let k := oaKey p.addr
  let s := (s.ledcLook k).touch p.addr n none
  let foreign := p.src != s.serverOf (oaOwner p.addr) && !bit p.args 2 && (match s.lookup k with | some (_, e) => leClass e == 1 | none => false)
  match s.holds p.addr n with
  | .stale =>
    match s.whereIs k with
    | .hostAt dev off =>
      if s.flag PLC_STAT PLC_STAT_EVACUATED then s.rdNone p stStale
      else if foreign then (s.resolveEnd p.addr).rdNone p stEnded
      else
        -- the owner looks after POISON and the mirror of a granule in its anchor's window, and pulls it
        let t := (wrRuns p p.addr 0 p.data []).foldl (fun s r =>
          (if p.poison then s else s.noteWrite k (r.1 % 65536) r.2.length).mirrorWrite k (r.1 % 65536) r.2 p.poison (some p))
          (s.relay p dev off)
        t.pullAll p.addr n none
    | _ => s.rdNone p stStale
  | .ended => (s.resolveEnd p.addr).rdNone p stEnded
  | .here =>
    if foreign then (s.resolveEnd p.addr).rdNone p stEnded
    else match s.deadPart p.addr n with
    | some x => (s.ended x (endCause x)).rdNone p stEnded
    | none =>
      let wait := match s.whereIs k with
        | .here a => decide (a < 0x20000000000) && s.mustWait (a + p.addr % 65536) n
        | _ => false
      if wait then s
      else
        let t := (wrRuns p p.addr 0 p.data []).foldl (fun s r => s.objWriteAs (wrHint p) (some p) r.1 r.2 p.poison none) s
        if t.fab.tags.any (fun e => e.2 == some (.mirror (some p))) then t else t.rdNone p stOk

/-- WR. -/
def execWr (p : Packet) (s : State) : Res :=
  done s (if p.type ≠ 1 ∨ p.rsp ∨ p.dst ≠ s.devId then s else if p.ak then s.wrLocal p else s.wrObject p)

/-! ### responses -/

/-- The request of this device ends (R216): its record, with the cause code of R437. -/
def State.requestEnds (s : State) (a cause : Nat) : State := s.fault 1 0x0102 0 (a % 2 ^ 48 + cause * 2 ^ 48)

/-- RD_RESPONSE: POISON or a STATUS other than OK returns the data poisoned (R283). -/
def State.rdArrive (s : State) (p : Packet) : State :=
  let ok := p.status == 0 && !p.poison
  let t := s.freeTag p.tag
  match s.useOf p.tag with
  | some (.obj r _) => if p.status = 0 then t.requestDone r p.data false p.poison else t.requestFails r
  | some (.fetch k c) => t.fetchArrive k c ok p.data
  | some (.relay q) => t.emit (.packet (Packet.reply q p.status p.data p.poison))
  | some .peer => t.peerAnswer p.tag p.status p.data p.poison
  | some (.block m) => t.blkCame m (if ok then some p.data else none)
  | _ => t

/-- A response of these rows: OK, ENDED or DENIED (STALE, UNREACH and HOPLIM have rows of their own). -/
def plainStatus (p : Packet) : Bool := p.status == 0 || p.status == 2 || p.status == 4

def execRdResponse (p : Packet) (s : State) : Res :=
  done s (if p.rsp && p.type == 0 && plainStatus p then s.rdArrive p else s)

/-- A write passed on to the anchor's window is answered: with its STATUS at once, or once its mirror has it too (R262). -/
def State.relayed (s : State) (q : Packet) (st : Nat) : State :=
  if st = 0 then s.mirrorDone (some q)
  else
    let free (e : Nat × Option TagUse) := if e.2 = some (.mirror (some q)) then (e.1, some (.mirror none)) else e
    ({ s with fab := { s.fab with tags := s.fab.tags.map free } } : State).emit (.packet (Packet.reply q st [] false))
/-- WR_RESPONSE: the acknowledgement of a remote write (R229). -/
def State.wrArrive (s : State) (p : Packet) : State :=
  let t := s.freeTag p.tag
  match s.useOf p.tag with
  | some (.obj r _) => if p.status = 0 then t.requestDone r [] false false else t.requestFails r
  | some (.mirror who) => t.mirrorDone who
  | some (.relay q) => t.relayed q p.status
  | some .peer => t.peerAnswer p.tag p.status p.data p.poison
  | _ => t

def execWrResponse (p : Packet) (s : State) : Res :=
  done s (if p.rsp && p.type == 1 && plainStatus p then s.wrArrive p else s)

/-- DELIVERY_FAIL_RESPONSE (R283): the source ends the request and counts the loss. -/
def State.deliveryFail (s : State) (p : Packet) : State :=
  let s := s.raise (LD_EVENT 0) LD_EVENT_UNREACH
  let cause := if p.status = 3 then 2 else 3
  if p.type = 2 ∨ p.type = 3 then s.contribLost p
  -- a doorbell and an ASSAY_ACK use no tag of this device
  else if p.type = 5 ∨ (p.type = 8 ∧ p.args % 256 = 2) then s
  else match s.useOf p.tag with
    | some (.obj r _) => ((s.freeTag p.tag).requestEnds r.oa cause).requestDone r [] true true
    | some (.lookup r _) => ((s.freeTag p.tag).requestEnds r.oa cause).requestDone r [] true true
    | some .write => (s.freeTag p.tag).requestEnds p.addr cause
    | some (.mirror who) => ((s.freeTag p.tag).requestEnds p.addr cause).mirrorDone who
    | some (.relay q) =>
      let s := (s.freeTag p.tag).requestEnds p.addr cause
      if q.type = 0 then s.emit (.packet (Packet.reply q stEnded (Packet.blank q) true)) else s.relayed q stEnded
    | some (.fetch k c) => ((s.freeTag p.tag).requestEnds (keyOa k) cause).fetchArrive k c false []
    | some (.mig k) => (s.requestEnds (keyOa k) cause).migDone p
    | some .peer => (s.freeTag p.tag).peerAnswer p.tag p.status [] true
    | some (.mailbox m) =>
      let s := s.freeTag p.tag
      if s.hif.fwdOut.contains (m, p.src) then s.fwdFinal m p.src stUnreachable else s
    | some (.block m) => ((s.freeTag p.tag).requestEnds p.addr cause).blkCame m none
    | some .summary => s.sumSettled p.tag
    | some (.bar m c) => (s.freeTag p.tag).barReturned p.src m c
    -- a read, ledger or migration request of the placement engine ends too
    | some .other => if p.type = 0 ∨ p.type = 6 ∨ p.type = 7 then (s.freeTag p.tag).requestEnds p.addr cause else s.freeTag p.tag
    | none => s

def execDeliveryFailResponse (p : Packet) (s : State) : Res :=
  done s (if p.rsp && (p.status == 3 || p.status == 5) then s.deliveryFail p else s)

/-! ### aging (R351) -/

/-- The low-priority requester has a request pending at the arbiter, as the table of R351 pairs them. -/
def State.lowPending (s : State) : Arbiter → LowReq → Bool
  | .memQueue d c, .scrub =>
    s.scrubEn d.val c.val && decide (s.tstate d.val < 2) && (List.range 4).any (fun i => s.chanReady (32 * d.val + 4 * c.val + i))
  | .memQueue _ _, .sweep => s.flag PLC_STAT PLC_STAT_READY
  | .memQueue _ _, .stagingBack => !s.cru.stage.isEmpty
  | .bucketPort k, .ledgerBack => s.plc.ledc.any (fun e => e.1 / 16384 == k.val && e.2.any (fun x => x.2))
  | .linkOut _, .mig x =>
    s.fab.waiting.any (fun w => w.type == 7 && !w.rsp && s.arrivedOn w == x.map (fun l => l.val))
  | .tracePort, .trace => s.flag TRC_CTRL TRC_CTRL_EN
  | _, _ => false
/-- ARB_AGING_PROMOTE (R351): a requester that has waited 4,096 cycles is promoted for its next grant, and counted. -/
def execArbAgingPromote (arbiter : Arbiter) (requester : LowReq) (s : State) : Res :=
  done s (if s.lowPending arbiter requester then
      let s := (s.bump ARB_PROMO_LO 1).usePromo arbiter requester
      { s with fab := { s.fab with promo := s.fab.promo ++ [(arbiter, requester)] } }
    else s)

end Sys2Proof.Machine
end

