-- ==== Sys2Proof/Machine/Wcopy.lean ====
section
/-! DEFINITION. Working copies are made: MEASURE, MAKE and PUBLISH (R159 to R164, R86). -/

namespace Sys2Proof.Machine

/-- FP32 row n of K elements of masters, moments or results at `oa` (R192). -/
def rs32 (b : List Byte) : Nat := roundUp (4 * lK b) 64
def State.row32 (s : State) (d f : Nat) (b : List Byte) (oa n : Nat) : List Nat × Bool := s.codesAt d f (oa + n * rs32 b) 32 (lK b)
def State.rowSeen (s : State) (d f : Nat) (b : List Byte) (oa n : Nat) : State := s.faceSeen d f (oa + n * rs32 b) (4 * lK b)

/-- Largest value of a weight format (R85); of an integer format, the largest value it holds. -/
def wQmax (b : List Byte) (fc : Nat) : FV :=
  let f := fmtAt fc
  match f.lay with
  | some _ => fvNat f.qmax
  | none => fvNat (if lWsgn b then 2 ^ (f.width - 1) - 1 else 2 ^ f.width - 1)

/-- The planisher rotates a WCOPY's rows: FN0 or FN1, ROT not 0 (R101). -/
def State.copyRot (s : State) (b : List Byte) : Bool := decide (s.makeFine b < 2) && lRot b != 0

/-! ### MEASURE -/

/-- Channel n has been rotated: its amax goes to AUX_ADDR and into WAMAX. -/
def State.measureRow (s : State) (d f : Nat) (h : Held) (n : Nat) (vals : List Nat) (bad : Bool) : State :=
  let amax := f32 (amaxOf (vals.map fv32))
  let s := s.codeStore d f h.layer (s.ringAddr (dAux h.words) + 4 * n) (leBytes 4 amax) bad
  if bad then s else s.mergeWamax (lLayerId h.layer) s.copyStep amax
/-- Master rows of a WCOPY or OPT go through the planisher, or are finished at once. -/
def State.eachRow (s : State) (d f : Nat) (h : Held) (oa : Nat) (rot : Bool) (mode : Nat) (use : RowUse)
    (go : State → Nat → List Nat → Bool → State) : State :=
  let s := s.plMode d f (if rot then mode else 0) (lLayerId h.layer)
  (rangeRows h.words).foldl (fun s n =>
    let s := s.rowSeen d f h.layer oa n
    let x := s.row32 d f h.layer oa n
    if rot then s.plPush d f ⟨use, n, x.1, x.2⟩ else go s n x.1 x.2) s
def State.measure (s : State) (d f : Nat) (h : Held) : State :=
  s.eachRow d f h (s.ringAddr (dIn h.words)) (s.copyRot h.layer) 2 .measure (fun s n v bad => s.measureRow d f h n v bad)
def execDescWcopyMeasure (d : DieIx) (f : FaceIx) (s : State) : Res :=
  done s (s.descStart d.val f.val .measure (fun s h => s.measure d.val f.val h))

/-! ### MAKE -/

/-- S_T of the copy being made (R159). -/
def State.makeSt (s : State) (b : List Byte) : Nat :=
  pickTensor (fv32 (s.reg (STEER_ENTRY_W4 (lLayerId b)))) (wQmax b (wFmtOf (s.makeFine b) (lIfmt b)))
/-- Shadow sections are written, and the offset o_w of the running step (R143, R144). -/
def State.makeOw (s : State) (b : List Byte) : Option Nat :=
  if s.flag STEER_CTRL STEER_CTRL_SHADOW_EN && decide (s.makeFine b < 3) then
    some (s.drawSamp s.stepNum (lLayerId b) (lSampStrm b)).1
  else none

/-- A block of up to 32 elements of a channel: its UE8M0 code, codes, counts and the scaled values (R86, R467). -/
def wBlock (f : Fmt) (q : FV) (sgn zm : Bool) (c st : Nat) (vals : List Nat) : Nat × List Nat × ConvCnt × List FV :=
  let cs := (e4m3 c).mul (fv32 st)
  let pick := pickBlock (amaxOf (vals.map fv32)) (q.mul cs)
  let den := (ue8m0 pick.code).mul cs
  let x := vals.map (fun v => (fv32 v).div den)
  let r := x.foldl (fun (acc : List Nat × ConvCnt) v =>
    let k := fmtConvert f sgn zm .ne v
    (acc.1 ++ [k.1], acc.2.plus k.2)) ([], {})
  (pick.code, r.1, r.2.plus pick.cnt, x)

/-- Channel n has been rotated: its elements, scales and shadow rows are written into the free slot.  The slots stand at the layer's
WC_ADDR (R160), also where the descriptor's OUT_ADDR differs (DESIGN CHOICE; R159 has OUT_ADDR name slot 0). -/
def State.makeRow (s : State) (d f : Nat) (h : Held) (n : Nat) (vals : List Nat) (bad : Bool) : State :=
  let b := h.layer
  let fine := s.makeFine b
  let fc := wFmtOf fine (lIfmt b)
  let fm := fmtAt fc
  let w := fmtWidth fc
  let kp := lKp b
  let zm := lZmode b
  let q := wQmax b fc
  let st := s.makeSt b
  let s := s.faceSeen d f (s.ringAddr (dAux h.words) + 4 * n) 4
  let am := s.faceRead d f (s.ringAddr (dAux h.words) + 4 * n) 4
  let bad := bad || am.2
  let cn := pickE4m3 (fv32 (leNat am.1)) (q.mul (fv32 st))
  let slot := lWcSlotAddr b (s.wcFree b)
  let s := s.codeStore d f b (slot + wcCsOff (lN b) kp w + n) (leBytes 1 cn.code) bad
  let s := s.storeStat d f (lLayerId b) 0 cn.cnt [] []
  let tiles := ceilDiv (lN b) 32
  (List.range (kp / 32)).foldl (fun s i =>
    let v := (vals.drop (32 * i)).take 32
    let x := wBlock fm q (lWsgn b) zm cn.code st v
    let s := s.codeStore d f b (slot + 0x40 + n * wcRow kp w + 32 * i * w / 8) (packCodes w (fitRow 32 x.2.1)) bad
    let s := s.codeStore d f b (slot + wcBsOff (lN b) kp w + n * (kp / 32) + i) (leBytes 1 x.1) bad
    let s := s.storeStat d f (lLayerId b) v.length x.2.2.1 (v.map fv32) x.2.2.2
    match s.makeOw b with
    | none => s
    | some ow =>
      let t := i * tiles + n / 32
      if t % 64 ≠ ow then s
      else
        let sc := wFmtOf (fine + 1) 0
        let sw := fmtWidth sc
        let y := wBlock (fmtAt sc) (fvNat (fmtAt sc).qmax) true zm cn.code st v
        let e := slot + wcShOff (lN b) kp w + t / 64 * shEntry sw
        let s := s.codeStore d f b (e + n % 32) (leBytes 1 y.1) bad
        let s := s.codeStore d f b (e + 64 + n % 32 * (32 * sw / 8)) (packCodes sw (fitRow 32 y.2.1)) bad
        s.storeStat d f (lLayerId b) 0 y.2.2.1 [] y.2.2.2) s

/-- The header of a copy (R163). -/
def State.makeHead (s : State) (b : List Byte) (step sa : Nat) : List Byte :=
  let fine := s.makeFine b
  let fc := wFmtOf fine (lIfmt b)
  let w := fmtWidth fc
  let kp := lKp b
  let ow := s.makeOw b
  let cnt := match ow with | some o => shCountOf b fine o | none => 0
  let sf := if cnt = 0 then 15 else wFmtOf (fine + 1) 0
  leBytes 4 wcMagic ++ leBytes 4 step ++
  leBytes 4 (lLayerId b + fine * 2 ^ 12 + b2n (lFlock b) * 2 ^ 14 + lRot b * 2 ^ 15 + fc * 2 ^ 18 + sf * 2 ^ 22 + 2 ^ 26) ++
  leBytes 4 (s.makeSt b) ++ leBytes 4 sa ++ leBytes 4 (lK b) ++ leBytes 4 (lN b) ++ leBytes 4 (wcBsOff (lN b) kp w) ++
  leBytes 4 (wcCsOff (lN b) kp w) ++ leBytes 4 (wcShOff (lN b) kp w) ++ leBytes 4 cnt ++ leBytes 4 (ow.getD 0) ++ List.replicate 16 0
/-- S_A of the copy for the next step (R163): ACLIP of the home record over the QMAX of its fineness. -/
def State.makeSa (s : State) (b : List Byte) : Nat :=
  let fine := s.makeFine b
  let aclip := (s.homeRec (lLayerId b)).aclip
  if 2 ≤ fine ∨ aclip = 0 then 0x3F800000 else pickTensor (fv32 aclip) (fvNat (if fine = 0 then 6 else 448))

/-- MAKE: in a COMMIT phase the header is held for the close of the last one (R157). -/
def State.make (s : State) (d f : Nat) (h : Held) : State :=
  let b := h.layer
  let s := s.eachRow d f h (s.ringAddr (dIn h.words)) (s.copyRot b) 2 .make (fun s n v bad => s.makeRow d f h n v bad)
  if s.phaseKind ≠ 3 then s
  else
    let addr := lWcSlotAddr b (s.wcFree b)
    let hd : HeaderWrite := ⟨addr, s.makeHead b s.copyStep (s.makeSa b)⟩
    { s with eng := { s.eng with headers := s.eng.headers.filter (fun x => x.addr != addr) ++ [hd] } }
def execDescWcopyMake (d : DieIx) (f : FaceIx) (s : State) : Res :=
  done s (s.descStart d.val f.val .make (fun s h => s.make d.val f.val h))

/-! ### PUBLISH (R161) -/

/-- Open the steering entry of a layer (R158). -/
def State.steerOpen (s : State) (b : List Byte) : State :=
  let id := lLayerId b
  if s.steerValid id then s
  else
    let s := [STEER_ENTRY_W1 id, STEER_ENTRY_W2 id, STEER_ENTRY_W3 id, STEER_ENTRY_W5 id, STEER_ENTRY_W6 id].foldl
      (fun s a => s.setReg a 0) s
    s.setReg (STEER_ENTRY_W0 id) (steerOpenW0 b)
def State.publish (s : State) (d f : Nat) (h : Held) : State :=
  let b := h.layer
  let s := (s.plMode d f 0 (lLayerId b)).codeStore d f b (lWc b) (s.makeHead b s.stepNum 0x3F800000) false
  (s.steerOpen b).setFlag (STEER_ENTRY_W0 (lLayerId b)) STEER_ENTRY_W0_SLOT false
def execDescWcopyPublish (d : DieIx) (f : FaceIx) (s : State) : Res :=
  done s (s.descStart d.val f.val .publish (fun s h => s.publish d.val f.val h))

end Sys2Proof.Machine
end

