-- ==== Sys2Proof/Machine/Optim.lean ====
section
/-! DEFINITION. The optimizer (R192 to R194, R148, R202). -/

namespace Sys2Proof.Machine

/-- What one element's update needs beside its row values (R194). -/
structure OptArgs where
  moments : Bool
  beta1 : Nat
  beta2 : Nat
  eps   : Nat
  wd    : Nat
  lr    : Nat
  sync  : Nat
  t     : Nat
deriving DecidableEq, Repr

/-- One element: new master, first and second moment, and the update applied. -/
def optElem (a : OptArgs) (r w m v : Nat) : Nat × Nat × Nat × Nat :=
  let g := f32Div r (f32 (fvNat a.sync))
  if a.moments then
    let m := f32Add (f32Mul a.beta1 m) (f32Mul (f32Sub one32 a.beta1) g)
    let v := f32Add (f32Mul a.beta2 v) (f32Mul (f32Mul (f32Sub one32 a.beta2) g) g)
    let mh := f32Div m (f32Sub one32 (betaPow a.beta1 a.t))
    let vh := f32Div v (f32Sub one32 (betaPow a.beta2 a.t))
    let u := f32Div mh (f32Add (f32Sqrt vh) a.eps)
    let dw := f32Mul a.lr (f32Add u (f32Mul a.wd w))
    (f32Sub w dw, m, v, dw)
  else
    let m := f32Add (f32Mul a.beta1 m) g
    let dw := f32Mul a.lr (f32Add m (f32Mul a.wd w))
    (f32Sub w dw, m, v, dw)

/-- Entry of the learning-rate table for the step (R195). -/
def State.lrEntry (s : State) (d f : Nat) : List Byte × Bool :=
  s.faceRead d f (hLrAddr s.hdr + 4 * min s.stepNum (hLrLen s.hdr - 1)) 4
def State.optArgs (s : State) (d f : Nat) : OptArgs :=
  let h := s.hdr
  ⟨!hOptKind h, hBeta1 h, hBeta2 h, hEps h, hWdecay h, leNat (s.lrEntry d f).1, hSyncEvery h, s.reg STEP_COMMITS + 1⟩

/-- Add to the sums of a layer (R148). -/
def State.addUw (s : State) (id dw2 w2 : Nat) : State :=
  let cur := ((s.eng.uw.find? (fun e => e.1 == id)).map (fun e => e.2)).getD (0, 0)
  { s with eng := { s.eng with uw := mapInsert id (f32Add cur.1 dw2, f32Add cur.2 w2) (mapErase id s.eng.uw) } }

/-- A poisoned input: the step aborts, and the rest of the descriptor's rows are not updated (R202). -/
def State.optPoison (s : State) (d f : Nat) (b : List Byte) : State :=
  let s := s.setFace d f { s.face d f with rows := [] }
  (s.setFld (PL_STAT d f) PL_STAT_ROWBUF 0).localAbort acPoison (lLayerId b) 0x0301 STEP_EVENT 0

/-- Masters and moments of channel n as FP32 images, and whether one of the update's inputs is poisoned; `bad` is the reduced
gradient's poison (R202). -/
structure OptIn where
  w   : List Nat
  m   : List Nat
  v   : List Nat
  bad : Bool
deriving DecidableEq, Repr

def State.optIn (s : State) (d f : Nat) (h : Held) (n : Nat) (bad : Bool) : OptIn :=
  let b := h.layer
  let w := s.row32 d f b (dOut h.words) n
  let m := s.row32 d f b (dAux h.words) n
  let v := if hOptKind s.hdr then (List.replicate (lK b) 0, false) else s.row32 d f b (dAux h.words) (lN b + n)
  ⟨w.1, m.1, v.1, bad || w.2 || m.2 || v.2 || (s.lrEntry d f).2⟩

/-- What reading them does to the device. -/
def State.optSeen (s : State) (d f : Nat) (h : Held) (n : Nat) : State :=
  let b := h.layer
  let s := ((s.rowSeen d f b (dOut h.words) n).rowSeen d f b (dAux h.words) n)
  let s := if hOptKind s.hdr then s else s.rowSeen d f b (dAux h.words) (lN b + n)
  s.faceSeen d f (hLrAddr s.hdr + 4 * min s.stepNum (hLrLen s.hdr - 1)) 4
/-- Channel n is updated from its reduced gradient, unrotated. -/
def State.optRow (s : State) (d f : Nat) (h : Held) (n : Nat) (r : List Nat) (bad : Bool) : State :=
  let b := h.layer
  let s := s.optSeen d f h n
  let i := s.optIn d f h n bad
  if i.bad then s.optPoison d f b
  else
    let oa := dOut h.words
    let st := dAux h.words
    let a := s.optArgs d f
    let x := (List.range (lK b)).map (fun k => optElem a (r.getD k 0) (i.w.getD k 0) (i.m.getD k 0) (i.v.getD k 0))
    let row (l : List Nat) : List Byte := packCodes 32 (l.map (f32Store (lZmode b)))
    let s := s.faceStore d f (oa + n * rs32 b) (row (x.map (fun e => e.1))) false
    let s := s.faceStore d f (st + n * rs32 b) (row (x.map (fun e => e.2.1))) false
    let s := if a.moments then
        s.faceStore d f (st + (lN b + n) * rs32 b) (row (x.map (fun e => e.2.2.1))) false
      else s
    let sq (l : List Nat) : Nat := l.foldl (fun acc e => f32Add acc (f32Mul e e)) 0
    s.addUw (lLayerId b) (sq (x.map (fun e => e.2.2.2))) (sq i.w)
/-- Channels that need no rotation, in order; the first poisoned input ends the descriptor's updates. -/
def State.optRows (d f : Nat) (h : Held) : List Nat → State → State
  | [], s => s
  | n :: l, s =>
    let s := s.rowSeen d f h.layer (dIn h.words) n
    let x := s.row32 d f h.layer (dIn h.words) n
    let t := s.optRow d f h n x.1 x.2
    if (s.optIn d f h n x.2).bad then t else State.optRows d f h l t

/-- The planisher runs UNROT_W: the layer's copy is at FN0 or FN1 and its ROT is not 0 (R101). -/
def State.optRot (s : State) (b : List Byte) : Bool := decide (s.fineOf b < 2) && s.rotOf b != 0
def State.optRun (s : State) (d f : Nat) (h : Held) : State :=
  if s.optRot h.layer then s.eachRow d f h (dIn h.words) true 4 .opt (fun s _ _ _ => s)
  else State.optRows d f h (rangeRows h.words) (s.plMode d f 0 (lLayerId h.layer))
def execDescOpt (d : DieIx) (f : FaceIx) (s : State) : Res :=
  done s (s.descStart d.val f.val .opt (fun s h => s.optRun d.val f.val h))

end Sys2Proof.Machine
end

