-- ==== Sys2Proof/Machine/Planish.lean ====
section
/-! DEFINITION. The planisher (R100 to R124): rotation, the row procedure, its statistics, and the sign store. -/

namespace Sys2Proof.Machine

/-! ### rotation (R104 to R109) -/

/-- One butterfly stage of distance h over a list (its blocks of 2h in turn). -/
def butterfly (h : Nat) : Nat → List Nat → List Nat
  | 0, l => l
  | fuel + 1, l =>
    if l.isEmpty then []
    else
      let a := l.take h
      let b := (l.drop h).take h
      (a.zip b).map (fun p => f32Add p.1 p.2) ++ (a.zip b).map (fun p => f32Sub p.1 p.2) ++ butterfly h fuel (l.drop (2 * h))
/-- The first n stages, distances 1, 2, 4 and so on. -/
def stages : Nat → List Nat → List Nat
  | 0, l => l
  | n + 1, l => butterfly (2 ^ n) l.length (stages n l)
/-- FP32 multiply by 2^−e, with the sign of D. -/
def signScale (e : Nat) (neg : Bool) (x : Nat) : Nat :=
  let y := f32Mul x (f32 (.fin false 1 (-(e : Int))))
  if neg then f32 (fv32 y).minus else y
/-- Block exponent of a rotation: log2 B. -/
def rotLog (rot : Nat) : Nat := if rot = 0 then 0 else 4 + rot
/-- H × D with the scale before the butterflies (activation and weight forms), or D × H with sign and scale behind them. -/
def rotate (rot e : Nat) (inverse : Bool) (signs : List Bool) (l : List Nat) : List Nat :=
  let ds (l : List Nat) : List Nat := (l.zip signs).map (fun p => signScale e p.2 p.1)
  if inverse then ds (stages (rotLog rot) l) else stages (rotLog rot) (ds l)

/-! ### the row procedure (R112) -/

/-- Pairwise sum of a list, one level. -/
def pairSum : List Nat → List Nat
  | a :: b :: l => f32Add a b :: pairSum l
  | l => l
/-- The tree of 8 levels over a group of 256 places. -/
def treeSum (l : List Nat) : Nat := ((List.range 8).foldl (fun l _ => pairSum l) (fitRow 256 l)).headD 0
/-- Sum of squares over groups of 256 places, in group order. -/
def sumSquares (l : List Nat) : Nat :=
  let sq := l.map (fun x => if (fv32 x).isFin then f32Mul x x else 0)
  (List.range (ceilDiv l.length 256)).foldl (fun acc g => f32Add acc (treeSum ((sq.drop (256 * g)).take 256))) 0

/-- Candidates of a block, largest first, the lower index first among equals. -/
def candBefore (a b : Nat × FV) : Bool := if a.2.abs.leFin b.2.abs then b.2.abs.leFin a.2.abs && decide (a.1 < b.1) else true
def candPut (c : Nat × FV) : List (Nat × FV) → List (Nat × FV)
  | [] => [c]
  | x :: l => if candBefore c x then c :: x :: l else x :: candPut c l
def blockCands (tau : FV) (block : List (Nat × FV)) : List (Nat × FV) :=
  (block.filter (fun p => p.2.isFin && tau.ltFin p.2.abs)).foldl (fun l c => candPut c l) []

/-- What a planished row holds. -/
structure PlOut where
  codes : List Nat
  tok   : Nat
  /-- Outlier list entries. -/
  list  : List Nat
  /-- FP32 images of aclip and of r. -/
  aclip : Nat
  r     : Nat
  outl  : Nat
  ovf   : Nat
  cnt   : ConvCnt
  /-- Values after their scales, as they met a conversion. -/
  scaled : List FV
deriving DecidableEq, Repr

/-- The procedure of R112 on a rotated row: FN0 or FN1, outlier cap, clip multiple (E4M3 code), s_a. -/
def planish (fine ocap clipm sa : Nat) (zm : Bool) (y : List Nat) : PlOut :=
  let ocap := if fine = 0 then ocap else 0
  let f : Fmt := if fine = 0 then .fp4 else .e4m3
  let k := y.length
  let row := (List.range k).zip (y.map fv32)
  let rms := f32Sqrt (f32Div (sumSquares y) (f32 (fvNat k)))
  let tau : FV := if ocap = 0 then .inf false else fv32 (f32Mul (f32 (e4m3 clipm)) rms)
  let cands := (List.range (ceilDiv k 128)).map (fun b => blockCands tau ((row.drop (128 * b)).take 128))
  let out := cands.flatMap (fun c => (c.take ocap).map (fun p => p.1))
  let outer := cands.flatMap (fun c => (c.drop ocap).map (fun p => p.1))
  let top := amaxOf ((row.filter (fun p => !out.contains p.1)).map (fun p => p.2))
  let aclip := if tau.isFin && tau.leFin top then tau else top
  -- R89's scale of an all-zero group is for rows that leave nothing outside the lists; an aclip of 0 by tau alone is below 2^-9
  let pick : ScalePick := if aclip.isZero && !top.isZero then ⟨0x01, { und := 1 }⟩ else pickE4m3 aclip ((fvNat f.qmax).mul (fv32 sa))
  let r := f32 ((fvNat 1).div ((e4m3 pick.code).mul (fv32 sa)))
  let lists := (List.range cands.length).zip cands
  let entry (b : Nat) (i : Nat) : Nat × ConvCnt :=
    let c := fmtConvert .e4m3 true zm .ne (fv32 (f32Mul (y.getD i 0) r))
    (c.1 + (i - 128 * b) * 2 ^ 8 + 2 ^ 15, c.2)
  let rows := lists.map (fun p =>
    (((List.range 128).map (fun i => 128 * p.1 + i)).filter (fun i => ((p.2.take ocap).map (fun q => q.1)).contains i)).map (entry p.1))
  let list := rows.flatMap (fun l => fitRow ocap (l.map (fun e => e.1)))
  let elems := row.map (fun p =>
    if out.contains p.1 then ((0, {}) : Nat × ConvCnt)
    else if outer.contains p.1 then
      (b2n p.2.neg? * 2 ^ (f.width - 1) + (if fine = 0 then 7 else 0x7E), { sat := 1 })
    else fmtConvert f true zm .ne (fv32 (f32Mul (y.getD p.1 0) r)))
  let cnt := (elems ++ rows.flatMap (fun l => l)).foldl (fun c e => c.plus e.2) pick.cnt
  { codes := elems.map (fun e => e.1), tok := pick.code, list := list, aclip := f32 aclip, r := r, outl := out.length,
    ovf := outer.length, cnt := cnt,
    scaled := (row.filter (fun p => !outer.contains p.1)).map (fun p => fv32 (f32Mul (y.getD p.1 0) r)) }

/-! ### rows -/

/-- Signs of places 0 to n − 1 of a layer under the copy of a step. -/
def State.signs (s : State) (b : List Byte) (step n : Nat) : List Bool :=
  (List.range n).map (fun k => s.drawSign step (lLayerId b) (lRotsStrm b) k)
/-- The row at the head of the planisher may run: its layer does not rotate, or its signs are full (R108). -/
def State.rowReady (s : State) (d f : Nat) (h : Held) : Bool := (s.signNeed h).isNone || s.signsReady d f
/-- The row at the head leaves the planisher. -/
def State.plPop (s : State) (d f : Nat) : State :=
  let x := s.face d f
  let rows := x.rows.drop 1
  ((s.setFace d f { x with rows := rows }).setFld (PL_STAT d f) PL_STAT_ROWBUF (min 2 rows.length)).wake (16384 + 64 * d + f)
/-- Events of a row read from poisoned input, or that met an uncorrectable error (R122, R123). -/
def State.rowEvents (s : State) (d f : Nat) (poison ue : Bool) : State :=
  let s := if poison then s.raise (PL_EVENT d f) PL_EVENT_POISON_IN else s
  if ue then (s.raise (PL_EVENT d f) PL_EVENT_ROW_UE).fault 1 0x0103 (PL_EVENT d f) (64 * d + f) else s

/-- Clip multiple code of a layer on a face (R111). -/
def State.clipm (s : State) (d f : Nat) (b : List Byte) : Nat :=
  if lClipm b = 0 then s.fld (PL_CFG d f) PL_CFG_CLIPM_DEF else lClipm b

/-- One row is planished and written (R112, R117 to R121).  A row that an uncorrectable error ends still counts and adds its statistics,
which only poisoned input withholds (DESIGN CHOICE; R122 and R123 do not say). -/
def State.planishOne (s : State) (d f : Nat) (h : Held) (x : PlRow) (word : Nat) : State :=
  let ue := wordUe word
  let b := h.layer
  let fine := s.fineOf b
  let hd := match s.wcInUse b with | some (hd, _) => hd | none => []
  let kp := lKp b
  let rot := s.rotOf b
  let y := if rot = 0 then x.elems else rotate rot (rotF rot) false (s.signs b (whStep hd) kp) x.elems
  let ocap := ocapOf (lOcap b)
  let o := planish fine ocap (s.clipm d f b) (whSa hd) (lZmode b) y
  let w := if fine = 0 then 4 else 8
  let oa := s.ringAddr (dOut h.words)
  let rows := s.plRows d f oa
  let bad := x.poison || ue || wordPoison word
  let cap := ocapOf (effOcap b fine)
  let s := (s.plPop d f).rowEvents d f x.poison ue
  let s := s.codeStore d f b (oa + 0x40 + x.row * kp * w / 8) (packCodes w o.codes) bad
  let s := s.codeStore d f b (oa + plSOff rows kp w + x.row) (leBytes 1 o.tok) bad
  let s := if cap = 0 then s
    else s.codeStore d f b (oa + plLOff rows kp w + x.row * plLRow kp cap) (packCodes 16 o.list) bad
  let s := s.shRow d f b fine x.row (y.map (fun v => f32Mul v o.r)) bad x.poison
  let s := ((s.bump (PL_ROWS_LO d f) 1).bump (PL_OUTL_LO d f) o.outl).bump (PL_OVF_LO d f) o.ovf
  if x.poison then s.faceRec d f { layer := lLayerId b, poison := true }
  else
    (s.storeStat d f (lLayerId b) kp o.cnt (y.map fv32) o.scaled).faceRec d f
      { layer := lLayerId b, outl := o.outl, ovf := o.ovf, aclip := o.aclip }
def execPlanishRow (d : DieIx) (f : FaceIx) (word : Nat) (s : State) : Res :=
  let d := d.val
  let f := f.val
  done s (match s.runningHeld d f, (s.face d f).rows with
    | some h, x :: _ => if x.use == .planish && s.rowReady d f h then s.planishOne d f h x word else s
    | _, _ => s)

/-- One row of another mode is rotated and handed back to the vector unit. -/
def State.rotateOne (s : State) (d f : Nat) (h : Held) (x : PlRow) (word : Nat) : State :=
  let ue := wordUe word
  let b := h.layer
  let made := lRot b
  let rot := s.rotOf b
  let sg := match s.signNeed h with | some k => s.signs b k.2 x.elems.length | none => []
  let bad := x.poison || ue || wordPoison word
  let t := (s.plPop d f).rowEvents d f x.poison ue
  match x.use with
  | .planish => s
  | .gradIn => t.gradLoaded d f h x.row (rotate rot (rotF rot) true sg x.elems) bad
  | .measure => t.measureRow d f h x.row (rotate made (rotC made) false sg x.elems) bad
  | .make => t.makeRow d f h x.row (rotate made (rotC made) false sg x.elems) bad
  | .opt => t.optRow d f h x.row (rotate rot (rotC rot) true sg x.elems) bad
def execRotateRow (d : DieIx) (f : FaceIx) (word : Nat) (s : State) : Res :=
  let d := d.val
  let f := f.val
  done s (match s.runningHeld d f, (s.face d f).rows with
    | some h, x :: _ => if x.use != .planish && s.rowReady d f h then s.rotateOne d f h x word else s
    | _, _ => s)

/-! ### the sign store (R108) -/

/-- A half that is idle: not being filled, and serving no row of the running descriptor. -/
def State.halfIdle (s : State) (d f : Nat) (x : SignHalf) : Bool :=
  let busy := match s.runningHeld d f with
    | some h => (match s.signNeed h with | some k => x.serves k | none => false)
    | none => false
  (x.ready || x.layer.isNone) && !busy
/-- SIGN_FILL: the first held descriptor whose signs are in neither half takes the first idle half, an empty one before others. -/
def State.signFill (s : State) (d f : Nat) : State :=
  let x := s.face d f
  match (x.held.filterMap s.signNeed).find? (fun k => !x.signs0.serves k && !x.signs1.serves k) with
  | none => s
  | some k =>
    let new : SignHalf := ⟨some k.1, k.2, false⟩
    let i0 := s.halfIdle d f x.signs0
    let i1 := s.halfIdle d f x.signs1
    let use1 := i1 && (!i0 || (x.signs1.layer.isNone && x.signs0.layer.isSome))
    let s := if use1 then s.setFace d f { x with signs1 := new } else if i0 then s.setFace d f { x with signs0 := new } else s
    s.showSigns d f
def execSignFill (d : DieIx) (f : FaceIx) (s : State) : Res := done s (s.signFill d.val f.val)
/-- SIGN_FILL_DONE: the half being filled is full. -/
def State.signDone (s : State) (d f : Nat) : State :=
  let x := s.face d f
  let filling (h : SignHalf) : Bool := h.layer.isSome && !h.ready
  let s := if filling x.signs0 then s.setFace d f { x with signs0 := { x.signs0 with ready := true } }
    else if filling x.signs1 then s.setFace d f { x with signs1 := { x.signs1 with ready := true } } else s
  s.showSigns d f
def execSignFillDone (d : DieIx) (f : FaceIx) (s : State) : Res := done s (s.signDone d.val f.val)

end Sys2Proof.Machine
end

