-- ==== Sys2Proof/Machine/Trust.lean ====
section
/-! DEFINITION. Mailbox 2 (R406 to R408), attestation and link encryption (R409 to R412), the debug lock (R413) and the sideband
(R414). -/

namespace Sys2Proof.Machine

def stBadField : Nat := 0x12
def stNvmErr : Nat := 0x13
def stBadImage : Nat := 0x14
def stRefused : Nat := 0x15
def stNoImage : Nat := 0x16

/-- A FW_WRITE or CFG_WRITE runs (R408). -/
def State.longRuns (s : State) : Bool :=
  s.boot.fwWrite.isSome || (match s.boot.compact with | some c => c.src.isSome | none => false)
/-- A command of mailbox 2 runs: a long one, or a CFG_SET that was answered RUNNING (R408). -/
def State.mbox2Busy (s : State) : Bool := s.longRuns || s.boot.held.any (fun a => a.told)
/-- A final answer of mailbox 2. -/
def State.ans2 (s : State) (src : CmdSrc) (st : Nat) : State := s.answer 2 src (ansWord st 0)
/-- BUSY while a long command runs, else the command. -/
def State.unlessBusy (s : State) (src : CmdSrc) (f : State → CmdSrc → State) : State :=
  if s.mbox2Busy then s.ans2 src stBusy else f s src
/-- BUSY while a FW_WRITE or CFG_WRITE runs: a CFG_SET joins those held (R405). -/
def State.unlessLong (s : State) (src : CmdSrc) (f : State → CmdSrc → State) : State :=
  if s.longRuns then s.ans2 src stBusy else f s src

/-! ### the commands -/

/-- The configuration as stored: the image of the bank in use with its journal; with no bank, the defaults. -/
def State.cfgStored (s : State) : List Byte :=
  if s.noBank then defaultCfg else (bankReplay s.boot.nvm s.cfgBank).image
def State.cfgGetCmd (blk : List Byte) (s : State) (src : CmdSrc) : State :=
  let off := cbArg0 blk % 2 ^ 32
  let c := if bit (cbArg3 blk) 0 then s.cfgStored else s.boot.cfg
  if !fieldOk (cfgLen c) off then s.ans2 src stBadField
  else (s.srcPut src (s.blkOff 2 src + 0x20) ((c.drop off).take 4)).ans2 src stAccepted

def State.cfgSetCmd (blk : List Byte) (good : Bool) (s : State) (src : CmdSrc) : State :=
  let off := cbArg0 blk % 2 ^ 32
  if s.flag AON_CFG_STAT AON_CFG_STAT_DEFAULTS then s.ans2 src stNoImage
  else if !fieldOk s.storedLen off then s.ans2 src stBadField
  else
    -- an erase takes longer than the mailbox timer (R382)
    let told := match s.boot.compact with | some c => c.waiting | none => false
    let a : Append := ⟨src, off, cbArg2 blk, good, told⟩
    if s.boot.compact.isNone then s.append a
    else if 64 ≤ s.boot.held.length then s.ans2 src stBusy
    else
      let s := s.holdAppend a
      if told then s.ans2 src stRunning else s

/-- The image a command names (R406): the Foreman reads it from host memory, a member from its anchor's, and over the sideband it comes with
the command; none where a read has failed. -/
def State.imageOf (s : State) (src : CmdSrc) (code : Nat) (blk image : List Byte) : Option (List Byte) × State :=
  let n := imageLen code blk
  match src with
  | .own _ =>
    let o := cbArg0 blk
    (if s.hostLost o n then none else some (image.take n), s.hostSeen o n)
  | .forwarded c => (if c.lost then none else some (c.image.take n), s)
  | .sideband _ => (some (image.take n), s)

/-- CFG_WRITE: RUNNING, then the image is checked and written as a compaction with an empty journal. -/
def State.cfgWriteCmd (blk image : List Byte) (s : State) (src : CmdSrc) : State :=
  if s.boot.compact.isSome then s.ans2 src stBusy
  else
    let r := (s.ans2 src stRunning).imageOf src 0x32 blk image
    let img := r.1.getD []
    if !cfgGood img then r.2.ans2 src stBadImage
    else r.2.startCompact (img.take (cfgLen img)) (if s.noBank then 0 else 1 - s.cfgBank) (some src)

def State.cfgCompactCmd (s : State) (src : CmdSrc) : State :=
  if s.flag AON_CFG_STAT AON_CFG_STAT_DEFAULTS then s.ans2 src stNoImage else s.compactNow.ans2 src stAccepted

/-- FW_WRITE: RUNNING, then the slot that is not running is erased and written. -/
def State.fwWriteCmd (blk image : List Byte) (s : State) (src : CmdSrc) : State :=
  let r := (s.ans2 src stRunning).imageOf src 0x34 blk image
  { r.2 with boot := { r.2.boot with fwWrite := some (src, r.1.getD []),
                                     nvm := nvmErase s.boot.nvm (fwBase s.spareSlot) 0x400000 } }

/-- A fuse has been blown. -/
def State.blown (s : State) (f : Fuses) : State :=
  (({ s with boot := { s.boot with fuses := f } } : State).showFuses).raise AON_EVENT AON_EVENT_FUSE

def State.svnCommitCmd (s : State) (src : CmdSrc) : State :=
  if s.boot.fwSvn ≤ s.boot.fuses.svn then s.ans2 src stRefused
  else (s.blown { s.boot.fuses with svn := min 64 s.boot.fwSvn }).ans2 src stAccepted

/-- KEY_REVOKE is refused for the slot that signed the running image and for the last usable slot (R408). -/
def State.keyRevokeCmd (blk : List Byte) (s : State) (src : CmdSrc) : State :=
  let k := cbArg3 blk % 4
  let f := s.boot.fuses
  let left := (List.range 4).any (fun i => i != k && bit f.keyProg i && !bit f.keyRev i)
  if s.fld AON_BOOT_STAT AON_BOOT_STAT_KEY_SLOT = k ∨ !left then s.ans2 src stRefused
  else (s.blown { f with keyRev := f.keyRev ||| 2 ^ k }).ans2 src stAccepted

def State.dbgLockCmd (blk : List Byte) (s : State) (src : CmdSrc) : State :=
  if cbArg3 blk ≠ 0x4C4F434B then s.ans2 src stRefused
  else (s.blown { s.boot.fuses with dbgLock := true }).ans2 src stAccepted

/-- A command of mailbox 2 with its code. -/
def State.mbox2 (s : State) (code : Nat) (ring : Bool) (blk : List Byte) (f : List Byte → State → CmdSrc → State) : State :=
  s.serve 2 code ring blk (fun t b src => t.unlessBusy src (f b))

def execCfgGet (blk : List Byte) (s : State) : Res := done s (s.mbox2 0x30 true blk State.cfgGetCmd)
def execCfgSet (blk : List Byte) (good : Bool) (s : State) : Res :=
  done s (s.serve 2 0x31 true blk (fun t b src => t.unlessLong src (State.cfgSetCmd b good)))
def execCfgWrite (blk image : List Byte) (s : State) : Res := done s (s.mbox2 0x32 true blk (fun b => State.cfgWriteCmd b image))
def execCfgCompact (blk : List Byte) (s : State) : Res := done s (s.mbox2 0x33 false blk (fun _ => State.cfgCompactCmd))
def execFwWrite (blk image : List Byte) (s : State) : Res := done s (s.mbox2 0x34 true blk (fun b => State.fwWriteCmd b image))
def execSvnCommit (blk : List Byte) (s : State) : Res := done s (s.mbox2 0x35 false blk (fun _ => State.svnCommitCmd))
def execKeyRevoke (blk : List Byte) (s : State) : Res := done s (s.mbox2 0x36 true blk State.keyRevokeCmd)
def execDbgLockSet (blk : List Byte) (s : State) : Res := done s (s.mbox2 0x37 true blk State.dbgLockCmd)

/-! ### attestation (R409 to R412) -/

/-- A measurement (R410); index 4 is raw. -/
def State.measurement (s : State) (i : Nat) : Option (List Byte) :=
  let be (n : Nat) : List Byte := (leBytes 32 n).reverse
  match i with
  | 1 => some (be Config.romDigest)
  | 2 => some (be s.boot.fwMeas)
  | 3 => some (be (sha256 (cfgZeroCrc s.boot.cfg)))
  | 4 => some (leBytes 4 (s.reg AON_FUSE_KEYS) ++ leBytes 4 (s.reg AON_FUSE_SEC))
  | _ => none

/-- The responder: a message out over the path the request came on. -/
def State.spdmOut (s : State) (mctp : Bool) (v : List Byte) : State := s.emit (if mctp then .mctp v else .doe v)
def State.spdmSessions (s : State) : Nat := s.fld AON_SPDM_STAT AON_SPDM_STAT_SESSIONS
/-- The open sessions, and AON_SPDM_STAT.SESSIONS with them. -/
def State.setSessions (s : State) (l : List Bool) : State :=
  ({ s with boot := { s.boot with sessions := l } } : State).setFld AON_SPDM_STAT AON_SPDM_STAT_SESSIONS l.length
/-- CAPABILITIES: CERT, CHAL, MEAS with signature, ENCRYPT, MAC, KEY_EX, HBEAT and KEY_UPD, in the standard's bits; the rest is free. -/
def capabilities (free : List Byte) : List Byte := [0x12, 0x61, 0, 0, 0] ++ free.take 3 ++ leBytes 4 0x62D6 ++ free.drop 3
/-- ALGORITHMS: of what the requester supports, P-256, SHA-256, secp256r1 and AES-256-GCM, in the standard's bits. -/
def algorithms (asym hash dhe aead : Nat) (free : List Byte) : List Byte :=
  [0x12, 0x63] ++ free.take 8 ++ leBytes 4 (asym &&& 0x10) ++ leBytes 4 (hash &&& 1) ++ leBytes 2 (dhe &&& 8) ++ leBytes 2 (aead &&& 2) ++
  free.drop 8
/-- CERTIFICATE: a portion of slot 0's chain, and how much of the chain remains. -/
def certificate (chain : List Byte) (off len : Nat) : List Byte :=
  let d := (chain.drop off).take len
  [0x12, 0x02, 0, 0] ++ leBytes 2 d.length ++ leBytes 2 (chain.length - off - d.length) ++ d

/-- An SPDM request.  What the standard fills in is a free value; GET_VERSION reports 1.2 only.  Of the certificate slots there is slot 0
alone: the chain in the NVM's factory data. -/
def State.spdm (s : State) (mctp : Bool) (req : SpdmReq) : State :=
  let (n, t) := s.draw
  let free := Config.spdmAnswer n
  let chain := certChain s.boot.nvm
  let inDoe := !mctp && s.boot.sessions.contains false
  match req with
  | .getVersion => s.spdmOut mctp [0x10, 0x04, 0, 0, 0, 1, 0, 0x12]
  | .getCapabilities => t.spdmOut mctp (capabilities free)
  | .negotiateAlgorithms asym hash dhe aead => t.spdmOut mctp (algorithms asym hash dhe aead free)
  | .getDigests => s.spdmOut mctp ([0x12, 0x01, 0, 1] ++ (leBytes 32 (sha256 chain)).reverse)
  | .getCertificate slot off len =>
    if slot = 0 ∧ off < chain.length then s.spdmOut mctp (certificate chain off len) else t.spdmOut mctp free
  | .getMeasurement i =>
    match s.measurement i with
    | some v => t.spdmOut mctp (v ++ free)
    | none => t.spdmOut mctp free
  | .openSession =>
    (if s.boot.sessions.length < 2 then t.setSessions (s.boot.sessions ++ [mctp]) else t).spdmOut mctp free
  | .closeSession => (t.setSessions (s.boot.sessions.erase mctp)).spdmOut mctp free
  | .ideKeys =>
    -- IDE_KM runs in a session over DOE (R411)
    (if inDoe then t.setFlag AON_SPDM_STAT AON_SPDM_STAT_IDE_KEYS true else t).spdmOut mctp free
  | .ideStart lo hi =>
    if inDoe ∧ s.flag AON_SPDM_STAT AON_SPDM_STAT_IDE_KEYS ∧ s.flag HIF_STAT HIF_STAT_LINK_UP then
      (({ t with boot := { t.boot with ideRids := (lo, hi) } } : State).setFlag HIF_STAT HIF_STAT_IDE true).spdmOut mctp free
    else t.spdmOut mctp free
  | .other _ => t.spdmOut mctp free

/-- Over DOE the link must be up. -/
def execSpdmRequest (mctp : Bool) (req : SpdmReq) (s : State) : Res :=
  done s (if mctp || s.flag HIF_STAT HIF_STAT_LINK_UP then s.spdm mctp req else s)

/-- The stream stops: under IDE_REQ requests in flight to the host end, and BAR2 is refused again (R412). -/
def State.ideStop (s : State) : State :=
  if !s.flag HIF_STAT HIF_STAT_IDE then s
  else
    let s := s.setFlag HIF_STAT HIF_STAT_IDE false
    if s.boot.ideReq then s.endAllReqs else s
def execIdeStreamStop (s : State) : Res := done s s.ideStop

/-! ### sideband and test port (R413, R414) -/

/-- SMB_CFG of the configuration in effect; the ROM, which has read none, allows it. -/
def State.smbCfg (s : State) : Bool := s.boot.cfg.isEmpty || bit (s.cfgWord 0x34) 1

/-- A command word of mailbox 2 or 15 with its block inline. -/
def State.sideCommand (s : State) (m word : Nat) (blk image : List Byte) (good : Bool) : State :=
  let src := CmdSrc.sideband word
  let code := wCode word
  if m = 15 then
    (if code = 0xF0 then s.answer 15 src (ansWord stAccepted
        (s.fld PKG_ROLE PKG_ROLE_ROLE + 4 * b2n s.running + 8 * b2n (s.flag STEP_STAT STEP_STAT_HOLD)))
     else if s.stage = 15 then s else s.answer 15 src (ansWord stBadCmd 0))
  else if m ≠ 2 then s
  else if s.stage = 15 then (if code = 0x34 then s.unlessBusy src (State.fwWriteCmd blk image) else s)
  else if s.stage ≤ 1 then s
  else if !s.smbCfg then s.ans2 src stRefused
  else match code with
    | 0x30 => s.unlessBusy src (State.cfgGetCmd blk)
    | 0x31 => s.unlessLong src (State.cfgSetCmd blk good)
    | 0x32 => s.unlessBusy src (State.cfgWriteCmd blk image)
    | 0x33 => s.unlessBusy src State.cfgCompactCmd
    | 0x34 => s.unlessBusy src (State.fwWriteCmd blk image)
    | 0x35 => s.unlessBusy src State.svnCommitCmd
    | 0x36 => s.unlessBusy src (State.keyRevokeCmd blk)
    | 0x37 => s.unlessBusy src (State.dbgLockCmd blk)
    | _ => s.ans2 src stBadCmd

/-- A message over the sideband: in stage FAILED the ROM answers PING and FW_WRITE only (R414). -/
def State.smbus (s : State) : MctpMsg → State
  | .control _ => if s.stage = 15 then s else let (n, t) := s.draw; t.emit (.mctp (Config.mctpControl n))
  | .spdm r => if s.stage = 15 then s else s.spdm true r
  | .command m w blk image good => s.sideCommand m w blk image good
def execSmbusMctpMessage (msg : MctpMsg) (s : State) : Res := done s (s.smbus msg)

/-- The boundary register takes what is shifted in. -/
def State.setScan (s : State) (v : Nat) : State := { s with boot := { s.boot with scan := v } }
/-- A private debug instruction (R413): it reaches register space as the Foreman does; what it does in the Foreman no rule says. -/
def State.debugOp (s : State) : DebugOp → Res
  | .read off =>
    let r := s.wordRead .foreman .bar0 (off / 4 * 4)
    done s (r.2.emit (.jtag (r.1.getD 0)))
  | .write off v => done s (s.barPut .foreman .bar0 (off / 4 * 4) 4 v.toNat)
  | .foreman _ => .refused .privateDebug
/-- The test port: SAMPLE/PRELOAD shifts out the pins and shifts the boundary register in, EXTEST drives the pins from it; once DBG_LOCK is
blown a private instruction acts as BYPASS. -/
def execJtagInstruction (op : JtagOp) (s : State) : Res :=
  match op with
  | .bypass tdi => done s (s.emit (.jtag (b2n tdi)))
  | .idcode => done s (s.emit (.jtag Config.jtagIdcode))
  | .sample load => let (n, t) := s.draw; done s ((t.setScan load).emit (.jtag (Config.jtagSample n)))
  | .extest pins => done s (((s.emit (.jtag s.boot.scan)).setScan pins).emit (.jtag pins))
  | .debug op tdi =>
    if !s.boot.on then done s s
    else if s.boot.fuses.dbgLock then done s (s.emit (.jtag (b2n tdi)))
    else s.debugOp op

end Sys2Proof.Machine
end

