-- ==== Sys2Proof/Machine/Dispatch.lean ====
section
/-! DEFINITION. One arm per command: each calls that command's meaning. -/

namespace Sys2Proof.Machine

def exec (i : Instr) (s : State) : Host.Outcome State Fault Refusal :=
  match i with
  | .stepRun blk => Sys2Proof.Machine.execStepRun blk s
  | .stepStop => Sys2Proof.Machine.execStepStop s
  | .stepStart => Sys2Proof.Machine.execStepStart s
  | .microstepStart => Sys2Proof.Machine.execMicrostepStart s
  | .inputFillPoll => Sys2Proof.Machine.execInputFillPoll s
  | .faceClaim d f => Sys2Proof.Machine.execFaceClaim d f s
  | .faceClaimDisable d f q => Sys2Proof.Machine.execFaceClaimDisable d f q s
  | .descNop d f => Sys2Proof.Machine.execDescNop d f s
  | .descGemm d f => Sys2Proof.Machine.execDescGemm d f s
  | .descVecLayerData d f => Sys2Proof.Machine.execDescVecLayerData d f s
  | .descVecPlain d f => Sys2Proof.Machine.execDescVecPlain d f s
  | .descVecGradientPair d f => Sys2Proof.Machine.execDescVecGradientPair d f s
  | .descSend d f => Sys2Proof.Machine.execDescSend d f s
  | .descAttnFwd d f => Sys2Proof.Machine.execDescAttnFwd d f s
  | .descAttnBwdKv d f => Sys2Proof.Machine.execDescAttnBwdKv d f s
  | .descAttnBwdQ d f => Sys2Proof.Machine.execDescAttnBwdQ d f s
  | .descWcopyMeasure d f => Sys2Proof.Machine.execDescWcopyMeasure d f s
  | .descWcopyMake d f => Sys2Proof.Machine.execDescWcopyMake d f s
  | .descWcopyPublish d f => Sys2Proof.Machine.execDescWcopyPublish d f s
  | .descOpt d f => Sys2Proof.Machine.execDescOpt d f s
  | .descComplete d f => Sys2Proof.Machine.execDescComplete d f s
  | .tallyIncrement d t => Sys2Proof.Machine.execTallyIncrement d t s
  | .tallyAck d f => Sys2Proof.Machine.execTallyAck d f s
  | .passAccept d f b => Sys2Proof.Machine.execPassAccept d f b s
  | .passWave0 d f b cycle err => Sys2Proof.Machine.execPassWave0 d f b cycle err s
  | .sideLaneStart d f b cycle => Sys2Proof.Machine.execSideLaneStart d f b cycle s
  | .lateAdd d f b => Sys2Proof.Machine.execLateAdd d f b s
  | .parkRelease d f b word => Sys2Proof.Machine.execParkRelease d f b word s
  | .shadowUnit d f b => Sys2Proof.Machine.execShadowUnit d f b s
  | .benchDisable d f b q => Sys2Proof.Machine.execBenchDisable d f b q s
  | .planishRow d f word => Sys2Proof.Machine.execPlanishRow d f word s
  | .rotateRow d f word => Sys2Proof.Machine.execRotateRow d f word s
  | .signFill d f => Sys2Proof.Machine.execSignFill d f s
  | .signFillDone d f => Sys2Proof.Machine.execSignFillDone d f s
  | .assayRecordMerge d => Sys2Proof.Machine.execAssayRecordMerge d s
  | .packageBarrierClose c => Sys2Proof.Machine.execPackageBarrierClose c s
  | .assaySum p => Sys2Proof.Machine.execAssaySum p s
  | .assayAck p => Sys2Proof.Machine.execAssayAck p s
  | .steeringDecision => Sys2Proof.Machine.execSteeringDecision s
  | .steerEntryWrite l w v q => Sys2Proof.Machine.execSteerEntryWrite l w v q s
  | .c15Arrive => Sys2Proof.Machine.execC15Arrive s
  | .barPacket p => Sys2Proof.Machine.execBarPacket p s
  | .barResend => Sys2Proof.Machine.execBarResend s
  | .phaseWatchdog => Sys2Proof.Machine.execPhaseWatchdog s
  | .c15Watchdog => Sys2Proof.Machine.execC15Watchdog s
  | .stepAbandon q => Sys2Proof.Machine.execStepAbandon q s
  | .stepHold q => Sys2Proof.Machine.execStepHold q s
  | .dcReadNormal a n e => Sys2Proof.Machine.execDcReadNormal a n e s
  | .dcReadKeep a n e => Sys2Proof.Machine.execDcReadKeep a n e s
  | .dcReadStream a n e => Sys2Proof.Machine.execDcReadStream a n e s
  | .dcReadLastuse a n e => Sys2Proof.Machine.execDcReadLastuse a n e s
  | .dcWriteNormal a v poison e => Sys2Proof.Machine.execDcWriteNormal a v poison e s
  | .dcWriteKeep a v poison e => Sys2Proof.Machine.execDcWriteKeep a v poison e s
  | .dcWriteStream a v poison e => Sys2Proof.Machine.execDcWriteStream a v poison e s
  | .dcWriteLastuse a v poison e => Sys2Proof.Machine.execDcWriteLastuse a v poison e s
  | .dramReadDone a errs => Sys2Proof.Machine.execDramReadDone a errs s
  | .mendComplete fetched => Sys2Proof.Machine.execMendComplete fetched s
  | .refreshDue d ch busy => Sys2Proof.Machine.execRefreshDue d ch busy s
  | .refreshPostponedIssue d ch => Sys2Proof.Machine.execRefreshPostponedIssue d ch s
  | .rowIdlePrecharge d ch bank => Sys2Proof.Machine.execRowIdlePrecharge d ch bank s
  | .patrolScrub d ch errs written => Sys2Proof.Machine.execPatrolScrub d ch errs written s
  | .thermalReading d temps => Sys2Proof.Machine.execThermalReading d temps s
  | .graceLimit d => Sys2Proof.Machine.execGraceLimit d s
  | .dcFlush d c q => Sys2Proof.Machine.execDcFlush d c q s
  | .dcFlushDone d c => Sys2Proof.Machine.execDcFlushDone d c s
  | .streamLineRead d f x load freed => Sys2Proof.Machine.execStreamLineRead d f x load freed s
  | .streamLineReturn d f x line ended => Sys2Proof.Machine.execStreamLineReturn d f x line ended s
  | .streamLineStore d f x load => Sys2Proof.Machine.execStreamLineStore d f x load s
  | .streamStoreAck d f x => Sys2Proof.Machine.execStreamStoreAck d f x s
  | .objCreate blk => Sys2Proof.Machine.execObjCreate blk s
  | .objFree blk => Sys2Proof.Machine.execObjFree blk s
  | .regionAdd blk => Sys2Proof.Machine.execRegionAdd blk s
  | .regionDel blk => Sys2Proof.Machine.execRegionDel blk s
  | .reserve blk => Sys2Proof.Machine.execReserve blk s
  | .evacuate blk => Sys2Proof.Machine.execEvacuate blk s
  | .evacuateDone => Sys2Proof.Machine.execEvacuateDone s
  | .aliasSet blk => Sys2Proof.Machine.execAliasSet blk s
  | .objectResolve oa write face ue => Sys2Proof.Machine.execObjectResolve oa write face ue s
  | .staleReply p => Sys2Proof.Machine.execStaleReply p s
  | .ageSweep => Sys2Proof.Machine.execAgeSweep s
  | .migData p => Sys2Proof.Machine.execMigData p s
  | .migDone p => Sys2Proof.Machine.execMigDone p s
  | .moveSwitch => Sys2Proof.Machine.execMoveSwitch s
  | .frameMapRebuildDone g => Sys2Proof.Machine.execFrameMapRebuildDone g s
  | .ledLookup p ue => Sys2Proof.Machine.execLedLookup p ue s
  | .ledProxyAnswer p => Sys2Proof.Machine.execLedProxyAnswer p s
  | .ledReplicaAdd p => Sys2Proof.Machine.execLedReplicaAdd p s
  | .ledReplicaDrop p => Sys2Proof.Machine.execLedReplicaDrop p s
  | .ledPoisonNotice p => Sys2Proof.Machine.execLedPoisonNotice p s
  | .ledPlaceSpill p => Sys2Proof.Machine.execLedPlaceSpill p s
  | .ledFreeNotice p => Sys2Proof.Machine.execLedFreeNotice p s
  | .ledEntryTransfer p => Sys2Proof.Machine.execLedEntryTransfer p s
  | .linkDetectDone l found => Sys2Proof.Machine.execLinkDetectDone l found s
  | .linkTrainDone l passed eyeH eyeW => Sys2Proof.Machine.execLinkTrainDone l passed eyeH eyeW s
  | .linkCheck l far => Sys2Proof.Machine.execLinkCheck l far s
  | .linkHealthCheck l eyeH eyeW hour => Sys2Proof.Machine.execLinkHealthCheck l eyeH eyeW hour s
  | .linkRetrain l q => Sys2Proof.Machine.execLinkRetrain l q s
  | .linkEnableWrite l en q => Sys2Proof.Machine.execLinkEnableWrite l en q s
  | .seqFlitReceive l vc bytes seq errs => Sys2Proof.Machine.execSeqFlitReceive l vc bytes seq errs s
  | .lctlReceive l kind ack nak cred errs => Sys2Proof.Machine.execLctlReceive l kind ack nak cred errs s
  | .lctlSend l => Sys2Proof.Machine.execLctlSend l s
  | .nakRepeat l => Sys2Proof.Machine.execNakRepeat l s
  | .linkDown l => Sys2Proof.Machine.execLinkDown l s
  | .resync p => Sys2Proof.Machine.execResync p s
  | .packetForward p fromLink => Sys2Proof.Machine.execPacketForward p fromLink s
  | .escWait p => Sys2Proof.Machine.execEscWait p s
  | .deliveryFailResponse p => Sys2Proof.Machine.execDeliveryFailResponse p s
  | .rd p => Sys2Proof.Machine.execRd p s
  | .rdResponse p => Sys2Proof.Machine.execRdResponse p s
  | .wr p => Sys2Proof.Machine.execWr p s
  | .wrResponse p => Sys2Proof.Machine.execWrResponse p s
  | .acc d c p => Sys2Proof.Machine.execAcc d c p s
  | .accb d c p => Sys2Proof.Machine.execAccb d c p s
  | .jobDone p => Sys2Proof.Machine.execJobDone p s
  | .cruDeadline job => Sys2Proof.Machine.execCruDeadline job s
  | .dbl p => Sys2Proof.Machine.execDbl p s
  | .mboxFwd p => Sys2Proof.Machine.execMboxFwd p s
  | .faultFwd p => Sys2Proof.Machine.execFaultFwd p s
  | .arbAgingPromote arbiter requester => Sys2Proof.Machine.execArbAgingPromote arbiter requester s
  | .pcieNoflitRetry => Sys2Proof.Machine.execPcieNoflitRetry s
  | .d3hotEntry => Sys2Proof.Machine.execD3hotEntry s
  | .d0Return => Sys2Proof.Machine.execD0Return s
  | .bar2Read off n ide => Sys2Proof.Machine.execBar2Read off n ide s
  | .bar2Write off v poison ide => Sys2Proof.Machine.execBar2Write off v poison ide s
  | .peerWindowAccess off n v => Sys2Proof.Machine.execPeerWindowAccess off n v s
  | .pcieCompletion tag st v => Sys2Proof.Machine.execPcieCompletion tag st v s
  | .pcieCompletionTimeout tag => Sys2Proof.Machine.execPcieCompletionTimeout tag s
  | .registerWrite q space off size v => Sys2Proof.Machine.execRegisterWrite q space off size v s
  | .sequenceClear q off v => Sys2Proof.Machine.execSequenceClear q off v s
  | .summaryRead q a => Sys2Proof.Machine.execSummaryRead q a s
  | .bitAliasWrite q off b v => Sys2Proof.Machine.execBitAliasWrite q off b v s
  | .pairLoRead q off => Sys2Proof.Machine.execPairLoRead q off s
  | .pairHiRead q off => Sys2Proof.Machine.execPairHiRead q off s
  | .pairLoWrite q off v => Sys2Proof.Machine.execPairLoWrite q off v s
  | .pairHiWrite q off v => Sys2Proof.Machine.execPairHiWrite q off v s
  | .guardFirstHalf q off v => Sys2Proof.Machine.execGuardFirstHalf q off v s
  | .guardPairExpire q => Sys2Proof.Machine.execGuardPairExpire q s
  | .sprKeyWrite q j v => Sys2Proof.Machine.execSprKeyWrite q j v s
  | .regParityScrub off => Sys2Proof.Machine.execRegParityScrub off s
  | .h2fWrite m v => Sys2Proof.Machine.execH2fWrite m v s
  | .f2hRead m => Sys2Proof.Machine.execF2hRead m s
  | .mailboxTimeout m => Sys2Proof.Machine.execMailboxTimeout m s
  | .ping m => Sys2Proof.Machine.execPing m s
  | .mailboxForward m => Sys2Proof.Machine.execMailboxForward m s
  | .forwardAnswerTimeout m => Sys2Proof.Machine.execForwardAnswerTimeout m s
  | .h2dWrite d v => Sys2Proof.Machine.execH2dWrite d v s
  | .d2hRead d => Sys2Proof.Machine.execD2hRead d s
  | .diePing d => Sys2Proof.Machine.execDiePing d s
  | .dieFlush d => Sys2Proof.Machine.execDieFlush d s
  | .dieQuiesce d => Sys2Proof.Machine.execDieQuiesce d s
  | .dbCountRead j => Sys2Proof.Machine.execDbCountRead j s
  | .powerOnReset => Sys2Proof.Machine.execPowerOnReset s
  | .fundamentalReset hot => Sys2Proof.Machine.execFundamentalReset hot s
  | .warmReset q v => Sys2Proof.Machine.execWarmReset q v s
  | .firmwareStart => Sys2Proof.Machine.execFirmwareStart s
  | .domainPowerGood pd => Sys2Proof.Machine.execDomainPowerGood pd s
  | .powerGoodTimeout pd => Sys2Proof.Machine.execPowerGoodTimeout pd s
  | .dramChannelTrained d ch passed => Sys2Proof.Machine.execDramChannelTrained d ch passed s
  | .ledgerClearDone => Sys2Proof.Machine.execLedgerClearDone s
  | .cfgGet blk => Sys2Proof.Machine.execCfgGet blk s
  | .cfgSet blk good => Sys2Proof.Machine.execCfgSet blk good s
  | .cfgWrite blk image => Sys2Proof.Machine.execCfgWrite blk image s
  | .cfgCompact blk => Sys2Proof.Machine.execCfgCompact blk s
  | .fwWrite blk image => Sys2Proof.Machine.execFwWrite blk image s
  | .svnCommit blk => Sys2Proof.Machine.execSvnCommit blk s
  | .keyRevoke blk => Sys2Proof.Machine.execKeyRevoke blk s
  | .dbgLockSet blk => Sys2Proof.Machine.execDbgLockSet blk s
  | .nvmWriteDone failed => Sys2Proof.Machine.execNvmWriteDone failed s
  | .nvmEraseDone => Sys2Proof.Machine.execNvmEraseDone s
  | .spdmRequest mctp req => Sys2Proof.Machine.execSpdmRequest mctp req s
  | .ideStreamStop => Sys2Proof.Machine.execIdeStreamStop s
  | .smbusMctpMessage msg => Sys2Proof.Machine.execSmbusMctpMessage msg s
  | .jtagInstruction op => Sys2Proof.Machine.execJtagInstruction op s
  | .hallmarkSample d skip => Sys2Proof.Machine.execHallmarkSample d skip s
  | .ringConsumerWrite hallmark v q => Sys2Proof.Machine.execRingConsumerWrite hallmark v q s
  | .traceLinkDetect found => Sys2Proof.Machine.execTraceLinkDetect found s
  | .traceEnableWrite v q => Sys2Proof.Machine.execTraceEnableWrite v q s
  | .trcMarkWrite v q => Sys2Proof.Machine.execTrcMarkWrite v q s
  | .dumpEnd => Sys2Proof.Machine.execDumpEnd s
  | .faultLog blk => Sys2Proof.Machine.execFaultLog blk s
  | .dumpNow blk => Sys2Proof.Machine.execDumpNow blk s
  | .faultLimitWindow => Sys2Proof.Machine.execFaultLimitWindow s
  | .opSet blk => Sys2Proof.Machine.execOpSet blk s
  | .limitSet blk => Sys2Proof.Machine.execLimitSet blk s
  | .pwrGet blk => Sys2Proof.Machine.execPwrGet blk s
  | .governorTick => Sys2Proof.Machine.execGovernorTick s
  | .pointRampDone => Sys2Proof.Machine.execPointRampDone s
  | .coolOkChange level => Sys2Proof.Machine.execCoolOkChange level s
  | .pwrCapAssert => Sys2Proof.Machine.execPwrCapAssert s
  | .pwrCapRelease => Sys2Proof.Machine.execPwrCapRelease s
  | .capDeadline => Sys2Proof.Machine.execCapDeadline s
  | .regulatorPoll r rd good => Sys2Proof.Machine.execRegulatorPoll r rd good s
  | .pmbAlert status => Sys2Proof.Machine.execPmbAlert status s
  | .dieTempReading temps => Sys2Proof.Machine.execDieTempReading temps s
  | .thermtrip sensor => Sys2Proof.Machine.execThermtrip sensor s
  | .railFault rail => Sys2Proof.Machine.execRailFault rail s
  | .refclkLoss => Sys2Proof.Machine.execRefclkLoss s
  | .perstNDeassert => Sys2Proof.Machine.execPerstNDeassert s
  | .pcieReadyDeadline => Sys2Proof.Machine.execPcieReadyDeadline s
  | .pcieLinkUp width rate l0p flit => Sys2Proof.Machine.execPcieLinkUp width rate l0p flit s
  | .pcieLinkDown => Sys2Proof.Machine.execPcieLinkDown s
  | .standbySupplyLoss => Sys2Proof.Machine.execStandbySupplyLoss s
  | .hotCapWindow d ch => Sys2Proof.Machine.execHotCapWindow d ch s
  | .unitIdleGate unit => Sys2Proof.Machine.execUnitIdleGate unit s
  | .domainIdleGating pd gate => Sys2Proof.Machine.execDomainIdleGating pd gate s
  | .resyncResponse p => Sys2Proof.Machine.execResyncResponse p s

end Sys2Proof.Machine
end

