-- ==== Sys2Proof/Machine/Idle.lean ====
section
/-! DEFINITION. What the device does with no command waiting: UP links send IDLE flits (R277), and the trace FIFO drains one packet
(R430). -/

namespace Sys2Proof.Machine

/-- The 64 bytes of a trace packet on the port (R428). -/
def tracePacket (s : State) (p : TracePkt) : List Byte :=
  leBytes 2 (p.kind + b2n s.obs.trunc * 2 ^ 8) ++ leBytes 2 s.obs.pseq ++ leBytes 4 (s.devId + s.obs.lost * 2 ^ 12) ++
  leBytes 8 p.time ++ leBytes 48 p.payload

/-- The oldest packet of the FIFO leaves: on the port while its far end is there, else into nothing and counted (R430).  The first packet after a dump
carries TRUNC (R434). -/
def State.drainTrace (s : State) : State :=
  match s.obs.fifo with
  | [] => s
  | p :: rest =>
    let s := if s.obs.trunc && s.flag TRC_STAT TRC_STAT_LINK then s.raise TRC_EVENT TRC_EVENT_TRUNC else s
    let t : State :=
      if s.flag TRC_STAT TRC_STAT_LINK then
        { (s.emit (.trace (tracePacket s p))) with
          obs := { s.obs with fifo := rest, pseq := (s.obs.pseq + 1) % 65536, lost := 0, trunc := false } }
      else { (s.bump TRC_DROP_LO 1) with obs := { s.obs with fifo := rest, lost := satAdd 16 s.obs.lost 1 } }
    t.setFld TRC_STAT TRC_STAT_FIFO rest.length

/-- A step of an empty queue. -/
def idle (s : State) : Res := done s s.sendIdles.drainTrace

end Sys2Proof.Machine
end

