-- ==== Sys2Proof/WellFormed.lean ====
section
/-! DEFINITION. Which commands are well formed: what the operands of a command must satisfy for the event to be one of the
spec's.  Unit numbers are bounded by their types; what is left is here. -/

namespace Sys2Proof

/-- An access of a die-cache row: not empty, within DRAM (R205) and within one 256-byte line (R219). -/
def wfLine (a n : Nat) : Bool := decide (0 < n) && decide (a + n ≤ 0x20000000000) && a / 256 == (a + n - 1) / 256

/-- A fabric packet: header fields within their widths and at most 32 data flits (R281). -/
def Packet.wf (p : Packet) : Bool :=
  decide (p.type < 16) && decide (p.vc < 9) && decide (p.src < 4096) && decide (p.dst < 4096) && decide (p.hops < 256) &&
  decide (p.tag < 65536) && decide (p.addr < 2 ^ 64) && decide (p.data.length ≤ 1024)

/-- A 32-bit access at an aligned offset (R367). -/
def wfOff (off : Nat) : Bool := off % 4 == 0

/-- Bits in error of 80-bit protected words (R215). -/
def wfWords (l : List Nat) : Bool := l.all (fun m => decide (m < 2 ^ 80))
/-- The same, of the staging entries a command reads. -/
def wfStage (l : List (Nat × List Nat)) : Bool := l.all (fun x => wfWords x.2)

/-- Well-formedness of a command. -/
def Instr.wf : Instr → Bool
  | .stepRun b => b.length == 64
  | .assaySum p | .assayAck p | .barPacket p | .staleReply p | .migData p | .migDone p | .ledLookup p _ | .ledProxyAnswer p
  | .ledReplicaAdd p | .ledReplicaDrop p | .ledPoisonNotice p | .ledPlaceSpill p | .ledFreeNotice p | .ledEntryTransfer p
  | .resync p | .packetForward p _ | .escWait p | .deliveryFailResponse p | .rd p | .rdResponse p | .wr p | .wrResponse p
  | .dbl p | .mboxFwd p | .faultFwd p | .resyncResponse p => p.wf
  | .acc _ _ p | .accb _ _ p | .jobDone p => p.val.wf && wfStage p.ue
  | .cruDeadline j => wfStage j.ue
  | .lctlReceive _ _ _ _ _ e => decide (e.length ≤ 4) && wfWords e
  | .dcReadNormal a n _ | .dcReadKeep a n _ | .dcReadStream a n _ | .dcReadLastuse a n _ => wfLine a n
  | .dcWriteNormal a v _ _ | .dcWriteKeep a v _ _ | .dcWriteStream a v _ _ | .dcWriteLastuse a v _ _ => wfLine a v.length
  | .dramReadDone a _ => decide (a < 0x20000000000)
  | .objCreate b | .objFree b | .regionAdd b | .regionDel b | .reserve b | .evacuate b | .aliasSet b | .cfgGet b | .cfgSet b _
  | .cfgWrite b _ | .cfgCompact b | .fwWrite b _ | .svnCommit b | .keyRevoke b | .dbgLockSet b | .faultLog b | .dumpNow b
  | .opSet b | .limitSet b | .pwrGet b => b.length == 64
  | .sequenceClear _ off _ | .bitAliasWrite _ off _ _ | .pairLoRead _ off | .pairHiRead _ off
  | .pairLoWrite _ off _ | .pairHiWrite _ off _ | .guardFirstHalf _ off _ | .regParityScrub off => wfOff off
  | .mendComplete f => match f with | some l => l.length == 65536 | none => true
  | .thermalReading _ t => t.length == 8
  | .dieTempReading t => t.length == 68
  | .pmbAlert l => l.length == 16
  | .passAccept _ _ b | .lateAdd _ _ b => decide (b.word < 2 ^ 80)
  | .parkRelease _ _ _ w | .planishRow _ _ w | .rotateRow _ _ w => decide (w < 2 ^ 80)
  | .passWave0 _ _ _ _ e => match e with | .store w => decide (w < 2 ^ 80) | .none => true | .winOvf => true
  | .seqFlitReceive _ _ b _ e => b.length == 32 && e.length == 4 && wfWords e
  | .stepStop | .stepStart | .microstepStart | .inputFillPoll | .faceClaim _ _ | .faceClaimDisable _ _ _ | .descNop _ _
  | .descGemm _ _ | .descVecLayerData _ _ | .descVecPlain _ _ | .descVecGradientPair _ _ | .descSend _ _ | .descAttnFwd _ _
  | .descAttnBwdKv _ _ | .descAttnBwdQ _ _ | .descWcopyMeasure _ _ | .descWcopyMake _ _ | .descWcopyPublish _ _
  | .descOpt _ _ | .descComplete _ _ | .tallyIncrement _ _ | .tallyAck _ _
  | .sideLaneStart _ _ _ _ | .shadowUnit _ _ _ | .benchDisable _ _ _ _
  | .signFill _ _ | .signFillDone _ _ | .assayRecordMerge _ | .packageBarrierClose _
  | .steeringDecision | .steerEntryWrite _ _ _ _ | .c15Arrive | .barResend | .phaseWatchdog | .c15Watchdog | .stepAbandon _
  | .stepHold _ | .refreshDue _ _ _ | .refreshPostponedIssue _ _ | .rowIdlePrecharge _ _ _ | .patrolScrub _ _ _ _
  | .graceLimit _ | .dcFlush _ _ _ | .dcFlushDone _ _ | .streamLineRead _ _ _ _ _ | .streamLineReturn _ _ _ _ _
  | .streamLineStore _ _ _ _ | .streamStoreAck _ _ _ | .evacuateDone | .objectResolve _ _ _ _ | .ageSweep | .moveSwitch
  | .frameMapRebuildDone _ | .linkDetectDone _ _ | .linkTrainDone _ _ _ _ | .linkCheck _ _ | .linkHealthCheck _ _ _ _
  | .linkRetrain _ _ | .linkEnableWrite _ _ _ | .lctlSend _ | .nakRepeat _ | .linkDown _
  | .arbAgingPromote _ _ | .pcieNoflitRetry | .d3hotEntry | .d0Return | .bar2Read _ _ _ | .bar2Write _ _ _ _
  | .peerWindowAccess _ _ _ | .pcieCompletion _ _ _ | .pcieCompletionTimeout _ | .registerWrite _ _ _ _ _ | .summaryRead _ _
  | .guardPairExpire _ | .sprKeyWrite _ _ _ | .h2fWrite _ _ | .f2hRead _ | .mailboxTimeout _ | .ping _ | .mailboxForward _
  | .forwardAnswerTimeout _ | .h2dWrite _ _ | .d2hRead _ | .diePing _ | .dieFlush _ | .dieQuiesce _ | .dbCountRead _
  | .powerOnReset | .fundamentalReset _ | .warmReset _ _ | .firmwareStart | .domainPowerGood _ | .powerGoodTimeout _
  | .dramChannelTrained _ _ _ | .ledgerClearDone | .nvmWriteDone _ | .nvmEraseDone | .spdmRequest _ _ | .ideStreamStop
  | .smbusMctpMessage _ | .jtagInstruction _ | .hallmarkSample _ _ | .ringConsumerWrite _ _ _ | .traceLinkDetect _
  | .traceEnableWrite _ _ | .trcMarkWrite _ _ | .dumpEnd | .faultLimitWindow | .governorTick | .pointRampDone
  | .coolOkChange _ | .pwrCapAssert | .pwrCapRelease | .capDeadline | .regulatorPoll _ _ _ | .thermtrip _ | .railFault _
  | .refclkLoss | .perstNDeassert | .pcieReadyDeadline | .pcieLinkUp _ _ _ _ | .pcieLinkDown | .standbySupplyLoss
  | .hotCapWindow _ _ | .unitIdleGate _ | .domainIdleGating _ _ => true

end Sys2Proof
end

