-- ==== Sys2Proof/Safety.lean ====
section
/-! DEFINITION. The terms claims are stated in: canonical memory and registers, and what a command leaves as it was. -/

namespace Sys2Proof

open Sys2Proof.Machine

/-- Memory lists its bytes by strictly rising address and lists none that reads 0. -/
abbrev Memory.wf (m : List Host.Cell) : Bool := mapWf (fun _ => (0 : Byte)) m

/-- Registers likewise: no register that stands at its reset value is listed. -/
abbrev Registers.wf (r : List (Nat × Word)) : Bool := mapWf regReset r

/-- The canonical form of a state: well-formed commands wait, and memory and registers list what differs from what an unlisted
place reads as, in rising order. -/
def canonical (s : State) : Prop := s.pending.all Instr.wf = true ∧ Memory.wf s.mem = true ∧ Registers.wf s.regs = true

/-- A step is safe where it answers a next state. -/
def safeStep (s : State) : Prop := ∃ t, Machine.step s = .next t

/-- The byte of the local address space at `a`, as a reader sees it. -/
def byteAt (s : State) (a : Nat) : Byte := mapGet (fun _ => (0 : Byte)) a s.mem

/-- Every register outside the list reads as before. -/
def regsKept (s t : State) (l : List Nat) : Prop := ∀ a, a ∉ l → t.reg a = s.reg a

/-- Every byte outside [lo, lo + n) reads as before. -/
def bytesKept (s t : State) (lo n : Nat) : Prop := ∀ a, (a < lo ∨ lo + n ≤ a) → byteAt t a = byteAt s a

/-- Nothing but registers and what left the device differs: no memory, no unit record, no queue. -/
def onlyRegs (s t : State) : Prop := t = { s with regs := t.regs, out := t.out }

/-- The hit and miss counters of the slices, which every access of the device to its DRAM may count in (R221). -/
def cacheRegs : List Nat :=
  (List.range 128).flatMap (fun i =>
    [DC_HIT_LO (i / 8) (i % 8), DC_HIT_LO (i / 8) (i % 8) + 4, DC_MISS_LO (i / 8) (i % 8), DC_MISS_LO (i / 8) (i % 8) + 4])

/-- The pending-bit words of MSI-X. -/
def pbaRegs : List Nat := (List.range 16).map MSIX_PBA

/-- The registers beside the event register at `a` that raising its flags may change: the summaries above it (R371) and the
pending bits of MSI-X (R387). -/
def sumRegs (a : Nat) : List Nat :=
  [PKG_EVENT_SUM] ++
  (match dieOf a with
   | some (d, _) => [DIE_EVENT_SUM d, DIE_FACE_SUM_0 d, DIE_FACE_SUM_1 d]
   | none => []) ++ pbaRegs

/-- The state `t` with the queue of `s`: what a command leaves (its effect never touches the queue). -/
def queued (s t : State) : State := { t with pending := s.pending }

/-- The number a finite value stands for; 0 for the others. -/
def FV.rat : FV → ℚ
  | .fin n m e => (if n then -1 else 1) * (m : ℚ) * (2 : ℚ) ^ e
  | _ => 0

/-- The exact product of two finite operands (R38). -/
def prodRat (a w : Opd) : ℚ := (if a.neg != w.neg then -1 else 1) * (a.u : ℚ) * (w.u : ℚ) * (2 : ℚ) ^ (a.t + w.t)

/-- Face f of die d takes descriptor ix of slot p out of its die's window: its words and its layer entry are read, it is granted to
the face, and the window takes in the next of the list. -/
def claiming (s : State) (p : Slot) (d f ix : Nat) : State :=
  let w := (s.descAt p ix).1
  let u := ((s.memSeen (p.descAddr ix) 64).memSeen (p.layerAddr (dLayer w)) 128).rotNext (claimArb d) f 64
  (u.setDie d { u.die d with
    window := (u.die d).window.filter (fun i => i != ix)
    granted := (u.die d).granted ++ [⟨ix, f, dBarout w, dBarch w⟩] }).refill d

/-- The oldest descriptor of its die's window that face f of die d may claim. -/
def wanted (s : State) (p : Slot) (d f : Nat) : Option Nat :=
  (s.die d).window.find? (fun ix => s.eligible p f (gangSize (s.gangMap d) f) ix)

/-- Face f of die d has started the held descriptor `h`: it runs, the face's registers show it, and the trace has its start. -/
def begun (s : State) (d f : Nat) (h : Held) : State :=
  ((((s.setRun d f h.idx .running).showFace d f).faceQueues d f h.idx).traceDesc false d f h.idx (dLayer h.words) (dOpc h.words)).setFld (AS_STAT d f)
    AS_STAT_LAYER (lLayerId h.layer)

/-- The oldest ready descriptor of a face, of kind `k` in the running phase. -/
def readyIs (s : State) (d f : Nat) (k : DescKind) (h : Held) : Prop :=
  s.readyHeld d f = some h ∧ descKind s.phaseKind h.words = some k

/-- A register word whose write does nothing but set its fields: no row of the spec gives its write another effect, and no
running step drops it. -/
def plainWord (a : Nat) : Bool :=
  decide (a < 0x2000000) && !(decide (0x540000 ≤ a) && decide (a < 0x580000)) && (dropFlag a).isNone && a != STEP_CTRL && a != FR_CONS &&
  (placeOf (PLC_ALIAS 0) 4 16 a).isNone && !isSQ a && !isWG a && !(decide (4 ≤ a) && isWG (a - 4)) &&
  (match dieOf a with
   | none => true
   | some (d, o) => (gateUnit d o).isNone && (decide (o < 0x10000) || (decide (0x20000 ≤ o) && decide (o < 0x40000)) ||
       decide (0x80000 ≤ o) || o % 0x1000 == 0))
/-- Such a register of 32 bits. -/
def plainReg (a : Nat) : Bool := plainWord a && pairOf a == 0

/-- A register word that a read shows as it stands: not the time, not a counter set, no guarded bits, not BAR_CH. -/
def steadyWord (a : Nat) : Bool :=
  a != PKG_TIME_LO && a != PKG_TIME_HI && (queueSet a).isNone && accMask .wg a == 0 &&
  (match dieOf a with
   | none => true
   | some (_, o) => decide (o < 0x80100) || decide (0x80140 ≤ o))

/-- A host access reaches the register file; another requester's always does (R357). -/
def arrives (s : State) (q : Requester) : Prop := q ≠ .host ∨ s.linkUp = true

/-- The block of the host's command word `w` in mailbox m can be read: the ring is valid, and host memory returns good data. -/
def blkThere (s : State) (m w : Nat) : Prop :=
  s.flag (HIF_RING_HI m) HIF_RING_HI_V = true ∧ s.hostLost (s.blkOff m (.own w)) 64 = false

/-- The host's command word `w` waits in mailbox m: the Foreman takes words, the code and its block are there, and FWD is 0. -/
def waiting (s : State) (m code w : Nat) : Prop :=
  s.cmdAt m = some (.own w) ∧ wCode w = code ∧ wFwd w = false ∧ blkThere s m w

/-- The Foreman has taken the word `w` of mailbox m and read its block from host memory. -/
def took (s : State) (m w : Nat) : State := (s.takeCmd m (.own w)).hostSeen (s.blkOff m (.own w)) 64

/-- The answer side of mailbox m is empty, and no TIMEOUT was answered for the command that waits. -/
def clearBox (s : State) (m : Nat) : Prop := s.flag (F2H_STAT m) F2H_STAT_FULL = false ∧ s.hif.late.contains m = false

/-- The command of mailbox m was taken, and the host finds the answer `a`. -/
def answered (t : State) (m a : Nat) : Prop :=
  t.reg (F2H_DATA m) = a ∧ t.flag (F2H_STAT m) F2H_STAT_FULL = true ∧ t.flag (H2F_STAT m) H2F_STAT_FULL = false

/-- The registers that taking a command of mailbox m, reading its block and answering it may change. -/
def mailRegs (m : Nat) : List Nat :=
  [H2F_STAT m, F2H_STAT m, F2H_DATA m, MBX_PEND, HIF_RD_BYTES_LO, HIF_RD_BYTES_LO + 4] ++ pbaRegs

/-- The registers that a change of the state of link l may change: its status, the counts of UP links, and the stage. -/
def linkRegs (l : Nat) : List Nat :=
  [lnkStat l, LD_STAT (l / 32), AON_BOOT_STAT] ++ (List.range 24).map (fun i => LD_TRUNK (i / 6) (i % 6))

/-- The newest fault record in the AON log. -/
def newestFault (t : State) (cls code detail : Nat) : Prop :=
  ∃ f, t.obs.log.head? = some f ∧ f.cls = cls ∧ f.code = code ∧ f.detail = detail

/-- Every channel of the device answers. -/
def allServe (s : State) : Prop := ∀ g, g < 512 → s.chanOk g = true

/-- Address of a ledger entry. -/
def ledPlace (a : Nat) : Prop := a % 16 = 0 ∧ a < 0x20000000000 ∧ 0xFFE00000 ≤ a % 2 ^ 32

end Sys2Proof
end

