-- ==== Sys2Proof/Certificates/Slice0/Obligations.lean ====
section
/-! DEFINITION. The statements about the model.  Each says of a command, or of every step, what the cited rules give. -/

open Sys2Proof Sys2Proof.Machine

/-- A step takes the command at the front of the queue and runs it on the queue's rest (spec/INDEX.md (the command queue is the model's own)).
The choices and readings of the model behind it: log entry 1. -/
def Obligations.EveryStepRunsTheCommandInFront : Prop :=
  ∀ (c : Instr) (s : State), Machine.step { s with pending := c :: s.pending } = Machine.exec c s

/-- A step takes exactly one command off the queue, none faults, and a device without its standby supply is frozen (spec/INDEX.md (the command queue is the model's own), R448).
The choices and readings of the model behind it: log entries 1, 2, 4, 143. -/
def Obligations.NoCommandTouchesTheQueue : Prop :=
  (∀ (c : Instr) (s : State), (∀ n tdi, c ≠ .jtagInstruction (.debug (.foreman n) tdi)) → ∃ t, Machine.exec c s = .next t ∧ t.pending = s.pending) ∧
  (∀ s t : State, Machine.step s = .next t → t.pending = s.pending.tail) ∧
  (∀ (s : State) (f : Fault), Machine.step s ≠ .fault f) ∧
  (∀ (s : State) (r : Refusal), Machine.step s = .refused r →
    s.boot.on = true ∧ s.boot.fuses.dbgLock = false ∧ ∃ n tdi rest, s.pending = .jtagInstruction (.debug (.foreman n) tdi) :: rest) ∧
  (∀ (c : Instr) (s : State), s.boot.on = false → c ≠ .powerOnReset → c ≠ .standbySupplyLoss → Machine.exec c s = .next s)

/-- Every step keeps the canonical form of memory, registers and queue (spec/INDEX.md (the command queue is the model's own), R366, R368).
The choices and readings of the model behind it: log entries 1, 7. -/
def Obligations.EveryStepKeepsTheStateCanonical : Prop :=
  ∀ s t : State, canonical s → Machine.step s = .next t → canonical t

/-- The state after reset is canonical, nothing waits, no channel is ready, and only the always-on domains have power (R388, R236, R391, R448).
The choices and readings of the model behind it: log entries 6, 138, 144. -/
def Obligations.ResetIsCanonicalAndBare : Prop :=
  canonical State.reset ∧ State.reset.pending = [] ∧ (∀ a, State.reset.reg a = (regReset a).toNat) ∧
  (∀ j : Fin 123, State.reset.pdOn j.val = decide (j.val < 2)) ∧ (∀ g : Fin 512, State.reset.chanReady g.val = false) ∧
  State.reset.dram.lines = [] ∧ State.reset.point = 2 ∧ State.reset.running = false ∧ State.reset.boot.perst = true

/-- The oldest eligible descriptor goes from the window to the claiming face, which holds it when it passes its checks (R27, R28, R31, R349).
The choices and readings of the model behind it: log entries 3, 9, 11, 183. -/
def Obligations.AFaceClaimsTheOldestEligibleDescriptor : Prop :=
  ∀ (s : State) (d : DieIx) (f : FaceIx) (p : Slot), s.boot.on = true → s.eng.active = some p →
    (s.mayClaim d.val f.val = true → wanted s p d.val f.val = none → Machine.exec (.faceClaim d ⟨f, []⟩) s = .next s) ∧
    (∀ ix h, s.mayClaim d.val f.val = true → wanted s p d.val f.val = some ix →
      let u := claiming s p d.val f.val ix
      let rest := (s.die d.val).window.filter (fun i => i != ix)
      let more := min (256 - rest.length) ((s.die d.val).endIx - (s.die d.val).nextIx)
      u.checkClaim p d.val f.val ix = .holds h →
      ∃ t, Machine.exec (.faceClaim d ⟨f, []⟩) s = .next t ∧ (t.face d.val f.val).held = (s.face d.val f.val).held ++ [h] ∧
        h.idx = ix ∧ h.run = .waiting ∧
        (t.die d.val).window = rest ++ (List.range more).map (fun i => (s.die d.val).nextIx + i) ∧
        (t.die d.val).nextIx = (s.die d.val).nextIx + more ∧ (t.die d.val).endIx = (s.die d.val).endIx ∧
        (∃ g, (t.die d.val).granted = (s.die d.val).granted ++ [g] ∧ g.idx = ix ∧ g.face = f.val) ∧
        t.rot (claimArb d.val) = (f.val + 1) % 64 ∧ t.mem = u.mem ∧ t.eng = s.eng ∧
        t.fld (FSQ_STAT d.val f.val) FSQ_STAT_CLAIMED = (s.face d.val f.val).held.length + 1) ∧
    (∀ c : Claimer, Machine.exec (.faceClaim d c) s = .next (queued s
      ((((List.range 64).map (fun i => (s.rot (claimArb d.val) + i) % 64)).filter
        (fun n => ((c.face :: c.also).map (fun x => x.val)).contains n)).foldl (fun s n => s.faceClaim d.val n) s)))

/-- A descriptor that waits on its own phase's channel fails its claim and aborts the step (R333, R31, R200).
The choices and readings of the model behind it: log entry 54. -/
def Obligations.ABarinOnItsOwnPhaseIsRejected : Prop :=
  ∀ (s : State) (d : DieIx) (f : FaceIx) (p : Slot) (ix layer : Nat), s.boot.on = true → s.eng.active = some p →
    s.mayClaim d.val f.val = true → s.eng.cause = none → (s.chan 15).closed = false → ix < 2 ^ 20 →
    wanted s p d.val f.val = some ix → (claiming s p d.val f.val ix).checkClaim p d.val f.val ix = .fails .barin layer →
    ∃ t c, Machine.exec (.faceClaim d ⟨f, []⟩) s = .next t ∧ (∀ h ∈ (t.face d.val f.val).held, h.idx ≠ ix) ∧ t.eng.aborted = true ∧
      t.eng.cause = some c ∧ bits c 0 4 = 4 ∧ t.fld (DIE_WORK_BADIDX d.val) DIE_WORK_BADIDX_INDEX = ix

/-- The oldest ready descriptor of a face starts, and its unit does its work: NOP, GEMM, VEC, SEND, ATTN (R20, R28, R68, R465, R308, R184, R185).
The choices and readings of the model behind it: log entries 10, 30, 48, 49. -/
def Obligations.StartingADescriptorRunsItsUnit : Prop :=
  ∀ (s : State) (d : DieIx) (f : FaceIx) (h : Held), s.boot.on = true →
    let u := begun s d.val f.val h
    let v := u.faceSeen d.val f.val (s.ringAddr (dIn h.words)) 64
    (readyIs s d.val f.val .nop h → ∃ t, Machine.exec (.descNop d f) s = .next t ∧ t = queued s u ∧ t.mem = s.mem ∧ t.eng = s.eng ∧
      (t.face d.val f.val).held = (s.face d.val f.val).held.map (fun x => if x.idx = h.idx then { x with run := .running } else x)) ∧
    (readyIs s d.val f.val .gemm h → Machine.exec (.descGemm d f) s = .next (queued s (u.gemmStart d.val f.val h))) ∧
    (readyIs s d.val f.val .gemm h → v.gemmStartFail d.val f.val h = none →
      ∃ t g, Machine.exec (.descGemm d f) s = .next t ∧ (t.face d.val f.val).gemm = some g ∧
        { g with queue := [] } = { v.gemmOf d.val f.val h with queue := [] } ∧
        (t.face d.val f.val).held = (s.face d.val f.val).held.map (fun x => if x.idx = h.idx then { x with run := .running } else x)) ∧
    (readyIs s d.val f.val .layerData h → Machine.exec (.descVecLayerData d f) s =
      .next (queued s (if u.phaseKind = 0 then u.vecInputOf d.val f.val h else u.vecGradOf d.val f.val h))) ∧
    (readyIs s d.val f.val .plain h → Machine.exec (.descVecPlain d f) s = .next (queued s (u.vecPlain d.val f.val h))) ∧
    (readyIs s d.val f.val .gradPair h → Machine.exec (.descVecGradientPair d f) s = .next (queued s (u.vecPair d.val f.val h))) ∧
    (readyIs s d.val f.val .send h → Machine.exec (.descSend d f) s = .next (queued s ((u.plMode d.val f.val 0 (lLayerId h.layer)).vecSend d.val f.val h))) ∧
    (readyIs s d.val f.val .attnFwd h → u.attnBenches d.val f.val ≠ [] → Machine.exec (.descAttnFwd d f) s =
      .next (queued s (u.attnRun d.val f.val h (fun s j bad hd i => s.fwdTile d.val f.val j bad hd i)))) ∧
    (readyIs s d.val f.val .attnKv h → u.attnBenches d.val f.val ≠ [] → Machine.exec (.descAttnBwdKv d f) s =
      .next (queued s (u.attnRun d.val f.val h (fun s j bad hd i => s.kvTile d.val f.val j bad hd i)))) ∧
    (readyIs s d.val f.val .attnQ h → u.attnBenches d.val f.val ≠ [] → Machine.exec (.descAttnBwdQ d f) s =
      .next (queued s (u.attnRun d.val f.val h (fun s j bad hd i => s.dqTile d.val f.val j bad hd i))))

/-- MEASURE, MAKE, PUBLISH and OPT start and act on the rows their descriptor names (R159, R161, R158, R194).
The choices and readings of the model behind it: log entries 43, 44, 47. -/
def Obligations.WorkingCopyDescriptorsAct : Prop :=
  ∀ (s : State) (d : DieIx) (f : FaceIx) (h : Held), s.boot.on = true →
    let u := begun s d.val f.val h
    (readyIs s d.val f.val .measure h → Machine.exec (.descWcopyMeasure d f) s = .next (queued s (u.measure d.val f.val h))) ∧
    (readyIs s d.val f.val .make h → Machine.exec (.descWcopyMake d f) s = .next (queued s (u.make d.val f.val h))) ∧
    (readyIs s d.val f.val .opt h → Machine.exec (.descOpt d f) s = .next (queued s (u.optRun d.val f.val h))) ∧
    (readyIs s d.val f.val .publish h → ∃ t, Machine.exec (.descWcopyPublish d f) s = .next t ∧
      t.steerValid (lLayerId h.layer) = true)

/-- Every tile of a GEMM waits for exactly one bench of its gang, in tile order (R68, R70).
The choices and readings of the model behind it: log entry 10. -/
def Obligations.GemmTilesAreDealtOncePerBench : Prop :=
  ∀ (s : State) (d f : Nat) (h : Held) (n t : Nat), 0 < gangSize (s.gangMap d) f → n < 16 * gangSize (s.gangMap d) f →
    let g := s.gemmOf d f h
    (t ∈ g.waiting n ↔ t < g.tiles ∧ t % (16 * gangSize (s.gangMap d) f) = n) ∧ (g.waiting n).Pairwise (· < ·)

/-- Completion posts the tally or reports at once; an increment adds 1; its acknowledgement reports (R29, R31, R331).
The choices and readings of the model behind it: log entry 10. -/
def Obligations.ADescriptorCompletesThroughItsTally : Prop :=
  ∀ (s : State) (d : DieIx) (f : FaceIx), s.boot.on = true → s.eng.aborted = false →
    (∀ h, s.runningHeld d.val f.val = some h → s.workDone d.val f.val = true →
      (dPostEn h.words = true → ∃ t, Machine.exec (.descComplete d f) s = .next t ∧
        t.eng.tallies = s.eng.tallies ++ [⟨dPostDie h.words, dPostTally h.words, d.val, f.val, false⟩] ∧
        (t.face d.val f.val).held = (s.face d.val f.val).held.map (fun x => if x.idx = h.idx then { x with run := .posted } else x)) ∧
      (dPostEn h.words = false → ∃ t, Machine.exec (.descComplete d f) s = .next t ∧
        (∀ x ∈ (t.face d.val f.val).held, x.idx ≠ h.idx) ∧ t.pair (FSQ_DONE_LO d.val f.val) = (s.pair (FSQ_DONE_LO d.val f.val) + 1) % 2 ^ 64)) ∧
    (∀ k : Fin 256, (∃ m ∈ s.eng.tallies, m.dstDie = d.val ∧ m.tally = k.val ∧ m.landed = false) →
      ∃ t, Machine.exec (.tallyIncrement d k) s = .next t ∧ t.reg (DIE_TALLY d.val k.val) = (s.reg (DIE_TALLY d.val k.val) + 1) % 2 ^ 32 ∧
        regsKept s t [DIE_TALLY d.val k.val] ∧ t.mem = s.mem ∧ t.out = s.out ∧ t.eng.tallies.length = s.eng.tallies.length) ∧
    (∀ h m, (s.face d.val f.val).held.find? (fun h => h.run == .posted) = some h → m ∈ s.eng.tallies → m.srcDie = d.val →
      m.face = f.val → m.landed = true →
      ∃ t, Machine.exec (.tallyAck d f) s = .next t ∧ (∀ x ∈ (t.face d.val f.val).held, x.idx ≠ h.idx) ∧ m ∉ t.eng.tallies ∧
        t.pair (FSQ_DONE_LO d.val f.val) = (s.pair (FSQ_DONE_LO d.val f.val) + 1) % 2 ^ 64)

/-- A joined column sum is the exact sum of the products when no product loses bits (R35, R37, R38, R39, R40, R41, R42, R44, R45). -/
def Obligations.ColumnSumsAreExactWithoutLostBits : Prop :=
  ∀ (wa jn : Nat) (acts wts : List (List Opd)) (a w : List Opd),
    wa ≤ 16 → (jn = 1 ∨ jn = 2 ∨ jn = 4) → a ∈ acts → w ∈ wts → a.length ≤ 32 →
    (∀ o ∈ a, o.spc = 0 ∧ o.u < 2 ^ wa) → (∀ o ∈ w, o.spc = 0 ∧ o.u < 2 ^ (4 * jn)) →
    let aexp := tileExp wa acts
    let wexp := tileExp (4 * jn) wts
    let prods := a.zip w
    lostCount wa jn aexp wexp prods = 0 →
    ((joinSum wa jn aexp wexp prods : Int) : ℚ) * (2 : ℚ) ^ (aexp + wexp - 46) = (prods.map (fun p => prodRat p.1 p.2)).sum

/-- A bench accepts its next pass, the side lane starts it, and a pass that is not its tile's last adds its sums (R47, R51, R59, R63, R70, R41).
The choices and readings of the model behind it: log entries 13, 14, 15. -/
def Obligations.PassesEnterAndLeaveABench : Prop :=
  ∀ (s : State) (d : DieIx) (f : FaceIx) (b : BenchIx) (g : Gemm), s.boot.on = true →
    let leader := gangLeader (s.gangMap d.val) f.val
    let x := s.bench d.val f.val b.val
    (s.face d.val leader).gemm = some g →
    (∀ t k g' word, s.nextPass d.val f.val b.val g = some (t, k, g') → s.takes d.val f.val b.val = true → x.passes.length < 2 →
      wordUe word = false → (∀ r ∈ s.passReads d.val f.val g' t k, s.awaits d.val f.val r = false) →
      let v := s.facesSeen d.val f.val (s.passReads d.val f.val g' t k)
      let p := v.draw.2.passOf d.val f.val g' t k (v.fld (BENCH_CUR d.val f.val b.val) BENCH_CUR_PTAG + 1) v.draw.1
      ∃ u, Machine.exec (.passAccept d f ⟨b, word⟩) s = .next u ∧
        (u.bench d.val f.val b.val).passes = x.passes ++ [{ p with bad := p.bad || wordPoison word }] ∧
        (u.bench d.val f.val b.val).tile = (if k + 1 = g'.kcnt / 32 then none else some t) ∧
        (u.face d.val leader).gemm = some g' ∧ u.mem = v.mem) ∧
    (∀ p c, x.passes.find? (fun p => bit p.instr 15 && p.lane.isNone) = some p →
      ∃ u, Machine.exec (.sideLaneStart d f b c) s = .next u ∧
        u.pair (BENCH_SIDE_LO d.val f.val b.val) =
          (s.pair (BENCH_SIDE_LO d.val f.val b.val) + (p.outl.map (fun l => l.length)).sum) % 2 ^ 64 ∧
        (u.bench d.val f.val b.val).passes.length = x.passes.length ∧
        regsKept s u [BENCH_SIDE_LO d.val f.val b.val, BENCH_SIDE_LO d.val f.val b.val + 4]) ∧
    (∀ p rest c, x.passes = p :: rest → bit p.instr 14 = false → bit p.instr 15 = false → p.bad = false → bit g.w0 12 = false →
      (bit p.instr 13 = true → x.shadow = []) →
      let sums := passSums (actWidth (fmtAt (bits p.instr 2 4))) (joinOf (fmtAt (bits p.instr 6 4))) (bit p.instr 16) p.acts p.wts
      ∃ u, Machine.exec (.passWave0 d f b c .none) s = .next u ∧
        (u.bench d.val f.val b.val).passes = rest ∧ (u.bench d.val f.val b.val).late = x.late ∧
        (u.bench d.val f.val b.val).acc = overRows x.acc ((List.range (g.rows p.tile)).map (fun r =>
          let v := sums.1.getD r []
          ((if bit p.instr 13 then v.map (fun _ => 0) else x.acc.getD r []).zip v).map (fun e => d6Add .ne e.1 e.2))) ∧
        (u.bench d.val f.val b.val).live = p.setts ∧
        u.pair (BENCH_TRUNC_LO d.val f.val b.val) = (s.pair (BENCH_TRUNC_LO d.val f.val b.val) + sums.2) % 2 ^ 64 ∧ u.mem = s.mem)

/-- A late correction is added to its parked row or its accumulators, a parked row leaves when its count is 0, and an owed unit runs once (R65, R66, R146).
The choices and readings of the model behind it: log entries 16, 22. -/
def Obligations.LateCorrectionsReachTheirRows : Prop :=
  ∀ (s : State) (d : DieIx) (f : FaceIx) (b : BenchIx), s.boot.on = true →
    let x := s.bench d.val f.val b.val
    (∀ l rest word, x.late = l :: rest →
      ∃ u, Machine.exec (.lateAdd d f ⟨b, word⟩) s = .next u ∧ (u.bench d.val f.val b.val).late = rest ∧
        (wordUe word = true → u.flag (BENCH_EVENT d.val f.val b.val) BENCH_EVENT_STORE_UE = true) ∧
        (wordSpoils word = false → u.mem = s.mem) ∧
        (x.park.find? (fun p => p.tile == l.tile && p.row == l.row) = none →
          (u.bench d.val f.val b.val).park = x.park ∧
          (u.bench d.val f.val b.val).acc =
            x.acc.set l.row (overRow (x.acc.getD l.row []) (addRows (x.acc.getD l.row []) l.vals))) ∧
        (∀ p, x.park.find? (fun p => p.tile == l.tile && p.row == l.row) = some p → wordSpoils word = false →
          { p with vals := addRows p.vals l.vals } ∈ (u.bench d.val f.val b.val).park ∧ (u.bench d.val f.val b.val).acc = x.acc)) ∧
    (∀ g, (s.face d.val (gangLeader (s.gangMap d.val) f.val)).gemm = some g →
      (∀ p word, x.park.find? (fun p => !x.late.any (fun l => l.tile == p.tile && l.row == p.row)) = some p → wordSpoils word = false →
        Machine.exec (.parkRelease d f b word) s = .next (queued s
          (((s.setBench d.val f.val b.val { x with park := x.park.filter (fun q => !(q.tile == p.tile && q.row == p.row)) }).rowOut d.val f.val
            g p.tile p.row p.vals p.tok p.wch p.bad).showBench d.val f.val b.val))) ∧
      ((∀ p ∈ x.park, ∃ l ∈ x.late, l.tile = p.tile ∧ l.row = p.row) → ∀ word, Machine.exec (.parkRelease d f b word) s = .next s) ∧
      (∀ y rest, x.shadow = y :: rest →
        ∃ u, Machine.exec (.shadowUnit d f b) s = .next u ∧ (u.bench d.val f.val b.val).shadow = rest ∧
          (s.faceShadow d.val f.val = false → u.mem = s.mem)))

/-- Converting the value of a finite element code gives the code back, in every format and rounding mode (R76, R77, R78, R79, R80, R92, R94, R468). -/
def Obligations.ElementCodesSurviveDecodeAndConvert : Prop :=
  ∀ (f : Fmt) (sgn zm : Bool) (r : Rnd) (c : Nat), c < 2 ^ f.width → (fmtDecode f sgn c).isFin = true →
    ((zm = true ∨ ∀ e, fmtDecode f sgn c ≠ .fin true 0 e) → fmtConvert f sgn zm r (fmtDecode f sgn c) = (c, {})) ∧
    (zm = false → (∃ e, fmtDecode f sgn c = .fin true 0 e) → fmtConvert f sgn zm r (fmtDecode f sgn c) = (0, {}))

/-- A conversion to nearest that does not saturate gives a code whose value is nearest to the number (R90, R92, R468). -/
def Obligations.NearestEvenGivesANearestCode : Prop :=
  ∀ (L : FpLay) (f : Fmt) (zm neg : Bool) (m : Nat) (e : Int) (c : Nat), f.lay = some L →
    (fpConvert L zm .ne (.fin neg m e)).2.sat = 0 → c < 2 ^ f.width → (fpDecode L c).isFin = true →
    |FV.rat (fpDecode L (fpConvert L zm .ne (.fin neg m e)).1) - FV.rat (.fin neg m e)| ≤
      |FV.rat (fpDecode L c) - FV.rat (.fin neg m e)|

/-- The row at the planisher's head is planished, or rotated and handed on, and leaves; an idle sign half is taken and fills once (R106, R108, R112, R122, R123).
The choices and readings of the model behind it: log entries 28, 32. -/
def Obligations.PlanisherRowsAndSigns : Prop :=
  ∀ (s : State) (d : DieIx) (f : FaceIx), s.boot.on = true →
    let x := s.face d.val f.val
    (∀ h r rest word, s.runningHeld d.val f.val = some h → x.rows = r :: rest → s.rowReady d.val f.val h = true →
      let ue := wordUe word
      let bad := r.poison || ue || wordPoison word
      let u := (s.plPop d.val f.val).rowEvents d.val f.val r.poison ue
      let sg := match s.signNeed h with | some k => s.signs h.layer k.2 r.elems.length | none => []
      let goes (t : State) : Prop := Machine.exec (.rotateRow d f word) s = .next (queued s t)
      (u.face d.val f.val).rows = rest ∧ u.fld (PL_STAT d.val f.val) PL_STAT_ROWBUF = min 2 rest.length ∧
      (r.poison = true → u.flag (PL_EVENT d.val f.val) PL_EVENT_POISON_IN = true) ∧
      (ue = true → u.flag (PL_EVENT d.val f.val) PL_EVENT_ROW_UE = true) ∧
      (r.use = .planish → ∃ t, Machine.exec (.planishRow d f word) s = .next t ∧ t = queued s (s.planishOne d.val f.val h r word) ∧
        (t.face d.val f.val).rows = rest ∧ t.pair (PL_ROWS_LO d.val f.val) = (s.pair (PL_ROWS_LO d.val f.val) + 1) % 2 ^ 64) ∧
      (r.use = .gradIn →
        goes (u.gradLoaded d.val f.val h r.row (rotate (s.rotOf h.layer) (rotF (s.rotOf h.layer)) true sg r.elems) bad)) ∧
      (r.use = .measure →
        goes (u.measureRow d.val f.val h r.row (rotate (lRot h.layer) (rotC (lRot h.layer)) false sg r.elems) bad)) ∧
      (r.use = .make →
        goes (u.makeRow d.val f.val h r.row (rotate (lRot h.layer) (rotC (lRot h.layer)) false sg r.elems) bad)) ∧
      (r.use = .opt →
        goes (u.optRow d.val f.val h r.row (rotate (s.rotOf h.layer) (rotC (s.rotOf h.layer)) true sg r.elems) bad))) ∧
    (let need := (x.held.filterMap s.signNeed).find? (fun k => !x.signs0.serves k && !x.signs1.serves k)
     let second := s.halfIdle d.val f.val x.signs1 &&
       (!s.halfIdle d.val f.val x.signs0 || (x.signs1.layer.isNone && x.signs0.layer.isSome))
     (need = none → Machine.exec (.signFill d f) s = .next s) ∧
     (∀ k, need = some k →
      ∃ t, Machine.exec (.signFill d f) s = .next t ∧ onlyRegs s { t with faces := s.faces } ∧
        (t.face d.val f.val).held = x.held ∧ (t.face d.val f.val).rows = x.rows ∧
        (second = true → (t.face d.val f.val).signs1 = ⟨some k.1, k.2, false⟩ ∧ (t.face d.val f.val).signs0 = x.signs0) ∧
        (second = false → s.halfIdle d.val f.val x.signs0 = true →
          (t.face d.val f.val).signs0 = ⟨some k.1, k.2, false⟩ ∧ (t.face d.val f.val).signs1 = x.signs1) ∧
        (second = false → s.halfIdle d.val f.val x.signs0 = false →
          (t.face d.val f.val).signs0 = x.signs0 ∧ (t.face d.val f.val).signs1 = x.signs1))) ∧
    (let filling (y : SignHalf) : Bool := y.layer.isSome && !y.ready
     ∃ t, Machine.exec (.signFillDone d f) s = .next t ∧ onlyRegs s { t with faces := s.faces } ∧
      (t.face d.val f.val).held = x.held ∧ (t.face d.val f.val).rows = x.rows ∧
      (filling x.signs0 = true → (t.face d.val f.val).signs0 = { x.signs0 with ready := true } ∧ (t.face d.val f.val).signs1 = x.signs1) ∧
      (filling x.signs0 = false → filling x.signs1 = true →
        (t.face d.val f.val).signs1 = { x.signs1 with ready := true } ∧ (t.face d.val f.val).signs0 = x.signs0) ∧
      (filling x.signs0 = false → filling x.signs1 = false →
        (t.face d.val f.val).signs0 = x.signs0 ∧ (t.face d.val f.val).signs1 = x.signs1))

/-- A waiting record is merged into its die's record, a summary into its home's, and every summary is acknowledged (R140, R142, R150, R151).
The choices and readings of the model behind it: log entries 37, 38, 46. -/
def Obligations.AssayRecordsAndSummariesMerge : Prop :=
  ∀ s : State, s.boot.on = true →
    (∀ (d : DieIx) r rest, (s.die d.val).merge = r :: rest →
      Machine.exec (.assayRecordMerge d) s =
        .next (queued s ((s.setDie d.val { s.die d.val with merge := rest }).mergeDie d.val r))) ∧
    (∀ p : Packet, ctlSub p 1 = true →
      let ack (u : State) := u.sendPlain { type := 8, ord := true, src := 0, dst := p.src, args := 2, tag := p.tag }
      ((s.reg STEER_LAST_STEP = 0xFFFFFFFF ∨ s.reg STEER_LAST_STEP < sumStep p.data) →
        Machine.exec (.assaySum p) s = .next (queued s (ack (if p.poison then s else s.mergeHome p.data)))) ∧
      (s.reg STEER_LAST_STEP ≠ 0xFFFFFFFF → sumStep p.data ≤ s.reg STEER_LAST_STEP →
        Machine.exec (.assaySum p) s = .next (queued s (ack (s.raise STEER_EVENT STEER_EVENT_SUM_LATE))))) ∧
    (∀ p : Packet, ctlSub p 2 = true →
      ∃ t, Machine.exec (.assayAck p) s = .next t ∧ t.eng.sums = s.eng.sums.filter (fun x => x.tag != p.tag) ∧ t.regs = s.regs ∧
        t.mem = s.mem ∧ mapGet (fun _ => none) p.tag t.fab.tags = none)

/-- Reading back the bytes of a summary, or the packet of a barrier message, gives every field back (R149, R340). -/
def Obligations.SummariesAndBarriersKeepEveryField : Prop :=
  (∀ (r : AssayRec) (src : Nat) (ab : Bool), r.layer < 2 ^ 12 → src < 2 ^ 12 → r.step < 2 ^ 32 → r.elems < 2 ^ 48 → r.sat < 2 ^ 48 →
    r.und < 2 ^ 48 → r.nan < 2 ^ 48 → r.inf < 2 ^ 48 → r.outl < 2 ^ 48 → r.ovf < 2 ^ 48 → r.shN < 2 ^ 16 → r.shErr < 2 ^ 32 →
    r.amax < 2 ^ 32 → r.aclip < 2 ^ 32 →
    let b := summaryBytes r src ab
    b.length = 64 ∧ summaryRec b = { r with hist := [], trunc := 0 } ∧ bits (blkNat b 0 4) 12 12 = src ∧ sumAborted b = ab) ∧
  (∀ (dst src : Nat) (m : BarMsg), m.ch < 16 → m.epoch < 2 ^ 32 → m.group < 2 ^ 16 → m.fanin < 2 ^ 16 → m.src = src →
    barMsg { barPkt dst m with src := src } = m)

/-- STEP_RUN answers the status of its check, and a program that passes becomes ACTIVE or NEXT (R22, R23, R24, R25, R378).
The choices and readings of the model behind it: log entries 110, 119. -/
def Obligations.StepRunIsCheckedAndLoaded : Prop :=
  ∀ (s : State) (w : Nat), s.boot.on = true → s.cmdAt 0 = some (.own w) → wFwd w = false →
    let u := took s 0 w
    (∀ blk st detail, s.eng.stop = none → wCode w = 0x10 → blkThere s 0 w → u.checkRun blk = .bad st detail →
      ∃ t, Machine.exec (.stepRun blk) s = .next t ∧ t = queued s ((u.runSeen blk).f2hPush 0 (ansWord st detail)) ∧ t.eng = s.eng ∧
        (clearBox s 0 → answered t 0 (ansWord st detail))) ∧
    (∀ blk p, s.eng.stop = none → wCode w = 0x10 → blkThere s 0 w → u.checkRun blk = .good p →
      ∃ x t : State, Machine.exec (.stepRun blk) s = .next t ∧ t = queued s (x.f2hPush 0 (ansWord stAccepted 0)) ∧ t.mem = s.mem ∧
        (clearBox s 0 → answered t 0 (ansWord stAccepted 0)) ∧
        (s.eng.active = none → t.eng = { s.eng with active := some p } ∧
          x.reg STEP_LEFT = (if p.steps = 0 then 0xFFFFFFFF else p.left) % 2 ^ 32) ∧
        (s.eng.active ≠ none → t.eng = { s.eng with next := some p })) ∧
    (s.eng.stop = none → wCode w = 0x11 → s.running = true →
      Machine.exec .stepStop s = .next (queued s { s.takeCmd 0 (.own w) with eng := { s.eng with stop := some (.own w) } })) ∧
    (∀ blk, s.eng.stop = none → wCode w = 0x10 → s.flag (HIF_RING_HI 0) HIF_RING_HI_V = false →
      ∃ t, Machine.exec (.stepRun blk) s = .next t ∧ t.eng = s.eng ∧ t.mem = s.mem ∧ (clearBox s 0 → answered t 0 (ansWord stBadRing 0))) ∧
    (s.eng.stop = none → wCode w = 0x11 → s.running = false →
      ∃ t, Machine.exec .stepStop s = .next t ∧ t.eng = { s.eng with active := none, next := none } ∧ t.mem = s.mem ∧
        (clearBox s 0 → answered t 0 (ansWord stAccepted 0))) ∧
    (∀ x blk, s.eng.stop = some x → wCode w = 0x10 →
      ∃ t, Machine.exec (.stepRun blk) s = .next t ∧ t.eng = { s.eng with stopWords := s.eng.stopWords ++ [(.own w, blk)] } ∧
        t.mem = s.mem ∧ (clearBox s 0 → answered t 0 (ansWord stRunning 0)))

/-- A step starts with RUNNING and FIN set at phase 0 of microstep 0; a bad group keeps it from starting (R169, R173, R196, R337, R338).
The choices and readings of the model behind it: log entries 108, 112. -/
def Obligations.AStepStartsOnlyWhenItMay : Prop :=
  ∀ s : State, s.boot.on = true → s.canStart = true →
    ((∀ c, c < 16 → s.grpBad c = false) → (s.chan 15).held = [] →
      ∃ t, Machine.exec .stepStart s = .next t ∧ t.running = true ∧ t.flag STEP_STAT STEP_STAT_FIN = true ∧
        t.eng.mode = .fill ∧ t.eng.aborted = false ∧ t.eng.active = s.eng.active ∧ t.mem = s.mem ∧
        t.chan 15 = { epoch := some (s.stepNum % 2 ^ 16 * 2 ^ 16) }) ∧
    (∀ c, c < 16 → s.grpBad c = true → ∃ t, Machine.exec .stepStart s = .next t ∧
      t = queued s (({ s with eng := { s.eng with grpFail := true } } : State).raise BAR_PEVENT BAR_PEVENT_GROUP_BAD) ∧
      t.canStart = false ∧ Machine.exec .stepStart t = .next t)

/-- A microstep starts its first phase once FILL exceeds the microsteps done, and waits until then (R172, R173, R338).
The choices and readings of the model behind it: log entry 51. -/
def Obligations.AMicrostepWaitsForItsBatch : Prop :=
  ∀ (s : State) (p : Slot) (again : Bool), s.boot.on = true → s.running = true → s.eng.active = some p → s.eng.mode = .fill →
    s.flag STEP_STAT STEP_STAT_IN_WAIT = again → (∀ c, c < 15 → (s.chan c).held = []) →
    let c := if again then Instr.inputFillPoll else Instr.microstepStart
    let v := s.objSeen (hInObj p.hdr * 2 ^ 40) 8 none
    (hInObj p.hdr ≠ 0 → (∀ n, v.readFill = some n → n ≤ s.gmicro) →
      Machine.exec c s = .next (queued s (v.setFlag STEP_STAT STEP_STAT_IN_WAIT true))) ∧
    ((hInObj p.hdr = 0 ∨ ∃ n, v.readFill = some n ∧ s.gmicro < n) →
      ∃ t, Machine.exec c s = .next t ∧ t.eng.mode = .phase ∧ t.flag STEP_STAT STEP_STAT_IN_WAIT = false ∧
        t.fld STEP_STAT STEP_STAT_PHASE = 0 ∧ t.micro = s.micro ∧
        t.reg BAR_EPOCH = s.stepNum % 2 ^ 16 * 2 ^ 16 + s.micro * 2 ^ 8)

/-- A package channel without a group closes when all 16 dies have arrived, and not before (R330, R332, R335, R339).
The choices and readings of the model behind it: log entry 52. -/
def Obligations.ChannelClosesWhenAllDiesHaveArrived : Prop :=
  ∀ (s : State) (c : Fin 15), s.boot.on = true →
    ((∃ d, d < 16 ∧ s.flag (BAR_CH d c.val) BAR_CH_DIE_ARR = false) → Machine.exec (.packageBarrierClose c) s = .next s) ∧
    ((∀ d, d < 16 → s.flag (BAR_CH d c.val) BAR_CH_DIE_ARR = true) → s.running = true → s.eng.mode = .phase →
      (s.chan c.val).closed = false → s.grpEn c.val = false → c.val ≠ s.phaseBarch →
      (∃ k, k < 15 ∧ k ≠ c.val ∧ bit (s.reg BAR_PSTAT) k = false) →
      ∃ t, Machine.exec (.packageBarrierClose c) s = .next t ∧ (t.chan c.val).closed = true ∧ t.flag BAR_PSTAT ⟨c.val, 1⟩ = true ∧
        (∀ d, d < 16 → bit (t.reg (BAR_STAT d)) (16 + c.val) = true) ∧ t.mem = s.mem ∧ t.eng.mode = .phase)

/-- The device arrives on channel 15 with FIN, and with no group the channel closes with it at once (R196, R197, R335).
The choices and readings of the model behind it: log entry 107. -/
def Obligations.TheDeviceVotesItsFiniteBit : Prop :=
  ∀ (s : State) (p : Slot), s.boot.on = true → s.running = true → s.eng.mode = .wait → s.quiet = true → s.eng.aborted = false →
    s.flag STEP_CTRL STEP_CTRL_ABANDON = false → s.jobsClosed = true → s.jobFailed = none → s.eng.sums = [] → s.eng.active = some p →
    (∀ i, s.grpEn 15 = false → s.flag STEP_STAT STEP_STAT_FIN = true → (∀ c, c < 15 → (s.chan c).held = []) →
      (List.range (hPhases p.hdr)).find? (fun i => phKind (s.phaseW0 p i) == 3) = some i → i < 64 →
      ∃ t, Machine.exec .c15Arrive s = .next t ∧ t.eng.mode = .phase ∧ (t.chan 15).closed = true ∧
        t.flag STEP_STAT STEP_STAT_C15_WAIT = false ∧ t.fld STEP_STAT STEP_STAT_PHASE = i ∧ t.flag BAR_PSTAT ⟨15, 1⟩ = true) ∧
    (s.grpEn 15 = true → (s.chan 15).rx = [] → 1 < s.grpLen 15 0 → s.linePeers 15 0 ≠ [] → (s.chan 15).sent = true →
      ∃ t, Machine.exec .c15Arrive s = .next t ∧ t.eng.mode = .voted ∧ (t.chan 15).closed = true ∧
        (t.chan 15).val = s.flag STEP_STAT STEP_STAT_FIN ∧ t.flag STEP_STAT STEP_STAT_C15_WAIT = true ∧ t.mem = s.mem) ∧
    (s.grpEn 15 = false → s.flag STEP_STAT STEP_STAT_FIN = false →
      ∃ u : State, Machine.exec .c15Arrive s = .next (queued s (u.boundary false)) ∧ u.eng.mode = .voted ∧ u.mem = s.mem)

/-- A BAR packet of the epoch counts once for its stage and position, an early one is held, and others are discarded and counted (R340, R341).
The choices and readings of the model behind it: log entries 106, 107, 108. -/
def Obligations.ABarPacketCountsOncePerStageAndPosition : Prop :=
  ∀ (s : State) (p : Packet) (e dim : Nat), s.boot.on = true → p.type = 4 → p.rsp = false →
    let m := barMsg p
    (s.grpEn m.ch = false → Machine.exec (.barPacket p) s = .next (queued s s.barDiscard)) ∧
    (s.grpEn m.ch = true → m.group = s.gid m.ch → m.notice = false → s.stageOf m.ch m.fanin = some dim → (s.chan m.ch).epoch = some e →
      (m.epoch = e → m.src ∈ s.linePeers m.ch dim →
        ((s.chan m.ch).rx.any (fun r => r.stage == dim && r.pos == coord m.src dim) = false → (m.ch = 15 → m.val = true) →
          (s.chan m.ch).closed = false →
          Machine.exec (.barPacket p) s = .next (queued s (s.setChan m.ch
            { s.chan m.ch with rx := (s.chan m.ch).rx ++ [⟨dim, coord m.src dim, m.val⟩] }))) ∧
        ((s.chan m.ch).rx.any (fun r => r.stage == dim && r.pos == coord m.src dim) = true → (s.chan m.ch).closed = false →
          Machine.exec (.barPacket p) s = .next s)) ∧
      (m.epoch ≠ e → (s.nextEpochs m.ch e).contains m.epoch = true →
        Machine.exec (.barPacket p) s = .next (queued s (s.setChan m.ch { s.chan m.ch with held := (s.chan m.ch).held ++ [m] }))))

/-- The phase watchdog aborts the step and names the late dies, the channel 15 watchdog only reports, ABANDON waits for the phase, a returned BAR is sent again (R199, R200, R201, R343, R347, R348).
The choices and readings of the model behind it: log entries 53, 105, 111. -/
def Obligations.WatchdogsAndHoldsOfAStep : Prop :=
  ∀ s : State, s.boot.on = true →
    (s.running = true → s.eng.aborted = false → s.eng.cause = none → s.eng.mode = .phase ∨ s.eng.mode = .fill →
      (s.chan 15).closed = false → s.flag DUMP_CFG DUMP_CFG_WDOG = false →
      let late := (List.range 16).filter (fun d => decide (s.eng.mode = .fill) || !s.flag (BAR_CH d s.phaseBarch) BAR_CH_DIE_ARR)
      let told := if late = [] then List.range 16 else late
      ∃ t w, Machine.exec .phaseWatchdog s = .next t ∧ t.eng.aborted = true ∧ t.eng.mode = .wait ∧
        t.flag STEP_STAT STEP_STAT_FIN = false ∧ t.eng.cause = some w ∧ bits w 0 4 = 5 ∧ t.reg STEP_ABORT_CAUSE = w ∧
        (∀ d ∈ told, t.flag (DIE_WORK_EVENT d) DIE_WORK_EVENT_WDOG = true) ∧
        newestFault t 3 0x0302 (w + (late.map (fun d => 2 ^ d)).sum * 2 ^ 32) ∧
        t.eng.active = s.eng.active ∧ t.cru = s.cru ∧ (∀ a, a < hwBase → byteAt t a = byteAt s a)) ∧
    (s.running = true → s.eng.mode = .voted ∨ s.eng.mode = .wait → s.flag DUMP_CFG DUMP_CFG_C15 = false →
      ∃ t, Machine.exec .c15Watchdog s = .next t ∧ t.flag STEP_EVENT STEP_EVENT_C15_WDOG = true ∧
        newestFault t 0 0x0401 (s.stepNum % 2 ^ 16 * 2 ^ 16) ∧ t.eng = s.eng ∧ t.dies = s.dies ∧ t.faces = s.faces) ∧
    (∀ q, arrives s q → s.regOn STEP_CTRL = true → s.running = true → s.eng.mode = .phase →
      ∃ t, Machine.exec (.stepAbandon q) s = .next t ∧ t.flag STEP_CTRL STEP_CTRL_ABANDON = true ∧ regsKept s t [STEP_CTRL] ∧
        onlyRegs s t) ∧
    (∀ b rest, s.eng.back = b :: rest → s.inGeom b.dst = true →
      ∃ t, Machine.exec .barResend s = .next t ∧ t.eng.back = rest ∧ t.regs = s.regs ∧
        t.out = .packet { barPkt b.dst b.msg with tag := s.fab.nextTag, src := s.devId } :: s.out ∧
        mapGet (fun _ => none) s.fab.nextTag t.fab.tags = some (.bar b.msg b.count))

/-- The steering decision is made once, in a COMMIT phase after every OPT descriptor, and held (R153, R154, R155, R157).
The choices and readings of the model behind it: log entry 42. -/
def Obligations.SteeringDecisionIsMadeOnceInCommit : Prop :=
  ∀ s : State, s.boot.on = true → s.inCommit = true → s.eng.aborted = false → s.optsDone = true →
    (s.eng.decided = true → Machine.exec .steeringDecision s = .next s) ∧
    (s.eng.decided = false → s.parStop = [] →
      ∃ t, Machine.exec .steeringDecision s = .next t ∧ t.eng.decided = true ∧
        (s.flag STEER_CTRL STEER_CTRL_EN = false → t.eng.changes = s.eng.changes) ∧
        (s.flag STEER_CTRL STEER_CTRL_EN = true → t.eng.lastDecided = some s.stepNum ∧ t.flag STEER_STAT STEER_STAT_HELD = true))

/-- A decision promotes at most PROMO_BUDGET layers, by one step, and demotes none below its floor (R133, R154, R155). -/
def Obligations.SteeringKeepsItsBoundsAndBudget : Prop :=
  ∀ (freeze : Bool) (frac budget steps step : Nat) (l : List Cand),
    (∀ c ∈ l, c.floor ≤ c.fine ∧ c.fine ≤ 3) →
    let d := decideAll freeze frac budget steps step l
    (∀ c ∈ d.cands, c.floor ≤ c.fine ∧ c.fine ≤ 3) ∧ d.promoted ≤ budget ∧
    (d.cands.map (fun c => c.fine)).sum ≤ (l.map (fun c => c.fine)).sum + budget ∧
    (∀ i, (d.cands.filter (fun c => c.id == i)).length = (l.filter (fun c => c.id == i)).length) ∧
    (freeze = true ∨ d.storm = true → d.cands = l)

/-- A die-cache read of every hint returns the bytes memory holds, poisoned where a beat is (R216, R219, R221, R222).
The choices and readings of the model behind it: log entries 6, 61. -/
def Obligations.CachedReadsReturnWhatMemoryHolds : Prop :=
  ∀ (s : State) (a n : Nat) (c : Instr), s.boot.on = true → dcRange a n = true → s.served a n = true →
    ((s.line (a / 256)).isSome = true ∨ s.burstSpent a 2 = false) →
    c ∈ [.dcReadNormal a n .none, .dcReadKeep a n .none, .dcReadStream a n .none, .dcReadLastuse a n .none] →
    ∃ t, Machine.exec c s = .next t ∧ t.out.head? = some (.memData (getBytes s.mem a n) (s.beatBad a n)) ∧
      (c = .dcReadLastuse a n .none → t.line (a / 256) = none) ∧
      ((c = .dcReadNormal a n .none ∨ c = .dcReadKeep a n .none) → (t.line (a / 256)).isSome = true) ∧
      (c ≠ .dcReadLastuse a n .none → t.mem = s.mem ∧
        ((s.line (a / 256)).isSome = true ∨ (s.setLines (a / 256)).length < 16 →
          ∀ b, t.beatBad (64 * b) 64 = s.beatBad (64 * b) 64))

/-- A die-cache write of every hint stores its bytes, changes no other byte, and keeps memory canonical (R214, R217, R221, R222).
The choices and readings of the model behind it: log entry 61. -/
def Obligations.CachedWritesStoreTheirBytesOnly : Prop :=
  ∀ (s : State) (a : Nat) (v : List Byte) (bad : Bool) (c : Instr), s.boot.on = true → dcRange a v.length = true →
    s.served a v.length = true →
    ((s.line (a / 256)).isSome = true ∨ s.burstSpent a 2 = false) →
    (c = .dcWriteStream a v bad .none → s.beatLost a v.length = false) →
    c ∈ [.dcWriteNormal a v bad .none, .dcWriteKeep a v bad .none, .dcWriteStream a v bad .none, .dcWriteLastuse a v bad .none] →
    ∃ t, Machine.exec c s = .next t ∧ getBytes t.mem a v.length = v ∧ bytesKept s t a v.length ∧
      (Memory.wf s.mem = true → Memory.wf t.mem = true) ∧ (bad = true → t.beatBad a v.length = true)

/-- A burst whose beats are clean or corrected only opens its row and counts its corrected beats; a clean scrub burst moves on (R209, R213, R214, R218, R232, R351).
The choices and readings of the model behind it: log entry 60. -/
def Obligations.CorrectedBurstsOnlyCount : Prop :=
  ∀ s : State, s.boot.on = true →
    (∀ (a : Nat) (errs : List BeatErr), a < 0x20000000000 → s.chanOk (gchan a) = true →
      let pat (i : Nat) : BeatErr :=
        if (s.dramBad (a / 256)).contains (4 * (a / 256) + i) then errs.getD i [] ++ rsPoison else errs.getD i []
      let fixed := (List.range 4).filter (fun i => match rsDecode (pat i) with | .corrected _ => true | _ => false)
      (∀ i, i < 4 → rsDecode (pat i) = .clean ∨ ∃ fix, rsDecode (pat i) = .corrected fix) →
      ∃ t, Machine.exec (.dramReadDone a errs) s = .next t ∧ t.mem = s.mem ∧ t.poison = s.poison ∧
        t.pair (MC_CE_LO (stackOf (gchan a)) (ctlOf (gchan a))) =
          (s.pair (MC_CE_LO (stackOf (gchan a)) (ctlOf (gchan a))) + fixed.length) % 2 ^ 64 ∧
        (fixed = [] → t = { s with dram := { s.dram with rows := t.dram.rows, lost := t.dram.lost } }) ∧
        (fixed ≠ [] → t.flag (MC_EVENT (stackOf (gchan a)) (ctlOf (gchan a))) MC_EVENT_CE = true)) ∧
    (∀ (d : DieIx) (ch : ChanIx) (errs : List BeatErr) (written : Bool),
      let g := 32 * d.val + ch.val
      let p := mapGet (fun _ => 0) g s.dram.scrub
      s.scrubEn d.val (ch.val / 4) = true → s.chanReady g = true → s.tstate d.val < 2 →
      (∀ i, i < 4 → rsDecode (if (s.dramBad (g * 2 ^ 24 + p)).contains (4 * (g * 2 ^ 24 + p) + i) then errs.getD i [] ++ rsPoison
        else errs.getD i []) = .clean) →
      ∃ t, Machine.exec (.patrolScrub d ch errs written) s = .next t ∧ (∀ b ∈ t.dram.lost, b ∈ s.dram.lost) ∧
        t.fab.promo = s.fab.promo.filter (fun x => x != (.memQueue d (Fin.ofNat 8 (ch.val / 4)), .scrub)) ∧
        t = { s with fab := { s.fab with promo := t.fab.promo }
                     dram := { s.dram with rows := t.dram.rows, lost := t.dram.lost
                                           scrub := mapSet (fun _ => 0) g ((p + 1) % 2 ^ 24) s.dram.scrub } })

/-- Refreshes are postponed up to 8 and then forced, an idle row is precharged, and a capped window starts anew (R209, R231, R233).
The choices and readings of the model behind it: log entries 59, 64. -/
def Obligations.RefreshRowsAndWindowsOfAChannel : Prop :=
  ∀ (s : State) (d : DieIx) (ch : ChanIx), s.boot.on = true →
    let st := MC_STAT d.val (ch.val / 4)
    let n := s.fld st (refPost ch.val)
    (s.chanOk (32 * d.val + ch.val) = true →
      (n < 8 → ∃ t, Machine.exec (.refreshDue d ch true) s = .next t ∧ t.fld st (refPost ch.val) = n + 1 ∧ onlyRegs s t ∧
        regsKept s t [st]) ∧
      (8 ≤ n → ∃ t, Machine.exec (.refreshDue d ch true) s = .next t ∧ t.flag (MC_EVENT d.val (ch.val / 4)) MC_EVENT_REF_FORCED = true ∧
        onlyRegs s t ∧ t.fld st (refPost ch.val) = n) ∧
      Machine.exec (.refreshDue d ch false) s = .next s ∧
      (0 < n → ∃ t, Machine.exec (.refreshPostponedIssue d ch) s = .next t ∧ t.fld st (refPost ch.val) = n - 1 ∧ onlyRegs s t ∧
        regsKept s t [st])) ∧
    (∀ bank : Fin 128, ∃ t, Machine.exec (.rowIdlePrecharge d ch bank) s = .next t ∧
      mapGet (fun _ => none) ((32 * d.val + ch.val) * 128 + bank.val) t.dram.rows = none ∧
      t = { s with dram := { s.dram with rows := t.dram.rows } }) ∧
    (∃ t, Machine.exec (.hotCapWindow d ch) s = .next t ∧ mapGet (fun _ => 0) (32 * d.val + ch.val) t.dram.bursts =
        mapGet (fun _ => 0) (32 * d.val + ch.val) s.dram.bursts - 500 ∧
      t = { s with dram := { s.dram with bursts := t.dram.bursts } })

/-- A stack's thermal state moves at most one step per reading, and the end of grace puts the cap in force (R233, R234, R235).
The choices and readings of the model behind it: log entries 57, 58. -/
def Obligations.TheThermalLadderMovesOneStep : Prop :=
  ∀ (s : State) (d : DieIx), s.boot.on = true →
    (∀ temps : List Nat, temps.length = 8 → s.canHost = false →
      ∃ t, Machine.exec (.thermalReading d temps) s = .next t ∧ t.tstate d.val = nextTstate (s.tstate d.val) (temps.foldl max 0) ∧
        t.tstate d.val ≤ s.tstate d.val + 1 ∧ s.tstate d.val ≤ t.tstate d.val + 1 ∧ t.mem = s.mem) ∧
    (s.flag (MC_STAT d.val 0) MC_STAT_GRACE = true →
      ∃ t, Machine.exec (.graceLimit d) s = .next t ∧ t.flag (MC_STAT d.val 0) MC_STAT_GRACE = false ∧
        t.flag (MC_STAT d.val 0) MC_STAT_CAPPED = true ∧ (∀ c, c < 8 → t.flag (MC_EVENT d.val c) MC_EVENT_GRACE_END = true) ∧
        t.mem = s.mem)

/-- FLUSH reads 1 until the walk ends, and then no line of the controller is resident (R225, R233, R385).
The choices and readings of the model behind it: log entry 65. -/
def Obligations.AFlushLeavesNoLineOfItsController : Prop :=
  ∀ (s : State) (d : DieIx) (c : CtlIx), s.boot.on = true →
    (∀ q, arrives s q → s.regOn (DC_CTRL d.val c.val) = true →
      ∃ t, Machine.exec (.dcFlush d c q) s = .next t ∧ t.flag (DC_CTRL d.val c.val) DC_CTRL_FLUSH = true ∧
        8 * d.val + c.val ∈ t.dram.flush ∧ t.mem = s.mem ∧ regsKept s t [DC_CTRL d.val c.val]) ∧
    (8 * d.val + c.val ∈ s.dram.flush → s.tstate d.val ≠ 3 →
      ∃ t, Machine.exec (.dcFlushDone d c) s = .next t ∧ t.flag (DC_CTRL d.val c.val) DC_CTRL_FLUSH = false ∧
        8 * d.val + c.val ∉ t.dram.flush ∧
        ∀ l, stackOf (gchan (l * 256)) = d.val → ctlOf (gchan (l * 256)) = c.val → t.line l = none)

/-- A stream issues its next line while its ring has room, takes returned lines, and ends with the last acknowledgement (R226, R227, R228, R229, R230).
The choices and readings of the model behind it: log entries 66, 67. -/
def Obligations.StreamsIssueReturnAndAcknowledgeLines : Prop :=
  ∀ (s : State) (d : DieIx) (f : FaceIx) (x : Fin 8), s.boot.on = true →
    let st := PF_STAT d.val f.val x.val
    let w := s.sdesc d.val f.val x.val
    let k := s.strm d.val f.val x.val
    s.flag st PF_STAT_ACTIVE = true →
    (s.flag st PF_STAT_DIR = false →
      (∀ g freed, streamSeg w k.next = some g → k.next - (k.free freed).freed < min (sdDepth w) (16 * sdRing w) →
        s.faceFlight d.val f.val < 256 →
        let lie := (s.streamResolve d.val f.val x.val g.oa).1
        ∃ t, Machine.exec (.streamLineRead d f x none freed) s = .next t ∧
          t.strm d.val f.val x.val = (k.free freed).issue (oaKey g.oa) lie ∧
          (∀ dev, lie = .away dev → s.inGeom dev = true → ∃ p, t.out.head? = some (.packet p) ∧ p.type = 0 ∧ p.dst = dev ∧
            p.addr = g.oa / 256 * 256)) ∧
      (∀ g line b, streamSeg w line = some g → line ∈ k.flight → k.place line = .here b → s.lineShut (.here b) g = false →
        s.lineWaits (.here b) g (sdHint w < 2) = false →
        ∃ t, Machine.exec (.streamLineReturn d f x line false) s = .next t ∧
          line ∈ (t.strm d.val f.val x.val).valid ∧ line ∉ (t.strm d.val f.val x.val).flight ∧
          t.pair (PF_LINES_LO d.val f.val x.val) = (s.pair (PF_LINES_LO d.val f.val x.val) + 1) % 2 ^ 64) ∧
      (∀ g line, streamSeg w line = some g → line ∈ k.flight →
        ∃ t, Machine.exec (.streamLineReturn d f x line true) s = .next t ∧
          line ∈ (t.strm d.val f.val x.val).valid ∧ line ∉ (t.strm d.val f.val x.val).flight ∧
          t.flag (PF_EVENT d.val f.val x.val) PF_EVENT_ENDED = true ∧ line ∈ (t.strm d.val f.val x.val).bad)) ∧
    (s.flag st PF_STAT_DIR = true →
      (∀ g dev, streamSeg w k.next = some g → k.flight.length < sdDepth w → s.faceFlight d.val f.val < 256 → k.filled k.next g = true →
        let u := s.streamResolve d.val f.val x.val g.oa
        u.2.storeLie (oaKey g.oa) u.1 = .away dev → s.inGeom dev = true →
        ∃ t r, Machine.exec (.streamLineStore d f x none) s = .next t ∧ r = s.ringGet d.val f.val w g.pos g.len ∧
          (t.strm d.val f.val x.val).flight = k.flight ++ [k.next] ∧
          mapGet (fun _ => none) u.2.fab.nextTag t.fab.tags =
            some (.obj (.store d.val f.val x.val k.next g.oa r.1 r.2 (sdHint w)) 0) ∧
          t.out.head? = some (.packet { wrPkt dev g.oa false r.1 r.2 (sdHint w) with tag := u.2.fab.nextTag, src := s.devId })) ∧
      (∀ n, k.flight.find? k.ownAck = some n →
        ∃ t, Machine.exec (.streamStoreAck d f x) s = .next t ∧
          t.pair (PF_LINES_LO d.val f.val x.val) = (s.pair (PF_LINES_LO d.val f.val x.val) + 1) % 2 ^ 64 ∧ t.mem = s.mem ∧
          ((k.land n).flight = [] → streamSeg w k.next = none → t.strm d.val f.val x.val = {} ∧ t.reg st = 0) ∧
          ((k.land n).flight ≠ [] ∨ (streamSeg w k.next).isSome = true → t.strm d.val f.val x.val = k.land n)))

/-- The commands of mailbox 1 do what their row says, or are answered with the status the row names and do nothing (R242, R243, R247, R254, R265, R266).
The choices and readings of the model behind it: log entries 68, 69, 70. -/
def Obligations.ObjectCommandsAreDoneAndAnswered : Prop :=
  ∀ (s : State) (w : Nat) (blk : List Byte), s.boot.on = true → s.plc.busy = none → clearBox s 1 → Memory.wf s.mem = true →
    allServe s → (∀ a, a ∈ s.ledgerAddrs → leKind (s.led a) = kLocal → leAddr (s.led a) < 2 ^ 25) →
    let id := cbArg0 blk % 2 ^ 24
    let r := cbArg1 blk + cbArg2 blk * 2 ^ 64 + cbArg3 blk * 2 ^ 96
    let rg := cbArg3 blk % 64
    let bad := cbArg0 blk % 65536 ≠ 0 ∨ cbArg2 blk = 0 ∨ 2 ^ 28 ≤ cbArg2 blk ∨ 2 ^ 44 < cbArg0 blk + cbArg2 blk * 65536 ∨
      s.regionV rg = true ∨ s.regionClash (cbArg0 blk) (cbArg2 blk) = true
    let words := [PLC_REGION_W0 rg, PLC_REGION_W1 rg, PLC_REGION_W2 rg, PLC_REGION_W3 rg]
    (waiting s 1 0x20 w → ∃ t, Machine.exec (.objCreate blk) s = .next t ∧ regsKept s t (cacheRegs ++ mailRegs 1) ∧
      (s.objBad id r = true → answered t 1 (ansWord 0x06 0) ∧ t.mem = s.mem) ∧
      (s.objBad id r = false → answered t 1 (ansWord 0x00 0) ∧ t.objRec id = recordOf r ∧
        bytesKept s t (objRecAddr (id % 4096)) 32)) ∧
    (waiting s 1 0x21 w → ∃ t, Machine.exec (.objFree blk) s = .next t ∧
      regsKept s t ([PLC_STAT, PLC_FREE] ++ (List.range 64).map PLC_REGION_W3 ++ (List.range 4).map LEDC_STAT ++ cacheRegs ++ mailRegs 1) ∧
      (s.running = true → answered t 1 (ansWord 0x09 0) ∧ t.mem = s.mem) ∧
      (s.running = false → s.ownId id = false → answered t 1 (ansWord 0x06 0) ∧ t.mem = s.mem) ∧
      (s.running = false → s.ownId id = true → answered t 1 (ansWord 0x00 0) ∧ t.objRec id = 0 ∧
        (∀ a, ledPlace a → leKind (t.led a) ≠ kEmpty → leObj (t.led a) ≠ id) ∧
        (∀ a, ledPlace a → leKind (s.led a) = kLocal → leObj (s.led a) = id → fmUsed (s.fm (leAddr (s.led a))) = true →
          fmNopool (s.fm (leAddr (s.led a))) = false → t.fm (leAddr (s.led a)) = 0) ∧
        (∀ a, a % 2 ^ 32 < 0xFFD60000 → byteAt t a = byteAt s a))) ∧
    (waiting s 1 0x22 w → ∃ t, Machine.exec (.regionAdd blk) s = .next t ∧ t.mem = s.mem ∧
      (bad → answered t 1 (ansWord 0x08 0) ∧ regsKept s t (mailRegs 1)) ∧
      (¬bad → answered t 1 (ansWord 0x00 0) ∧ regsKept s t (words ++ mailRegs 1) ∧ t.regionV rg = true ∧
        t.regionBase rg = cbArg0 blk ∧ t.regionLen rg = cbArg2 blk ∧ t.regionUsed rg = 0)) ∧
    (waiting s 1 0x23 w → ∃ t, Machine.exec (.regionDel blk) s = .next t ∧ t.mem = s.mem ∧
      (s.regionV rg = false → answered t 1 (ansWord 0x08 0) ∧ regsKept s t (mailRegs 1)) ∧
      (s.regionV rg = true → s.regionUsed rg ≠ 0 → answered t 1 (ansWord 0x0A 0) ∧ regsKept s t (mailRegs 1)) ∧
      (s.regionV rg = true → s.regionUsed rg = 0 → answered t 1 (ansWord 0x00 0) ∧ regsKept s t (words ++ mailRegs 1) ∧
        ∀ a ∈ words, t.reg a = 0)) ∧
    (waiting s 1 0x26 w → ∃ t, Machine.exec (.aliasSet blk) s = .next t ∧ t.mem = s.mem ∧
      (s.running = true → answered t 1 (ansWord 0x09 0) ∧ regsKept s t (mailRegs 1)) ∧
      (s.running = false → answered t 1 (ansWord 0x00 0) ∧ t.reg (PLC_ALIAS (cbArg3 blk % 16)) = cbArg0 blk % 2 ^ 25 ∧
        regsKept s t (PLC_ALIAS (cbArg3 blk % 16) :: mailRegs 1)))

/-- RESERVE sets frames aside and gives them back; EVACUATE is answered RUNNING and mailbox 1 is BUSY until EVACUATE_DONE (R242, R245, R246, R254, R265, R382).
The choices and readings of the model behind it: log entries 70, 71. -/
def Obligations.ReservedFramesAndEvacuation : Prop :=
  ∀ (s : State) (w : Nat) (blk : List Byte), s.boot.on = true →
    let a := cbArg0 blk
    let len := cbArg2 blk
    let slot := cbArg3 blk % 16
    let held := s.flag STEP_STAT STEP_STAT_HOLD || (s.eng.active.isNone && s.eng.next.isNone)
    (s.plc.busy = none → clearBox s 1 → waiting s 1 0x24 w → ∃ t, Machine.exec (.reserve blk) s = .next t ∧
      (s.running = true → answered t 1 (ansWord 0x09 0) ∧ t.mem = s.mem ∧ t.plc = s.plc ∧ regsKept s t (mailRegs 1)) ∧
      (s.running = false → bit (cbArg3 blk) 4 = true → allServe s → a % 65536 = 0 → 0 < len → a + len * 65536 ≤ 0x20000000000 →
        mapGet (fun _ => none) slot s.plc.resv = none → (∀ e ∈ s.plc.resv, e.2 = none) →
        (∀ i, i < len → (a / 65536 + i) % 65536 < poolFrames ((a / 65536 + i) / 65536) ∧ fmUsed (s.fm (a / 65536 + i)) = false) →
        answered t 1 (ansWord 0x00 0) ∧ mapGet (fun _ => none) slot t.plc.resv = some (a / 65536, len) ∧
        regsKept s t (PLC_FREE :: cacheRegs ++ mailRegs 1) ∧
        ∀ i, i < len → fmNopool (t.fm (a / 65536 + i)) = true) ∧
      (∀ f n, s.running = false → bit (cbArg3 blk) 4 = false → allServe s → f + n ≤ 2 ^ 25 →
        mapGet (fun _ => none) slot s.plc.resv = some (f, n) → regsKept s t (PLC_FREE :: cacheRegs ++ mailRegs 1) ∧
        answered t 1 (ansWord 0x00 0) ∧ mapGet (fun _ => none) slot t.plc.resv = none ∧
        ∀ i, i < n → fmUsed (s.fm (f + i)) = false → fmNopool (t.fm (f + i)) = false)) ∧
    (s.plc.busy = none → clearBox s 1 → waiting s 1 0x25 w →
      (held = false → ∃ t, Machine.exec (.evacuate blk) s = .next t ∧ answered t 1 (ansWord 0x09 0) ∧ regsKept s t (mailRegs 1) ∧
        t.mem = s.mem) ∧
      (held = true → ∃ b : State, Machine.exec (.evacuate blk) s = .next (queued s b.evacPump) ∧ answered b 1 (ansWord 0x0F 0) ∧
        b.flag PLC_STAT PLC_STAT_EVACUATING = true ∧ regsKept s b (PLC_STAT :: mailRegs 1) ∧ b.mem = s.mem ∧
        b.plc = { s.plc with evac := some (a % 4096), evacBad := 0, evacStep := 1, busy := some (.own w) })) ∧
    (s.plc.busy ≠ none → ∀ e ∈ [(0x20, Instr.objCreate blk), (0x21, .objFree blk), (0x22, .regionAdd blk), (0x23, .regionDel blk),
        (0x24, .reserve blk), (0x25, .evacuate blk), (0x26, .aliasSet blk)], waiting s 1 e.1 w →
      Machine.exec e.2 s = .next (queued s ((took s 1 w).f2hPush 1 (ansWord 0x01 0)))) ∧
    (s.plc.evac = none → Machine.exec .evacuateDone s = .next s) ∧
    (s.plc.evac ≠ none → s.evacEmpty = false → Machine.exec .evacuateDone s = .next (queued s s.evacPump)) ∧
    (s.plc.evac ≠ none → s.evacEmpty = true → ∃ t, Machine.exec .evacuateDone s = .next t ∧
      (t.flag PLC_STAT PLC_STAT_EVACUATED = true ∧ t.flag PLC_STAT PLC_STAT_EVACUATING = false ∧
        t.flag PLC_EVENT PLC_EVENT_EVAC_DONE = true ∧ t.plc.evac = none ∧ t.plc.busy = none ∧ t.mem = s.mem ∧
        (clearBox s 1 → s.plc.busy = some (.own w) → t.reg (F2H_DATA 1) = ansWord 0x00 (min 2047 s.plc.evacBad) ∧
          t.flag (F2H_STAT 1) F2H_STAT_FULL = true)))

/-- A resolution places at the first touch, freshens a frame here, asks the server, reads from the holder, or ends (R246, R247, R249, R250, R251, R252, R253, R293, R216).
The choices and readings of the model behind it: log entries 72, 74, 75, 80. -/
def Obligations.ResolutionPlacesFreshensAndAsks : Prop :=
  ∀ (s : State) (oa : Nat) (wr : Bool) (face : Option (Fin 1024)), s.boot.on = true →
    let k := oaKey oa
    let r := s.objRec (keyObj k)
    let pin := orPin r || classPin (orClass r)
    let v := s.serverOf (oaOwner oa)
    let q : ObjReq := if wr then .write oa [] false else .read oa
    let ends (t : State) : Prop := ∃ f, t.obs.log.head? = some f ∧ f.cls = 1 ∧ f.code = 0x0102 ∧ f.detail = oa % 2 ^ 48
    (s.flag PLC_STAT PLC_STAT_EVACUATED = false →
      (∀ fr a, allServe s → s.whereIs k = .empty → orBind r = false → orMirror r = false → orTmin r = 0 → s.lowMark < s.freeFrames →
        s.pickFrame r (face.map (fun f => f.val)) = some fr → (keyWays k).find? (fun a => leKind (s.led a) == kEmpty) = some a →
        ∃ t, Machine.exec (.objectResolve oa wr face false) s = .next t ∧
          t.lookup k = some (a, leMake k kLocal false pin (orClass r) s.devId fr) ∧ t.fm fr = fmMake k (orClass r) pin false ∧
          t.freeFrames = s.freeFrames - 1 ∧ ∀ x, frameAddr fr ≤ x → x < frameAddr fr + 65536 → byteAt t x = 0) ∧
      (∀ a e, allServe s → s.lookup k = some (a, e) → leKind e = kLocal → leAddr e < 2 ^ 25 →
        (v = s.devId ∨ wr = false ∨ leClass e ≠ 1) →
        ∃ t, Machine.exec (.objectResolve oa wr face false) s = .next t ∧ fmAge (t.fm (leAddr e)) = 0 ∧
          bytesKept s t (fmAddr (leAddr e)) 1) ∧
      (s.keyGone k = false → s.lookup k = none → v ≠ s.devId → s.inGeom v = true →
        ∃ t p, Machine.exec (.objectResolve oa wr face false) s = .next t ∧ t.out = .packet p :: s.out ∧ p.type = 6 ∧ p.dst = v ∧
          p.args = opLookup ∧ p.addr = keyOa k ∧ t.useOf p.tag = some (.lookup q 0) ∧ t.mem = s.mem) ∧
      (∀ a e, s.lookup k = some (a, e) → leKind e = kProxy → leClass e ≠ 1 → v ≠ s.devId → wr = false → s.inGeom (leDev e) = true →
        ∃ t p, Machine.exec (.objectResolve oa wr face false) s = .next t ∧ t.out = .packet p :: s.out ∧ p.type = 0 ∧
          p.dst = leDev e ∧ p.addr = oa / 256 * 256 ∧ t.useOf p.tag = some (.obj q 0) ∧ t.mem = s.mem) ∧
      (s.lookup k = none → v = s.devId → orValid r = false →
        ∃ t, Machine.exec (.objectResolve oa wr face false) s = .next t ∧ ends t)) ∧
    (s.flag PLC_STAT PLC_STAT_EVACUATED = true → ∃ t, Machine.exec (.objectResolve oa wr face false) s = .next t ∧ ends t) ∧
    ((k, true) ∈ s.ledcWays k → (k, false) ∉ s.ledcWays k → (s.ledcErr k true).flag PLC_EVENT PLC_EVENT_LEDGER_UE = true ∧
      (s.ledcErr k true).flag (LD_EVENT (keyLinkDie k)) LD_EVENT_LEDC_UE = true ∧ (s.ledcErr k true).lookup k = none ∧
      Machine.exec (.objectResolve oa wr face true) s =
        .next (queued s ((s.ledcErr k true).resolve oa wr (face.map (fun f => f.val))))) ∧
    (∀ (p : Packet) (n : Nat), p.rsp = true → p.status = 1 → s.useOf p.tag = some (.obj q n) →
      (∀ a e, n + 1 < 4 → allServe s → s.lookup k = some (a, e) → leKind e = kProxy → v ≠ s.devId → s.inGeom v = true →
        (∀ b ∈ keyWays k, b ≠ a → leKind (s.led b) = kEmpty ∨ leKey (s.led b) ≠ k) →
        ∃ t x, Machine.exec (.staleReply p) s = .next t ∧ t.led a = 0 ∧ bytesKept s t a 16 ∧ t.out = .packet x :: s.out ∧ x.type = 6 ∧
          x.dst = v ∧ x.args = opLookup ∧ t.useOf x.tag = some (.lookup q (n + 1))) ∧
      (4 ≤ n + 1 → ∃ t, Machine.exec (.staleReply p) s = .next t ∧ t.flag PLC_EVENT PLC_EVENT_STALE_LIMIT = true ∧ ends t))

/-- The sweep ages frames, a round is planned below the LOW mark, a move switches its entry, and a mend or a rebuild restores it (R246, R247, R255, R256, R259, R264, R267, R282).
The choices and readings of the model behind it: log entries 72, 77, 81. -/
def Obligations.AgesMovesMendsAndTheRebuiltMap : Prop :=
  ∀ s : State, s.boot.on = true → Memory.wf s.mem = true →
    (s.flag PLC_STAT PLC_STAT_READY = false → Machine.exec .ageSweep s = .next s) ∧
    (s.flag PLC_STAT PLC_STAT_READY = true → s.flag PLC_STAT PLC_STAT_EVICTING = false →
      ∃ t, Machine.exec .ageSweep s = .next t ∧
        (∀ fr, fr ∈ s.poolUsed → fmAge (t.fm fr) = min 255 (fmAge (s.fm fr) + 1) ∧ t.fm fr / 256 = s.fm fr / 256) ∧
        (∀ fr, fr ∉ s.poolUsed → t.fm fr = s.fm fr) ∧
        (s.engineFree = true → s.flag PLC_CTRL PLC_CTRL_EVICT_EN = true → s.freeFrames < s.lowMark →
          t.flag PLC_STAT PLC_STAT_EVICTING = true ∧ t.plc.need = s.highMark - s.freeFrames ∧ regsKept s t (PLC_STAT :: cacheRegs)) ∧
        (s.engineFree = false ∨ s.flag PLC_CTRL PLC_CTRL_EVICT_EN = false ∨ s.lowMark ≤ s.freeFrames → regsKept s t cacheRegs)) ∧
    (∀ p : Packet, p.type = 7 → p.rsp = false → p.args % 256 = 0 → regionOf p.addr = .dram →
      s.served (p.addr + 512 * bits p.args 8 7) 512 = true →
      (fmKey (s.fm (p.addr / 65536)) = oaKey p.ext ∧ fmUsed (s.fm (p.addr / 65536)) = true →
        ∃ t, Machine.exec (.migData p) s = .next t ∧
          getBytes t.mem (p.addr + 512 * bits p.args 8 7) (p.data.take 512).length = p.data.take 512 ∧
          bytesKept s t (p.addr + 512 * bits p.args 8 7) (p.data.take 512).length ∧ regsKept s t cacheRegs) ∧
      (fmKey (s.fm (p.addr / 65536)) ≠ oaKey p.ext → Machine.exec (.migData p) s = .next s)) ∧
    (∀ (p : Packet) (a e : Nat), p.type = 7 → p.rsp = false → p.args % 256 = 1 → s.lookup (oaKey p.ext) = some (a, e) →
      leKind e = kMoving → lePoison e = false → regionOf p.addr = .dram → s.chanOk (gchan a) = true →
      ∃ t, Machine.exec (.migDone p) s = .next t ∧ t.led a = leSet e kLocal s.devId (p.addr / 65536) ∧
        t.out = .packet (Packet.reply p 0 [] false) :: s.out ∧ regsKept s t cacheRegs ∧ bytesKept s t a 16) ∧
    (∀ (p : Packet) (k : Nat), p.type = 7 → p.rsp = true → p.status = 0 → s.useOf p.tag = some (.mig k) →
      ∃ t, Machine.exec (.migDone p) s = .next t ∧ t.useOf p.tag = none ∧ t.mem = s.mem ∧ t.regs = s.regs ∧
        t.plc.moves = s.plc.moves.map (fun m => if m.key = k then { m with done := true } else m)) ∧
    ((∀ m ∈ s.plc.moves, m.done = false) → Machine.exec .moveSwitch s = .next s) ∧
    (∀ (m : Move) (src a e : Nat), s.plc.moves.find? (fun m => m.done) = some m → m.why = .evict → m.host = false → m.writes = [] →
      m.srcAddr = some src → src < 0x20000000000 → s.plc.evac = none → s.plc.round = none → allServe s → s.lookup m.key = some (a, e) →
      ∃ t, Machine.exec .moveSwitch s = .next t ∧ t.led a = leSet e kPeer m.dstDev (m.dstAddr / 65536) ∧
        (fmUsed (s.fm (src / 65536)) = true → fmNopool (s.fm (src / 65536)) = false → t.fm (src / 65536) = 0) ∧
        t.plc.moves = s.plc.moves.filter (fun x => x.key != m.key) ∧
        t.pair PLC_MOVE_LO = (s.pair PLC_MOVE_LO + 1) % 2 ^ 64 ∧ t.pair PLC_EVICT_LO = (s.pair PLC_EVICT_LO + 1) % 2 ^ 64) ∧
    (∀ (m : Mend) (d : Nat) (l : List Nat) (rest : List Mend) (a e fr : Nat) (v : List Byte), s.plc.mends = m :: rest →
      m.srcs = d :: l → allServe s → s.lookup m.key = some (a, e) → lePoison e = true →
      (s.pickFrame (s.objRec (keyObj m.key)) none = some fr → v.length = 65536 →
        ∃ t, Machine.exec (.mendComplete (some v)) s = .next t ∧ t.plc.mends = rest ∧
          t.led a = leSet (setBits e 51 1 0) kLocal s.devId fr ∧ getBytes t.mem (frameAddr fr) 65536 = v ∧
          t.flag PLC_EVENT PLC_EVENT_MEND_OK = true) ∧
      (l = [] → m.remake = false → ∃ t, Machine.exec (.mendComplete none) s = .next t ∧ t.plc.mends = rest ∧
        t.flag PLC_EVENT PLC_EVENT_MEND_FAIL = true ∧ t.mem = s.mem)) ∧
    (∀ g : Fin 512, s.chanOk g.val = true → ∃ t, Machine.exec (.frameMapRebuildDone g) s = .next t ∧ regsKept s t cacheRegs ∧
      (g.val ∉ s.plc.rebuild → t = s) ∧
      (g.val ∈ s.plc.rebuild → ∀ a ∈ s.ledgerAddrs, (leKind (s.led a) = kLocal ∨ leKind (s.led a) = kRcopy) →
        leAddr (s.led a) / 65536 = g.val → fmNopool (s.fm (leAddr (s.led a))) = false →
        (∀ b ∈ s.ledgerAddrs, b ≠ a → leAddr (s.led b) ≠ leAddr (s.led a)) →
        t.fm (leAddr (s.led a)) =
          fmMake (leKey (s.led a)) (leClass (s.led a)) (lePin (s.led a)) (leKind (s.led a) == kRcopy)))

/-- The ledger packets change the entry they name and are answered (R243, R247, R250, R251, R252, R257, R260, R263, R264, R265, R266, R282).
The choices and readings of the model behind it: log entries 72, 73. -/
def Obligations.LedgerPacketsKeepTheLedgersInStep : Prop :=
  ∀ (s : State) (p : Packet), s.boot.on = true → p.type = 6 → Memory.wf s.mem = true → allServe s →
    let k := oaKey p.addr
    let reply (st : Nat) (d : List Byte) : Output := .packet (Packet.reply p st d false)
    (p.rsp = true → (∀ c ∈ [Instr.ledReplicaAdd p, .ledReplicaDrop p, .ledPoisonNotice p, .ledPlaceSpill p, .ledFreeNotice p,
        .ledEntryTransfer p], Machine.exec c s = .next (queued s (s.freeTag p.tag))) ∧
      (∀ oa n a, s.useOf p.tag = some (.lookup (.read oa) n) → p.src < 4096 →
        let e := leNat (p.data.take 16)
        let dev := ledHolder p.src e
        (p.status = 0 → 16 ≤ p.data.length → leClass e ≠ 1 → dev ≠ s.devId → s.inGeom dev = true → s.lookup (oaKey oa) = none →
          s.keyGone (oaKey oa) = false → (keyWays (oaKey oa)).find? (fun a => leKind (s.led a) == kEmpty) = some a →
          ∃ t x, Machine.exec (.ledProxyAnswer p) s = .next t ∧ bytesKept s t a 16 ∧ regsKept s t cacheRegs ∧
            t.lookup (oaKey oa) = some (a, leMake (oaKey oa) kProxy false (lePin e) (leClass e) dev 0) ∧
            t.out = .packet x :: s.out ∧ x.type = 0 ∧ x.dst = dev ∧ x.addr = oa / 256 * 256 ∧ t.useOf x.tag = some (.obj (.read oa) n)) ∧
        (p.status = 1 → Machine.exec (.ledProxyAnswer p) s = .next (queued s ((s.freeTag p.tag).staleReply (.read oa) n))) ∧
        (2 ≤ p.status → ∃ t f, Machine.exec (.ledProxyAnswer p) s = .next t ∧ t.obs.log.head? = some f ∧ f.code = 0x0102 ∧
          f.detail = oa % 2 ^ 48))) ∧
    (p.rsp = false →
      (∀ a e, p.args % 256 = opLookup → s.lookup k = some (a, e) → s.flag PLC_STAT PLC_STAT_EVACUATED = false → leAddr e < 2 ^ 25 →
        (leKind e = kMoving → s.moveOf k = none) →
        (leKind e = kPeer ∨ leKind e = kHost → s.flag PLC_CTRL PLC_CTRL_PULL_EN = false) →
        ∃ t, Machine.exec (.ledLookup p false) s = .next t ∧ t.out = reply 0 (leBytes 32 e) :: s.out ∧ t.led a = e) ∧
      (∀ a e m x, p.args % 256 = opLookup → s.lookup k = some (a, e) → s.flag PLC_STAT PLC_STAT_EVACUATED = false →
        leKind e = kMoving → s.moveOf k = some m → m.srcAddr = some x →
        ∃ t, Machine.exec (.ledLookup p false) s = .next t ∧ t.out = reply 0 (leBytes 32 (setBits e 64 12 s.devId)) :: s.out ∧
          t.led a = e) ∧
      (p.args % 256 = opLookup → s.flag PLC_STAT PLC_STAT_EVACUATED = true →
        ∃ t, Machine.exec (.ledLookup p false) s = .next t ∧ t.out = reply 1 [] :: s.out ∧ t.mem = s.mem) ∧
      (∀ a e, p.args % 256 = opReplAdd → s.lookup k = some (a, e) →
        ∃ t, Machine.exec (.ledReplicaAdd p) s = .next t ∧ t.out = reply 0 [] :: s.out ∧ bytesKept s t a 16 ∧ regsKept s t cacheRegs ∧
          (leR0V e = false → t.led a = setBits (setBits e 57 1 1) 104 12 p.src) ∧
          (leR0V e = true → leR1V e = false → t.led a = setBits (setBits e 58 1 1) 116 12 p.src) ∧
          (leR0V e = true → leR1V e = true → t.led a = e)) ∧
      (∀ a e, p.args % 256 = opReplDrop → s.lookup k = some (a, e) →
        ∃ t, Machine.exec (.ledReplicaDrop p) s = .next t ∧ t.out = reply 0 [] :: s.out ∧ bytesKept s t a 16 ∧ regsKept s t cacheRegs ∧
          (leR0V e = true → leRepl0 e = p.src → leR0V (t.led a) = false) ∧
          (leR1V e = true → leRepl1 e = p.src → ¬(leR0V e = true ∧ leRepl0 e = p.src) → leR1V (t.led a) = false)) ∧
      (∀ a e, p.args % 256 = opPoison → s.lookup k = some (a, e) →
        ∃ t, Machine.exec (.ledPoisonNotice p) s = .next t ∧ t.out.head? = some (reply 0 []) ∧ lePoison (t.led a) = (p.ext != 1) ∧
          bytesKept s t a 16 ∧ (p.ext ≠ 1 → lePoison e = false → t.flag PLC_EVENT PLC_EVENT_POISON = true)) ∧
      (∀ fr a, p.args % 256 = opSpill → s.serverOf (keyObj k / 4096) ≠ s.devId → s.highMark < s.freeFrames →
        s.unevacuated = true → s.pickFrame (extRec p.ext) none = some fr → s.lookup k = none →
        (keyWays k).find? (fun a => leKind (s.led a) == kEmpty) = some a →
        let why := bits p.ext 0 2
        let kind := if why = 1 then kRcopy else if why = 0 then kLocal else kMoving
        let e := leMake k kind false (bit p.ext 6) (bits p.ext 2 4) s.devId fr
        ∃ t, Machine.exec (.ledPlaceSpill p) s = .next t ∧ t.out = reply 0 (leBytes 32 e) :: s.out ∧ t.led a = e ∧
          t.fm fr = fmMake k (bits p.ext 2 4) (bit p.ext 6 || why == 1) (why == 1) ∧ t.freeFrames = s.freeFrames - 1) ∧
      (p.args % 256 = opSpill → s.serverOf (keyObj k / 4096) ≠ s.devId → s.freeFrames ≤ s.highMark → bits p.ext 0 2 ≠ 3 →
        ∃ t, Machine.exec (.ledPlaceSpill p) s = .next t ∧ t.out = reply 4 [] :: s.out ∧ t.mem = s.mem ∧ t.regs = s.regs) ∧
      (∀ fr a e, p.args % 256 = opSpill → s.serverOf (keyObj k / 4096) = s.devId → bits p.ext 0 2 = 2 → s.highMark < s.freeFrames →
        s.unevacuated = true → s.pickFrame (s.objRec (keyObj k)) none = some fr → s.lookup k = some (a, e) →
        ∃ t, Machine.exec (.ledPlaceSpill p) s = .next t ∧ t.out = reply 0 (leBytes 32 (leSet e kLocal s.devId fr)) :: s.out ∧
          t.led a = setBits e 48 3 kMoving ∧ t.fm fr = fmMake k (leClass e) (lePin e) false ∧ t.freeFrames = s.freeFrames - 1) ∧
      (∀ a e, p.args % 256 = opFree → p.ext = 1 → s.lookup k = some (a, e) → leKind e = kLocal → leAddr e < 2 ^ 25 →
        s.moveOf k = none → (∀ b ∈ s.ledgerAddrs, leKind (s.led b) ≠ kEmpty → leKey (s.led b) = k → b = a) →
        ∃ t, Machine.exec (.ledFreeNotice p) s = .next t ∧ t.out = reply 0 [] :: s.out ∧ t.led a = 0 ∧ t.lookup k = none ∧
          (fmUsed (s.fm (leAddr e)) = true → fmNopool (s.fm (leAddr e)) = false → t.fm (leAddr e) = 0)) ∧
      (p.args % 256 = opTransfer → p.ext = 0 → oaOwner p.addr ≠ s.devId →
        (∀ i, i < 16 → s.flag (PLC_ALIAS i) PLC_ALIAS_V = true → s.fld (PLC_ALIAS i) PLC_ALIAS_OWNER ≠ oaOwner p.addr) →
        (∃ i, i < 16 ∧ s.flag (PLC_ALIAS i) PLC_ALIAS_V = false) →
        ∃ t, Machine.exec (.ledEntryTransfer p) s = .next t ∧ t.out = reply 0 [] :: s.out ∧
          t.objRec (oaObj p.addr) = leNat (p.data.take 32) ∧ t.serverOf (oaOwner p.addr) = s.devId ∧ t.mem = s.mem) ∧
      (∀ a, p.args % 256 = opTransfer → p.ext = 1 → s.serverOf (oaOwner p.addr) = s.devId → s.lookup k = none →
        (keyWays k).find? (fun a => leKind (s.led a) == kEmpty) = some a →
        let e := leNat (p.data.take 16)
        lePoison e = false → ¬(leKind e = kPeer ∧ leDev e = s.devId) →
        ∃ t, Machine.exec (.ledEntryTransfer p) s = .next t ∧ t.out = reply 0 [] :: s.out ∧ t.led a = e ∧ bytesKept s t a 16))

/-- Detection, training, the check, health, retraining, enabling and leaving UP take a link to the state the rules give (R273, R274, R275, R280, R271).
The choices and readings of the model behind it: log entries 86, 87, 88. -/
def Obligations.LinksTrainCheckAndRetrain : Prop :=
  ∀ (s : State) (l : LinkIx), s.boot.on = true →
    let L := l.val
    let die := L / 32
    let margin := LNK_MARGIN die (L % 32)
    let counts := LNK_RETRAINS die (L % 32)
    let auto := s.ldFld die (LD_HEALTH_CFG die) LD_HEALTH_CFG_AUTO_RETRAIN
    let lim := s.ldFld die (LD_HEALTH_CFG die) LD_HEALTH_CFG_RETRY_LIM
    let most := s.ldFld die (LD_HEALTH_CFG die) LD_HEALTH_CFG_RETRAIN_MAX
    let hour := s.fld counts LNK_RETRAINS_HOUR
    let port := s.lport L
    let retrained (t : State) : Prop := t.fld counts LNK_RETRAINS_COUNT = satAdd 16 (s.fld counts LNK_RETRAINS_COUNT) 1 ∧
      (hour < most ∨ s.lstate L = lsDisabled → t.lstate L = lsRetrain ∧ t.flag (lnkEvent L) LNK_EVENT_RETRAIN = true ∧
        t.flag (lnkCtrl L) LNK_CTRL_RETRAIN = true) ∧
      (most ≤ hour → s.lstate L ≠ lsDisabled → t.lstate L = lsDisabled ∧ t.flag (lnkEvent L) LNK_EVENT_DISABLED = true)
    let boot := s.fld AON_BOOT_STAT AON_BOOT_STAT_STAGE = 6
    (s.lstate L = lsDetect → ∀ found, (found = true ∨ ¬boot) → ∃ t, Machine.exec (.linkDetectDone l found) s = .next t ∧ onlyRegs s t ∧
      t.out = s.out ∧ t.lstate L = (if found then lsTrain else lsFailed) ∧ regsKept s t (lnkCtrl L :: linkRegs L)) ∧
    (boot → (s.lstate L = lsDetect → ∃ t, Machine.exec (.linkDetectDone l false) s = .next t ∧ t.lstate L = lsFailed ∧
        newestFault t 0 0x0404 L) ∧
      (s.lstate L = lsTrain ∨ s.lstate L = lsRetrain → ∀ h w : Nat, ∃ t, Machine.exec (.linkTrainDone l false h w) s = .next t ∧
        t.lstate L = lsFailed ∧ newestFault t 0 0x0404 L)) ∧
    (s.lstate L = lsTrain ∨ s.lstate L = lsRetrain → ∀ (ok : Bool) (h w : Nat), (ok = true ∨ ¬boot) →
      ∃ t, Machine.exec (.linkTrainDone l ok h w) s = .next t ∧ onlyRegs s t ∧
        t.out = (if ok then [.identity L ⟨s.devId, L, port, s.geomCrc⟩] else []) ++ s.out ∧
        t.lstate L = (if ok then lsCheck else lsFailed) ∧ t.fld margin LNK_MARGIN_EYE_H = min 255 h ∧
        t.fld margin LNK_MARGIN_EYE_W = min 255 w ∧ t.flag (lnkCtrl L) LNK_CTRL_RETRAIN = false ∧
        regsKept s t (margin :: lnkCtrl L :: linkRegs L)) ∧
    (s.lstate L = lsCheck →
      (∀ f, s.checkOk L f = true → mapGet (fun _ => []) port s.fab.resend = [] → ∃ t, Machine.exec (.linkCheck l (some f)) s = .next t ∧ t.lstate L = lsUp ∧
        t.fld (lnkStat L) LNK_STAT_NBR_ID = f.dev ∧ t.fld (lnkStat L) LNK_STAT_NBR_LINK = f.link % 128 ∧
        t.flag (lnkEvent L) LNK_EVENT_UP = true ∧ (t.link L).txSeq = 0 ∧ (t.link L).rxAck = 4095 ∧ (t.link L).replay = [] ∧
        (t.link L).credit = [40, 40, 88, 40, 40, 88, 40, 40, 88] ∧ (t.link L).kept = (s.link L).kept ++ (s.link L).inbox) ∧
      (∀ far, (∀ f, far = some f → s.checkOk L f = false) → ∃ t, Machine.exec (.linkCheck l far) s = .next t ∧ t.lstate L = lsFailed ∧
        t.flag (lnkEvent L) LNK_EVENT_CHECK_FAIL = true ∧ newestFault t 0 0x0404 L)) ∧
    (s.lstate L = lsUp → (auto = 0 ∨ (s.link L).retries ≤ lim) → ∀ h w : Nat,
      ∃ t, Machine.exec (.linkHealthCheck l h w false) s = .next t ∧ t.out = s.out ∧ t.fld margin LNK_MARGIN_EYE_H = min 255 h ∧
        t.fld margin LNK_MARGIN_EYE_W = min 255 w ∧ regsKept s t [margin] ∧ t.link L = { s.link L with retries := 0 }) ∧
    (auto ≠ 0 → (s.lstate L = lsUp ∧ lim < (s.link L).retries ∨ s.lstate L = lsFailed) → ∀ h w : Nat,
      ∃ t, Machine.exec (.linkHealthCheck l h w false) s = .next t ∧ retrained t) ∧
    (∀ q, arrives s q → s.regOn (lnkCtrl L) = true → s.mayTrain L = true →
      ∃ t, Machine.exec (.linkRetrain l q) s = .next t ∧ retrained t) ∧
    (∀ q, arrives s q → s.regOn (lnkCtrl L) = true →
      (s.flag (lnkCtrl L) LNK_CTRL_EN = true → s.parStop.contains (LD_CTRL die) = false →
        ∃ t, Machine.exec (.linkEnableWrite l false q) s = .next t ∧
        t.lstate L = (if s.lstate L = lsDisabled then lsDisabled else lsDown) ∧ t.flag (lnkCtrl L) LNK_CTRL_EN = false) ∧
      (s.flag (lnkCtrl L) LNK_CTRL_EN = false → s.lstate L = lsDown → port < 6 → s.flag (LD_STAT die) LD_STAT_READY = true →
        ∃ t, Machine.exec (.linkEnableWrite l true q) s = .next t ∧ t.lstate L = lsDetect ∧ t.flag (lnkCtrl L) LNK_CTRL_EN = true)) ∧
    (s.lstate L = lsUp → ∃ t, Machine.exec (.linkDown l) s = .next t ∧ t.lstate L = lsDown ∧
      t.flag (lnkEvent L) LNK_EVENT_DOWN = true ∧ t.flag (LD_EVENT die) LD_EVENT_LINK_DOWN = true ∧ (t.link L).replay = [] ∧
      (∀ o more, (s.upLinks port).filter (fun j => j != L) = o :: more →
        t.lives L = s.lives L ++ [⟨s.fab.nextTag, (s.link L).replay.filter (fun e => !isResync e.2)⟩] ∧
        (more = [] → mapGet (fun _ => []) port s.fab.resend = [] → s.unanswered port = [] → 1 ≤ s.credit o 6 →
          s.replayFlits o < 512 →
          ∃ q, t.out.head? = some (.linkPacket o q) ∧ q.type = 8 ∧ q.args = 5 ∧ q.tag = s.fab.nextTag ∧ ((s.link L).rxAck < 4096 → bits q.ext 12 7 = L))) ∧
      ((s.upLinks port).filter (fun j => j != L) = [] → t.flag (LD_EVENT die) LD_EVENT_TRUNK_DOWN = true))

/-- A flit in sequence without an uncorrectable word is taken; another is asked for again; credits and acknowledgements count up (R215, R276, R277, R278, R279, R280).
The choices and readings of the model behind it: log entries 89, 93. -/
def Obligations.FlitsAreTakenInOrderOrAskedForAgain : Prop :=
  ∀ (s : State) (l : LinkIx), s.boot.on = true →
    let L := l.val
    let k := s.link L
    let ce := LNK_CE_LO (L / 32) (L % 32)
    let retry := LNK_RETRY_LO (L / 32) (L % 32)
    let want := (k.rxAck + 1) % 4096
    (s.lstate L ≠ lsUp → ∀ (vc : Fin 9) (b : List Byte) (q ack : Fin 4096) (kind : Fin 16) (nak : Bool) (cred errs : List Nat),
      ∀ c ∈ [Instr.seqFlitReceive l vc b q errs, .lctlReceive l kind ack nak cred errs, .lctlSend l, .nakRepeat l],
        Machine.exec c s = .next s) ∧
    (s.lstate L = lsUp →
      (∀ (vc : Fin 9) (b : List Byte) (q : Fin 4096) (errs : List Nat), isControl (errs.getD 0 0) = false →
        ∃ t, Machine.exec (.seqFlitReceive l vc b q errs) s = .next t ∧
        t.pair ce = (s.pair ce + corrWords errs) % 2 ^ 64 ∧
        (q.val % 16 = want % 16 → badWords errs = false →
          let got := mapGet (fun _ => []) vc.val k.part ++ b
          (t.link L).rxAck = want ∧ (t.link L).naking = false ∧ t.out = s.out ∧ t.lstate L = lsUp ∧
          (got.length < 32 * (1 + headerLen got) →
            mapGet (fun _ => []) vc.val (t.link L).part = got ∧ (t.link L).inbox = k.inbox) ∧
          (32 * (1 + headerLen got) ≤ got.length → mapGet (fun _ => []) vc.val (t.link L).part = [] ∧
            ∃ bad, (t.link L).inbox = k.inbox ++ [packetOf got bad])) ∧
        (q.val % 16 ≠ want % 16 → k.naking = true → t.link L = k ∧ t.out = s.out) ∧
        ((q.val % 16 ≠ want % 16 ∧ k.naking = false) ∨ (q.val % 16 = want % 16 ∧ badWords errs = true) →
          t.pair retry = (s.pair retry + 1) % 2 ^ 64 ∧ (t.link L).rxAck = k.rxAck ∧ (t.link L).inbox = k.inbox ∧
          (k.naks < 7 → t.out.head? = some (.lctl L k.rxAck true k.freed) ∧ (t.link L).naking = true ∧ t.lstate L = lsUp) ∧
          (7 ≤ k.naks → t.lstate L ≠ lsUp))) ∧
      (∀ (vc : Fin 9) (b : List Byte) (q : Fin 4096) (errs : List Nat), isControl (errs.getD 0 0) = true →
        let w := blkNat b 0 8
        Machine.exec (.seqFlitReceive l vc b q errs) s = .next (queued s (s.ctlBody L (bits w 0 4) (bits w 4 12) (bit w 16)
          ((List.range 9).map (fun v => blkNat b (8 + v) 1)) (errs.drop 1)))) ∧
      (k.naking = true → k.naks < 7 → ∃ t, Machine.exec (.nakRepeat l) s = .next t ∧ t.out.head? = some (.lctl L k.rxAck true k.freed) ∧
        t.pair retry = (s.pair retry + 1) % 2 ^ 64) ∧
      (k.naking = false → Machine.exec (.nakRepeat l) s = .next s) ∧
      (∃ t, Machine.exec (.lctlSend l) s = .next t ∧ t.out = .lctl L k.rxAck false k.freed :: s.out ∧ t.regs = s.regs ∧
        t.link L = { k with owed := List.replicate 9 0, slots := 0 }) ∧
      (∀ (kind : Fin 16) (ack : Fin 4096) (nak : Bool) (cred errs : List Nat), isControl (errs.getD 0 0 ^^^ bchControl) = true →
        let rest := errs.drop 1
        let naks := (if k.nakAck = ack.val then k.nakIn else 0) + b2n nak
        ∃ t, Machine.exec (.lctlReceive l kind ack nak cred errs) s = .next t ∧
          t.pair ce = (s.pair ce + corrWords rest) % 2 ^ 64 ∧
          (badWords rest = false → poisonWords rest = false → kind.val ≤ 1 → mapGet (fun _ => []) (s.lport L) s.fab.resend = [] →
            (nak = false ∨ naks < 8 → (t.link L).replay = k.replay.filter (fun e => !seqAcked ack.val e.1) ∧
              (∀ v, v < 9 → (t.link L).credit.getD v 0 = k.credit.getD v 0 + (cred.getD v 0 % 256 + 256 - k.rxCred.getD v 0) % 256) ∧
              t.out = (if nak then [.replay L ((ack.val + 1) % 4096)] else []) ++ s.out) ∧
            (nak = true → 8 ≤ naks → t.lstate L ≠ lsUp)) ∧
          (badWords rest = false → poisonWords rest = false → 1 < kind.val → t.link L = k ∧ t.out = s.out) ∧
          (badWords rest = true ∨ poisonWords rest = true → t.out = .lctl L k.rxAck false k.freed :: s.out)))

/-- A packet is delivered, leaves on the trunk and link the rules give, waits, or goes back; a RESYNC settles what a failed link lost (R279, R280, R281, R283, R284, R286, R287, R288, R289, R290, R292).
The choices and readings of the model behind it: log entries 83, 84, 85, 86, 92, 183. -/
def Obligations.PacketsTakeTheirRouteOrAreReturned : Prop :=
  ∀ (s : State) (p : Packet) (f : Option LinkIx), s.boot.on = true →
    let fl := f.map (fun l => l.val)
    (s.atRouter fl p = false → Machine.exec (.packetForward p f) s = .next s) ∧
    (s.atRouter fl p = true →
    (p.dst = s.devId → p.type ≤ 7 → Machine.exec (.packetForward p f) s = .next (queued s (s.leaveRouter fl p))) ∧
    (8 < p.type ∨ (p.dst = s.devId ∧ p.type = 8 ∧ p.rsp = false ∧ 6 < p.args % 256) → ∃ t, Machine.exec (.packetForward p f) s = .next t ∧
      t.flag (LD_EVENT 0) LD_EVENT_DENIED = true) ∧
    (p.dst ≠ s.devId → p.type ≤ 8 → s.fab.waiting = [] →
      let told (st : Nat) : Prop := ∃ t q, Machine.exec (.packetForward p f) s = .next t ∧ t.out.head? = some (.packet q) ∧
        q.rsp = true ∧ q.status = st ∧ q.dst = p.src ∧ q.type = p.type ∧ q.tag = p.tag ∧ q.data = []
      (48 ≤ p.hops → told 5) ∧
      (∀ trunk more, p.hops < 48 → p.ord = true → p.detour = false → s.candidates p.dst = trunk :: more →
        (s.trunkUp trunk = false → s.dimWrap (trunk / 2) = false → told 3) ∧
        (s.trunkUp trunk = true → s.ordBehind fl p = false →
          let up := s.upLinks trunk
          let l := up.getD ((p.src ^^^ p.dst) % up.length) 0
          let same := match s.inPort fl with | some q => q / 2 == trunk / 2 | none => false
          let vc := 3 * pktCls p + b2n (same && p.dl)
          (mapGet (fun _ => 0) trunk s.fab.trunkN = up.length ∨ s.ordOut trunk = false) →
          (pktFlits p ≤ s.credit l vc → s.replayFlits l + pktFlits p ≤ 512 →
            ∃ t q, Machine.exec (.packetForward p f) s = .next t ∧ t.out.head? = some (.linkPacket l q) ∧ q.vc = vc ∧
              q.hops = p.hops + 1 ∧ q.dl = ((same && p.dl) || s.crosses trunk) ∧ q.dst = p.dst ∧ q.tag = p.tag ∧ q.data = p.data ∧
              t.credit l vc = s.credit l vc - pktFlits p ∧ (t.link l).txSeq = ((s.link l).txSeq + pktFlits p) % 4096) ∧
          (s.credit l vc < pktFlits p → Machine.exec (.packetForward p f) s = .next (queued s (s.keepWaiting p))))))) ∧
    (p.ord = true ∨ p.esc = true ∨ p ∉ s.fab.waiting ∨ p.dst = s.devId → Machine.exec (.escWait p) s = .next s) ∧
    (p.ord = false → p.esc = false → p ∈ s.fab.waiting → p.dst ≠ s.devId →
      let a := s.arrivedOn p
      Machine.exec (.escWait p) s =
        .next (queued s ((s.markEsc p a).arbitrate { p with esc := true } a s.fab.waiting.length))) ∧
    (∀ l, p.type = 8 → p.rsp = false → p.args % 256 = 5 → (List.range 128).find? (fun l =>
        s.fld (lnkStat l) LNK_STAT_NBR_ID == p.src && s.fld (lnkStat l) LNK_STAT_NBR_LINK == bits p.ext 12 7 && s.lport l < 6) = some l →
      let k := s.link l
      let before := k.asked.find? (fun e => e.1 == p.tag)
      let seq := match before with | some e => e.2 | none => k.ends.headD k.rxAck
      seq < 4096 →
      ∃ t q, Machine.exec (.resync p) s = .next t ∧ t.out = .packet q :: s.out ∧ q.rsp = true ∧ q.status = 0 ∧ q.dst = p.src ∧
        q.tag = p.tag ∧ bits q.ext 0 12 = seq ∧ bits q.ext 12 7 = bits p.ext 12 7 ∧ t.regs = s.regs ∧
        (∀ e, before = some e → t.link l = k) ∧
        (before = none → ((p.tag, seq) ∈ (t.link l).asked ∧ (t.link l).ends = k.ends.drop 1 ∧ (t.link l).rxAck = k.rxAck ∧
          (k.ends = [] → (t.link l).part = [] ∧ (t.link l).early = true)))) ∧
    (p.type = 8 → p.rsp = true → p.args % 256 = 5 → p.status = 0 →
      let l := bits p.ext 12 7
      let kept := ((s.lives l).filter (fun f => f.tag == p.tag)).flatMap (fun f => f.kept)
      let later := kept.filter (fun e => !seqAcked (bits p.ext 0 12) e.1)
      ∃ t, Machine.exec (.resyncResponse p) s = .next t ∧ t.lives l = (s.lives l).filter (fun f => f.tag != p.tag) ∧
        (mapGet (fun _ => []) (s.lport l) s.fab.resend = [] →
          (later = [] → t.out = s.out ∧ t.regs = s.regs) ∧
          (∀ e o, later = [e] → s.upLinks (s.lport l) = [o] → s.fits o e.2.vc e.2 = true →
            ∃ q, t.out.head? = some (.linkPacket o q) ∧ q.data = e.2.data ∧ q.dst = e.2.dst ∧ q.tag = e.2.tag ∧ q.vc = e.2.vc)))

/-- RD and WR of local addresses are served, refused or ended; a response frees its tag and gives the data or ends the request (R216, R229, R251, R281, R282, R283, R285, R351).
The choices and readings of the model behind it: log entries 82, 90, 91, 94. -/
def Obligations.RequestsAreServedAndResponsesSettle : Prop :=
  ∀ (s : State) (p : Packet), s.boot.on = true →
    let a := p.addr % 2 ^ 48
    let n := rdLen p
    let m := p.data.length
    let plain (a n : Nat) : Prop := (regionOf a = .dram ∧ dcRange a n = true ∧ s.served a n = true ∧ s.mustWait a n = false) ∨
      (regionOf a = .faceStore ∧ a + n ≤ 0x200100000000)
    let zeros := List.replicate n (0 : Byte)
    let refused (t : State) (st : Nat) (v : List Byte) : Prop := t.out.head? = some (.packet (Packet.reply p st v true)) ∧ t.mem = s.mem
    (p.type = 0 → p.rsp = false → p.dst ≠ s.devId → Machine.exec (.rd p) s = .next s) ∧
    (p.type = 1 → p.rsp = false → p.dst ≠ s.devId → Machine.exec (.wr p) s = .next s) ∧
    (p.rsp = false → p.dst = s.devId → p.ak = true → akOk p = true →
      (p.type = 0 → plain a n → ∃ t, Machine.exec (.rd p) s = .next t ∧
        t.out.head? = some (.packet (Packet.reply p 0 (getBytes s.mem a n) (s.beatBad a n))) ∧
        (rdHint p ≠ 3 → (s.setLines (a / 256)).length < 16 → t.mem = s.mem)) ∧
      (p.type = 1 → plain a m → (s.setLines (a / 256)).length < 16 → ∃ t, Machine.exec (.wr p) s = .next t ∧ t.out.head? = some (.packet (Packet.reply p 0 [] false)) ∧
        (∀ i b, p.data[i]? = some b → byteAt t (a + i) = if wrEnabled p i then b else byteAt s (a + i)) ∧ bytesKept s t a m) ∧
      (p.type = 0 → regionOf a = .dram → s.served a n = false → ∃ t, Machine.exec (.rd p) s = .next t ∧
        t.out.head? = some (.packet (Packet.reply p 2 zeros true)) ∧ newestFault t 1 0x0102 (a + 2 ^ 48)) ∧
      (p.type = 0 → regionOf a = .reserved → ∃ t, Machine.exec (.rd p) s = .next t ∧
        t.out.head? = some (.packet (Packet.reply p 2 zeros true)) ∧ newestFault t 1 0x0102 a) ∧
      (p.type = 1 → regionOf a = .reserved → ∃ t, Machine.exec (.wr p) s = .next t ∧
        t.out.head? = some (.packet (Packet.reply p 2 [] false)) ∧ newestFault t 1 0x0102 a)) ∧
    (p.rsp = false → p.dst = s.devId → p.ak = true →
      (akOk p = false ∨ (s.fromAnchor p = false ∧ (regionOf a = .register ∨ regionOf a = .bitAlias))) →
      (p.type = 0 → ∃ t, Machine.exec (.rd p) s = .next t ∧ refused t 4 zeros ∧ t.flag (LD_EVENT 0) LD_EVENT_DENIED = true) ∧
      (p.type = 1 → ∃ t, Machine.exec (.wr p) s = .next t ∧ refused t 4 [] ∧ t.flag (LD_EVENT 0) LD_EVENT_DENIED = true)) ∧
    (∀ oa n, p.rsp = true → p.type = 0 → s.useOf p.tag = some (.obj (.read oa) n) →
      (p.status = 0 → ∃ t, Machine.exec (.rdResponse p) s = .next t ∧ t.out = .memData p.data p.poison :: s.out ∧
        t.useOf p.tag = none ∧ t.mem = s.mem ∧ t.regs = s.regs) ∧
      (p.status = 2 ∨ p.status = 4 → ∃ t, Machine.exec (.rdResponse p) s = .next t ∧ t.out.head? = some (.memData [] true) ∧
        newestFault t 1 0x0102 (oa % 2 ^ 48)) ∧
      (p.status = 3 ∨ p.status = 5 → ∃ t, Machine.exec (.deliveryFailResponse p) s = .next t ∧
        (s.fab.nextTag ≠ p.tag → t.useOf p.tag = none) ∧ t.out.head? = some (.memData [] true) ∧
        t.flag (LD_EVENT 0) LD_EVENT_UNREACH = true ∧ newestFault t 1 0x0102 (oa % 2 ^ 48 + (if p.status = 3 then 2 else 3) * 2 ^ 48))) ∧
    (p.rsp = true → p.type = 1 → p.status = 0 → s.useOf p.tag = some .write →
      Machine.exec (.wrResponse p) s = .next (queued s (s.freeTag p.tag))) ∧
    (∀ arb req, (s.lowPending arb req = false → Machine.exec (.arbAgingPromote arb req) s = .next s) ∧
      (s.lowPending arb req = true → ∃ t, Machine.exec (.arbAgingPromote arb req) s = .next t ∧
        t.pair ARB_PROMO_LO = (s.pair ARB_PROMO_LO + 1) % 2 ^ 64 ∧ (arb, req) ∈ t.fab.promo ∧
        t.mem = s.mem ∧ t.out = s.out ∧ regsKept s t [ARB_PROMO_LO, ARB_PROMO_HI]))

/-- A contribution is applied to the open part it names or discarded with its event; a DONE fills its slot; a deadline closes what is open (R300, R306, R309, R311, R313, R315, R316, R317, R325).
The choices and readings of the model behind it: log entries 97, 98, 99, 100. -/
def Obligations.ContributionsAndDonesReachTheirParts : Prop :=
  ∀ (s : State) (d : DieIx) (c : CtlIx) (p : Packet), s.boot.on = true →
    let job := bits p.args 0 12
    let slot := bits p.args 12 12
    let copy := bits p.args 24 2
    let own := if s.dirRecv job then s.cruOf job (bits p.args 26 16) else 8 * d.val + c.val
    let C := if 2 ≤ copy then witnessOf own else own
    let ev := CRU_EVENT (C / 8) (C % 8)
    let discards (i : Instr) (f : Fld) : Prop := ∃ t, Machine.exec i s = .next t ∧ t.flag ev f = true ∧
      t.pair (CRU_DISCARD_LO (C / 8) (C % 8)) = (s.pair (CRU_DISCARD_LO (C / 8) (C % 8)) + 1) % 2 ^ 64 ∧ t.mem = s.mem ∧ t.cru = s.cru
    let bad (i : Instr) (why : Nat) : Prop := discards i CRU_EVENT_BAD ∧ ∃ t, Machine.exec i s = .next t ∧
      t.reg (CRU_BADINFO (C / 8) (C % 8)) = job + why * 2 ^ 12 + slot * 2 ^ 16
    (∀ i, (i = .acc d c ⟨p, []⟩ ∧ p.type = 2) ∨ (i = .accb d c ⟨p, []⟩ ∧ p.type = 3) → p.rsp = false →
      (∀ e w, s.partAt job own = some (e, w) → stepOlder p.tag (ptStep w) = true → discards i CRU_EVENT_STALE) ∧
      (∀ e w, s.partAt job own = some (e, w) → ptStep w = p.tag % 65536 → ptState w ≠ jtOpen → discards i CRU_EVENT_LATE) ∧
      (s.partAt job own = none → s.dirRecv job = false → bad i 1) ∧
      (∀ e w, s.partAt job own = some (e, w) → ptStep w = p.tag % 65536 → ptState w = jtOpen → s.dirRecv job = true →
        (s.accReason p ≠ 0 → bad i (s.accReason p)) ∧
        (s.accReason p = 0 → s.partIx job own < s.nparts job → copy < 2 →
          let a := s.psAddr job own slot copy
          Machine.exec i s = .next (queued s (((s.objWriteNat a 8 (setBits (s.objNat a 8) 0 24 (bits (s.objNat a 8) 0 24 + 1))).cruAdd C
            false p).partCheck job own))) ∧
        (s.accReason p = 0 → s.partIx job own < s.nparts job → 2 ≤ copy → Machine.exec i s = .next (queued s ((s.cruAdd C true p).partCheck job own))))) ∧
    (∀ (e : Staged) (sl pol : Nat), bit p.ext 8 = false → p.poison = false → (accVals p).all imgFin = true →
      (bit sl 1 && bit e.word (16 + bits sl 2 4)) = false → brCount e.word + bits p.ext 16 8 ≤ 255 →
      ∃ w, applyAcc e p sl pol = .put (if brTouch e.word then (e.sums.zip (accVals p)).map (fun x => f32Add x.1 x.2) else accVals p) w
          (brTouch e.word) false ∧
        brCount w = brCount e.word + bits p.ext 16 8 ∧ brTouch w = true ∧ (brPoison w = true → brPoison e.word = true)) ∧
    (ctlSub p 6 = true →
      let job := bits p.args 8 12
      let C := bits p.addr 4 7
      let slot := bits p.addr 12 12
      let copy := bits p.addr 24 2
      let step := bits p.ext 32 16
      let fits := s.dirRecv job = true ∧ s.partIx job C < s.nparts job ∧ slot < s.fld (DIR_W1 job) DIR_W1_NSLOT ∧ copy < 2
      (p.addr % 16 ≠ 0 → ∃ t, Machine.exec (.jobDone ⟨p, []⟩) s = .next t ∧ t.flag (LD_EVENT 0) LD_EVENT_DENIED = true ∧ t.mem = s.mem ∧
        t.cru = s.cru) ∧
      (p.addr % 16 = 0 → ¬fits → Machine.exec (.jobDone ⟨p, []⟩) s = .next s) ∧
      (∀ e w, p.addr % 16 = 0 → fits → s.partAt job C = some (e, w) →
        (stepOlder step (ptStep w) = true ∨ (ptStep w = step ∧ ptState w ≠ jtOpen) → Machine.exec (.jobDone ⟨p, []⟩) s = .next s) ∧
        (ptStep w = step → ptState w = jtOpen →
          let a := s.psAddr job C slot copy
          let u := s.objWriteNat a 8 (bits (s.objNat a 8) 0 24 + p.ext % 2 ^ 24 * 2 ^ 24 + 2 ^ 48 + b2n (bit p.addr 11) * 2 ^ 49)
          let u := if polDlen (u.pol job) then { u with cru := { u.cru with timers := setInsert job u.cru.timers } } else u
          Machine.exec (.jobDone ⟨p, []⟩) s = .next (queued s (u.partCheck job C))))) ∧
    (∀ ue : List (Nat × List Nat),
      Machine.exec (.acc d c ⟨p, ue⟩) s = Machine.exec (.acc d c ⟨p, []⟩) (s.stageErrs ue) ∧
      Machine.exec (.accb d c ⟨p, ue⟩) s = Machine.exec (.accb d c ⟨p, []⟩) (s.stageErrs ue) ∧
      Machine.exec (.jobDone ⟨p, ue⟩) s = Machine.exec (.jobDone ⟨p, []⟩) (s.stageErrs ue) ∧
      ∀ j, Machine.exec (.cruDeadline ⟨j, ue⟩) s = Machine.exec (.cruDeadline ⟨j, []⟩) (s.stageErrs ue)) ∧
    (∀ (k : Nat) (l : List Nat) (e : Staged), mapGet (fun _ => none) k s.cru.stage = some e →
      ((∀ m ∈ l, bchDecode m ≠ .uncorrectable) → s.stageErrs [(k, l)] = s) ∧
      ((∃ m ∈ l, bchDecode m = .uncorrectable) → let t := s.stageErrs [(k, l)]
        mapGet (fun _ => none) k t.cru.stage = some { e with word := setBit e.word 13 } ∧ t.mem = s.mem ∧
        t.flag (CRU_EVENT (stageCru k / 8) (stageCru k % 8)) CRU_EVENT_STORE_UE = true)) ∧
    (∀ j : Fin 4096,
      (j.val ∉ s.cru.timers → Machine.exec (.cruDeadline ⟨j, []⟩) s = .next s) ∧
      (j.val ∈ s.cru.timers →
        (∀ x ∈ s.parts, ptJob x.2.2 = j.val → ptStep x.2.2 = s.jobStep j.val → ptState x.2.2 ≠ jtOpen) →
        Machine.exec (.cruDeadline ⟨j, []⟩) s = .next { s with cru := { s.cru with timers := setErase j.val s.cru.timers } }) ∧
      (j.val ∈ s.cru.timers →
        (∃ x ∈ s.parts, ptJob x.2.2 = j.val ∧ ptStep x.2.2 = s.jobStep j.val ∧ ptState x.2.2 = jtOpen) →
        ∃ t f, Machine.exec (.cruDeadline ⟨j, []⟩) s = .next t ∧ j.val ∉ t.cru.timers ∧ t.flag CRU_GEVENT CRU_GEVENT_DEADLINE = true ∧
          t.flag (DIR_W12 j.val) DIR_W12_DL = true ∧ t.obs.log.head? = some f ∧ f.cls = 2 ∧ f.code = 0x0201))

/-- A sequence clear with the SEQ read clears exactly the flags written as 1; with another SEQ it is only counted (R370, R387).
The choices and readings of the model behind it: log entries 122, 127. -/
def Obligations.SequenceClearClearsOnlyTheFlagsSeen : Prop :=
  ∀ (s : State) (q : Requester) (a : Nat) (v : Word), s.boot.on = true → isSQ a = true → a % 4 = 0 → arrives s q → s.regOn a = true →
    ∃ t, Machine.exec (.sequenceClear q a v) s = .next t ∧ onlyRegs s t ∧ t.out = s.out ∧
      (v.toNat % 256 = s.reg a % 256 →
        t.reg a = s.reg a &&& (0xFFFFFFFF ^^^ (v.toNat / 256 * 256 &&& accMask .sq a)) ∧ regsKept s t (a :: pbaRegs)) ∧
      (v.toNat % 256 ≠ s.reg a % 256 →
        t.fld PKG_SQ_MISS PKG_SQ_MISS_COUNT = satAdd 16 (s.fld PKG_SQ_MISS PKG_SQ_MISS_COUNT) 1 ∧ regsKept s t [PKG_SQ_MISS])

/-- A 32-bit write sets the RW fields of its register, an alias write sets one bit, and neither changes anything else (R367, R368, R374, R376).
The choices and readings of the model behind it: log entries 121, 122. -/
def Obligations.RegisterWriteSetsItsFieldsAndNothingElse : Prop :=
  ∀ (s : State) (q : Requester) (a : Nat), s.boot.on = true → plainReg a = true → a % 4 = 0 → arrives s q → s.regOn a = true →
    (∀ v : DWord, ∃ t, Machine.exec (.registerWrite ⟨q, []⟩ .bar0 a 4 v) s = .next t ∧ onlyRegs s t ∧ t.out = s.out ∧
      t.reg a = maskWrite (accMask .rw a) (s.reg a) (v.toNat % 2 ^ 32) ∧ regsKept s t [a]) ∧
    (∀ (r : Requester) (v w : DWord), reqNo q < reqNo r → ∀ c ∈ [(Writer.mk q [(r, w.toNat)], v), (Writer.mk r [(q, v.toNat)], w)],
      arrives s r → ∃ t, Machine.exec (.registerWrite c.1 .bar0 a 4 c.2) s = .next t ∧ onlyRegs s t ∧ t.out = s.out ∧
        let m := accMask .rw a
        (a ≠ PKG_RACE_ADDR → a ≠ PKG_RACE_CNT →
          t.reg a = maskWrite m (maskWrite m (s.reg a) (v.toNat % 2 ^ 32)) (w.toNat % 2 ^ 32)) ∧
        t.fld PKG_RACE_ADDR PKG_RACE_ADDR_OFFSET = a % 2 ^ 26 ∧
        t.reg PKG_RACE_ADDR / 2 ^ 26 = 2 ^ reqNo q + 2 ^ reqNo r ∧
        t.fld PKG_RACE_CNT PKG_RACE_CNT_COUNT = satAdd 16 (s.fld PKG_RACE_CNT PKG_RACE_CNT_COUNT) 1 ∧
        regsKept s t [a, PKG_RACE_ADDR, PKG_RACE_CNT]) ∧
    (∀ (b : Fin 32) (v : Bool), bit (accMask .rw a) b.val = true →
      ∃ t, Machine.exec (.bitAliasWrite q a b v) s = .next t ∧ onlyRegs s t ∧ t.out = s.out ∧
        t.reg a = setBits (s.reg a) b.val 1 (b2n v) ∧ regsKept s t [a])

/-- A pair is read and written through its requester's shadows, and a read of a summary register returns and clears it (R367, R371, R373).
The choices and readings of the model behind it: log entries 122, 126, 145. -/
def Obligations.PairsAndSummariesAreReadWhole : Prop :=
  ∀ (s : State) (q : Requester) (a : Nat), s.boot.on = true → arrives s q → s.regOn a = true →
    (pairOf a = 1 → pairOf (a + 4) = 2 → a % 4 = 0 → s.regOn (a + 4) = true →
      (steadyWord a = true → steadyWord (a + 4) = true →
        Machine.exec (.pairLoRead q a) s = .next { s with
          out := .regData q (s.reg a) :: s.out
          hif := { s.hif with rdSh := mapSet (fun _ => 0) (reqNo q) (s.reg (a + 4)) s.hif.rdSh } } ∧
        (a % 8 = 0 → a < 0x2000000 → Machine.exec (.summaryRead q ⟨.bar0, a, 8⟩) s = .next { s with
          out := .regData q (s.reg a + s.reg (a + 4) * 2 ^ 32) :: s.out
          hif := { s.hif with rdSh := mapSet (fun _ => 0) (reqNo q) (s.reg (a + 4)) s.hif.rdSh } })) ∧
      Machine.exec (.pairHiRead q (a + 4)) s = .next { s with
        out := .regData q (mapGet (fun _ => 0) (reqNo q) s.hif.rdSh) :: s.out } ∧
      (plainWord a = true → ∀ v : Word, Machine.exec (.pairLoWrite q a v) s = .next { s with
        hif := { s.hif with wrSh := mapSet (fun _ => 0) (reqNo q) v.toNat s.hif.wrSh } }) ∧
      (plainWord a = true → plainWord (a + 4) = true → ∀ v : Word,
        ∃ t, Machine.exec (.pairHiWrite q (a + 4) v) s = .next t ∧ onlyRegs s t ∧ t.out = s.out ∧
          t.reg a = maskWrite (accMask .rw a) (s.reg a) (mapGet (fun _ => 0) (reqNo q) s.hif.wrSh) ∧
          t.reg (a + 4) = maskWrite (accMask .rw (a + 4)) (s.reg (a + 4)) v.toNat ∧ regsKept s t [a, a + 4])) ∧
    (∀ d : DieIx, a ∈ [PKG_EVENT_SUM, PKG_FAULT_SUM, DIE_EVENT_SUM d.val, DIE_FACE_SUM_0 d.val, DIE_FACE_SUM_1 d.val] →
      ∃ t, Machine.exec (.summaryRead q ⟨.bar0, a, 4⟩) s = .next t ∧ onlyRegs s t ∧ t.out = .regData q (s.reg a) :: s.out ∧
        t.reg a = s.reg a &&& (0xFFFFFFFF ^^^ accMask .rc a) ∧ regsKept s t (a :: pbaRegs)) ∧
    (a % 4 = 0 → a < 0x4000000 → pairOf a = 0 → steadyWord a = true → accMask .rc a = 0 →
      ∃ t, Machine.exec (.summaryRead q ⟨.bar0, a, 4⟩) s = .next t ∧ onlyRegs s t ∧ t.out = .regData q (s.reg a) :: s.out ∧
        regsKept s t []) ∧
    (∀ off size : Nat, off < 0x4000000 → size ≠ 4 → size ≠ 8 → ∃ t, Machine.exec (.summaryRead q ⟨.bar0, off, size⟩) s = .next t ∧
      onlyRegs s t ∧ t.flag HIF_EVENT HIF_EVENT_SIZE = true ∧ regsKept s t (HIF_EVENT :: sumRegs HIF_EVENT) ∧
      (q = .host → t.out.head? = some .cplUR))

/-- A guarded pair is taken whole when its complement arrives, and fails when the 256 cycles pass (R372, R180).
The choices and readings of the model behind it: log entry 123. -/
def Obligations.GuardedPairTakenWholeOrFailed : Prop :=
  ∀ (s : State) (q : Requester), s.boot.on = true →
    (∀ (a : Nat) (v : Word), isWG a = true → isSQ a = false → a % 4 = 0 → arrives s q → s.regOn a = true → s.openOthers (reqNo q) a = [] →
      ∃ t, Machine.exec (.guardFirstHalf ⟨q, []⟩ a v) s = .next t ∧ t.half (reqNo q) = some (a, v.toNat) ∧ t.regs = s.regs ∧ t.out = s.out) ∧
    (∀ (j : Fin 4) (x v : Word), arrives s q → s.regOn (SPR_KEY j.val) = true → s.openOthers (reqNo q) (SPR_KEY j.val) = [] →
      s.half (reqNo q) = some (SPR_KEY j.val, x.toNat) → v.toNat = 0xFFFFFFFF - x.toNat → s.running = false →
      ∃ t, Machine.exec (.sprKeyWrite q j v) s = .next t ∧ t.reg (SPR_KEY j.val) = x.toNat ∧ t.half (reqNo q) = none ∧
        regsKept s t [SPR_KEY j.val]) ∧
    (∀ a x, s.half (reqNo q) = some (a, x) →
      ∃ t, Machine.exec (.guardPairExpire q) s = .next t ∧ t.half (reqNo q) = none ∧ t.flag PKG_GUARD PKG_GUARD_GUARD_ERR = true ∧
        t.reg PKG_GUARD_ADDR = (a % 2 ^ 26 + reqNo q * 2 ^ 26) % 2 ^ 32 ∧ regsKept s t (PKG_GUARD_ADDR :: PKG_GUARD :: sumRegs PKG_GUARD))

/-- While a step runs a write of STEP_NUM, STEP_COMMITS, STEP_GMICRO or SPR_KEY is discarded and sets its flag (R204). -/
def Obligations.WritesOfStepStateAreDroppedDuringAStep : Prop :=
  ∀ (s : State) (q : Requester), s.boot.on = true → arrives s q → s.pdOn 3 = true →
    (∀ (a : Nat) (v : DWord), a = STEP_NUM ∨ a = STEP_COMMITS →
      ∃ t, Machine.exec (.registerWrite ⟨q, []⟩ .bar0 a 4 v) s = .next t ∧
        (s.running = true → t.reg a = s.reg a ∧ t.flag STEP_EVENT STEP_EVENT_WRITE_DROP = true) ∧
        (s.running = false → t.reg a = v.toNat % 2 ^ 32 ∧ regsKept s t [a])) ∧
    (∀ v : DWord, ∃ t, Machine.exec (.registerWrite ⟨q, []⟩ .bar0 STEP_GMICRO_LO 8 v) s = .next t ∧
        (s.running = true → t.pair STEP_GMICRO_LO = s.pair STEP_GMICRO_LO ∧ t.flag STEP_EVENT STEP_EVENT_WRITE_DROP = true) ∧
        (s.running = false → t.pair STEP_GMICRO_LO = v.toNat ∧ regsKept s t [STEP_GMICRO_LO, STEP_GMICRO_HI])) ∧
    (∀ (j : Fin 4) (x v : Word), s.openOthers (reqNo q) (SPR_KEY j.val) = [] →
      s.half (reqNo q) = some (SPR_KEY j.val, x.toNat) → v.toNat = 0xFFFFFFFF - x.toNat →
      ∃ t, Machine.exec (.sprKeyWrite q j v) s = .next t ∧ t.half (reqNo q) = none ∧
        (s.running = true → t.reg (SPR_KEY j.val) = s.reg (SPR_KEY j.val) ∧ t.flag STEP_EVENT STEP_EVENT_KEY_DROP = true) ∧
        (s.running = false → t.reg (SPR_KEY j.val) = x.toNat))

/-- The control writes that have a row of their own set their field: claims, benches, steering entries, holding, trace and rings (R28, R73, R167, R204, R425, R429, R443).
The choices and readings of the model behind it: log entries 124, 128. -/
def Obligations.ControlWritesSetTheirFields : Prop :=
  ∀ (s : State) (q : Requester), s.boot.on = true → arrives s q →
    (∀ (d : DieIx) (f : FaceIx), s.regOn (FSQ_CTRL d.val f.val) = true →
      ∃ t, Machine.exec (.faceClaimDisable d f q) s = .next t ∧ onlyRegs s t ∧ t.out = s.out ∧
        t.reg (FSQ_CTRL d.val f.val) = setBits (s.reg (FSQ_CTRL d.val f.val)) 0 1 0 ∧ regsKept s t [FSQ_CTRL d.val f.val]) ∧
    (∀ (d : DieIx) (f : FaceIx) (b : BenchIx), s.regOn (BENCH_CTRL d.val f.val b.val) = true →
      (s.face d.val (gangLeader (s.gangMap d.val) f.val)).gemm = none →
      ∃ t, Machine.exec (.benchDisable d f b q) s = .next t ∧ onlyRegs s t ∧ t.out = s.out ∧
        t.reg (BENCH_CTRL d.val f.val b.val) = setBits (s.reg (BENCH_CTRL d.val f.val b.val)) 0 1 0 ∧
        regsKept s t [BENCH_CTRL d.val f.val b.val]) ∧
    (s.regOn STEP_CTRL = true → ∃ t, Machine.exec (.stepHold q) s = .next t ∧ onlyRegs s t ∧ t.out = s.out ∧
      t.reg STEP_CTRL = setBits (s.reg STEP_CTRL) STEP_CTRL_EN.lo 1 0 ∧ regsKept s t [STEP_CTRL, STEP_STAT] ∧
      (s.running = false → t.flag STEP_STAT STEP_STAT_HOLD = true) ∧ (s.running = true → t.reg STEP_STAT = s.reg STEP_STAT)) ∧
    (∀ (l : Fin 4096) (w : Fin 8) (v : Word), s.regOn (STEER_ENTRY_W0 l.val + 4 * w.val) = true → s.running = false →
      ∃ t, Machine.exec (.steerEntryWrite l w v q) s = .next t ∧ onlyRegs s t ∧ t.out = s.out ∧
        t.reg (STEER_ENTRY_W0 l.val + 4 * w.val) =
          maskWrite (accMask .rw (STEER_ENTRY_W0 l.val + 4 * w.val)) (s.reg (STEER_ENTRY_W0 l.val + 4 * w.val)) v.toNat ∧
        regsKept s t [STEER_ENTRY_W0 l.val + 4 * w.val]) ∧
    (∀ v : Word, s.regOn TRC_CTRL = true → ∃ t, Machine.exec (.traceEnableWrite v q) s = .next t ∧
      t.reg TRC_CTRL = maskWrite (accMask .rw TRC_CTRL) (s.reg TRC_CTRL) v.toNat ∧ t.mem = s.mem ∧
      (bit v.toNat TRC_CTRL_PORT_EN.lo = false → t.flag TRC_STAT TRC_STAT_LINK = false)) ∧
    (∀ v : Word, s.regOn TRC_MARK = true →
      Machine.exec (.trcMarkWrite v q) s = .next (queued s ((s.setReg TRC_MARK (maskWrite (accMask .rw TRC_MARK) (s.reg TRC_MARK) v.toNat)).capture 8 v.toNat))) ∧
    (∀ v : Word, s.regOn HM_CONS = true → ∃ t, Machine.exec (.ringConsumerWrite true v q) s = .next t ∧ onlyRegs s t ∧ t.out = s.out ∧
      t.reg HM_CONS = v.toNat ∧ regsKept s t [HM_CONS, MSIX_PBA 0] ∧
      (v.toNat = s.reg HM_PROD → bit (t.reg (MSIX_PBA 0)) 5 = false)) ∧
    (∀ v : Word, s.regOn FR_CONS = true → ∃ t, Machine.exec (.ringConsumerWrite false v q) s = .next t ∧ onlyRegs s t ∧ t.out = s.out ∧
      t.reg FR_CONS = v.toNat ∧ regsKept s t [FR_CONS, MSIX_PBA 0] ∧
      (v.toNat = s.reg FR_PROD → bit (t.reg (MSIX_PBA 0)) 0 = false))

/-- A parity mismatch is counted, its first offset kept, and the register's owner sets CFG_PARITY (R375, R28, R237).
The choices and readings of the model behind it: log entry 125. -/
def Obligations.ParityScrubRecordsAndStopsTheUnit : Prop :=
  ∀ (s : State) (d : DieIx) (c : CtlIx), s.boot.on = true → s.regOn (MC_CTRL d.val c.val) = true →
    ∃ t, Machine.exec (.regParityScrub (MC_CTRL d.val c.val)) s = .next t ∧
      t.flag (MC_EVENT d.val c.val) MC_EVENT_CFG_PARITY = true ∧
      t.fld PKG_CFGPAR_CNT PKG_CFGPAR_CNT_COUNT = satAdd 16 (s.fld PKG_CFGPAR_CNT PKG_CFGPAR_CNT_COUNT) 1 ∧
      t.flag PKG_CFGPAR_ADDR PKG_CFGPAR_ADDR_VALID = true ∧
      (s.flag PKG_CFGPAR_ADDR PKG_CFGPAR_ADDR_VALID = false → t.fld PKG_CFGPAR_ADDR PKG_CFGPAR_ADDR_OFFSET = MC_CTRL d.val c.val) ∧
      (s.flag PKG_CFGPAR_ADDR PKG_CFGPAR_ADDR_VALID = true →
        t.fld PKG_CFGPAR_ADDR PKG_CFGPAR_ADDR_OFFSET = s.fld PKG_CFGPAR_ADDR PKG_CFGPAR_ADDR_OFFSET) ∧
      MC_CTRL d.val c.val ∈ t.parStop

/-- Words 0 to 11 of a directory entry are written while no step runs, dropped during a step, and words 12 to 15 are never written (R328). -/
def Obligations.DirectoryWordsAreWrittenBetweenSteps : Prop :=
  CRU_GCTRL = 0x500000 ∧ CRU_GEVENT_WRITE_DROP.lo + 1 = CRU_GEVENT_CFG_PARITY.lo ∧
  ∀ (s : State) (q : Requester) (job : Fin 4096) (w : Fin 16) (v : DWord), s.boot.on = true → arrives s q → s.pdOn 3 = true →
    let a := 0x540000 + job.val * 64 + 4 * w.val
    ∃ t, Machine.exec (.registerWrite ⟨q, []⟩ .bar0 a 4 v) s = .next t ∧
      (w.val < 12 → s.running = false → t.reg a = maskWrite (accMask .rw a) (s.reg a) (v.toNat % 2 ^ 32)) ∧
      (w.val < 12 → s.running = true → t.reg a = s.reg a ∧ t.flag CRU_GEVENT CRU_GEVENT_WRITE_DROP = true) ∧
      (12 ≤ w.val → t.reg a = s.reg a ∧ accMask .rw a = 0)

/-- A link partner without Flit mode leaves the link out of L0 with NOFLIT set, and training is retried (R356).
The choices and readings of the model behind it: log entry 116. -/
def Obligations.WithoutFlitModeTheLinkIsRetried : Prop :=
  ∀ s : State, s.boot.on = true → s.isMember = false → s.boot.perst = false → s.pcieOn = true → s.flag HIF_STAT HIF_STAT_LINK_UP = false →
    (∀ (width rate : Nat) (l0p : Bool), width ∈ [4, 8, 16] → rate < 3 → ∃ t, Machine.exec (.pcieLinkUp width rate l0p false) s = .next t ∧
      t.flag HIF_STAT HIF_STAT_LINK_UP = false ∧ t.flag HIF_EVENT HIF_EVENT_NOFLIT = true ∧ onlyRegs s t ∧
      regsKept s t (HIF_EVENT :: sumRegs HIF_EVENT)) ∧
    Machine.exec .pcieNoflitRetry s = .next (s.emit (.pin "PCIE_TRAIN" true))

/-- The link comes up and goes down, BAR2 reads and writes what its base names, and requests to the host complete or end (R355, R357, R358, R361, R362, R363, R366).
The choices and readings of the model behind it: log entries 74, 113, 114, 115, 117, 127, 185, 186. -/
def Obligations.TheHostPathCarriesAccessesBothWays : Prop :=
  ∀ s : State, s.boot.on = true →
    let down := s.isMember = false ∧ s.boot.perst = false ∧ s.pcieOn = true ∧ s.flag HIF_STAT HIF_STAT_LINK_UP = false
    (∀ (width rate : Nat) (l0p : Bool), down → s.flag HIF_STAT HIF_STAT_D3HOT = false → width ∈ [4, 8, 16] → rate < 3 →
      ∃ t, Machine.exec (.pcieLinkUp width rate l0p true) s = .next t ∧ t.flag HIF_STAT HIF_STAT_LINK_UP = true ∧
        t.flag HIF_STAT HIF_STAT_FLIT = true ∧ t.fld HIF_STAT HIF_STAT_WIDTH = width ∧ t.fld HIF_STAT HIF_STAT_RATE = rate ∧
        t.flag HIF_STAT HIF_STAT_L0P = l0p ∧ t.flag PKG_ROLE PKG_ROLE_HOST_PATH = true ∧ onlyRegs s t) ∧
    (∀ (width rate : Nat) (l0p flit : Bool), width ∉ [4, 8, 16] ∨ 3 ≤ rate → Machine.exec (.pcieLinkUp width rate l0p flit) s = .next s) ∧
    (s.isMember = false → s.flag HIF_STAT HIF_STAT_LINK_UP = true →
      (∃ t, Machine.exec .pcieLinkDown s = .next t ∧ t.flag HIF_STAT HIF_STAT_LINK_UP = false ∧
        t.flag PKG_ROLE PKG_ROLE_HOST_PATH = false ∧ t.flag HIF_EVENT HIF_EVENT_LINK_DOWN = true ∧ t.hif.reqs = []) ∧
      (s.flag HIF_STAT HIF_STAT_D3HOT = false → ∃ t, Machine.exec .d3hotEntry s = .next t ∧
        t.flag HIF_STAT HIF_STAT_D3HOT = true ∧ t.flag PKG_ROLE PKG_ROLE_HOST_PATH = false ∧ t.hif.reqs = [] ∧
        (s.running = true → (s.chan 15).closed = false → t.flag STEP_STAT STEP_STAT_FIN = false)) ∧
      (s.boot.cfgHeld = true →
        (∀ (off size : Nat) (v : DWord), ∃ t, Machine.exec (.registerWrite ⟨.host, []⟩ .rebar off size v) s = .next t ∧
          t.fld HIF_STAT HIF_STAT_BAR2_SIZE =
            (if 14 ≤ v.toNat ∧ v.toNat ≤ 21 then v.toNat - 14 else s.fld HIF_STAT HIF_STAT_BAR2_SIZE) ∧ onlyRegs s t ∧
          t.out = s.out ∧ regsKept s t [HIF_STAT]) ∧
        (∀ off size : Nat, Machine.exec (.summaryRead .host ⟨.rebar, off, size⟩) s =
          .next (s.emit (.regData .host (s.fld HIF_STAT HIF_STAT_BAR2_SIZE + 14))))) ∧
      (s.boot.cfgHeld = false → ∀ (space : RegSpace) (off size : Nat), space ∈ [.config, .rebar] →
        ∃ t, Machine.exec (.summaryRead .host ⟨space, off, size⟩) s = .next t ∧ onlyRegs s { t with freeN := s.freeN, boot := s.boot } ∧
          regsKept s t [] ∧ (Config.cfgRetry s.freeN = true → t.out = .cplRetry :: s.out ∧ t.boot = s.boot) ∧
          (Config.cfgRetry s.freeN = false → t.boot = { s.boot with cfgHeld := true } ∧ ∃ n, t.out = .regData .host n :: s.out)) ∧
      (s.flag HIF_STAT HIF_STAT_D3HOT = true → ∃ t, Machine.exec .d0Return s = .next t ∧
        t.flag HIF_STAT HIF_STAT_D3HOT = false ∧ t.flag PKG_ROLE PKG_ROLE_HOST_PATH = true ∧ onlyRegs s t)) ∧
    (∀ (off n : Nat) (ide : Bool), s.barOpen ide = true →
      let a := s.bar2Addr off
      (s.bar2Region off n = none → ∃ t, Machine.exec (.bar2Read off n ide) s = .next t ∧ t.out.head? = some .cplUR ∧
        t.flag HIF_EVENT HIF_EVENT_BAR2_BAD = true ∧ t.mem = s.mem) ∧
      (s.bar2Region off n = some .faceStore ∨
        (s.bar2Region off n = some .dram ∧ dcRange a n = true ∧ s.served a n = true ∧ s.mustWait a n = false) →
        ∃ t, Machine.exec (.bar2Read off n ide) s = .next t ∧ t.out.head? =
          some (if s.beatBad a n then .cplPoisoned (getBytes s.mem a n) else .cpl (getBytes s.mem a n))) ∧
      (∀ (v : List Byte) (bad : Bool), v.length = n →
        (s.bar2Region off n = none → ∃ t, Machine.exec (.bar2Write off v bad ide) s = .next t ∧
          t.flag HIF_EVENT HIF_EVENT_BAR2_BAD = true ∧ t.mem = s.mem) ∧
        (s.bar2Region off n = some .faceStore ∨ (s.bar2Region off n = some .dram ∧ dcRange a n = true ∧ s.served a n = true ∧
            s.mustWait a n = false ∧ (s.setLines (a / 256)).length < 16) →
          ∃ t, Machine.exec (.bar2Write off v bad ide) s = .next t ∧ getBytes t.mem a n = v ∧ bytesKept s t a n))) ∧
    (∀ (r : HostReq) (v : List Byte), s.hif.reqs.find? (fun x => x.tag == r.tag) = some r → s.hif.reqQ = [] →
      let rest := s.hif.reqs.filter (fun x => x.tag != r.tag)
      let ends (t : State) : Prop := t.hif.reqs = rest ∧ newestFault t 1 0x0102 ((hwBase + r.off) % 2 ^ 48 + 4 * 2 ^ 48) ∧
        t.out.head? = some (.packet (Packet.reply r.asker 2 (Packet.blank r.asker) true))
      (v.length = r.len → ∃ t, Machine.exec (.pcieCompletion (.tag r.tag) .ok v) s = .next t ∧
        getBytes t.mem (hwBase + r.off) r.len = v ∧ bytesKept s t (hwBase + r.off) r.len ∧ t.hif.reqs = rest ∧
        t.pair HIF_RD_BYTES_LO = (s.pair HIF_RD_BYTES_LO + r.len) % 2 ^ 64 ∧ t.out = .packet (Packet.reply r.asker 0 v false) :: s.out) ∧
      (∃ t, Machine.exec (.pcieCompletion (.tag r.tag) .unsupported v) s = .next t ∧ t.flag HIF_EVENT HIF_EVENT_CPL_ERR = true ∧ ends t) ∧
      (∃ t, Machine.exec (.pcieCompletionTimeout (.tag r.tag)) s = .next t ∧ t.flag HIF_EVENT HIF_EVENT_CPL_TIMEOUT = true ∧ ends t)) ∧
    (∀ (o : Nat) (v : List Byte), o < 2 ^ 44 → v.length = 4096 →
      (∃ t, Machine.exec (.pcieCompletion (.page o) .unsupported v) s = .next t ∧ t.pageEnd o = some .unsupported ∧ t.mem = s.mem) ∧
      (∃ t, Machine.exec (.pcieCompletionTimeout (.page o)) s = .next t ∧ t.pageEnd o = some .timeout ∧ t.mem = s.mem) ∧
      (∃ t, Machine.exec (.pcieCompletion (.page o) .ok v) s = .next t ∧ t.pageEnd o = none ∧
        getBytes t.mem (hwBase + o / 4096 * 4096) 4096 = v ∧ bytesKept s t (hwBase + o / 4096 * 4096) 4096)) ∧
    (∀ off : Nat, off % 4 = 0 → off < 0x4000000 → s.linkUp = true →
      let dev := s.fld HIF_PEER_SEL HIF_PEER_SEL_DEV
      (s.isAnchor = false → Machine.exec (.peerWindowAccess off 4 none) s = .next (s.emit .cplUR)) ∧
      (s.isAnchor = true → s.flag HIF_PEER_SEL HIF_PEER_SEL_V = true → s.flag HIF_CTRL HIF_CTRL_PEER_EN = true →
        s.inGeom dev = true →
        (∃ t p, Machine.exec (.peerWindowAccess off 4 none) s = .next t ∧ t.out = .packet p :: s.out ∧ p.type = 0 ∧ p.ak = true ∧
          p.dst = dev ∧ p.addr = dev * 2 ^ 48 + regBase + off ∧ t.useOf p.tag = some .peer ∧ t.mem = s.mem) ∧
        (∀ b : List Byte, b.length = 4 → ∃ t p, Machine.exec (.peerWindowAccess off 4 (some b)) s = .next t ∧
          t.out = .packet p :: s.out ∧ p.type = 1 ∧ p.ak = true ∧ p.dst = dev ∧ wrRuns p p.addr 0 p.data [] =
            [(dev * 2 ^ 48 + regBase + off, b)] ∧ t.useOf p.tag = some .peer)))

/-- Mailbox words are set, taken, answered, timed out and forwarded as the rules give, for the Foreman's and the dies' mailboxes (R378, R379, R380, R382, R383, R384, R385).
The choices and readings of the model behind it: log entries 118, 119, 120. -/
def Obligations.MailboxesCarryWordsAndAnswers : Prop :=
  ∀ s : State, s.boot.on = true →
    (∀ (m : Fin 16) (v : Word), s.linkUp = true → s.pdOn 0 = true →
      let M := m.val
      (∃ t, Machine.exec (.h2fWrite m v) s = .next t ∧ t.reg (H2F_DATA M) = v.toNat ∧ t.flag (H2F_STAT M) H2F_STAT_FULL = true ∧
        t.flag (H2F_STAT M) H2F_STAT_TIMING = true ∧ onlyRegs s t ∧
        (s.flag (H2F_STAT M) H2F_STAT_FULL = true → t.flag (H2F_STAT M) H2F_STAT_COLLIDE = true ∧
          t.flag MBX_EVENT MBX_EVENT_COLLIDE = true) ∧
        (s.flag (H2F_STAT M) H2F_STAT_FULL = false → regsKept s t [H2F_DATA M, H2F_STAT M, MBX_PEND] ∧
          t.flag (H2F_STAT M) H2F_STAT_COLLIDE = s.flag (H2F_STAT M) H2F_STAT_COLLIDE)) ∧
      (s.flag (F2H_STAT M) F2H_STAT_FULL = false →
        Machine.exec (.f2hRead m) s = .next (s.emit (.regData .host 0xFFFFFFFF))) ∧
      (s.flag (F2H_STAT M) F2H_STAT_FULL = true → ∃ t, Machine.exec (.f2hRead m) s = .next t ∧
        t.out = .regData .host (s.reg (F2H_DATA M)) :: s.out ∧ t.mem = s.mem ∧
        (mapGet (fun _ => []) M s.hif.f2hQ = [] → t.flag (F2H_STAT M) F2H_STAT_FULL = false) ∧
        (∀ x q, mapGet (fun _ => []) M s.hif.f2hQ = x :: q → t.reg (F2H_DATA M) = x % 2 ^ 32 ∧
          t.flag (F2H_STAT M) F2H_STAT_FULL = true ∧ mapGet (fun _ => []) M t.hif.f2hQ = q))) ∧
    (∀ m : Fin 16,
      let M := m.val
      let w := s.reg (H2F_DATA M)
      (s.flag (H2F_STAT M) H2F_STAT_TIMING = false → (M = 0 → s.stopWaits = false) → Machine.exec (.mailboxTimeout ⟨M, by omega⟩) s = .next s) ∧
      (s.flag (H2F_STAT M) H2F_STAT_TIMING = true → (M = 0 → s.stopWaits = false) → (M = 2 → s.setWaits = false) →
        ∃ t, Machine.exec (.mailboxTimeout ⟨M, by omega⟩) s = .next t ∧ t.flag (H2F_STAT M) H2F_STAT_TIMING = false ∧
          t.flag MBX_EVENT MBX_EVENT_TIMEOUT = true ∧ newestFault t 0 0x0403 M ∧ M ∈ t.hif.late ∧
          (s.flag (F2H_STAT M) F2H_STAT_FULL = false → t.reg (F2H_DATA M) = 0xFC + w / 256 % 8192 * 256)) ∧
      (M = 0 → s.stopWaits = true → clearBox s 0 → ∃ t, Machine.exec (.mailboxTimeout ⟨M, by omega⟩) s = .next t ∧
        t.reg (F2H_DATA 0) = ansWord 0x0F 0 ∧ t.flag (F2H_STAT 0) F2H_STAT_FULL = true ∧ t.flag (H2F_STAT 0) H2F_STAT_TIMING = false ∧
        t.eng = { s.eng with stopTold := true } ∧ t.mem = s.mem) ∧
      (M = 2 → s.setWaits = true → s.flag (H2F_STAT 2) H2F_STAT_TIMING = true → clearBox s 2 →
        ∃ t, Machine.exec (.mailboxTimeout ⟨M, by omega⟩) s = .next t ∧ t.reg (F2H_DATA 2) = ansWord 0x0F 0 ∧
          t.flag (F2H_STAT 2) F2H_STAT_FULL = true ∧ t.flag (H2F_STAT 2) H2F_STAT_TIMING = false ∧ t.boot = s.setTell.boot) ∧
      (s.cmdAt M = none → Machine.exec (.ping m) s = .next s ∧ Machine.exec (.mailboxForward m) s = .next s) ∧
      (∀ w, s.cmdAt M = some (.own w) → wFwd w = false → clearBox s M →
        (M = 15 → wCode w = 0xF0 → ∃ t, Machine.exec (.ping m) s = .next t ∧ regsKept s t (mailRegs M) ∧ answered t M
          (ansWord 0x00 (s.fld PKG_ROLE PKG_ROLE_ROLE + 4 * b2n s.running + 8 * b2n (s.flag STEP_STAT STEP_STAT_HOLD)))) ∧
        (knownCode M (wCode w) = false → s.eng.stop = none → ∃ t, Machine.exec (.ping m) s = .next t ∧ regsKept s t (mailRegs M) ∧
          answered t M (ansWord 0xFD 0))) ∧
      (∀ w, M = 0 → s.cmdAt M = some (.own w) → wFwd w = true → clearBox s M → s.eng.stop ≠ none →
        ∃ t, Machine.exec (.mailboxForward m) s = .next t ∧ answered t M (fwdWord 0x0F (wDev w)) ∧
          t.eng = { s.eng with stopWords := s.eng.stopWords ++ [(.own w, [])] } ∧ regsKept s t (mailRegs M)) ∧
      (∀ w, s.cmdAt M = some (.own w) → wFwd w = true → clearBox s M → (M = 0 → s.eng.stop = none) →
        ∃ t, Machine.exec (.mailboxForward m) s = .next t ∧ regsKept s t (mailRegs M) ∧
          (s.isAnchor = false ∨ s.flag HIF_CTRL HIF_CTRL_FWD_EN = false → answered t M (fwdWord 0x11 (wDev w))) ∧
          (s.isAnchor = true → s.flag HIF_CTRL HIF_CTRL_FWD_EN = true → s.inGeom (wDev w) = false ∨ wDev w = s.devId →
            answered t M (fwdWord 0x10 (wDev w))) ∧
          (s.isAnchor = true → s.flag HIF_CTRL HIF_CTRL_FWD_EN = true → s.inGeom (wDev w) = true → wDev w ≠ s.devId →
            answered t M (fwdWord 0x0F (wDev w)) ∧ t.hif.fwdOut = s.hif.fwdOut ++ [(M, wDev w)] ∧
            ∃ p, .packet p ∈ t.out ∧ p.type = 8 ∧ p.dst = wDev w ∧ p.args = 3 ∧ blkNat p.data 0 4 = w ∧ blkNat p.data 4 4 = M ∧
              t.useOf p.tag = some (.mailbox M))) ∧
      (∀ e, s.hif.fwdOut.find? (fun e => e.1 == M) = some e → clearBox s M →
        ∃ t, Machine.exec (.forwardAnswerTimeout m) s = .next t ∧ t.reg (F2H_DATA M) = fwdWord 0x10 e.2 ∧
          t.flag (F2H_STAT M) F2H_STAT_FULL = true ∧ t.hif.fwdOut = eraseFirst (M, e.2) s.hif.fwdOut ∧ t.mem = s.mem)) ∧
    (∀ p : Packet, p.type = 8 → p.rsp = false → p.args % 256 = 3 →
      let w := leNat (p.data.take 4)
      let M := bits (blkNat p.data 4 4) 0 4
      (bit (blkNat p.data 4 4) 4 = true → (M, p.src) ∈ s.hif.fwdOut → wCode w ≠ 0x0F → clearBox s M →
        ∃ t, Machine.exec (.mboxFwd p) s = .next t ∧ t.reg (F2H_DATA M) = fwdWord w p.src % 2 ^ 32 ∧
          t.hif.fwdOut = eraseFirst (M, p.src) s.hif.fwdOut) ∧
      (bit (blkNat p.data 4 4) 4 = false → s.isMember = true → s.flag (LD_DEVID 0) LD_DEVID_ANCHOR_V = true →
        p.src = s.fld (LD_DEVID 0) LD_DEVID_ANCHOR → mapGet (fun _ => none) M s.hif.fwdIn = none →
        ∃ t c, Machine.exec (.mboxFwd p) s = .next t ∧ mapGet (fun _ => none) M t.hif.fwdIn = some c ∧ c.word = w ∧
          c.anchor = p.src ∧ c.ring = blkNat p.data 8 8 ∧ t.regs = s.regs ∧ t.mem = s.mem ∧
          (needsBlk M (wCode w) = false → t.out = s.out) ∧
          (needsBlk M (wCode w) = true → s.inGeom p.src = true → ∃ q, t.out = .packet q :: s.out ∧ q.type = 0 ∧ q.ak = true ∧
            q.dst = p.src ∧ q.addr = p.src * 2 ^ 48 + hwBase + (c.ring + wIndex w * 64) / 32 * 32 % 2 ^ 44 ∧
            t.useOf q.tag = some (.block M)))) ∧
    (∀ (r : Packet) (M : Nat) (c : FwdCmd), r.type = 0 → r.rsp = true → r.status = 0 → r.poison = false → M ≠ 2 →
      s.useOf r.tag = some (.block M) → mapGet (fun _ => none) M s.hif.fwdIn = some c → c.blk = none →
      ∃ t, Machine.exec (.rdResponse r) s = .next t ∧
        mapGet (fun _ => none) M t.hif.fwdIn = some { c with blk := some (some r.data), more := false }) ∧
    (∀ (d : DieIx) (v : Word), s.linkUp = true →
      let D := d.val
      (s.pdOn (diePd D) = false →
        (∃ t, Machine.exec (.h2dWrite d v) s = .next t ∧ t.flag MBX_EVENT MBX_EVENT_PD_ABORT = true ∧ t.reg (H2D_DATA D) = s.reg (H2D_DATA D)) ∧
        (∃ t, Machine.exec (.d2hRead d) s = .next t ∧ t.flag MBX_EVENT MBX_EVENT_PD_ABORT = true ∧ t.out.head? = some .cplCA)) ∧
      (s.pdOn (diePd D) = true →
        (∃ t, Machine.exec (.h2dWrite d v) s = .next t ∧ t.reg (H2D_DATA D) = v.toNat ∧ t.flag (H2D_STAT D) H2D_STAT_FULL = true ∧
          t.flag (H2D_STAT D) H2D_STAT_TIMING = true ∧ onlyRegs s t) ∧
        (s.flag (D2H_STAT D) D2H_STAT_FULL = true → mapGet (fun _ => []) D s.hif.d2hQ = [] →
          ∃ t, Machine.exec (.d2hRead d) s = .next t ∧ t.out = .regData .host (s.reg (D2H_DATA D)) :: s.out ∧
            t.flag (D2H_STAT D) D2H_STAT_FULL = false))) ∧
    (∀ d : DieIx,
      let D := d.val
      let w := s.reg (H2D_DATA D)
      let told (t : State) (a : Nat) : Prop := t.reg (D2H_DATA D) = a ∧ t.flag (D2H_STAT D) D2H_STAT_FULL = true ∧
        t.flag (H2D_STAT D) H2D_STAT_FULL = false
      s.pdOn (diePd D) = true → s.flag (H2D_STAT D) H2D_STAT_FULL = true → s.flag (D2H_STAT D) D2H_STAT_FULL = false →
      s.hif.late.contains (16 + D) = false →
      (wFwd w = false → wCode w = 0x40 → ∃ t, Machine.exec (.diePing d) s = .next t ∧ told t (ansWord 0x00 (s.busyFaces D))) ∧
      (wFwd w = true ∨ wCode w ∉ [0x40, 0x41, 0x42] → ∃ t, Machine.exec (.diePing d) s = .next t ∧ told t (ansWord 0xFD 0)) ∧
      (wFwd w = false → wCode w = 0x41 → ∃ t, Machine.exec (.dieFlush d) s = .next t ∧ t.flag (H2D_STAT D) H2D_STAT_FULL = false ∧
        0x41 ∈ t.dieCmds D ∧ ∀ c, c < 8 → t.flag (DC_CTRL D c) DC_CTRL_FLUSH = true ∧ 8 * D + c ∈ t.dram.flush) ∧
      (wFwd w = false → wCode w = 0x42 → ∃ t, Machine.exec (.dieQuiesce d) s = .next t ∧
        (∀ f, f < 64 → t.flag (FSQ_CTRL D f) FSQ_CTRL_EN = false) ∧
        (s.busyFaces D = 0 → told t (ansWord 0x00 0)) ∧
        (s.busyFaces D ≠ 0 → 0x42 ∈ t.dieCmds D ∧ t.flag (D2H_STAT D) D2H_STAT_FULL = false)))

/-- A DBL counts and rings once at its threshold, a read takes the count, and a member's record enters the anchor's ring with FWD (R371, R386, R387, R436, R438, R439, R440).
The choices and readings of the model behind it: log entries 95, 147, 153. -/
def Obligations.DoorbellsAndForwardedFaultsReachTheHost : Prop :=
  ∀ s : State, s.boot.on = true →
    (∀ p : Packet, p.type = 5 → p.rsp = false →
      let j := bits p.args 0 6
      let n := satAdd 32 (s.reg (DB_COUNT j)) 1
      let th := s.fld (DB_CFG j) DB_CFG_THRESH
      ∃ t, Machine.exec (.dbl p) s = .next t ∧ t.reg (DB_COUNT j) = n ∧ t.reg (DB_LAST j) = bits p.args 16 32 ∧
        regsKept s t ([DB_COUNT j, DB_LAST j] ++ pbaRegs) ∧ t.mem = s.mem ∧
        (th = 0 ∨ n < th ∨ j ∈ s.hif.dbFired → t.out = s.out ∧ t.hif = s.hif) ∧
        (th ≠ 0 → th ≤ n → j ∉ s.hif.dbFired → j ∈ t.hif.dbFired ∧
          (s.linkUp = true → s.flag (MSIX_CTRL (16 + j)) MSIX_CTRL_MASK = false → t.out = .msix (16 + j) :: s.out))) ∧
    (∀ j : Fin 64, s.linkUp = true → s.pdOn 0 = true → ∃ t, Machine.exec (.dbCountRead j) s = .next t ∧
      t.out = .regData .host (s.reg (DB_COUNT j.val)) :: s.out ∧ t.reg (DB_COUNT j.val) = 0 ∧ j.val ∉ t.hif.dbFired ∧
      regsKept s t (DB_COUNT j.val :: pbaRegs) ∧ t.mem = s.mem) ∧
    (∀ p : Packet, p.type = 8 → p.rsp = false → p.args % 256 = 4 → p.data.length = 32 → s.isAnchor = true →
      let cls := bits (blkNat p.data 0 2) 0 3
      let size := 2 ^ ringLog (s.fld FR_RING_LO FR_RING_LO_SIZE)
      let base := s.fld FR_RING_LO FR_RING_LO_ADDR * 4096 + s.fld FR_RING_HI FR_RING_HI_ADDR * 2 ^ 32
      (s.limited cls = true → ∃ t, Machine.exec (.faultFwd p) s = .next t ∧ t.mem = s.mem ∧
        t.fld FR_SUPPR (supprFld cls) = satAdd 8 (s.fld FR_SUPPR (supprFld cls)) 1 ∧ regsKept s t [FR_SUPPR]) ∧
      (s.limited cls = false → s.flag FR_RING_HI FR_RING_HI_V = true → s.canHost = true →
        ringUsed (s.reg FR_PROD) (s.reg FR_CONS) < size →
        ∃ t, Machine.exec (.faultFwd p) s = .next t ∧ t.reg FR_PROD = (s.reg FR_PROD + 1) % 2 ^ 32 ∧
          bytesKept s t (hwBase + base + s.reg FR_PROD % size * 32) 32 ∧
          getBytes t.mem (hwBase + base + s.reg FR_PROD % size * 32) 32 =
            leBytes 2 (setBits (blkNat p.data 0 2) 3 1 1) ++ p.data.drop 2))

/-- What each reset leaves, and how the stages of start-up follow one another (R236, R347, R388, R389, R391, R392, R393, R394, R395, R398, R437, R448).
The choices and readings of the model behind it: log entries 129, 136, 137, 139, 140. -/
def Obligations.ResetsAndStartUpFollowTheirStages : Prop :=
  (∀ s : State,
    let rom (t : State) := t.boot.chosen = (fwOrder s.boot.fuses s.boot.nvm).find? (fwSigned s.boot.nvm) ∧
      (∀ k, t.boot.chosen = some k → t.stage = 1 ∧ t.fld AON_BOOT_STAT AON_BOOT_STAT_FAIL = 0 ∧
        t.reg AON_FW_VER = fwVersion s.boot.nvm k % 2 ^ 32 ∧ t.boot.fwSvn = fwSvn s.boot.nvm k) ∧
      (t.boot.chosen = none → t.stage = 15 ∧ t.fld AON_BOOT_STAT AON_BOOT_STAT_FAIL = 1 ∧ t.obs.faultN = true)
    let kept (t : State) := t.pending = s.pending ∧ t.boot.on = true ∧ t.boot.fuses = s.boot.fuses ∧ t.boot.nvm = s.boot.nvm ∧
      t.boot.cfg = [] ∧ t.boot.pcie = false ∧ (∀ a, byteAt t a = if a < hwBase then 0 else byteAt s a) ∧
      (∀ a, a ∉ [AON_RST_CAUSE, AON_EVENT, AON_BOOT_STAT, AON_FW_VER, AON_FUSE_KEYS, AON_FUSE_SEC] ++ sumRegs AON_EVENT →
        t.reg a = (regReset a).toNat)
    (∃ t, Machine.exec .powerOnReset s = .next t ∧ kept t ∧ t.boot.perst = true ∧ t.obs.log = [] ∧
      t.stage = 0 ∧ t.boot.chosen = none ∧ t.fld AON_RST_CAUSE AON_RST_CAUSE_CAUSE = 0) ∧
    (∃ t, Machine.exec .standbySupplyLoss s = .next t ∧ t = { s with boot := { s.boot with on := false, perst := true } }) ∧
    (∀ hot : Bool, s.boot.on = true → (hot = true → s.flag HIF_STAT HIF_STAT_LINK_UP = true) →
      ∃ t, Machine.exec (.fundamentalReset hot) s = .next t ∧ kept t ∧ t.boot.perst = (s.boot.perst || !hot) ∧
        (t.boot.perst = true → t.stage = 0 ∧ t.boot.chosen = none) ∧ (t.boot.perst = false → rom t) ∧ t.obs.log = s.obs.log ∧ t.fld AON_RST_CAUSE AON_RST_CAUSE_CAUSE = (if hot then 2 else 1) ∧
        t.fld AON_RST_CAUSE AON_RST_CAUSE_WARMS = s.fld AON_RST_CAUSE AON_RST_CAUSE_WARMS ∧
        (∀ f ∈ [AON_EVENT_CFG_DEFAULTS, AON_EVENT_NVM_ERR, AON_EVENT_COMPACT_DONE, AON_EVENT_FUSE],
          t.flag AON_EVENT f = s.flag AON_EVENT f)) ∧
    (s.boot.on = true → s.boot.perst = true → ∃ t, Machine.exec .perstNDeassert s = .next t ∧ t.boot.perst = false ∧ t.mem = s.mem ∧
      (s.stage = 0 → s.boot.chosen = none → rom t) ∧
      (s.stage ≠ 0 ∨ s.boot.chosen ≠ none → t = { s with boot := { s.boot with perst := false } }))) ∧
  (∀ s : State, s.boot.on = true →
    (∀ (q : Requester) (x v : Word), arrives s q → s.pdOn 0 = true → s.openOthers (reqNo q) AON_RST_CTRL = [] →
      s.half (reqNo q) = some (AON_RST_CTRL, x.toNat) → v.toNat = 0xFFFFFFFF - x.toNat → bit x.toNat 0 = true →
      (s.stage ≤ 1 ∨ s.stage = 15 ∨ s.boot.warming = true → ∃ t, Machine.exec (.warmReset q v) s = .next t ∧ t.regs = s.regs ∧ t.mem = s.mem) ∧
      (1 < s.stage → s.stage ≠ 15 → s.boot.warming = false → ∃ t, Machine.exec (.warmReset q v) s = .next t ∧
        t.fld AON_RST_CAUSE AON_RST_CAUSE_CAUSE = 3 ∧
        t.fld AON_RST_CAUSE AON_RST_CAUSE_WARMS = satAdd 8 (s.fld AON_RST_CAUSE AON_RST_CAUSE_WARMS) 1 ∧
        t.stage = 2 ∧ t.boot.powerQ = [3, 5, 7, 9, 2] ∧ t.boot.warming = true ∧ t.running = false ∧ t.eng = {} ∧ t.plc = {} ∧
        t.cru = {} ∧ t.boot.pcie = s.boot.pcie ∧ t.reg (PKG_PD_STAT 0) = 3 ∧ t.obs.log = s.obs.log ∧ t.boot.fuses = s.boot.fuses ∧
        (∀ a, byteAt t a = if a < hwBase then 0 else byteAt s a))) ∧
    (s.boot.perst = false → Machine.exec .perstNDeassert s = .next s) ∧
    (s.boot.perst = true ∨ s.boot.chosen = none ∨ s.stage ≠ 1 → Machine.exec .firmwareStart s = .next s) ∧
    (s.boot.perst = false → s.boot.chosen ≠ none → s.stage = 1 → ∃ t, Machine.exec .firmwareStart s = .next t ∧ t.stage = 2 ∧
      t.boot.powerQ = [3, 5, 7, 9, 2] ∧
      (bankChoice s.boot.nvm = none → t.boot.cfg = defaultCfg ∧ t.flag AON_EVENT AON_EVENT_CFG_DEFAULTS = true) ∧
      (∀ b, bankChoice s.boot.nvm = some b → t.boot.cfg = (bankReplay s.boot.nvm b).image ∧
        t.boot.mustCompact = (bankReplay s.boot.nvm b).trunc) ∧
      (bankBad s.boot.nvm = true → t.flag AON_EVENT AON_EVENT_CFG_BANK_BAD = true)) ∧
    (∀ (pd : Fin 123), s.boot.powerQ.head? ≠ some pd.val →
      Machine.exec (.domainPowerGood pd) s = .next s ∧ Machine.exec (.powerGoodTimeout pd) s = .next s) ∧
    (∀ (pd : Fin 123) (rest : List Nat), s.boot.powerQ = pd.val :: rest →
      (∃ t, Machine.exec (.domainPowerGood pd) s = .next t ∧ t.pdOn pd.val = true ∧ t.mem = s.mem ∧
        (rest ≠ [] → t.boot.powerQ = rest ∧ t.stage = if s.stage = 3 then 4 else s.stage) ∧
        (rest = [] → s.stage = 2 → t.boot.powerQ = siteDomains ∧ t.stage = (if s.boot.warming then 4 else 3) ∧
          (s.boot.warming = false → t.boot.pcie = true)) ∧
        (rest = [] → s.stage = 4 → t.boot.powerQ = [] ∧ t.stage = 5)) ∧
      (∃ t, Machine.exec (.powerGoodTimeout pd) s = .next t ∧ t.stage = 15 ∧ t.fld AON_BOOT_STAT AON_BOOT_STAT_FAIL = 2 ∧
        t.boot.powerQ = [] ∧ newestFault t 4 0x0503 pd.val ∧ t.obs.faultN = true)) ∧
    (∀ (d : DieIx) (ch : ChanIx) (passed : Bool),
      (s.stage ≠ 5 ∨ s.boot.trained.contains (32 * d.val + ch.val) = true → Machine.exec (.dramChannelTrained d ch passed) s = .next s) ∧
      (s.stage = 5 → s.boot.trained.contains (32 * d.val + ch.val) = false → s.boot.trained.length < 511 →
        ∃ t, Machine.exec (.dramChannelTrained d ch passed) s = .next t ∧ t.stage = 5 ∧
          (passed = true → bit (t.fld (MC_STAT d.val (ch.val / 4)) MC_STAT_READY) (ch.val % 4) = true ∧
            regsKept s t [MC_STAT d.val (ch.val / 4)]) ∧
          (passed = false → newestFault t 4 0x0501 (d.val * 256 + ch.val) ∧ t.obs.faultN = true))) ∧
    (s.stage ≠ 7 → Machine.exec .ledgerClearDone s = .next s) ∧
    (s.stage = 7 → ∃ t, Machine.exec .ledgerClearDone s = .next t ∧ t.stage = 8 ∧ t.fld PLC_FREE PLC_FREE_FRAMES = 33533950 ∧
      t.flag PLC_STAT PLC_STAT_READY = true ∧ t.boot.warming = false ∧ (∀ a, inPlacement a = false → byteAt t a = byteAt s a) ∧
      (∀ g f, g < 512 → poolFrames g ≤ f → f < 65536 → byteAt t (fmAddr (g * 65536 + f) + 7) = 0x80)) ∧
    (s.boot.perst = true ∨ s.isMember = true → Machine.exec .pcieReadyDeadline s = .next s) ∧
    (s.boot.perst = false → s.isMember = false → s.boot.pcie = true →
      Machine.exec .pcieReadyDeadline s = .next { s with boot := { s.boot with cfgHeld := true } }) ∧
    (s.boot.perst = false → s.isMember = false → s.boot.pcie = false →
      ∃ t, Machine.exec .pcieReadyDeadline s = .next t ∧ newestFault t 4 0x0504 0 ∧ t.obs.faultN = true))

/-- Mailbox 2 reads, sets, replaces and compacts the configuration, writes firmware and blows fuses; attestation and test port answer (R400, R403, R404, R405, R406, R407, R408, R409, R410, R412, R413, R414).
The choices and readings of the model behind it: log entries 130, 131, 132, 133, 135, 141, 143, 187, 188. -/
def Obligations.ConfigurationFusesAndTrustCommandsAct : Prop :=
  ∀ s : State, s.boot.on = true →
    (∀ (w : Nat) (blk image : List Byte) (good : Bool), clearBox s 2 →
      (∀ e ∈ [(0x30, Instr.cfgGet blk), (0x31, Instr.cfgSet blk good), (0x32, Instr.cfgWrite blk image),
          (0x33, Instr.cfgCompact blk), (0x34, Instr.fwWrite blk image), (0x35, Instr.svnCommit blk), (0x36, Instr.keyRevoke blk),
          (0x37, Instr.dbgLockSet blk)], waiting s 2 e.1 w → s.longRuns = true ∨ (s.mbox2Busy = true ∧ e.1 ≠ 0x31) →
        ∃ t, Machine.exec e.2 s = .next t ∧ answered t 2 stBusy ∧ t.boot = s.boot ∧ regsKept s t (mailRegs 2)) ∧
      (s.longRuns = false → waiting s 2 0x31 w →
        let off := cbArg0 blk % 2 ^ 32
        let more := s.boot.mustCompact || decide (49152 ≤ s.cfgRecords)
        let held (told : Bool) := s.boot.held ++ [⟨.own w, off, cbArg2 blk, good, told⟩]
        let dflt := s.flag AON_CFG_STAT AON_CFG_STAT_DEFAULTS
        ∃ t, Machine.exec (.cfgSet blk good) s = .next t ∧ t.mem = s.mem ∧
          (dflt = true → answered t 2 0x16 ∧ t.boot = s.boot) ∧
          (dflt = false → fieldOk s.storedLen off = false → answered t 2 0x12 ∧ t.boot = s.boot) ∧
          (dflt = false → fieldOk s.storedLen off = true →
            let seq := (s.reg AON_CFG_SEQ + 1) % 2 ^ 32
            (s.boot.compact = none → s.boot.mustCompact = false → s.cfgRecords < 36864 → good = true → answered t 2 0x00 ∧
              t.reg AON_CFG_SEQ = seq ∧ t.cfgRecords = s.cfgRecords + 1 ∧ t.boot = { s.boot with
                nvm := nvmPut s.boot.nvm (journalBase s.cfgBank + 16 * s.cfgRecords) (recBytes off (cbArg2 blk) seq) } ∧
              regsKept s t (AON_CFG_STAT :: AON_CFG_SEQ :: mailRegs 2)) ∧
            (s.boot.compact = none → more = false → good = false → answered t 2 0x13 ∧ t.flag AON_EVENT AON_EVENT_NVM_ERR = true ∧
              t.boot.mustCompact = true ∧ t.boot.compact.isSome = true) ∧
            (s.boot.compact = none → more = true → t.boot.held = held false ∧ t.flag AON_CFG_STAT AON_CFG_STAT_HELD = true ∧
              t.boot.compact.isSome = true) ∧
            (∀ c, s.boot.compact = some c →
              (64 ≤ s.boot.held.length → answered t 2 stBusy ∧ t.boot = s.boot) ∧
              (s.boot.held.length < 64 → t.boot = { s.boot with held := held c.waiting } ∧
                t.flag AON_CFG_STAT AON_CFG_STAT_HELD = true ∧ (c.waiting = true → answered t 2 stRunning))))) ∧
      (s.mbox2Busy = false →
        let off := cbArg0 blk % 2 ^ 32
        let defaults := s.flag AON_CFG_STAT AON_CFG_STAT_DEFAULTS
        (waiting s 2 0x30 w →
          let c := if bit (cbArg3 blk) 0 then s.cfgStored else s.boot.cfg
          ∃ t, Machine.exec (.cfgGet blk) s = .next t ∧ t.boot = s.boot ∧
            (fieldOk (cfgLen c) off = false → answered t 2 0x12 ∧ t.mem = s.mem) ∧
            (fieldOk (cfgLen c) off = true → answered t 2 0x00 ∧
              let v := (c.drop off).take 4
              let a := hwBase + (s.blkOff 2 (.own w) + 0x20)
              bytesKept s t a v.length ∧ (s.canHost = true → getBytes t.mem a v.length = v))) ∧
        (waiting s 2 0x32 w →
          let img := if s.hostLost (cbArg0 blk) (imageLen 0x32 blk) then [] else image.take (imageLen 0x32 blk)
          ∃ t, Machine.exec (.cfgWrite blk image) s = .next t ∧ t.mem = s.mem ∧
            (s.boot.compact.isSome = true → answered t 2 stBusy ∧ t.boot = s.boot) ∧
            (s.boot.compact = none → answered t 2 stRunning ∧
              (cfgGood img = false → t.boot = s.boot ∧ ((mapGet (fun _ => []) 2 s.hif.f2hQ).length < 16 →
                mapGet (fun _ => []) 2 t.hif.f2hQ = mapGet (fun _ => []) 2 s.hif.f2hQ ++ [0x14])) ∧
              (cfgGood img = true → t.flag AON_CFG_STAT AON_CFG_STAT_COMPACTING = true ∧ ∃ c, t.boot.compact = some c ∧
                c.src = some (.own w) ∧ c.target = (if s.noBank then 0 else 1 - s.cfgBank) ∧
                c.waiting = nvmUsed s.boot.nvm (bankBase c.target) 0x100000))) ∧
        (s.cmdAt 2 = some (.own w) → wCode w = 0x33 → wFwd w = false → ∃ t, Machine.exec (.cfgCompact blk) s = .next t ∧
          (defaults = true → answered t 2 0x16 ∧ t.boot = s.boot) ∧
          (defaults = false → answered t 2 0x00 ∧ t.boot.compact.isSome = true ∧
            (s.boot.compact = none → ∃ c, t.boot.compact = some c ∧ c.target = 1 - s.cfgBank ∧ c.src = none))) ∧
        (waiting s 2 0x34 w →
          let lost := s.hostLost (cbArg0 blk) (imageLen 0x34 blk)
          ∃ t, Machine.exec (.fwWrite blk image) s = .next t ∧ answered t 2 stRunning ∧
            t.boot = { s.boot with fwWrite := some (.own w, if lost then [] else image.take (imageLen 0x34 blk)),
                                   nvm := nvmErase s.boot.nvm (fwBase s.spareSlot) 0x400000 } ∧
            (lost = false → regsKept s t (mailRegs 2))) ∧
        (s.cmdAt 2 = some (.own w) → wCode w = 0x35 → wFwd w = false → ∃ t, Machine.exec (.svnCommit blk) s = .next t ∧
          (s.boot.fwSvn ≤ s.boot.fuses.svn → answered t 2 0x15 ∧ t.boot = s.boot) ∧
          (s.boot.fuses.svn < s.boot.fwSvn → answered t 2 0x00 ∧ t.flag AON_EVENT AON_EVENT_FUSE = true ∧
            t.boot = { s.boot with fuses := { s.boot.fuses with svn := min 64 s.boot.fwSvn } })) ∧
        (waiting s 2 0x36 w →
          let k := cbArg3 blk % 4
          let others := (List.range 4).any (fun i => i != k && bit s.boot.fuses.keyProg i && !bit s.boot.fuses.keyRev i)
          ∃ t, Machine.exec (.keyRevoke blk) s = .next t ∧
            (s.fld AON_BOOT_STAT AON_BOOT_STAT_KEY_SLOT = k ∨ others = false → answered t 2 0x15 ∧ t.boot = s.boot) ∧
            (s.fld AON_BOOT_STAT AON_BOOT_STAT_KEY_SLOT ≠ k → others = true → answered t 2 0x00 ∧
              t.flag AON_EVENT AON_EVENT_FUSE = true ∧
              t.boot = { s.boot with fuses := { s.boot.fuses with keyRev := s.boot.fuses.keyRev ||| 2 ^ k } })) ∧
        (waiting s 2 0x37 w → ∃ t, Machine.exec (.dbgLockSet blk) s = .next t ∧
          (cbArg3 blk ≠ 0x4C4F434B → answered t 2 0x15 ∧ t.boot = s.boot) ∧
          (cbArg3 blk = 0x4C4F434B → answered t 2 0x00 ∧ t.flag AON_EVENT AON_EVENT_FUSE = true ∧
            bit (t.reg AON_FUSE_SEC) 0 = true ∧ t.boot = { s.boot with fuses := { s.boot.fuses with dbgLock := true } })))) ∧
    (∀ failed : Bool,
      (s.boot.fwWrite = none → (∀ c, s.boot.compact = some c → c.waiting = true) → Machine.exec (.nvmWriteDone failed) s = .next s) ∧
      (∀ c, s.boot.fwWrite = none → s.boot.compact = some c → c.waiting = false → c.target < 2 → s.boot.held = [] →
        ∃ t, Machine.exec (.nvmWriteDone failed) s = .next t ∧ t.boot.compact = none ∧
          t.flag AON_CFG_STAT AON_CFG_STAT_COMPACTING = false ∧ t.mem = s.mem ∧
          (failed = false → t.boot.mustCompact = false ∧ t.cfgBank = c.target ∧ t.cfgRecords = 0 ∧ t.flag AON_CFG_STAT AON_CFG_STAT_DEFAULTS = s.flag AON_CFG_STAT AON_CFG_STAT_DEFAULTS ∧
            t.flag AON_EVENT AON_EVENT_COMPACT_DONE = true ∧ t.reg AON_CFG_GEN = blkNat c.image 0x10 4 % 2 ^ 32 ∧
            t.boot.nvm = nvmPut s.boot.nvm (bankBase c.target + 12) ((c.image.drop 12).take 4)) ∧
          (failed = true → t.cfgBank = s.cfgBank ∧ t.cfgRecords = s.cfgRecords ∧ t.boot.nvm = s.boot.nvm ∧
            t.flag AON_EVENT AON_EVENT_NVM_ERR = true)) ∧
      (∀ c, s.boot.fwWrite = none → s.boot.compact = some c → c.waiting = false → s.boot.mustCompact = true →
        ∃ t, Machine.exec (.nvmWriteDone true) s = .next t ∧ t.boot.compact = none ∧ t.boot.held = [] ∧ t.boot.nvm = s.boot.nvm) ∧
      (∀ src image, s.boot.fwWrite = some (src, image) →
        let erased := nvmErase s.boot.nvm (fwBase s.spareSlot) 0x400000
        let wrote := nvmPut erased (fwBase s.spareSlot) image
        let good := !failed && decide (image.length ≤ 0x400000) && fwCand s.boot.fuses wrote s.spareSlot && fwSigned wrote s.spareSlot
        ∃ t, Machine.exec (.nvmWriteDone failed) s = .next t ∧ t.boot.fwWrite = none ∧
          t.boot.nvm = (if good then wrote else erased) ∧
          (good = true → s.stage = 15 → t.boot.chosen = (fwOrder s.boot.fuses wrote).find? (fwSigned wrote) ∧ t.stage = 1) ∧
          (good = false ∨ s.stage ≠ 15 → t.boot.chosen = s.boot.chosen ∧ t.stage = s.stage))) ∧
    (s.boot.erase = [] → Machine.exec .nvmEraseDone s = .next s) ∧
    (∀ b rest, s.boot.erase = b :: rest → s.boot.held = [] → ∃ t, Machine.exec .nvmEraseDone s = .next t ∧ t.boot.erase = rest ∧
      t.mem = s.mem ∧
      (Config.eraseFailed s.freeN = false → t.regs = s.regs ∧
        (s.boot.compact = none → t.boot.nvm = nvmErase s.boot.nvm (bankBase b) 0x100000) ∧
        (∀ c, s.boot.compact = some c → c.waiting = true → c.target = b → t.boot.compact = some { c with waiting := false })) ∧
      (Config.eraseFailed s.freeN = true → t.flag AON_EVENT AON_EVENT_NVM_ERR = true ∧ t.boot.nvm = s.boot.nvm ∧
        (∀ c, s.boot.compact = some c → c.waiting = true → c.target = b → t.boot.compact = none))) ∧
    (∀ (mctp : Bool), mctp = true ∨ s.flag HIF_STAT HIF_STAT_LINK_UP = true →
      let path (v : List Byte) : Output := if mctp then .mctp v else .doe v
      let free := Config.spdmAnswer s.freeN
      let chain := certChain s.boot.nvm
      let inDoe := !mctp && s.boot.sessions.contains false
      Machine.exec (.spdmRequest mctp .getVersion) s = .next (s.emit (path [0x10, 0x04, 0, 0, 0, 1, 0, 0x12])) ∧
      Machine.exec (.spdmRequest mctp .getDigests) s =
        .next (s.emit (path ([0x12, 0x01, 0, 1] ++ (leBytes 32 (sha256 chain)).reverse))) ∧
      (∀ off len, off < chain.length →
        Machine.exec (.spdmRequest mctp (.getCertificate 0 off len)) s = .next (s.emit (path (certificate chain off len)))) ∧
      (∀ r : SpdmReq, ∃ t, Machine.exec (.spdmRequest mctp r) s = .next t ∧ t.out.tail = s.out ∧ regsKept s t [AON_SPDM_STAT, HIF_STAT] ∧
        onlyRegs s { t with freeN := s.freeN, boot := { t.boot with sessions := s.boot.sessions, ideRids := s.boot.ideRids } } ∧
        (r = .getCapabilities → t.out.head? = some (path (capabilities free))) ∧
        (∀ a h d e, r = .negotiateAlgorithms a h d e → t.out.head? = some (path (algorithms a h d e free))) ∧
        (∀ i v, r = .getMeasurement i → s.measurement i = some v → t.out.head? = some (path (v ++ free))) ∧
        (r = .openSession → s.boot.sessions.length < 2 → t.boot.sessions = s.boot.sessions ++ [mctp] ∧
          t.fld AON_SPDM_STAT AON_SPDM_STAT_SESSIONS = s.boot.sessions.length + 1) ∧
        (r = .openSession → 2 ≤ s.boot.sessions.length → t.boot.sessions = s.boot.sessions) ∧
        (r = .closeSession → t.boot.sessions = s.boot.sessions.erase mctp) ∧
        (r = .ideKeys → t.flag AON_SPDM_STAT AON_SPDM_STAT_IDE_KEYS = (inDoe || s.flag AON_SPDM_STAT AON_SPDM_STAT_IDE_KEYS)) ∧
        (∀ lo hi, r = .ideStart lo hi → inDoe = true → s.flag AON_SPDM_STAT AON_SPDM_STAT_IDE_KEYS = true →
          t.flag HIF_STAT HIF_STAT_IDE = true ∧ t.boot.ideRids = (lo, hi)))) ∧
    (s.flag HIF_STAT HIF_STAT_LINK_UP = false → ∀ r, Machine.exec (.spdmRequest false r) s = .next s) ∧
    (s.flag HIF_STAT HIF_STAT_IDE = false → Machine.exec .ideStreamStop s = .next s) ∧
    (s.flag HIF_STAT HIF_STAT_IDE = true → ∃ t, Machine.exec .ideStreamStop s = .next t ∧ t.flag HIF_STAT HIF_STAT_IDE = false ∧
      (s.boot.ideReq = true → t.hif.reqs = [] ∧ t.hif.reqQ = []) ∧ (s.boot.ideReq = false → onlyRegs s t ∧ regsKept s t [HIF_STAT])) ∧
    (∀ r, Machine.exec (.smbusMctpMessage (.spdm r)) s = if s.stage = 15 then .next s else Machine.exec (.spdmRequest true r) s) ∧
    (∀ v, (s.stage = 15 → Machine.exec (.smbusMctpMessage (.control v)) s = .next s) ∧
      (s.stage ≠ 15 → ∃ t, Machine.exec (.smbusMctpMessage (.control v)) s = .next t ∧
        t.out = .mctp (Config.mctpControl s.freeN) :: s.out ∧ t.regs = s.regs ∧ t.mem = s.mem)) ∧
    (∀ (w : Nat) (blk image : List Byte) (good : Bool),
      let side := Machine.exec (.smbusMctpMessage (.command 2 w blk image good)) s
      (s.stage = 15 → wCode w ≠ 0x34 → side = .next s) ∧
      (s.stage = 15 → wCode w = 0x34 → s.mbox2Busy = false →
        ∃ t, side = .next t ∧ t.boot.fwWrite = some (.sideband w, image.take (imageLen 0x34 blk))) ∧
      (wCode w = 0xF0 → ∃ t a, Machine.exec (.smbusMctpMessage (.command 15 w blk image good)) s = .next t ∧
        t = s.emit (.mctp (leBytes 4 (ansWord 0 a))) ∧ a % 4 = s.fld PKG_ROLE PKG_ROLE_ROLE ∧ bit a 2 = s.running) ∧
      (1 < s.stage → s.stage ≠ 15 →
        (s.smbCfg = false → side = .next (s.emit (.mctp (leBytes 4 0x15)))) ∧
        (s.smbCfg = true → (wCode w < 0x30 ∨ 0x37 < wCode w) → side = .next (s.emit (.mctp (leBytes 4 0xFD)))) ∧
        (s.smbCfg = true → 0x30 ≤ wCode w → wCode w ≤ 0x37 → s.longRuns = true ∨ (s.mbox2Busy = true ∧ wCode w ≠ 0x31) →
          side = .next (s.emit (.mctp (leBytes 4 1)))) ∧
        (s.smbCfg = true → s.mbox2Busy = false → wCode w = 0x30 → fieldOk (cfgLen s.boot.cfg) (cbArg0 blk % 2 ^ 32) = true →
          bit (cbArg3 blk) 0 = false → side = .next ((s.emit (.mctp ((s.boot.cfg.drop (cbArg0 blk % 2 ^ 32)).take 4))).emit
            (.mctp (leBytes 4 0)))))) ∧
    (∀ b : Bool, Machine.exec (.jtagInstruction (.bypass b)) s = .next (s.emit (.jtag (b2n b)))) ∧
    Machine.exec (.jtagInstruction .idcode) s = .next (s.emit (.jtag Config.jtagIdcode)) ∧
    (∀ n, ∃ t, Machine.exec (.jtagInstruction (.sample n)) s = .next t ∧ t.out = .jtag (Config.jtagSample s.freeN) :: s.out ∧
      t.boot = { s.boot with scan := n } ∧ t.regs = s.regs ∧ t.mem = s.mem) ∧
    (∀ n, ∃ t, Machine.exec (.jtagInstruction (.extest n)) s = .next t ∧ t.out = .jtag n :: .jtag s.boot.scan :: s.out ∧
      t.boot = { s.boot with scan := n } ∧ t.regs = s.regs ∧ t.mem = s.mem) ∧
    (∀ (op : DebugOp) (b : Bool), s.boot.fuses.dbgLock = true →
      Machine.exec (.jtagInstruction (.debug op b)) s = .next (s.emit (.jtag (b2n b)))) ∧
    (s.boot.fuses.dbgLock = false → ∀ b : Bool,
      (∀ n, Machine.exec (.jtagInstruction (.debug (.foreman n) b)) s = .refused .privateDebug) ∧
      (∀ a v, a % 4 = 0 → Machine.exec (.jtagInstruction (.debug (.write a v) b)) s =
        Machine.exec (.registerWrite ⟨.foreman, []⟩ .bar0 a 4 (v.setWidth 64)) s) ∧
      (∀ a, a % 4 = 0 → a < 0x4000000 → s.regOn a = true → steadyWord a = true → pairOf a = 0 → accMask .rc a = 0 →
        placeOf (F2H_DATA 0) 8 16 a = none → placeOf (DB_COUNT 0) 16 64 a = none → placeOf (D2H_DATA 0) 0x400 16 a = none →
        ∃ t, Machine.exec (.jtagInstruction (.debug (.read a) b)) s = .next t ∧ t.out = .jtag (s.reg a) :: s.out ∧ regsKept s t []))

/-- Hallmarks sample and write their record, the trace FIFO drains, a dump ends at its destination, and mailbox 4 logs and dumps (R422, R423, R424, R425, R427, R430, R432, R433, R434, R438, R439, R442).
The choices and readings of the model behind it: log entries 146, 147, 148, 149, 150, 151. -/
def Obligations.HallmarksTraceAndDumpsAreWrittenWhole : Prop :=
  ∀ s : State, s.boot.on = true →
    (∀ (d : DieIx) (skip : Bool),
      (mapGet (fun _ => []) d.val s.obs.marks = [] → Machine.exec (.hallmarkSample d skip) s = .next s) ∧
      (∀ h rest, mapGet (fun _ => []) d.val s.obs.marks = h :: rest →
        let pos := h.next * 49152
        let r := s.objRead (hmAddr h + pos) (min 49152 (hmLen h - pos))
        let u := if skip then s else s.objSeenAs 2 (hmAddr h + pos) (min 49152 (hmLen h - pos)) none
        let miss := skip || r.2
        let h' : Hallmark := if miss then
          { h with next := h.next + 1, skipped := min 0xFFFFFFFF (h.skipped + 1), poison := h.poison || (!skip && r.2) } else hmTake h r.1
        ∃ t, Machine.exec (.hallmarkSample d skip) s = .next t ∧
          (miss = true → t.pair HM_SKIP_LO = (u.pair HM_SKIP_LO + 1) % 2 ^ 64 ∧ t.flag TRC_EVENT TRC_EVENT_HM_SKIP = true) ∧
          (pos + 49152 < hmLen h → mapGet (fun _ => []) d.val t.obs.marks = h' :: rest ∧ t.mem = u.mem ∧
            (miss = false → t.regs = u.regs)) ∧
          (hmLen h ≤ pos + 49152 → mapGet (fun _ => []) d.val t.obs.marks = rest ∧
            let size := 2 ^ ringLog (u.fld HM_RING_LO HM_RING_LO_SIZE)
            let prod := u.reg HM_PROD
            let a := hwBase + (u.fld HM_RING_LO HM_RING_LO_ADDR * 4096 + u.fld HM_RING_HI HM_RING_HI_ADDR * 2 ^ 32 + prod % size * 64)
            (u.isMember = false → u.canHost = true → u.flag HM_RING_HI HM_RING_HI_V = true → ringUsed prod (u.reg HM_CONS) < size →
              t.reg HM_PROD = (prod + 1) % 2 ^ 32 ∧ getBytes t.mem a 64 = hmBytes u.devId h' ∧ bytesKept u t a 64) ∧
            (u.flag HM_RING_HI HM_RING_HI_V = false ∨ size ≤ ringUsed prod (u.reg HM_CONS) ∨
                (u.isMember = false ∧ u.canHost = false) →
              t.fld HM_DROP HM_DROP_COUNT = satAdd HM_DROP_COUNT.w (u.fld HM_DROP HM_DROP_COUNT) 1 ∧
              t.flag TRC_EVENT TRC_EVENT_HM_DROP = true ∧ t.mem = u.mem)))) ∧
    (∀ found : Bool, ∃ t, Machine.exec (.traceLinkDetect found) s = .next t ∧ onlyRegs s t ∧ regsKept s t [TRC_STAT] ∧
      t.flag TRC_STAT TRC_STAT_LINK = (found && s.flag TRC_CTRL TRC_CTRL_PORT_EN && s.pdOn 2)) ∧
    (s.pending = [] →
      (s.obs.fifo = [] → Machine.step s = .next (queued s s.sendIdles)) ∧
      (∀ L, L < 128 → s.lstate L = lsUp → ∃ t, Machine.step s = .next t ∧ .idleFlit L (s.link L).rxAck (s.link L).freed ∈ t.out) ∧
      (∀ p rest, s.obs.fifo = p :: rest → ∃ t, Machine.step s = .next t ∧ t.obs.fifo = rest ∧ t.mem = s.mem ∧
        (s.flag TRC_STAT TRC_STAT_LINK = true → .trace (tracePacket s p) ∈ t.out ∧ t.obs.pseq = (s.obs.pseq + 1) % 65536 ∧
          t.obs.lost = 0) ∧
        (s.flag TRC_STAT TRC_STAT_LINK = false → t.out = s.sendIdles.out ∧ t.pair TRC_DROP_LO = (s.pair TRC_DROP_LO + 1) % 2 ^ 64))) ∧
    (s.obs.dump = none → Machine.exec .dumpEnd s = .next s) ∧
    (∀ n, s.obs.dump = some n → ∃ t, Machine.exec .dumpEnd s = .next t ∧ t.obs.dump = none ∧ t.obs.trunc = true ∧
      t.flag TRC_STAT TRC_STAT_DUMPING = false ∧ t.flag TRC_EVENT TRC_EVENT_DUMP_END = true ∧
      let port := s.flag TRC_STAT TRC_STAT_LINK && !s.flag TRC_STAT TRC_STAT_DEST
      (port = true → ∀ p ∈ s.dumpBody, ∃ q lost, .trace (dumpBytes s.devId q lost p) ∈ t.out) ∧
      (port = false → s.dumpMem = true → t.reg DUMP_USED = min (s.reg DUMP_LEN * 1024) (s.dumpBody.length + 2) % 2 ^ 32 ∧
        (s.reg DUMP_LEN * 1024 < s.dumpBody.length + 2 → t.flag TRC_EVENT TRC_EVENT_DUMP_SHORT = true)) ∧
      (port = false → s.dumpMem = false → t.reg DUMP_USED = 0 ∧ t.flag TRC_EVENT TRC_EVENT_DUMP_LOST = true ∧ t.mem = s.mem)) ∧
    (s.boot.fuses.dbgLock = true → s.flag DUMP_CFG DUMP_CFG_TENSOR = true → ∀ p ∈ s.dumpBody,
      p ∈ [TracePkt.mk 0x12 0x10 0, TracePkt.mk 0x12 0x11 0, TracePkt.mk 0x12 0x12 0] ∨ p.time % 256 ∈ [1, 2, 3]) ∧
    Machine.exec .faultLimitWindow s = .next { s with obs := { s.obs with win := [] } } ∧
    (∀ (w : Nat) (blk : List Byte), clearBox s 4 →
      (waiting s 4 0x50 w → ∃ t, Machine.exec (.faultLog blk) s = .next t ∧ answered t 4 0x00 ∧
        let a := hwBase + blkNat blk 8 8
        bytesKept s t a s.logBytes.length ∧ (s.canHost = true → getBytes t.mem a s.logBytes.length = s.logBytes)) ∧
      (waiting s 4 0x51 w → ∃ t, Machine.exec (.dumpNow blk) s = .next t ∧ t.mem = s.mem ∧
        (s.obs.dump.isSome = true → answered t 4 stBusy ∧ t.obs = s.obs ∧ t.flag TRC_EVENT TRC_EVENT_DUMP_MISSED = true) ∧
        (s.obs.dump = none → s.flag TRC_STAT TRC_STAT_LINK = false → s.dumpMem = false → answered t 4 0x17 ∧ t.obs = s.obs) ∧
        (s.obs.dump = none → s.flag TRC_STAT TRC_STAT_LINK = true ∨ s.dumpMem = true → answered t 4 0x00 ∧ t.obs.dump = some 3 ∧
          t.obs.fifo = [] ∧ t.flag TRC_STAT TRC_STAT_DUMPING = true ∧ t.flag TRC_EVENT TRC_EVENT_DUMP_START = true ∧
          t.flag TRC_STAT TRC_STAT_DEST = !s.flag TRC_STAT TRC_STAT_LINK)))

/-- The governor steps down at once and up by a ramp that no fallen ceiling outlives, the cap and the sensors act, and units and domains gate (R1, R448, R449, R450, R451, R452, R453, R454, R455, R456, R459, R460).
The choices and readings of the model behind it: log entries 154, 155, 156, 157, 158, 159, 160, 162. -/
def Obligations.TheGovernorKeepsLimitsAndAnswersPins : Prop :=
  ∀ s : State, s.boot.on = true → s.point ≤ 2 →
    let full (n : Nat) := if s.govFld PWR_CTRL PWR_CTRL_THROT_EN = 1 then n else 16
    (∀ (w : Nat) (blk : List Byte), clearBox s 3 →
      (waiting s 3 0x60 w → ∃ t, Machine.exec (.opSet blk) s = .next t ∧ t.mem = s.mem ∧
        (cbArg3 blk % 4 = 3 → answered t 3 0x18 ∧ regsKept s t (mailRegs 3)) ∧
        (cbArg3 blk % 4 ≠ 3 → answered t 3 0x00 ∧ t.fld PWR_REQ PWR_REQ_POINT = cbArg3 blk % 4 ∧
          regsKept s t (PWR_REQ :: mailRegs 3))) ∧
      (waiting s 3 0x61 w →
        let sw := bits (cbArg2 blk) 0 9
        let pc := bits (cbArg2 blk) 16 9
        ∃ t, Machine.exec (.limitSet blk) s = .next t ∧ t.mem = s.mem ∧
          (sw = 0 ∨ pc = 0 → answered t 3 0x18 ∧ regsKept s t (mailRegs 3)) ∧
          (sw ≠ 0 → pc ≠ 0 → answered t 3 0x00 ∧ t.fld PWR_LIMIT PWR_LIMIT_SW_LIM = sw ∧ t.fld PWR_LIMIT PWR_LIMIT_PCAP_LIM = pc ∧
            regsKept s t (PWR_LIMIT :: mailRegs 3))) ∧
      (waiting s 3 0x62 w → ∃ t, Machine.exec (.pwrGet blk) s = .next t ∧ answered t 3 0x00 ∧
        let v := leBytes 4 (s.reg PWR_STAT) ++ leBytes 4 (s.reg PWR_READ) ++ leBytes 4 (s.reg PWR_TEMP)
        let a := hwBase + (s.blkOff 3 (.own w) + 0x20)
        bytesKept s t a 12 ∧ (s.canHost = true → getBytes t.mem a 12 = v))) ∧
    (s.isReady = false → Machine.exec .governorTick s = .next s) ∧
    (s.isReady = true → ∃ t, Machine.exec .governorTick s = .next t ∧ s.point ≤ t.point ∧ t.mem = s.mem ∧
      t.pwr.hist = (s.p100 :: s.pwr.hist).take 10 ∧ t.fld PWR_READ PWR_READ_AVG = min 65535 (t.p1 / 1000) ∧
      t.pair PWR_ENERGY_LO = (s.pair PWR_ENERGY_LO + (s.pwr.eRem + s.p100) / 10000) % 2 ^ 64 ∧
      let late := s.pwr.capLate && decide (s.pcap < s.p100)
      let lim := s.effLimit.1
      (late = true ∨ s.pwr.tj110 = true → t.point = 2 ∧ t.duty = full 4) ∧
      (late = false → s.pwr.tj110 = false → s.govFld PWR_CTRL PWR_CTRL_GOV_EN ≠ 1 →
        (s.pwr.tj = true → (s.point < 2 → t.point = s.point + 1) ∧
          (s.point = 2 → t.duty = full (if 4 < s.duty then s.duty - 1 else s.duty))) ∧
        (s.pwr.tj = false → s.flag PWR_STAT PWR_STAT_PWR_CAP = true → t.point = max s.point s.ceiling ∧ t.duty = full s.duty) ∧
        (s.pwr.tj = false → s.flag PWR_STAT PWR_STAT_PWR_CAP = false → t.point = max s.point s.ceiling ∧ t.duty = 16 ∧
          (s.ceiling < s.point → s.pwr.up = none → t.pwr.up = some s.ceiling ∧ .voltage s.vrms (pointMv s.ceiling) ∈ t.out))) ∧
      (late = false → s.pwr.tj110 = false → s.govFld PWR_CTRL PWR_CTRL_GOV_EN = 1 →
        (s.point < s.ceiling → t.point = s.point + 1) ∧
        (s.ceiling ≤ s.point → lim < t.p1 ∨ s.pwr.tj = true → (s.point < 2 → t.point = s.point + 1) ∧
          (s.point = 2 → t.point = 2 ∧ t.duty = full (if 4 < s.duty then s.duty - 1 else s.duty))) ∧
        (s.ceiling ≤ s.point → t.p1 ≤ lim → s.pwr.tj = false → t.point = s.point ∧
          (lim * 9 ≤ t.p1 * 10 → t.pwr.quiet = 0 ∧ t.duty = full s.duty) ∧
          (t.p1 * 10 < lim * 9 → s.pwr.quiet < 99 → t.pwr.quiet = s.pwr.quiet + 1 ∧ t.duty = full s.duty ∧ t.pwr.up = s.pwr.up) ∧
          (t.p1 * 10 < lim * 9 → 99 ≤ s.pwr.quiet → t.pwr.quiet = 0 ∧
            (full s.duty < 16 → t.duty = s.duty + 1) ∧
            (16 ≤ full s.duty → s.ceiling < s.point → upFits t.p1 lim s.point = true → s.pwr.up = none →
              t.pwr.up = some (s.point - 1) ∧ .voltage s.vrms (pointMv (s.point - 1)) ∈ t.out ∧
              t.flag PWR_STAT PWR_STAT_TRANS = true))))) ∧
    (s.flag PWR_STAT PWR_STAT_TRANS = false → Machine.exec .pointRampDone s = .next s) ∧
    (s.flag PWR_STAT PWR_STAT_TRANS = true → ∃ t, Machine.exec .pointRampDone s = .next t ∧
      t.pwr.up = none ∧ (s.pwr.up = none → t.point = s.point ∧ t.flag PWR_STAT PWR_STAT_TRANS = false) ∧
      (∀ p, p < s.ceiling → s.pwr.up = some p → t.point = s.point ∧ t.flag PWR_STAT PWR_STAT_TRANS = true ∧
        .voltage s.vrms (pointMv s.point) ∈ t.out) ∧
      (∀ p, s.ceiling ≤ p → p < 3 → s.pwr.up = some p → t.point = p ∧ t.flag PWR_STAT PWR_STAT_TRANS = false ∧
        t.flag PWR_EVENT PWR_EVENT_POINT = true)) ∧
    (∀ level : Bool,
      (s.flag PWR_STAT PWR_STAT_COOL_OK = level → Machine.exec (.coolOkChange level) s = .next s) ∧
      (s.flag PWR_STAT PWR_STAT_COOL_OK ≠ level → ∃ t, Machine.exec (.coolOkChange level) s = .next t ∧
        t.flag PWR_STAT PWR_STAT_COOL_OK = level ∧ t.flag PWR_EVENT PWR_EVENT_COOL = true ∧ t.mem = s.mem ∧
        (level = true ∨ s.isReady = false → t.point = s.point) ∧
        (s.isReady = true → t.pwr.up = none ∧ (level = false →
          t.point = max s.point (if s.govFld PWR_REQ PWR_REQ_ALLOW_P1 = 1 then 1 else 2))))) ∧
    (let capped := s.flag PWR_STAT PWR_STAT_PWR_CAP
     (capped = true → Machine.exec .pwrCapAssert s = .next s) ∧
     (capped = false → ∃ t, Machine.exec .pwrCapAssert s = .next t ∧ t.flag PWR_STAT PWR_STAT_PWR_CAP = true ∧
       t.flag PWR_EVENT PWR_EVENT_CAP = true ∧ (s.isReady = false → t.point = s.point ∧ t.duty = s.duty) ∧
       (s.isReady = true → t.pwr.capRun = true ∧ t.fld PWR_STAT PWR_STAT_LIMITER = 3 ∧
         t.point = (if predicts s.p100 s.point s.point s.pcap then s.point
           else if s.point = 0 ∧ predicts s.p100 0 1 s.pcap = true then 1 else 2) ∧
         (s.govFld PWR_CTRL PWR_CTRL_THROT_EN = 1 → 4 ≤ t.duty ∧ t.duty ≤ 16 ∧ (t.duty = 4 ∨
           s.p100 * (upRatio s.point t.point).2 * t.duty ≤ s.pcap * (upRatio s.point t.point).1 * 16)))) ∧
     (capped = false → Machine.exec .pwrCapRelease s = .next s) ∧
     (capped = true → ∃ t, Machine.exec .pwrCapRelease s = .next t ∧ t.flag PWR_STAT PWR_STAT_PWR_CAP = false ∧
       t.flag PWR_EVENT PWR_EVENT_CAP = true ∧ t.pwr.capRun = false ∧ t.pwr.capLate = false ∧ t.point = s.point)) ∧
    (s.pwr.capRun = false → Machine.exec .capDeadline s = .next s) ∧
    (s.pwr.capRun = true → s.p100 ≤ s.pcap → Machine.exec .capDeadline s = .next { s with pwr := { s.pwr with capRun := false } }) ∧
    (s.pwr.capRun = true → s.pcap < s.p100 → ∃ t, Machine.exec .capDeadline s = .next t ∧ newestFault t 0 0x0407 (s.p100 / 1000) ∧
      t.flag PWR_EVENT PWR_EVENT_CAP_LATE = true ∧ t.pwr.capLate = true ∧ t.point = 2 ∧ t.duty = full 4) ∧
    (∀ (r : Fin 16) (good : Bool),
      let old := mapGet (fun _ => (0, 0)) r.val s.pwr.rails
      let n := mapGet (fun _ => 0) r.val s.pwr.fails + 1
      (∀ mv a, ∃ t, Machine.exec (.regulatorPoll r (some (mv, a)) good) s = .next t ∧ regsKept s t [PWR_RAIL r.val] ∧
        t.fld (PWR_RAIL r.val) PWR_RAIL_IOUT = min 1023 a ∧ t.fld (PWR_RAIL r.val) PWR_RAIL_VOUT = min 1023 mv ∧
        t.flag (PWR_RAIL r.val) PWR_RAIL_PGOOD = good ∧ mapGet (fun _ => (0, 0)) r.val t.pwr.rails = (mv * a, old.1) ∧
        mapGet (fun _ => 0) r.val t.pwr.fails = 0) ∧
      (∃ t, Machine.exec (.regulatorPoll r none good) s = .next t ∧ mapGet (fun _ => 0) r.val t.pwr.fails = n ∧
        (n < 3 → mapGet (fun _ => (0, 0)) r.val t.pwr.rails = (old.1, old.1)) ∧
        (3 ≤ n → mapGet (fun _ => (0, 0)) r.val t.pwr.rails = (Config.siteEstimate r.val s.freeN * 11 / 10, old.1)) ∧
        (n = 3 → t.flag PWR_EVENT PWR_EVENT_TELEM = true))) ∧
    (∀ l : List Nat, ∃ t, Machine.exec (.pmbAlert l) s = .next t ∧ onlyRegs s t ∧ regsKept s t ((List.range 16).map PWR_RAIL) ∧
      ∀ r, r < 16 → t.flag (PWR_RAIL r) PWR_RAIL_PGOOD = !bit (l.getD r 0) 11) ∧
    (∀ l : List Nat, (l.length ≠ 68 → Machine.exec (.dieTempReading l) s = .next s) ∧
      (l.length = 68 →
        let m := l.foldl max 0
        ∃ t, Machine.exec (.dieTempReading l) s = .next t ∧ t.fld PWR_TEMP PWR_TEMP_TJ_MAX = min 255 m ∧
          t.fld PWR_TEMP PWR_TEMP_SENSOR = l.idxOf m ∧ t.pwr.tj = (decide (100 ≤ m) || (s.pwr.tj && decide (97 ≤ m))) ∧
          t.pwr.tj110 = (decide (110 ≤ m) || (s.pwr.tj110 && decide (107 ≤ m))) ∧
          (100 ≤ m → s.pwr.tj = false → t.flag PWR_EVENT PWR_EVENT_TJ_THROT = true) ∧
          (110 ≤ m → s.pwr.tj110 = false → t.point = 2 ∧ t.duty = full 4) ∧ (120 ≤ m → t.pwr.trip = true) ∧
          (m < 120 → t.pwr.trip = s.pwr.trip))) ∧
    (∀ n : Nat, (s.pwr.trip = true → Machine.exec (.thermtrip n) s = .next s) ∧
      (s.pwr.trip = false → ∃ t, Machine.exec (.thermtrip n) s = .next t ∧ t.pwr.trip = true ∧ .pin "THERMTRIP_N" false ∈ t.out ∧
        newestFault t 4 0x0505 n ∧ (∀ l, mapGet (fun _ => none) l t.dram.lines = none) ∧ ∀ j, j < 128 → t.pdOn j = (decide (j < 11) && s.pdOn j))) ∧
    (∀ n : Nat, (s.boot.perst = true ∨ 34 ≤ n → Machine.exec (.railFault n) s = .next s) ∧
      (s.boot.perst = false → n < 34 → ∃ t, Machine.exec (.railFault n) s = .next t ∧ newestFault t 4 0x0503 (railDomain n) ∧
        t.obs.faultN = true)) ∧
    (∃ t, Machine.exec .refclkLoss s = .next t ∧ newestFault t 4 0x0503 0 ∧ t.obs.faultN = true) ∧
    (∀ n : Nat, (s.idleGate n = false → Machine.exec (.unitIdleGate n) s = .next s) ∧
      (s.idleGate n = true →
        Machine.exec (.unitIdleGate n) s = .next { s with pwr := { s.pwr with idle := setInsert n s.pwr.idle } })) ∧
    (∀ (pd : Fin 123) (gate : Bool), pd.val < 11 ∨ 107 ≤ pd.val → Machine.exec (.domainIdleGating pd gate) s = .next s) ∧
    (∀ (d : Fin 16) (k : Fin 6) (gate : Bool) (pd : Fin 123), pd.val = 11 + 6 * d.val + k.val →
      let idle := if 2 ≤ k.val then (quadFaces (k.val - 2)).all (fun f => (s.face d.val f).held.isEmpty && (s.face d.val f).rows.isEmpty)
        else s.dieClean d.val && (List.range 64).all (fun f => (s.face d.val f).held.isEmpty)
      (gate = true → idle = false → Machine.exec (.domainIdleGating pd gate) s = .next s) ∧
      (gate = false → s.stage < 5 ∨ s.stage = 15 → Machine.exec (.domainIdleGating pd gate) s = .next s) ∧
      ((gate = true ∧ idle = true) ∨ (gate = false ∧ 5 ≤ s.stage ∧ s.stage ≠ 15) → ∃ t, Machine.exec (.domainIdleGating pd gate) s = .next t ∧ onlyRegs s t ∧
        t.pdOn pd.val = !gate ∧ (2 ≤ k.val → ∀ f ∈ quadFaces (k.val - 2), t.flag (FSQ_STAT d.val f) FSQ_STAT_GATED = gate) ∧
        (∀ j, j < 128 → j ≠ pd.val → t.pdOn j = s.pdOn j)))
end

