-- ==== Sys2Proof/Laws/Map.lean ====
section
/-! SUPPORT. Laws of the sparse maps: reading after setting, and every operation keeps the canonical form. -/

namespace Sys2Proof.Laws

open Sys2Proof.Machine

variable {α : Type}

theorem mapGet_cons (d : Nat → α) (k j : Nat) (v : α) (l : List (Nat × α)) :
    mapGet d k ((j, v) :: l) = if j = k then v else mapGet d k l := rfl

/-- An unlisted key reads as its default. -/
theorem mapGet_unlisted (d : Nat → α) (k : Nat) (l : List (Nat × α)) (h : ∀ e ∈ l, e.1 ≠ k) : mapGet d k l = d k := by
  induction l with
  | nil => rfl
  | cons e l ih =>
    have h1 : e.1 ≠ k := h e (by simp)
    simp [mapGet, h1, ih (fun x hx => h x (by simp [hx]))]

theorem mapErase_same (d : Nat → α) (k : Nat) (l : List (Nat × α)) : mapGet d k (mapErase k l) = d k :=
  mapGet_unlisted d k _ (by simp [mapErase])

theorem mapErase_other (d : Nat → α) {j k : Nat} (h : j ≠ k) (l : List (Nat × α)) : mapGet d j (mapErase k l) = mapGet d j l := by
  induction l with
  | nil => rfl
  | cons e l ih =>
    obtain ⟨a, v⟩ := e
    by_cases ha : a = k
    · subst ha
      simpa [mapErase, mapGet, Ne.symm h] using ih
    · have he : mapErase k ((a, v) :: l) = (a, v) :: mapErase k l := by simp [mapErase, ha]
      rw [he, mapGet_cons, mapGet_cons, ih]

theorem mapInsert_same (d : Nat → α) (k : Nat) (v : α) (l : List (Nat × α)) (h : ∀ e ∈ l, e.1 ≠ k) :
    mapGet d k (mapInsert k v l) = v := by
  induction l with
  | nil => simp [mapInsert, mapGet]
  | cons e l ih =>
    have h1 : e.1 ≠ k := h e (by simp)
    simp only [mapInsert]
    split
    · simp [mapGet]
    · simp [mapGet, h1, ih (fun x hx => h x (by simp [hx]))]

theorem mapInsert_other (d : Nat → α) {j k : Nat} (h : j ≠ k) (v : α) (l : List (Nat × α)) :
    mapGet d j (mapInsert k v l) = mapGet d j l := by
  induction l with
  | nil => simp [mapInsert, mapGet, Ne.symm h]
  | cons e l ih =>
    simp only [mapInsert]
    split
    · simp [mapGet, Ne.symm h]
    · simp [mapGet, ih]

/-- Reading a key just set gives the value set. -/
theorem mapGet_set_same [DecidableEq α] (d : Nat → α) (k : Nat) (v : α) (l : List (Nat × α)) :
    mapGet d k (mapSet d k v l) = v := by
  unfold mapSet
  split
  · rename_i h; rw [mapErase_same, h]
  · exact mapInsert_same d k v _ (by simp [mapErase])

/-- Setting one key leaves every other as it was. -/
theorem mapGet_set_other [DecidableEq α] (d : Nat → α) {j k : Nat} (h : j ≠ k) (v : α) (l : List (Nat × α)) :
    mapGet d j (mapSet d k v l) = mapGet d j l := by
  unfold mapSet
  split
  · exact mapErase_other d h l
  · rw [mapInsert_other d h, mapErase_other d h]

theorem mapGet_set [DecidableEq α] (d : Nat → α) (j k : Nat) (v : α) (l : List (Nat × α)) :
    mapGet d j (mapSet d k v l) = if j = k then v else mapGet d j l := by
  split
  · rename_i h; rw [h, mapGet_set_same]
  · rename_i h; exact mapGet_set_other d h v l

/-! ### the canonical form -/

/-- What the canonical form says, entry by entry. -/
theorem mapWf_iff [DecidableEq α] (d : Nat → α) (l : List (Nat × α)) :
    mapWf d l = true ↔ l.Pairwise (fun a b => a.1 < b.1) ∧ ∀ e ∈ l, e.2 ≠ d e.1 := by
  induction l with
  | nil => simp [mapWf]
  | cons e l ih =>
    obtain ⟨k, v⟩ := e
    simp only [mapWf, Bool.and_eq_true, decide_eq_true_eq, List.all_eq_true, ih, List.pairwise_cons, List.mem_cons]
    constructor
    · rintro ⟨⟨h1, h2⟩, h3, h4⟩
      refine ⟨⟨h2, h3⟩, ?_⟩
      rintro e (rfl | he)
      · exact h1
      · exact h4 e he
    · rintro ⟨⟨h2, h3⟩, h4⟩
      exact ⟨⟨h4 (k, v) (Or.inl rfl), h2⟩, h3, fun e he => h4 e (Or.inr he)⟩

/-- Dropping entries keeps the canonical form. -/
theorem mapWf_filter [DecidableEq α] (d : Nat → α) (p : Nat × α → Bool) (l : List (Nat × α)) (h : mapWf d l = true) :
    mapWf d (l.filter p) = true := by
  rw [mapWf_iff] at h ⊢
  exact ⟨h.1.filter p, fun e he => h.2 e (List.mem_of_mem_filter he)⟩

theorem mapWf_erase [DecidableEq α] (d : Nat → α) (k : Nat) (l : List (Nat × α)) (h : mapWf d l = true) :
    mapWf d (mapErase k l) = true := mapWf_filter d _ l h

theorem mem_mapInsert (k : Nat) (v : α) (l : List (Nat × α)) (e : Nat × α) :
    e ∈ mapInsert k v l ↔ e = (k, v) ∨ e ∈ l := by
  induction l with
  | nil => simp [mapInsert]
  | cons a l ih =>
    simp only [mapInsert]
    split
    · simp
    · simp only [List.mem_cons, ih]
      constructor
      · rintro (h | h | h) <;> simp [h]
      · rintro (h | h | h) <;> simp [h]

/-- Inserting an entry that is not the default at a key not listed keeps the canonical form. -/
theorem mapWf_insert [DecidableEq α] (d : Nat → α) (k : Nat) (v : α) (l : List (Nat × α)) (h : mapWf d l = true)
    (hv : v ≠ d k) (hk : ∀ e ∈ l, e.1 ≠ k) : mapWf d (mapInsert k v l) = true := by
  rw [mapWf_iff] at h ⊢
  refine ⟨?_, ?_⟩
  · clear hv
    obtain ⟨hp, -⟩ := h
    induction l with
    | nil => simp [mapInsert]
    | cons a l ih =>
      have ha : a.1 ≠ k := hk a (by simp)
      rw [List.pairwise_cons] at hp
      simp only [mapInsert]
      split
      · rename_i hlt
        refine List.pairwise_cons.2 ⟨?_, List.pairwise_cons.2 hp⟩
        intro b hb
        rcases List.mem_cons.1 hb with rfl | hb
        · exact hlt
        · exact Nat.lt_trans hlt (hp.1 b hb)
      · rename_i hlt
        refine List.pairwise_cons.2 ⟨?_, ih (fun e he => hk e (by simp [he])) hp.2⟩
        intro b hb
        rcases (mem_mapInsert k v l b).1 hb with rfl | hb
        · exact Nat.lt_of_le_of_ne (Nat.le_of_not_lt hlt) ha
        · exact hp.1 b hb
  · intro e he
    rcases (mem_mapInsert k v l e).1 he with rfl | he
    · exact hv
    · exact h.2 e he

/-- Setting a key keeps the canonical form. -/
theorem mapWf_set [DecidableEq α] (d : Nat → α) (k : Nat) (v : α) (l : List (Nat × α)) (h : mapWf d l = true) :
    mapWf d (mapSet d k v l) = true := by
  unfold mapSet
  split
  · exact mapWf_erase d k l h
  · rename_i hv
    exact mapWf_insert d k v _ (mapWf_erase d k l h) hv (by simp [mapErase])

end Sys2Proof.Laws
end

