-- ==== Sys2Proof/Laws/State.lean ====
section
/-! SUPPORT. One law per field per update of the state: what the update leaves as it was.  All hold by unfolding, so a proof never
has to unfold a record update. -/

namespace Sys2Proof.Machine

/-! ### setReg -/

@[simp] theorem State.setReg_pending (s : State) (a v : Nat) : (s.setReg a v).pending = s.pending := rfl
@[simp] theorem State.setReg_mem (s : State) (a v : Nat) : (s.setReg a v).mem = s.mem := rfl
@[simp] theorem State.setReg_poison (s : State) (a v : Nat) : (s.setReg a v).poison = s.poison := rfl
@[simp] theorem State.setReg_out (s : State) (a v : Nat) : (s.setReg a v).out = s.out := rfl
@[simp] theorem State.setReg_freeN (s : State) (a v : Nat) : (s.setReg a v).freeN = s.freeN := rfl
@[simp] theorem State.setReg_parStop (s : State) (a v : Nat) : (s.setReg a v).parStop = s.parStop := rfl
@[simp] theorem State.setReg_hif (s : State) (a v : Nat) : (s.setReg a v).hif = s.hif := rfl
@[simp] theorem State.setReg_eng (s : State) (a v : Nat) : (s.setReg a v).eng = s.eng := rfl
@[simp] theorem State.setReg_dies (s : State) (a v : Nat) : (s.setReg a v).dies = s.dies := rfl
@[simp] theorem State.setReg_faces (s : State) (a v : Nat) : (s.setReg a v).faces = s.faces := rfl
@[simp] theorem State.setReg_strms (s : State) (a v : Nat) : (s.setReg a v).strms = s.strms := rfl
@[simp] theorem State.setReg_benches (s : State) (a v : Nat) : (s.setReg a v).benches = s.benches := rfl
@[simp] theorem State.setReg_cru (s : State) (a v : Nat) : (s.setReg a v).cru = s.cru := rfl
@[simp] theorem State.setReg_dram (s : State) (a v : Nat) : (s.setReg a v).dram = s.dram := rfl
@[simp] theorem State.setReg_plc (s : State) (a v : Nat) : (s.setReg a v).plc = s.plc := rfl
@[simp] theorem State.setReg_fab (s : State) (a v : Nat) : (s.setReg a v).fab = s.fab := rfl
@[simp] theorem State.setReg_obs (s : State) (a v : Nat) : (s.setReg a v).obs = s.obs := rfl
@[simp] theorem State.setReg_boot (s : State) (a v : Nat) : (s.setReg a v).boot = s.boot := rfl
@[simp] theorem State.setReg_pwr (s : State) (a v : Nat) : (s.setReg a v).pwr = s.pwr := rfl
@[simp] theorem State.setReg_queues (s : State) (a v : Nat) : (s.setReg a v).queues = s.queues := rfl

/-! ### setFld -/

@[simp] theorem State.setFld_pending (s : State) (a : Nat) (f : Fld) (v : Nat) : (s.setFld a f v).pending = s.pending := rfl
@[simp] theorem State.setFld_mem (s : State) (a : Nat) (f : Fld) (v : Nat) : (s.setFld a f v).mem = s.mem := rfl
@[simp] theorem State.setFld_poison (s : State) (a : Nat) (f : Fld) (v : Nat) : (s.setFld a f v).poison = s.poison := rfl
@[simp] theorem State.setFld_out (s : State) (a : Nat) (f : Fld) (v : Nat) : (s.setFld a f v).out = s.out := rfl
@[simp] theorem State.setFld_freeN (s : State) (a : Nat) (f : Fld) (v : Nat) : (s.setFld a f v).freeN = s.freeN := rfl
@[simp] theorem State.setFld_parStop (s : State) (a : Nat) (f : Fld) (v : Nat) : (s.setFld a f v).parStop = s.parStop := rfl
@[simp] theorem State.setFld_hif (s : State) (a : Nat) (f : Fld) (v : Nat) : (s.setFld a f v).hif = s.hif := rfl
@[simp] theorem State.setFld_eng (s : State) (a : Nat) (f : Fld) (v : Nat) : (s.setFld a f v).eng = s.eng := rfl
@[simp] theorem State.setFld_dies (s : State) (a : Nat) (f : Fld) (v : Nat) : (s.setFld a f v).dies = s.dies := rfl
@[simp] theorem State.setFld_faces (s : State) (a : Nat) (f : Fld) (v : Nat) : (s.setFld a f v).faces = s.faces := rfl
@[simp] theorem State.setFld_strms (s : State) (a : Nat) (f : Fld) (v : Nat) : (s.setFld a f v).strms = s.strms := rfl
@[simp] theorem State.setFld_benches (s : State) (a : Nat) (f : Fld) (v : Nat) : (s.setFld a f v).benches = s.benches := rfl
@[simp] theorem State.setFld_cru (s : State) (a : Nat) (f : Fld) (v : Nat) : (s.setFld a f v).cru = s.cru := rfl
@[simp] theorem State.setFld_dram (s : State) (a : Nat) (f : Fld) (v : Nat) : (s.setFld a f v).dram = s.dram := rfl
@[simp] theorem State.setFld_plc (s : State) (a : Nat) (f : Fld) (v : Nat) : (s.setFld a f v).plc = s.plc := rfl
@[simp] theorem State.setFld_fab (s : State) (a : Nat) (f : Fld) (v : Nat) : (s.setFld a f v).fab = s.fab := rfl
@[simp] theorem State.setFld_obs (s : State) (a : Nat) (f : Fld) (v : Nat) : (s.setFld a f v).obs = s.obs := rfl
@[simp] theorem State.setFld_boot (s : State) (a : Nat) (f : Fld) (v : Nat) : (s.setFld a f v).boot = s.boot := rfl
@[simp] theorem State.setFld_pwr (s : State) (a : Nat) (f : Fld) (v : Nat) : (s.setFld a f v).pwr = s.pwr := rfl
@[simp] theorem State.setFld_queues (s : State) (a : Nat) (f : Fld) (v : Nat) : (s.setFld a f v).queues = s.queues := rfl

/-! ### setFlag -/

@[simp] theorem State.setFlag_pending (s : State) (a : Nat) (f : Fld) (b : Bool) : (s.setFlag a f b).pending = s.pending := rfl
@[simp] theorem State.setFlag_mem (s : State) (a : Nat) (f : Fld) (b : Bool) : (s.setFlag a f b).mem = s.mem := rfl
@[simp] theorem State.setFlag_poison (s : State) (a : Nat) (f : Fld) (b : Bool) : (s.setFlag a f b).poison = s.poison := rfl
@[simp] theorem State.setFlag_out (s : State) (a : Nat) (f : Fld) (b : Bool) : (s.setFlag a f b).out = s.out := rfl
@[simp] theorem State.setFlag_freeN (s : State) (a : Nat) (f : Fld) (b : Bool) : (s.setFlag a f b).freeN = s.freeN := rfl
@[simp] theorem State.setFlag_parStop (s : State) (a : Nat) (f : Fld) (b : Bool) : (s.setFlag a f b).parStop = s.parStop := rfl
@[simp] theorem State.setFlag_hif (s : State) (a : Nat) (f : Fld) (b : Bool) : (s.setFlag a f b).hif = s.hif := rfl
@[simp] theorem State.setFlag_eng (s : State) (a : Nat) (f : Fld) (b : Bool) : (s.setFlag a f b).eng = s.eng := rfl
@[simp] theorem State.setFlag_dies (s : State) (a : Nat) (f : Fld) (b : Bool) : (s.setFlag a f b).dies = s.dies := rfl
@[simp] theorem State.setFlag_faces (s : State) (a : Nat) (f : Fld) (b : Bool) : (s.setFlag a f b).faces = s.faces := rfl
@[simp] theorem State.setFlag_strms (s : State) (a : Nat) (f : Fld) (b : Bool) : (s.setFlag a f b).strms = s.strms := rfl
@[simp] theorem State.setFlag_benches (s : State) (a : Nat) (f : Fld) (b : Bool) : (s.setFlag a f b).benches = s.benches := rfl
@[simp] theorem State.setFlag_cru (s : State) (a : Nat) (f : Fld) (b : Bool) : (s.setFlag a f b).cru = s.cru := rfl
@[simp] theorem State.setFlag_dram (s : State) (a : Nat) (f : Fld) (b : Bool) : (s.setFlag a f b).dram = s.dram := rfl
@[simp] theorem State.setFlag_plc (s : State) (a : Nat) (f : Fld) (b : Bool) : (s.setFlag a f b).plc = s.plc := rfl
@[simp] theorem State.setFlag_fab (s : State) (a : Nat) (f : Fld) (b : Bool) : (s.setFlag a f b).fab = s.fab := rfl
@[simp] theorem State.setFlag_obs (s : State) (a : Nat) (f : Fld) (b : Bool) : (s.setFlag a f b).obs = s.obs := rfl
@[simp] theorem State.setFlag_boot (s : State) (a : Nat) (f : Fld) (b : Bool) : (s.setFlag a f b).boot = s.boot := rfl
@[simp] theorem State.setFlag_pwr (s : State) (a : Nat) (f : Fld) (b : Bool) : (s.setFlag a f b).pwr = s.pwr := rfl
@[simp] theorem State.setFlag_queues (s : State) (a : Nat) (f : Fld) (b : Bool) : (s.setFlag a f b).queues = s.queues := rfl

/-! ### setPair -/

@[simp] theorem State.setPair_pending (s : State) (a v : Nat) : (s.setPair a v).pending = s.pending := by simp only [State.setPair, State.setReg_pending]
@[simp] theorem State.setPair_mem (s : State) (a v : Nat) : (s.setPair a v).mem = s.mem := by simp only [State.setPair, State.setReg_mem]
@[simp] theorem State.setPair_poison (s : State) (a v : Nat) : (s.setPair a v).poison = s.poison := by simp only [State.setPair, State.setReg_poison]
@[simp] theorem State.setPair_out (s : State) (a v : Nat) : (s.setPair a v).out = s.out := by simp only [State.setPair, State.setReg_out]
@[simp] theorem State.setPair_freeN (s : State) (a v : Nat) : (s.setPair a v).freeN = s.freeN := by simp only [State.setPair, State.setReg_freeN]
@[simp] theorem State.setPair_parStop (s : State) (a v : Nat) : (s.setPair a v).parStop = s.parStop := by simp only [State.setPair, State.setReg_parStop]
@[simp] theorem State.setPair_hif (s : State) (a v : Nat) : (s.setPair a v).hif = s.hif := by simp only [State.setPair, State.setReg_hif]
@[simp] theorem State.setPair_eng (s : State) (a v : Nat) : (s.setPair a v).eng = s.eng := by simp only [State.setPair, State.setReg_eng]
@[simp] theorem State.setPair_dies (s : State) (a v : Nat) : (s.setPair a v).dies = s.dies := by simp only [State.setPair, State.setReg_dies]
@[simp] theorem State.setPair_faces (s : State) (a v : Nat) : (s.setPair a v).faces = s.faces := by simp only [State.setPair, State.setReg_faces]
@[simp] theorem State.setPair_strms (s : State) (a v : Nat) : (s.setPair a v).strms = s.strms := by simp only [State.setPair, State.setReg_strms]
@[simp] theorem State.setPair_benches (s : State) (a v : Nat) : (s.setPair a v).benches = s.benches := by simp only [State.setPair, State.setReg_benches]
@[simp] theorem State.setPair_cru (s : State) (a v : Nat) : (s.setPair a v).cru = s.cru := by simp only [State.setPair, State.setReg_cru]
@[simp] theorem State.setPair_dram (s : State) (a v : Nat) : (s.setPair a v).dram = s.dram := by simp only [State.setPair, State.setReg_dram]
@[simp] theorem State.setPair_plc (s : State) (a v : Nat) : (s.setPair a v).plc = s.plc := by simp only [State.setPair, State.setReg_plc]
@[simp] theorem State.setPair_fab (s : State) (a v : Nat) : (s.setPair a v).fab = s.fab := by simp only [State.setPair, State.setReg_fab]
@[simp] theorem State.setPair_obs (s : State) (a v : Nat) : (s.setPair a v).obs = s.obs := by simp only [State.setPair, State.setReg_obs]
@[simp] theorem State.setPair_boot (s : State) (a v : Nat) : (s.setPair a v).boot = s.boot := by simp only [State.setPair, State.setReg_boot]
@[simp] theorem State.setPair_pwr (s : State) (a v : Nat) : (s.setPair a v).pwr = s.pwr := by simp only [State.setPair, State.setReg_pwr]
@[simp] theorem State.setPair_queues (s : State) (a v : Nat) : (s.setPair a v).queues = s.queues := by simp only [State.setPair, State.setReg_queues]

/-! ### bump -/

@[simp] theorem State.bump_pending (s : State) (a n : Nat) : (s.bump a n).pending = s.pending := by simp only [State.bump, State.setPair_pending]
@[simp] theorem State.bump_mem (s : State) (a n : Nat) : (s.bump a n).mem = s.mem := by simp only [State.bump, State.setPair_mem]
@[simp] theorem State.bump_poison (s : State) (a n : Nat) : (s.bump a n).poison = s.poison := by simp only [State.bump, State.setPair_poison]
@[simp] theorem State.bump_out (s : State) (a n : Nat) : (s.bump a n).out = s.out := by simp only [State.bump, State.setPair_out]
@[simp] theorem State.bump_freeN (s : State) (a n : Nat) : (s.bump a n).freeN = s.freeN := by simp only [State.bump, State.setPair_freeN]
@[simp] theorem State.bump_parStop (s : State) (a n : Nat) : (s.bump a n).parStop = s.parStop := by simp only [State.bump, State.setPair_parStop]
@[simp] theorem State.bump_hif (s : State) (a n : Nat) : (s.bump a n).hif = s.hif := by simp only [State.bump, State.setPair_hif]
@[simp] theorem State.bump_eng (s : State) (a n : Nat) : (s.bump a n).eng = s.eng := by simp only [State.bump, State.setPair_eng]
@[simp] theorem State.bump_dies (s : State) (a n : Nat) : (s.bump a n).dies = s.dies := by simp only [State.bump, State.setPair_dies]
@[simp] theorem State.bump_faces (s : State) (a n : Nat) : (s.bump a n).faces = s.faces := by simp only [State.bump, State.setPair_faces]
@[simp] theorem State.bump_strms (s : State) (a n : Nat) : (s.bump a n).strms = s.strms := by simp only [State.bump, State.setPair_strms]
@[simp] theorem State.bump_benches (s : State) (a n : Nat) : (s.bump a n).benches = s.benches := by simp only [State.bump, State.setPair_benches]
@[simp] theorem State.bump_cru (s : State) (a n : Nat) : (s.bump a n).cru = s.cru := by simp only [State.bump, State.setPair_cru]
@[simp] theorem State.bump_dram (s : State) (a n : Nat) : (s.bump a n).dram = s.dram := by simp only [State.bump, State.setPair_dram]
@[simp] theorem State.bump_plc (s : State) (a n : Nat) : (s.bump a n).plc = s.plc := by simp only [State.bump, State.setPair_plc]
@[simp] theorem State.bump_fab (s : State) (a n : Nat) : (s.bump a n).fab = s.fab := by simp only [State.bump, State.setPair_fab]
@[simp] theorem State.bump_obs (s : State) (a n : Nat) : (s.bump a n).obs = s.obs := by simp only [State.bump, State.setPair_obs]
@[simp] theorem State.bump_boot (s : State) (a n : Nat) : (s.bump a n).boot = s.boot := by simp only [State.bump, State.setPair_boot]
@[simp] theorem State.bump_pwr (s : State) (a n : Nat) : (s.bump a n).pwr = s.pwr := by simp only [State.bump, State.setPair_pwr]
@[simp] theorem State.bump_queues (s : State) (a n : Nat) : (s.bump a n).queues = s.queues := by simp only [State.bump, State.setPair_queues]

/-! ### bumpSat -/

@[simp] theorem State.bumpSat_pending (s : State) (a : Nat) (f : Fld) (n : Nat) : (s.bumpSat a f n).pending = s.pending := by simp only [State.bumpSat, State.setFld_pending]
@[simp] theorem State.bumpSat_mem (s : State) (a : Nat) (f : Fld) (n : Nat) : (s.bumpSat a f n).mem = s.mem := by simp only [State.bumpSat, State.setFld_mem]
@[simp] theorem State.bumpSat_poison (s : State) (a : Nat) (f : Fld) (n : Nat) : (s.bumpSat a f n).poison = s.poison := by simp only [State.bumpSat, State.setFld_poison]
@[simp] theorem State.bumpSat_out (s : State) (a : Nat) (f : Fld) (n : Nat) : (s.bumpSat a f n).out = s.out := by simp only [State.bumpSat, State.setFld_out]
@[simp] theorem State.bumpSat_freeN (s : State) (a : Nat) (f : Fld) (n : Nat) : (s.bumpSat a f n).freeN = s.freeN := by simp only [State.bumpSat, State.setFld_freeN]
@[simp] theorem State.bumpSat_parStop (s : State) (a : Nat) (f : Fld) (n : Nat) : (s.bumpSat a f n).parStop = s.parStop := by simp only [State.bumpSat, State.setFld_parStop]
@[simp] theorem State.bumpSat_hif (s : State) (a : Nat) (f : Fld) (n : Nat) : (s.bumpSat a f n).hif = s.hif := by simp only [State.bumpSat, State.setFld_hif]
@[simp] theorem State.bumpSat_eng (s : State) (a : Nat) (f : Fld) (n : Nat) : (s.bumpSat a f n).eng = s.eng := by simp only [State.bumpSat, State.setFld_eng]
@[simp] theorem State.bumpSat_dies (s : State) (a : Nat) (f : Fld) (n : Nat) : (s.bumpSat a f n).dies = s.dies := by simp only [State.bumpSat, State.setFld_dies]
@[simp] theorem State.bumpSat_faces (s : State) (a : Nat) (f : Fld) (n : Nat) : (s.bumpSat a f n).faces = s.faces := by simp only [State.bumpSat, State.setFld_faces]
@[simp] theorem State.bumpSat_strms (s : State) (a : Nat) (f : Fld) (n : Nat) : (s.bumpSat a f n).strms = s.strms := by simp only [State.bumpSat, State.setFld_strms]
@[simp] theorem State.bumpSat_benches (s : State) (a : Nat) (f : Fld) (n : Nat) : (s.bumpSat a f n).benches = s.benches := by simp only [State.bumpSat, State.setFld_benches]
@[simp] theorem State.bumpSat_cru (s : State) (a : Nat) (f : Fld) (n : Nat) : (s.bumpSat a f n).cru = s.cru := by simp only [State.bumpSat, State.setFld_cru]
@[simp] theorem State.bumpSat_dram (s : State) (a : Nat) (f : Fld) (n : Nat) : (s.bumpSat a f n).dram = s.dram := by simp only [State.bumpSat, State.setFld_dram]
@[simp] theorem State.bumpSat_plc (s : State) (a : Nat) (f : Fld) (n : Nat) : (s.bumpSat a f n).plc = s.plc := by simp only [State.bumpSat, State.setFld_plc]
@[simp] theorem State.bumpSat_fab (s : State) (a : Nat) (f : Fld) (n : Nat) : (s.bumpSat a f n).fab = s.fab := by simp only [State.bumpSat, State.setFld_fab]
@[simp] theorem State.bumpSat_obs (s : State) (a : Nat) (f : Fld) (n : Nat) : (s.bumpSat a f n).obs = s.obs := by simp only [State.bumpSat, State.setFld_obs]
@[simp] theorem State.bumpSat_boot (s : State) (a : Nat) (f : Fld) (n : Nat) : (s.bumpSat a f n).boot = s.boot := by simp only [State.bumpSat, State.setFld_boot]
@[simp] theorem State.bumpSat_pwr (s : State) (a : Nat) (f : Fld) (n : Nat) : (s.bumpSat a f n).pwr = s.pwr := by simp only [State.bumpSat, State.setFld_pwr]
@[simp] theorem State.bumpSat_queues (s : State) (a : Nat) (f : Fld) (n : Nat) : (s.bumpSat a f n).queues = s.queues := by simp only [State.bumpSat, State.setFld_queues]

/-! ### unpend -/

@[simp] theorem State.unpend_pending (s : State) (v : Nat) : (s.unpend v).pending = s.pending := by simp only [State.unpend, State.setReg_pending]
@[simp] theorem State.unpend_mem (s : State) (v : Nat) : (s.unpend v).mem = s.mem := by simp only [State.unpend, State.setReg_mem]
@[simp] theorem State.unpend_poison (s : State) (v : Nat) : (s.unpend v).poison = s.poison := by simp only [State.unpend, State.setReg_poison]
@[simp] theorem State.unpend_out (s : State) (v : Nat) : (s.unpend v).out = s.out := by simp only [State.unpend, State.setReg_out]
@[simp] theorem State.unpend_freeN (s : State) (v : Nat) : (s.unpend v).freeN = s.freeN := by simp only [State.unpend, State.setReg_freeN]
@[simp] theorem State.unpend_parStop (s : State) (v : Nat) : (s.unpend v).parStop = s.parStop := by simp only [State.unpend, State.setReg_parStop]
@[simp] theorem State.unpend_hif (s : State) (v : Nat) : (s.unpend v).hif = s.hif := by simp only [State.unpend, State.setReg_hif]
@[simp] theorem State.unpend_eng (s : State) (v : Nat) : (s.unpend v).eng = s.eng := by simp only [State.unpend, State.setReg_eng]
@[simp] theorem State.unpend_dies (s : State) (v : Nat) : (s.unpend v).dies = s.dies := by simp only [State.unpend, State.setReg_dies]
@[simp] theorem State.unpend_faces (s : State) (v : Nat) : (s.unpend v).faces = s.faces := by simp only [State.unpend, State.setReg_faces]
@[simp] theorem State.unpend_strms (s : State) (v : Nat) : (s.unpend v).strms = s.strms := by simp only [State.unpend, State.setReg_strms]
@[simp] theorem State.unpend_benches (s : State) (v : Nat) : (s.unpend v).benches = s.benches := by simp only [State.unpend, State.setReg_benches]
@[simp] theorem State.unpend_cru (s : State) (v : Nat) : (s.unpend v).cru = s.cru := by simp only [State.unpend, State.setReg_cru]
@[simp] theorem State.unpend_dram (s : State) (v : Nat) : (s.unpend v).dram = s.dram := by simp only [State.unpend, State.setReg_dram]
@[simp] theorem State.unpend_plc (s : State) (v : Nat) : (s.unpend v).plc = s.plc := by simp only [State.unpend, State.setReg_plc]
@[simp] theorem State.unpend_fab (s : State) (v : Nat) : (s.unpend v).fab = s.fab := by simp only [State.unpend, State.setReg_fab]
@[simp] theorem State.unpend_obs (s : State) (v : Nat) : (s.unpend v).obs = s.obs := by simp only [State.unpend, State.setReg_obs]
@[simp] theorem State.unpend_boot (s : State) (v : Nat) : (s.unpend v).boot = s.boot := by simp only [State.unpend, State.setReg_boot]
@[simp] theorem State.unpend_pwr (s : State) (v : Nat) : (s.unpend v).pwr = s.pwr := by simp only [State.unpend, State.setReg_pwr]
@[simp] theorem State.unpend_queues (s : State) (v : Nat) : (s.unpend v).queues = s.queues := by simp only [State.unpend, State.setReg_queues]

/-! ### orReg -/

@[simp] theorem State.orReg_pending (s : State) (a m : Nat) : (s.orReg a m).pending = s.pending := by simp only [State.orReg, State.setReg_pending]
@[simp] theorem State.orReg_mem (s : State) (a m : Nat) : (s.orReg a m).mem = s.mem := by simp only [State.orReg, State.setReg_mem]
@[simp] theorem State.orReg_poison (s : State) (a m : Nat) : (s.orReg a m).poison = s.poison := by simp only [State.orReg, State.setReg_poison]
@[simp] theorem State.orReg_out (s : State) (a m : Nat) : (s.orReg a m).out = s.out := by simp only [State.orReg, State.setReg_out]
@[simp] theorem State.orReg_freeN (s : State) (a m : Nat) : (s.orReg a m).freeN = s.freeN := by simp only [State.orReg, State.setReg_freeN]
@[simp] theorem State.orReg_parStop (s : State) (a m : Nat) : (s.orReg a m).parStop = s.parStop := by simp only [State.orReg, State.setReg_parStop]
@[simp] theorem State.orReg_hif (s : State) (a m : Nat) : (s.orReg a m).hif = s.hif := by simp only [State.orReg, State.setReg_hif]
@[simp] theorem State.orReg_eng (s : State) (a m : Nat) : (s.orReg a m).eng = s.eng := by simp only [State.orReg, State.setReg_eng]
@[simp] theorem State.orReg_dies (s : State) (a m : Nat) : (s.orReg a m).dies = s.dies := by simp only [State.orReg, State.setReg_dies]
@[simp] theorem State.orReg_faces (s : State) (a m : Nat) : (s.orReg a m).faces = s.faces := by simp only [State.orReg, State.setReg_faces]
@[simp] theorem State.orReg_strms (s : State) (a m : Nat) : (s.orReg a m).strms = s.strms := by simp only [State.orReg, State.setReg_strms]
@[simp] theorem State.orReg_benches (s : State) (a m : Nat) : (s.orReg a m).benches = s.benches := by simp only [State.orReg, State.setReg_benches]
@[simp] theorem State.orReg_cru (s : State) (a m : Nat) : (s.orReg a m).cru = s.cru := by simp only [State.orReg, State.setReg_cru]
@[simp] theorem State.orReg_dram (s : State) (a m : Nat) : (s.orReg a m).dram = s.dram := by simp only [State.orReg, State.setReg_dram]
@[simp] theorem State.orReg_plc (s : State) (a m : Nat) : (s.orReg a m).plc = s.plc := by simp only [State.orReg, State.setReg_plc]
@[simp] theorem State.orReg_fab (s : State) (a m : Nat) : (s.orReg a m).fab = s.fab := by simp only [State.orReg, State.setReg_fab]
@[simp] theorem State.orReg_obs (s : State) (a m : Nat) : (s.orReg a m).obs = s.obs := by simp only [State.orReg, State.setReg_obs]
@[simp] theorem State.orReg_boot (s : State) (a m : Nat) : (s.orReg a m).boot = s.boot := by simp only [State.orReg, State.setReg_boot]
@[simp] theorem State.orReg_pwr (s : State) (a m : Nat) : (s.orReg a m).pwr = s.pwr := by simp only [State.orReg, State.setReg_pwr]
@[simp] theorem State.orReg_queues (s : State) (a m : Nat) : (s.orReg a m).queues = s.queues := by simp only [State.orReg, State.setReg_queues]

/-! ### emit -/

@[simp] theorem State.emit_pending (s : State) (o : Output) : (s.emit o).pending = s.pending := rfl
@[simp] theorem State.emit_regs (s : State) (o : Output) : (s.emit o).regs = s.regs := rfl
@[simp] theorem State.emit_mem (s : State) (o : Output) : (s.emit o).mem = s.mem := rfl
@[simp] theorem State.emit_poison (s : State) (o : Output) : (s.emit o).poison = s.poison := rfl
@[simp] theorem State.emit_freeN (s : State) (o : Output) : (s.emit o).freeN = s.freeN := rfl
@[simp] theorem State.emit_parStop (s : State) (o : Output) : (s.emit o).parStop = s.parStop := rfl
@[simp] theorem State.emit_hif (s : State) (o : Output) : (s.emit o).hif = s.hif := rfl
@[simp] theorem State.emit_eng (s : State) (o : Output) : (s.emit o).eng = s.eng := rfl
@[simp] theorem State.emit_dies (s : State) (o : Output) : (s.emit o).dies = s.dies := rfl
@[simp] theorem State.emit_faces (s : State) (o : Output) : (s.emit o).faces = s.faces := rfl
@[simp] theorem State.emit_strms (s : State) (o : Output) : (s.emit o).strms = s.strms := rfl
@[simp] theorem State.emit_benches (s : State) (o : Output) : (s.emit o).benches = s.benches := rfl
@[simp] theorem State.emit_cru (s : State) (o : Output) : (s.emit o).cru = s.cru := rfl
@[simp] theorem State.emit_dram (s : State) (o : Output) : (s.emit o).dram = s.dram := rfl
@[simp] theorem State.emit_plc (s : State) (o : Output) : (s.emit o).plc = s.plc := rfl
@[simp] theorem State.emit_fab (s : State) (o : Output) : (s.emit o).fab = s.fab := rfl
@[simp] theorem State.emit_obs (s : State) (o : Output) : (s.emit o).obs = s.obs := rfl
@[simp] theorem State.emit_boot (s : State) (o : Output) : (s.emit o).boot = s.boot := rfl
@[simp] theorem State.emit_pwr (s : State) (o : Output) : (s.emit o).pwr = s.pwr := rfl
@[simp] theorem State.emit_queues (s : State) (o : Output) : (s.emit o).queues = s.queues := rfl

/-! ### setDie -/

@[simp] theorem State.setDie_pending (s : State) (d : Nat) (x : Die) : (s.setDie d x).pending = s.pending := rfl
@[simp] theorem State.setDie_regs (s : State) (d : Nat) (x : Die) : (s.setDie d x).regs = s.regs := rfl
@[simp] theorem State.setDie_mem (s : State) (d : Nat) (x : Die) : (s.setDie d x).mem = s.mem := rfl
@[simp] theorem State.setDie_poison (s : State) (d : Nat) (x : Die) : (s.setDie d x).poison = s.poison := rfl
@[simp] theorem State.setDie_out (s : State) (d : Nat) (x : Die) : (s.setDie d x).out = s.out := rfl
@[simp] theorem State.setDie_freeN (s : State) (d : Nat) (x : Die) : (s.setDie d x).freeN = s.freeN := rfl
@[simp] theorem State.setDie_parStop (s : State) (d : Nat) (x : Die) : (s.setDie d x).parStop = s.parStop := rfl
@[simp] theorem State.setDie_hif (s : State) (d : Nat) (x : Die) : (s.setDie d x).hif = s.hif := rfl
@[simp] theorem State.setDie_eng (s : State) (d : Nat) (x : Die) : (s.setDie d x).eng = s.eng := rfl
@[simp] theorem State.setDie_faces (s : State) (d : Nat) (x : Die) : (s.setDie d x).faces = s.faces := rfl
@[simp] theorem State.setDie_strms (s : State) (d : Nat) (x : Die) : (s.setDie d x).strms = s.strms := rfl
@[simp] theorem State.setDie_benches (s : State) (d : Nat) (x : Die) : (s.setDie d x).benches = s.benches := rfl
@[simp] theorem State.setDie_cru (s : State) (d : Nat) (x : Die) : (s.setDie d x).cru = s.cru := rfl
@[simp] theorem State.setDie_dram (s : State) (d : Nat) (x : Die) : (s.setDie d x).dram = s.dram := rfl
@[simp] theorem State.setDie_plc (s : State) (d : Nat) (x : Die) : (s.setDie d x).plc = s.plc := rfl
@[simp] theorem State.setDie_fab (s : State) (d : Nat) (x : Die) : (s.setDie d x).fab = s.fab := rfl
@[simp] theorem State.setDie_obs (s : State) (d : Nat) (x : Die) : (s.setDie d x).obs = s.obs := rfl
@[simp] theorem State.setDie_boot (s : State) (d : Nat) (x : Die) : (s.setDie d x).boot = s.boot := rfl
@[simp] theorem State.setDie_pwr (s : State) (d : Nat) (x : Die) : (s.setDie d x).pwr = s.pwr := rfl
@[simp] theorem State.setDie_queues (s : State) (d : Nat) (x : Die) : (s.setDie d x).queues = s.queues := rfl

/-! ### setFace -/

@[simp] theorem State.setFace_pending (s : State) (d f : Nat) (x : Face) : (s.setFace d f x).pending = s.pending := rfl
@[simp] theorem State.setFace_regs (s : State) (d f : Nat) (x : Face) : (s.setFace d f x).regs = s.regs := rfl
@[simp] theorem State.setFace_mem (s : State) (d f : Nat) (x : Face) : (s.setFace d f x).mem = s.mem := rfl
@[simp] theorem State.setFace_poison (s : State) (d f : Nat) (x : Face) : (s.setFace d f x).poison = s.poison := rfl
@[simp] theorem State.setFace_out (s : State) (d f : Nat) (x : Face) : (s.setFace d f x).out = s.out := rfl
@[simp] theorem State.setFace_freeN (s : State) (d f : Nat) (x : Face) : (s.setFace d f x).freeN = s.freeN := rfl
@[simp] theorem State.setFace_parStop (s : State) (d f : Nat) (x : Face) : (s.setFace d f x).parStop = s.parStop := rfl
@[simp] theorem State.setFace_hif (s : State) (d f : Nat) (x : Face) : (s.setFace d f x).hif = s.hif := rfl
@[simp] theorem State.setFace_eng (s : State) (d f : Nat) (x : Face) : (s.setFace d f x).eng = s.eng := rfl
@[simp] theorem State.setFace_dies (s : State) (d f : Nat) (x : Face) : (s.setFace d f x).dies = s.dies := rfl
@[simp] theorem State.setFace_strms (s : State) (d f : Nat) (x : Face) : (s.setFace d f x).strms = s.strms := rfl
@[simp] theorem State.setFace_benches (s : State) (d f : Nat) (x : Face) : (s.setFace d f x).benches = s.benches := rfl
@[simp] theorem State.setFace_cru (s : State) (d f : Nat) (x : Face) : (s.setFace d f x).cru = s.cru := rfl
@[simp] theorem State.setFace_dram (s : State) (d f : Nat) (x : Face) : (s.setFace d f x).dram = s.dram := rfl
@[simp] theorem State.setFace_plc (s : State) (d f : Nat) (x : Face) : (s.setFace d f x).plc = s.plc := rfl
@[simp] theorem State.setFace_fab (s : State) (d f : Nat) (x : Face) : (s.setFace d f x).fab = s.fab := rfl
@[simp] theorem State.setFace_obs (s : State) (d f : Nat) (x : Face) : (s.setFace d f x).obs = s.obs := rfl
@[simp] theorem State.setFace_boot (s : State) (d f : Nat) (x : Face) : (s.setFace d f x).boot = s.boot := rfl
@[simp] theorem State.setFace_pwr (s : State) (d f : Nat) (x : Face) : (s.setFace d f x).pwr = s.pwr := rfl
@[simp] theorem State.setFace_queues (s : State) (d f : Nat) (x : Face) : (s.setFace d f x).queues = s.queues := rfl

/-! ### setStrm -/

@[simp] theorem State.setStrm_pending (s : State) (d f x : Nat) (v : Strm) : (s.setStrm d f x v).pending = s.pending := rfl
@[simp] theorem State.setStrm_regs (s : State) (d f x : Nat) (v : Strm) : (s.setStrm d f x v).regs = s.regs := rfl
@[simp] theorem State.setStrm_mem (s : State) (d f x : Nat) (v : Strm) : (s.setStrm d f x v).mem = s.mem := rfl
@[simp] theorem State.setStrm_poison (s : State) (d f x : Nat) (v : Strm) : (s.setStrm d f x v).poison = s.poison := rfl
@[simp] theorem State.setStrm_out (s : State) (d f x : Nat) (v : Strm) : (s.setStrm d f x v).out = s.out := rfl
@[simp] theorem State.setStrm_freeN (s : State) (d f x : Nat) (v : Strm) : (s.setStrm d f x v).freeN = s.freeN := rfl
@[simp] theorem State.setStrm_parStop (s : State) (d f x : Nat) (v : Strm) : (s.setStrm d f x v).parStop = s.parStop := rfl
@[simp] theorem State.setStrm_hif (s : State) (d f x : Nat) (v : Strm) : (s.setStrm d f x v).hif = s.hif := rfl
@[simp] theorem State.setStrm_eng (s : State) (d f x : Nat) (v : Strm) : (s.setStrm d f x v).eng = s.eng := rfl
@[simp] theorem State.setStrm_dies (s : State) (d f x : Nat) (v : Strm) : (s.setStrm d f x v).dies = s.dies := rfl
@[simp] theorem State.setStrm_faces (s : State) (d f x : Nat) (v : Strm) : (s.setStrm d f x v).faces = s.faces := rfl
@[simp] theorem State.setStrm_benches (s : State) (d f x : Nat) (v : Strm) : (s.setStrm d f x v).benches = s.benches := rfl
@[simp] theorem State.setStrm_cru (s : State) (d f x : Nat) (v : Strm) : (s.setStrm d f x v).cru = s.cru := rfl
@[simp] theorem State.setStrm_dram (s : State) (d f x : Nat) (v : Strm) : (s.setStrm d f x v).dram = s.dram := rfl
@[simp] theorem State.setStrm_plc (s : State) (d f x : Nat) (v : Strm) : (s.setStrm d f x v).plc = s.plc := rfl
@[simp] theorem State.setStrm_fab (s : State) (d f x : Nat) (v : Strm) : (s.setStrm d f x v).fab = s.fab := rfl
@[simp] theorem State.setStrm_obs (s : State) (d f x : Nat) (v : Strm) : (s.setStrm d f x v).obs = s.obs := rfl
@[simp] theorem State.setStrm_boot (s : State) (d f x : Nat) (v : Strm) : (s.setStrm d f x v).boot = s.boot := rfl
@[simp] theorem State.setStrm_pwr (s : State) (d f x : Nat) (v : Strm) : (s.setStrm d f x v).pwr = s.pwr := rfl
@[simp] theorem State.setStrm_queues (s : State) (d f x : Nat) (v : Strm) : (s.setStrm d f x v).queues = s.queues := rfl

/-! ### setBench -/

@[simp] theorem State.setBench_pending (s : State) (d f b : Nat) (x : Bench) : (s.setBench d f b x).pending = s.pending := rfl
@[simp] theorem State.setBench_regs (s : State) (d f b : Nat) (x : Bench) : (s.setBench d f b x).regs = s.regs := rfl
@[simp] theorem State.setBench_mem (s : State) (d f b : Nat) (x : Bench) : (s.setBench d f b x).mem = s.mem := rfl
@[simp] theorem State.setBench_poison (s : State) (d f b : Nat) (x : Bench) : (s.setBench d f b x).poison = s.poison := rfl
@[simp] theorem State.setBench_out (s : State) (d f b : Nat) (x : Bench) : (s.setBench d f b x).out = s.out := rfl
@[simp] theorem State.setBench_freeN (s : State) (d f b : Nat) (x : Bench) : (s.setBench d f b x).freeN = s.freeN := rfl
@[simp] theorem State.setBench_parStop (s : State) (d f b : Nat) (x : Bench) : (s.setBench d f b x).parStop = s.parStop := rfl
@[simp] theorem State.setBench_hif (s : State) (d f b : Nat) (x : Bench) : (s.setBench d f b x).hif = s.hif := rfl
@[simp] theorem State.setBench_eng (s : State) (d f b : Nat) (x : Bench) : (s.setBench d f b x).eng = s.eng := rfl
@[simp] theorem State.setBench_dies (s : State) (d f b : Nat) (x : Bench) : (s.setBench d f b x).dies = s.dies := rfl
@[simp] theorem State.setBench_faces (s : State) (d f b : Nat) (x : Bench) : (s.setBench d f b x).faces = s.faces := rfl
@[simp] theorem State.setBench_strms (s : State) (d f b : Nat) (x : Bench) : (s.setBench d f b x).strms = s.strms := rfl
@[simp] theorem State.setBench_cru (s : State) (d f b : Nat) (x : Bench) : (s.setBench d f b x).cru = s.cru := rfl
@[simp] theorem State.setBench_dram (s : State) (d f b : Nat) (x : Bench) : (s.setBench d f b x).dram = s.dram := rfl
@[simp] theorem State.setBench_plc (s : State) (d f b : Nat) (x : Bench) : (s.setBench d f b x).plc = s.plc := rfl
@[simp] theorem State.setBench_fab (s : State) (d f b : Nat) (x : Bench) : (s.setBench d f b x).fab = s.fab := rfl
@[simp] theorem State.setBench_obs (s : State) (d f b : Nat) (x : Bench) : (s.setBench d f b x).obs = s.obs := rfl
@[simp] theorem State.setBench_boot (s : State) (d f b : Nat) (x : Bench) : (s.setBench d f b x).boot = s.boot := rfl
@[simp] theorem State.setBench_pwr (s : State) (d f b : Nat) (x : Bench) : (s.setBench d f b x).pwr = s.pwr := rfl
@[simp] theorem State.setBench_queues (s : State) (d f b : Nat) (x : Bench) : (s.setBench d f b x).queues = s.queues := rfl

/-! ### setChan -/

@[simp] theorem State.setChan_pending (s : State) (c : Nat) (x : Chan) : (s.setChan c x).pending = s.pending := rfl
@[simp] theorem State.setChan_regs (s : State) (c : Nat) (x : Chan) : (s.setChan c x).regs = s.regs := rfl
@[simp] theorem State.setChan_mem (s : State) (c : Nat) (x : Chan) : (s.setChan c x).mem = s.mem := rfl
@[simp] theorem State.setChan_poison (s : State) (c : Nat) (x : Chan) : (s.setChan c x).poison = s.poison := rfl
@[simp] theorem State.setChan_out (s : State) (c : Nat) (x : Chan) : (s.setChan c x).out = s.out := rfl
@[simp] theorem State.setChan_freeN (s : State) (c : Nat) (x : Chan) : (s.setChan c x).freeN = s.freeN := rfl
@[simp] theorem State.setChan_parStop (s : State) (c : Nat) (x : Chan) : (s.setChan c x).parStop = s.parStop := rfl
@[simp] theorem State.setChan_hif (s : State) (c : Nat) (x : Chan) : (s.setChan c x).hif = s.hif := rfl
@[simp] theorem State.setChan_dies (s : State) (c : Nat) (x : Chan) : (s.setChan c x).dies = s.dies := rfl
@[simp] theorem State.setChan_faces (s : State) (c : Nat) (x : Chan) : (s.setChan c x).faces = s.faces := rfl
@[simp] theorem State.setChan_strms (s : State) (c : Nat) (x : Chan) : (s.setChan c x).strms = s.strms := rfl
@[simp] theorem State.setChan_benches (s : State) (c : Nat) (x : Chan) : (s.setChan c x).benches = s.benches := rfl
@[simp] theorem State.setChan_cru (s : State) (c : Nat) (x : Chan) : (s.setChan c x).cru = s.cru := rfl
@[simp] theorem State.setChan_dram (s : State) (c : Nat) (x : Chan) : (s.setChan c x).dram = s.dram := rfl
@[simp] theorem State.setChan_plc (s : State) (c : Nat) (x : Chan) : (s.setChan c x).plc = s.plc := rfl
@[simp] theorem State.setChan_fab (s : State) (c : Nat) (x : Chan) : (s.setChan c x).fab = s.fab := rfl
@[simp] theorem State.setChan_obs (s : State) (c : Nat) (x : Chan) : (s.setChan c x).obs = s.obs := rfl
@[simp] theorem State.setChan_boot (s : State) (c : Nat) (x : Chan) : (s.setChan c x).boot = s.boot := rfl
@[simp] theorem State.setChan_pwr (s : State) (c : Nat) (x : Chan) : (s.setChan c x).pwr = s.pwr := rfl
@[simp] theorem State.setChan_queues (s : State) (c : Nat) (x : Chan) : (s.setChan c x).queues = s.queues := rfl

/-! ### setLink -/

@[simp] theorem State.setLink_pending (s : State) (l : Nat) (x : Link) : (s.setLink l x).pending = s.pending := rfl
@[simp] theorem State.setLink_regs (s : State) (l : Nat) (x : Link) : (s.setLink l x).regs = s.regs := rfl
@[simp] theorem State.setLink_mem (s : State) (l : Nat) (x : Link) : (s.setLink l x).mem = s.mem := rfl
@[simp] theorem State.setLink_poison (s : State) (l : Nat) (x : Link) : (s.setLink l x).poison = s.poison := rfl
@[simp] theorem State.setLink_out (s : State) (l : Nat) (x : Link) : (s.setLink l x).out = s.out := rfl
@[simp] theorem State.setLink_freeN (s : State) (l : Nat) (x : Link) : (s.setLink l x).freeN = s.freeN := rfl
@[simp] theorem State.setLink_parStop (s : State) (l : Nat) (x : Link) : (s.setLink l x).parStop = s.parStop := rfl
@[simp] theorem State.setLink_hif (s : State) (l : Nat) (x : Link) : (s.setLink l x).hif = s.hif := rfl
@[simp] theorem State.setLink_eng (s : State) (l : Nat) (x : Link) : (s.setLink l x).eng = s.eng := rfl
@[simp] theorem State.setLink_dies (s : State) (l : Nat) (x : Link) : (s.setLink l x).dies = s.dies := rfl
@[simp] theorem State.setLink_faces (s : State) (l : Nat) (x : Link) : (s.setLink l x).faces = s.faces := rfl
@[simp] theorem State.setLink_strms (s : State) (l : Nat) (x : Link) : (s.setLink l x).strms = s.strms := rfl
@[simp] theorem State.setLink_benches (s : State) (l : Nat) (x : Link) : (s.setLink l x).benches = s.benches := rfl
@[simp] theorem State.setLink_cru (s : State) (l : Nat) (x : Link) : (s.setLink l x).cru = s.cru := rfl
@[simp] theorem State.setLink_dram (s : State) (l : Nat) (x : Link) : (s.setLink l x).dram = s.dram := rfl
@[simp] theorem State.setLink_plc (s : State) (l : Nat) (x : Link) : (s.setLink l x).plc = s.plc := rfl
@[simp] theorem State.setLink_obs (s : State) (l : Nat) (x : Link) : (s.setLink l x).obs = s.obs := rfl
@[simp] theorem State.setLink_boot (s : State) (l : Nat) (x : Link) : (s.setLink l x).boot = s.boot := rfl
@[simp] theorem State.setLink_pwr (s : State) (l : Nat) (x : Link) : (s.setLink l x).pwr = s.pwr := rfl
@[simp] theorem State.setLink_queues (s : State) (l : Nat) (x : Link) : (s.setLink l x).queues = s.queues := rfl

/-! ### setByte -/

@[simp] theorem State.setByte_pending (s : State) (a : Nat) (b : Byte) : (s.setByte a b).pending = s.pending := rfl
@[simp] theorem State.setByte_regs (s : State) (a : Nat) (b : Byte) : (s.setByte a b).regs = s.regs := rfl
@[simp] theorem State.setByte_poison (s : State) (a : Nat) (b : Byte) : (s.setByte a b).poison = s.poison := rfl
@[simp] theorem State.setByte_out (s : State) (a : Nat) (b : Byte) : (s.setByte a b).out = s.out := rfl
@[simp] theorem State.setByte_freeN (s : State) (a : Nat) (b : Byte) : (s.setByte a b).freeN = s.freeN := rfl
@[simp] theorem State.setByte_parStop (s : State) (a : Nat) (b : Byte) : (s.setByte a b).parStop = s.parStop := rfl
@[simp] theorem State.setByte_hif (s : State) (a : Nat) (b : Byte) : (s.setByte a b).hif = s.hif := rfl
@[simp] theorem State.setByte_eng (s : State) (a : Nat) (b : Byte) : (s.setByte a b).eng = s.eng := rfl
@[simp] theorem State.setByte_dies (s : State) (a : Nat) (b : Byte) : (s.setByte a b).dies = s.dies := rfl
@[simp] theorem State.setByte_faces (s : State) (a : Nat) (b : Byte) : (s.setByte a b).faces = s.faces := rfl
@[simp] theorem State.setByte_strms (s : State) (a : Nat) (b : Byte) : (s.setByte a b).strms = s.strms := rfl
@[simp] theorem State.setByte_benches (s : State) (a : Nat) (b : Byte) : (s.setByte a b).benches = s.benches := rfl
@[simp] theorem State.setByte_cru (s : State) (a : Nat) (b : Byte) : (s.setByte a b).cru = s.cru := rfl
@[simp] theorem State.setByte_dram (s : State) (a : Nat) (b : Byte) : (s.setByte a b).dram = s.dram := rfl
@[simp] theorem State.setByte_plc (s : State) (a : Nat) (b : Byte) : (s.setByte a b).plc = s.plc := rfl
@[simp] theorem State.setByte_fab (s : State) (a : Nat) (b : Byte) : (s.setByte a b).fab = s.fab := rfl
@[simp] theorem State.setByte_obs (s : State) (a : Nat) (b : Byte) : (s.setByte a b).obs = s.obs := rfl
@[simp] theorem State.setByte_boot (s : State) (a : Nat) (b : Byte) : (s.setByte a b).boot = s.boot := rfl
@[simp] theorem State.setByte_pwr (s : State) (a : Nat) (b : Byte) : (s.setByte a b).pwr = s.pwr := rfl
@[simp] theorem State.setByte_queues (s : State) (a : Nat) (b : Byte) : (s.setByte a b).queues = s.queues := rfl

/-! ### setQgroup -/

@[simp] theorem State.setQgroup_pending (s : State) (g : Nat) (x : QGroup) : (s.setQgroup g x).pending = s.pending := rfl
@[simp] theorem State.setQgroup_regs (s : State) (g : Nat) (x : QGroup) : (s.setQgroup g x).regs = s.regs := rfl
@[simp] theorem State.setQgroup_mem (s : State) (g : Nat) (x : QGroup) : (s.setQgroup g x).mem = s.mem := rfl
@[simp] theorem State.setQgroup_poison (s : State) (g : Nat) (x : QGroup) : (s.setQgroup g x).poison = s.poison := rfl
@[simp] theorem State.setQgroup_out (s : State) (g : Nat) (x : QGroup) : (s.setQgroup g x).out = s.out := rfl
@[simp] theorem State.setQgroup_freeN (s : State) (g : Nat) (x : QGroup) : (s.setQgroup g x).freeN = s.freeN := rfl
@[simp] theorem State.setQgroup_parStop (s : State) (g : Nat) (x : QGroup) : (s.setQgroup g x).parStop = s.parStop := rfl
@[simp] theorem State.setQgroup_hif (s : State) (g : Nat) (x : QGroup) : (s.setQgroup g x).hif = s.hif := rfl
@[simp] theorem State.setQgroup_eng (s : State) (g : Nat) (x : QGroup) : (s.setQgroup g x).eng = s.eng := rfl
@[simp] theorem State.setQgroup_dies (s : State) (g : Nat) (x : QGroup) : (s.setQgroup g x).dies = s.dies := rfl
@[simp] theorem State.setQgroup_faces (s : State) (g : Nat) (x : QGroup) : (s.setQgroup g x).faces = s.faces := rfl
@[simp] theorem State.setQgroup_strms (s : State) (g : Nat) (x : QGroup) : (s.setQgroup g x).strms = s.strms := rfl
@[simp] theorem State.setQgroup_benches (s : State) (g : Nat) (x : QGroup) : (s.setQgroup g x).benches = s.benches := rfl
@[simp] theorem State.setQgroup_cru (s : State) (g : Nat) (x : QGroup) : (s.setQgroup g x).cru = s.cru := rfl
@[simp] theorem State.setQgroup_dram (s : State) (g : Nat) (x : QGroup) : (s.setQgroup g x).dram = s.dram := rfl
@[simp] theorem State.setQgroup_plc (s : State) (g : Nat) (x : QGroup) : (s.setQgroup g x).plc = s.plc := rfl
@[simp] theorem State.setQgroup_fab (s : State) (g : Nat) (x : QGroup) : (s.setQgroup g x).fab = s.fab := rfl
@[simp] theorem State.setQgroup_obs (s : State) (g : Nat) (x : QGroup) : (s.setQgroup g x).obs = s.obs := rfl
@[simp] theorem State.setQgroup_boot (s : State) (g : Nat) (x : QGroup) : (s.setQgroup g x).boot = s.boot := rfl
@[simp] theorem State.setQgroup_pwr (s : State) (g : Nat) (x : QGroup) : (s.setQgroup g x).pwr = s.pwr := rfl

/-! ### noteQueue -/

@[simp] theorem State.noteQueue_pending (s : State) (g i o : Nat) : (s.noteQueue g i o).pending = s.pending := rfl
@[simp] theorem State.noteQueue_regs (s : State) (g i o : Nat) : (s.noteQueue g i o).regs = s.regs := rfl
@[simp] theorem State.noteQueue_mem (s : State) (g i o : Nat) : (s.noteQueue g i o).mem = s.mem := rfl
@[simp] theorem State.noteQueue_poison (s : State) (g i o : Nat) : (s.noteQueue g i o).poison = s.poison := rfl
@[simp] theorem State.noteQueue_out (s : State) (g i o : Nat) : (s.noteQueue g i o).out = s.out := rfl
@[simp] theorem State.noteQueue_freeN (s : State) (g i o : Nat) : (s.noteQueue g i o).freeN = s.freeN := rfl
@[simp] theorem State.noteQueue_parStop (s : State) (g i o : Nat) : (s.noteQueue g i o).parStop = s.parStop := rfl
@[simp] theorem State.noteQueue_hif (s : State) (g i o : Nat) : (s.noteQueue g i o).hif = s.hif := rfl
@[simp] theorem State.noteQueue_eng (s : State) (g i o : Nat) : (s.noteQueue g i o).eng = s.eng := rfl
@[simp] theorem State.noteQueue_dies (s : State) (g i o : Nat) : (s.noteQueue g i o).dies = s.dies := rfl
@[simp] theorem State.noteQueue_faces (s : State) (g i o : Nat) : (s.noteQueue g i o).faces = s.faces := rfl
@[simp] theorem State.noteQueue_strms (s : State) (g i o : Nat) : (s.noteQueue g i o).strms = s.strms := rfl
@[simp] theorem State.noteQueue_benches (s : State) (g i o : Nat) : (s.noteQueue g i o).benches = s.benches := rfl
@[simp] theorem State.noteQueue_cru (s : State) (g i o : Nat) : (s.noteQueue g i o).cru = s.cru := rfl
@[simp] theorem State.noteQueue_dram (s : State) (g i o : Nat) : (s.noteQueue g i o).dram = s.dram := rfl
@[simp] theorem State.noteQueue_plc (s : State) (g i o : Nat) : (s.noteQueue g i o).plc = s.plc := rfl
@[simp] theorem State.noteQueue_fab (s : State) (g i o : Nat) : (s.noteQueue g i o).fab = s.fab := rfl
@[simp] theorem State.noteQueue_obs (s : State) (g i o : Nat) : (s.noteQueue g i o).obs = s.obs := rfl
@[simp] theorem State.noteQueue_boot (s : State) (g i o : Nat) : (s.noteQueue g i o).boot = s.boot := rfl
@[simp] theorem State.noteQueue_pwr (s : State) (g i o : Nat) : (s.noteQueue g i o).pwr = s.pwr := rfl

/-! ### resetQueue -/

@[simp] theorem State.resetQueue_pending (s : State) (g tag : Nat) (l : List (Nat × Nat)) : (s.resetQueue g tag l).pending = s.pending := rfl
@[simp] theorem State.resetQueue_regs (s : State) (g tag : Nat) (l : List (Nat × Nat)) : (s.resetQueue g tag l).regs = s.regs := rfl
@[simp] theorem State.resetQueue_mem (s : State) (g tag : Nat) (l : List (Nat × Nat)) : (s.resetQueue g tag l).mem = s.mem := rfl
@[simp] theorem State.resetQueue_poison (s : State) (g tag : Nat) (l : List (Nat × Nat)) : (s.resetQueue g tag l).poison = s.poison := rfl
@[simp] theorem State.resetQueue_out (s : State) (g tag : Nat) (l : List (Nat × Nat)) : (s.resetQueue g tag l).out = s.out := rfl
@[simp] theorem State.resetQueue_freeN (s : State) (g tag : Nat) (l : List (Nat × Nat)) : (s.resetQueue g tag l).freeN = s.freeN := rfl
@[simp] theorem State.resetQueue_parStop (s : State) (g tag : Nat) (l : List (Nat × Nat)) : (s.resetQueue g tag l).parStop = s.parStop := rfl
@[simp] theorem State.resetQueue_hif (s : State) (g tag : Nat) (l : List (Nat × Nat)) : (s.resetQueue g tag l).hif = s.hif := rfl
@[simp] theorem State.resetQueue_eng (s : State) (g tag : Nat) (l : List (Nat × Nat)) : (s.resetQueue g tag l).eng = s.eng := rfl
@[simp] theorem State.resetQueue_dies (s : State) (g tag : Nat) (l : List (Nat × Nat)) : (s.resetQueue g tag l).dies = s.dies := rfl
@[simp] theorem State.resetQueue_faces (s : State) (g tag : Nat) (l : List (Nat × Nat)) : (s.resetQueue g tag l).faces = s.faces := rfl
@[simp] theorem State.resetQueue_strms (s : State) (g tag : Nat) (l : List (Nat × Nat)) : (s.resetQueue g tag l).strms = s.strms := rfl
@[simp] theorem State.resetQueue_benches (s : State) (g tag : Nat) (l : List (Nat × Nat)) : (s.resetQueue g tag l).benches = s.benches := rfl
@[simp] theorem State.resetQueue_cru (s : State) (g tag : Nat) (l : List (Nat × Nat)) : (s.resetQueue g tag l).cru = s.cru := rfl
@[simp] theorem State.resetQueue_dram (s : State) (g tag : Nat) (l : List (Nat × Nat)) : (s.resetQueue g tag l).dram = s.dram := rfl
@[simp] theorem State.resetQueue_plc (s : State) (g tag : Nat) (l : List (Nat × Nat)) : (s.resetQueue g tag l).plc = s.plc := rfl
@[simp] theorem State.resetQueue_fab (s : State) (g tag : Nat) (l : List (Nat × Nat)) : (s.resetQueue g tag l).fab = s.fab := rfl
@[simp] theorem State.resetQueue_obs (s : State) (g tag : Nat) (l : List (Nat × Nat)) : (s.resetQueue g tag l).obs = s.obs := rfl
@[simp] theorem State.resetQueue_boot (s : State) (g tag : Nat) (l : List (Nat × Nat)) : (s.resetQueue g tag l).boot = s.boot := rfl
@[simp] theorem State.resetQueue_pwr (s : State) (g tag : Nat) (l : List (Nat × Nat)) : (s.resetQueue g tag l).pwr = s.pwr := rfl

/-! ### setHalf -/

@[simp] theorem State.setHalf_pending (s : State) (n : Nat) (h : Option (Nat × Nat)) : (s.setHalf n h).pending = s.pending := rfl
@[simp] theorem State.setHalf_regs (s : State) (n : Nat) (h : Option (Nat × Nat)) : (s.setHalf n h).regs = s.regs := rfl
@[simp] theorem State.setHalf_mem (s : State) (n : Nat) (h : Option (Nat × Nat)) : (s.setHalf n h).mem = s.mem := rfl
@[simp] theorem State.setHalf_poison (s : State) (n : Nat) (h : Option (Nat × Nat)) : (s.setHalf n h).poison = s.poison := rfl
@[simp] theorem State.setHalf_out (s : State) (n : Nat) (h : Option (Nat × Nat)) : (s.setHalf n h).out = s.out := rfl
@[simp] theorem State.setHalf_freeN (s : State) (n : Nat) (h : Option (Nat × Nat)) : (s.setHalf n h).freeN = s.freeN := rfl
@[simp] theorem State.setHalf_parStop (s : State) (n : Nat) (h : Option (Nat × Nat)) : (s.setHalf n h).parStop = s.parStop := rfl
@[simp] theorem State.setHalf_eng (s : State) (n : Nat) (h : Option (Nat × Nat)) : (s.setHalf n h).eng = s.eng := rfl
@[simp] theorem State.setHalf_dies (s : State) (n : Nat) (h : Option (Nat × Nat)) : (s.setHalf n h).dies = s.dies := rfl
@[simp] theorem State.setHalf_faces (s : State) (n : Nat) (h : Option (Nat × Nat)) : (s.setHalf n h).faces = s.faces := rfl
@[simp] theorem State.setHalf_strms (s : State) (n : Nat) (h : Option (Nat × Nat)) : (s.setHalf n h).strms = s.strms := rfl
@[simp] theorem State.setHalf_benches (s : State) (n : Nat) (h : Option (Nat × Nat)) : (s.setHalf n h).benches = s.benches := rfl
@[simp] theorem State.setHalf_cru (s : State) (n : Nat) (h : Option (Nat × Nat)) : (s.setHalf n h).cru = s.cru := rfl
@[simp] theorem State.setHalf_dram (s : State) (n : Nat) (h : Option (Nat × Nat)) : (s.setHalf n h).dram = s.dram := rfl
@[simp] theorem State.setHalf_plc (s : State) (n : Nat) (h : Option (Nat × Nat)) : (s.setHalf n h).plc = s.plc := rfl
@[simp] theorem State.setHalf_fab (s : State) (n : Nat) (h : Option (Nat × Nat)) : (s.setHalf n h).fab = s.fab := rfl
@[simp] theorem State.setHalf_obs (s : State) (n : Nat) (h : Option (Nat × Nat)) : (s.setHalf n h).obs = s.obs := rfl
@[simp] theorem State.setHalf_boot (s : State) (n : Nat) (h : Option (Nat × Nat)) : (s.setHalf n h).boot = s.boot := rfl
@[simp] theorem State.setHalf_pwr (s : State) (n : Nat) (h : Option (Nat × Nat)) : (s.setHalf n h).pwr = s.pwr := rfl
@[simp] theorem State.setHalf_queues (s : State) (n : Nat) (h : Option (Nat × Nat)) : (s.setHalf n h).queues = s.queues := rfl

end Sys2Proof.Machine
end

