-- ==== Sys2Proof/Laws/Ops.lean ====
section
/-! SUPPORT. Laws of the named operations: what a register reads after a write, what a field reads, and what raising an event
does. -/

namespace Sys2Proof.Laws

open Sys2Proof.Machine

/-! ### bit fields -/

theorem bits_lt (v lo w : Nat) : bits v lo w < 2 ^ w := Nat.mod_lt _ (by positivity)

/-- A field just set reads back. -/
theorem bits_setBits_same (v lo w x : Nat) : bits (setBits v lo w x) lo w = x % 2 ^ w := by
  unfold bits setBits
  have h1 : v % 2 ^ lo < 2 ^ lo := Nat.mod_lt _ (by positivity)
  have e : v % 2 ^ lo + x % 2 ^ w * 2 ^ lo + v / 2 ^ (lo + w) * 2 ^ (lo + w) =
      v % 2 ^ lo + (x % 2 ^ w + v / 2 ^ (lo + w) * 2 ^ w) * 2 ^ lo := by rw [pow_add]; ring
  rw [e, Nat.add_mul_div_right _ _ (by positivity), Nat.div_eq_of_lt h1, Nat.zero_add, Nat.add_mul_mod_self_right,
    Nat.mod_mod]

theorem bit_eq_testBit (v i : Nat) : bit v i = v.testBit i := by
  rw [bit, Nat.testBit_eq_decide_div_mod_eq]; rfl

/-! ### registers -/

theorem reg_lt (s : State) (a : Nat) : s.reg a < 2 ^ 32 := BitVec.isLt _

/-- A register reads what was written to it. -/
@[simp] theorem reg_setReg_same (s : State) (a v : Nat) : (s.setReg a v).reg a = v % 2 ^ 32 := by
  simp [State.reg, State.setReg, mapGet_set_same]

/-- A write of one register leaves every other as it was. -/
theorem reg_setReg_other (s : State) {a b : Nat} (h : b ≠ a) (v : Nat) : (s.setReg a v).reg b = s.reg b := by
  simp [State.reg, State.setReg, mapGet_set_other _ h]

theorem reg_setReg (s : State) (a b v : Nat) : (s.setReg a v).reg b = if b = a then v % 2 ^ 32 else s.reg b := by
  split
  · rename_i h; rw [h, reg_setReg_same]
  · rename_i h; exact reg_setReg_other s h v

@[simp] theorem reg_emit (s : State) (o : Output) (a : Nat) : (s.emit o).reg a = s.reg a := rfl

theorem reg_setFld_other (s : State) {a b : Nat} (h : b ≠ a) (f : Fld) (v : Nat) : (s.setFld a f v).reg b = s.reg b :=
  reg_setReg_other s h _
theorem reg_setFlag_other (s : State) {a b : Nat} (h : b ≠ a) (f : Fld) (v : Bool) : (s.setFlag a f v).reg b = s.reg b :=
  reg_setReg_other s h _

theorem setBits_lt {v lo w : Nat} (x : Nat) (hv : v < 2 ^ 32) (hw : lo + w ≤ 32) : setBits v lo w x < 2 ^ 32 := by
  unfold setBits
  have h1 : v % 2 ^ lo < 2 ^ lo := Nat.mod_lt _ (by positivity)
  have h2 : x % 2 ^ w < 2 ^ w := Nat.mod_lt _ (by positivity)
  have h3 : v / 2 ^ (lo + w) < 2 ^ (32 - (lo + w)) := by
    rw [Nat.div_lt_iff_lt_mul (by positivity), ← pow_add]
    rwa [Nat.sub_add_cancel hw]
  have h4 : (x % 2 ^ w + 1) * 2 ^ lo ≤ 2 ^ w * 2 ^ lo := Nat.mul_le_mul_right _ h2
  have h5 : (v / 2 ^ (lo + w) + 1) * 2 ^ (lo + w) ≤ 2 ^ (32 - (lo + w)) * 2 ^ (lo + w) := Nat.mul_le_mul_right _ h3
  rw [← pow_add, Nat.sub_add_cancel hw] at h5
  rw [← pow_add, Nat.add_comm w lo] at h4
  rw [Nat.add_mul] at h4 h5
  omega

/-- A field of a register reads what was written to it. -/
theorem fld_setFld_same (s : State) (a : Nat) (f : Fld) (v : Nat) (h : f.lo + f.w ≤ 32) :
    (s.setFld a f v).fld a f = v % 2 ^ f.w := by
  unfold State.fld State.setFld
  rw [reg_setReg_same, Nat.mod_eq_of_lt (setBits_lt v (reg_lt s a) h), bits_setBits_same]

/-! ### the canonical form -/

/-- Every write of a register keeps the register file canonical. -/
theorem setReg_wf (s : State) (a v : Nat) (h : Registers.wf s.regs = true) : Registers.wf (s.setReg a v).regs = true :=
  mapWf_set _ _ _ _ h

/-- Storing bytes keeps memory canonical. -/
theorem setBytes_wf (v : List Byte) (a : Nat) (m : List Host.Cell) (h : Memory.wf m = true) :
    Memory.wf (setBytes v a m) = true := by
  induction v generalizing a m with
  | nil => exact h
  | cons b l ih => exact ih _ _ (mapWf_set _ _ _ _ h)

theorem setByte_wf (s : State) (a : Nat) (b : Byte) (h : Memory.wf s.mem = true) : Memory.wf (s.setByte a b).mem = true :=
  mapWf_set _ _ _ _ h

/-- Beats that DRAM has lost and a write covers change no byte. -/
@[simp] theorem overLost_mem (s : State) (a n : Nat) : (s.overLost a n).mem = s.mem := by
  unfold State.overLost
  split <;> rfl

theorem memPut_mem (s : State) (a : Nat) (v : List Byte) (bad : Bool) : (s.memPut a v bad).mem = setBytes v a s.mem :=
  congrArg (setBytes v a) (overLost_mem s a v.length)

theorem memPut_wf (s : State) (a : Nat) (v : List Byte) (bad : Bool) (h : Memory.wf s.mem = true) :
    Memory.wf (s.memPut a v bad).mem = true := memPut_mem s a v bad ▸ setBytes_wf _ _ _ h

theorem zeroRange_wf (s : State) (a n : Nat) (h : Memory.wf s.mem = true) : Memory.wf (s.mem.filter (fun c => c.1 < a || a + n ≤ c.1)) = true :=
  mapWf_filter _ _ _ h

/-- Reset memory and registers are canonical. -/
theorem reset_mem_wf : Memory.wf State.reset.mem = true := by decide
theorem reset_regs_wf : Registers.wf State.reset.regs = true := by decide

/-- Bytes outside a store read as before. -/
theorem getByte_setBytes_other (v : List Byte) (a b : Nat) (m : List Host.Cell) (h : b < a ∨ a + v.length ≤ b) :
    mapGet (fun _ => (0 : Byte)) b (setBytes v a m) = mapGet (fun _ => (0 : Byte)) b m := by
  induction v generalizing a m with
  | nil => rfl
  | cons c l ih =>
    have h' : b < a + 1 ∨ a + 1 + l.length ≤ b := by
      simp only [List.length_cons] at h; omega
    have hb : b ≠ a := by simp only [List.length_cons] at h; omega
    rw [setBytes, ih _ _ h', mapGet_set_other _ hb]

/-- Bytes just stored read back. -/
theorem getBytes_setBytes (v : List Byte) (a : Nat) (m : List Host.Cell) : getBytes (setBytes v a m) a v.length = v := by
  induction v generalizing a m with
  | nil => rfl
  | cons c l ih =>
    simp only [List.length_cons, getBytes, setBytes]
    rw [ih, getByte_setBytes_other _ _ _ _ (Or.inl (Nat.lt_succ_self a)), mapGet_set_same]

/-! ### queue counters and pointers (R349, R351, R417, R418) -/

@[simp] theorem noteQueue_regs (s : State) (g i o : Nat) : (s.noteQueue g i o).regs = s.regs := rfl
@[simp] theorem noteQueue_mem (s : State) (g i o : Nat) : (s.noteQueue g i o).mem = s.mem := rfl
@[simp] theorem resetQueue_regs (s : State) (g t : Nat) (l : List (Nat × Nat)) : (s.resetQueue g t l).regs = s.regs := rfl
@[simp] theorem resetQueue_mem (s : State) (g t : Nat) (l : List (Nat × Nat)) : (s.resetQueue g t l).mem = s.mem := rfl
@[simp] theorem rotNext_regs (s : State) (a w n : Nat) : (s.rotNext a w n).regs = s.regs := rfl
@[simp] theorem rotNext_mem (s : State) (a w n : Nat) : (s.rotNext a w n).mem = s.mem := rfl
/-- The pointer stands just past the winner. -/
theorem rot_rotNext (s : State) (a w n : Nat) : (s.rotNext a w n).rot a = (w + 1) % n := mapGet_set_same _ _ _ _
theorem rot_rotNext_other (s : State) {a b : Nat} (h : b ≠ a) (w n : Nat) : (s.rotNext a w n).rot b = s.rot b :=
  mapGet_set_other _ h _ _
/-- MAX never falls while the set is not reset. -/
theorem noteQueue_max (s : State) (g i o : Nat) :
    mapGet (fun _ => 0) i ((s.noteQueue g i o).qgroup g).max = max (mapGet (fun _ => 0) i (s.qgroup g).max) o := by
  simp only [State.noteQueue, State.setQgroup, State.qgroup, mapGet_set_same]
@[simp] theorem usePromo_regs (s : State) (a : Arbiter) (r : LowReq) : (s.usePromo a r).regs = s.regs := rfl
@[simp] theorem usePromo_mem (s : State) (a : Arbiter) (r : LowReq) : (s.usePromo a r).mem = s.mem := rfl
@[simp] theorem usePromos_regs (s : State) (r : LowReq) : (s.usePromos r).regs = s.regs := rfl
@[simp] theorem usePromos_mem (s : State) (r : LowReq) : (s.usePromos r).mem = s.mem := rfl

end Sys2Proof.Laws
end

