-- ==== Sys2Proof/Laws/Events.lean ====
section
/-! SUPPORT. Laws of events: which registers raising a flag may change, and what the event register itself reads after it (R370, R371). -/

namespace Sys2Proof.Laws
open Sys2Proof.Machine

/-! ### vectors and events -/

/-- A vector changes its pending word or what left the device. -/
theorem fire_cases (s : State) (v : Nat) :
    s.fire v = s.emit (.msix v) ∨ ∃ x, s.fire v = s.setReg (MSIX_PBA (v / 32)) x := by
  unfold State.fire
  split
  · exact .inr ⟨_, rfl⟩
  · exact .inl rfl

theorem onlyRegs_refl (s : State) : onlyRegs s s := rfl
theorem onlyRegs_setReg (s : State) (a v : Nat) : onlyRegs s (s.setReg a v) := rfl
theorem onlyRegs_emit (s : State) (o : Output) : onlyRegs s (s.emit o) := rfl
theorem onlyRegs_trans {s t u : State} (h : onlyRegs s t) (g : onlyRegs t u) : onlyRegs s u := by
  unfold onlyRegs at *
  rw [g, h]
theorem onlyRegs_fire (s : State) (v : Nat) : onlyRegs s (s.fire v) := by
  rcases fire_cases s v with h | ⟨x, h⟩ <;> rw [h]
  · exact onlyRegs_emit _ _
  · exact onlyRegs_setReg _ _ _

theorem pba_mem (v : Nat) (h : v < 512) : MSIX_PBA (v / 32) ∈ pbaRegs := by
  unfold pbaRegs
  exact List.mem_map.2 ⟨v / 32, List.mem_range.2 (by omega), rfl⟩

theorem fire_reg (s : State) {v b : Nat} (hv : v < 512) (hb : b ∉ pbaRegs) : (s.fire v).reg b = s.reg b := by
  have hne : b ≠ MSIX_PBA (v / 32) := fun h => hb (h ▸ pba_mem v hv)
  rcases fire_cases s v with h | ⟨x, h⟩ <;> rw [h]
  · rfl
  · exact reg_setReg_other _ hne _

theorem orReg_reg (s : State) {a b : Nat} (h : b ≠ a) (m : Nat) : (s.orReg a m).reg b = s.reg b := reg_setReg_other _ h _
theorem onlyRegs_orReg (s : State) (a m : Nat) : onlyRegs s (s.orReg a m) := rfl

theorem pkgSum_reg (s : State) (m : Nat) {b : Nat} (h : b ≠ PKG_EVENT_SUM) (hp : b ∉ pbaRegs) : (s.pkgSum m).reg b = s.reg b := by
  unfold State.pkgSum
  dsimp only
  split
  · rw [fire_reg _ (by decide) hp, orReg_reg _ h]
  · exact orReg_reg _ h _
theorem onlyRegs_pkgSum (s : State) (m : Nat) : onlyRegs s (s.pkgSum m) := by
  unfold State.pkgSum
  dsimp only
  split
  · exact onlyRegs_trans (onlyRegs_orReg _ _ _) (onlyRegs_fire _ _)
  · exact onlyRegs_orReg _ _ _

theorem onlyRegs_summarise (s : State) (a : Nat) : onlyRegs s (s.summarise a) := by
  unfold State.summarise
  dsimp only
  split
  · refine onlyRegs_trans ?_ (onlyRegs_pkgSum _ _)
    refine onlyRegs_trans ?_ (onlyRegs_orReg _ _ _)
    split
    · split
      · exact onlyRegs_orReg _ _ _
      · exact onlyRegs_orReg _ _ _
    · exact onlyRegs_refl _
  · repeat' split
    all_goals first | exact onlyRegs_pkgSum _ _ | exact onlyRegs_refl _

theorem dieOf_some {a : Nat} (h : 0x1000000 ≤ a ∧ a < 0x2000000) : dieOf a = some ((a - 0x1000000) / 0x100000, a % 0x100000) :=
  if_pos h

theorem summarise_reg (s : State) {a b : Nat} (h : b ∉ sumRegs a) : (s.summarise a).reg b = s.reg b := by
  simp only [sumRegs, List.mem_append, not_or, List.mem_singleton] at h
  obtain ⟨⟨hp, hd⟩, hv⟩ := h
  have h1 : ∀ (x : State) m, (x.pkgSum m).reg b = x.reg b := fun x m => pkgSum_reg x m hp hv
  unfold State.summarise
  dsimp only
  split
  · rename_i hr
    rw [dieOf_some hr] at hd
    simp only [List.mem_cons, List.not_mem_nil, or_false, not_or] at hd
    obtain ⟨ha, h0, h3⟩ := hd
    have e : (a - 0x1000000) / 0x100000 = (a - 16777216) / 1048576 := rfl
    rw [h1, orReg_reg _ ha]
    repeat' split
    · exact orReg_reg _ h0 _
    · exact orReg_reg _ h3 _
    · rfl
  · repeat' split
    all_goals first | exact h1 _ _ | rfl

theorem eventVector_lt {a v m : Nat} (h : eventVector a = some (v, m)) : v < 512 := by
  unfold eventVector at h
  repeat' split at h
  all_goals first | (cases h; decide) | cases h

theorem pba_sum {a b : Nat} (h : b ∉ sumRegs a) : b ∉ pbaRegs := by
  unfold sumRegs at h
  exact fun hb => h (List.mem_append_right _ hb)

/-- Raising flags of an event register changes it, the summaries above it and MSI-X pending bits, and nothing else. -/
theorem raiseMask_reg (s : State) {a b : Nat} (m : Nat) (h : b ∉ sumRegs a) (ha : b ≠ a) : (s.raiseMask a m).reg b = s.reg b := by
  unfold State.raiseMask
  dsimp only
  split
  · rename_i v fm he
    split
    · rw [fire_reg _ (eventVector_lt he) (pba_sum h), summarise_reg _ h, reg_setReg_other _ ha]
    · rw [summarise_reg _ h, reg_setReg_other _ ha]
  · rw [summarise_reg _ h, reg_setReg_other _ ha]

theorem onlyRegs_raiseMask (s : State) (a m : Nat) : onlyRegs s (s.raiseMask a m) := by
  unfold State.raiseMask
  dsimp only
  have h : onlyRegs s ((s.setReg a ((s.reg a / 256 * 256 ||| m) + (s.reg a + 1) % 256)).summarise a) :=
    onlyRegs_trans (onlyRegs_setReg _ _ _) (onlyRegs_summarise _ _)
  split
  · split
    · exact onlyRegs_trans h (onlyRegs_fire _ _)
    · exact h
  · exact h

/-- The event register itself: the flags are ORed in and SEQ advances by 1 (R370). -/
theorem raiseMask_self (s : State) {a : Nat} (m : Nat) (h : a ∉ sumRegs a) (hm : m % 256 = 0) (hw : m < 2 ^ 32) :
    (s.raiseMask a m).reg a = (s.reg a / 256 * 256 ||| m) + (s.reg a + 1) % 256 := by
  have e : (s.setReg a ((s.reg a / 256 * 256 ||| m) + (s.reg a + 1) % 256)).reg a =
      (s.reg a / 256 * 256 ||| m) + (s.reg a + 1) % 256 := by
    rw [reg_setReg_same]
    apply Nat.mod_eq_of_lt
    have h1 : (s.reg a / 256 * 256 ||| m) % 256 = 0 := by
      have h3 := @Nat.or_mod_two_pow (s.reg a / 256 * 256) m 8
      rw [show (2 : Nat) ^ 8 = 256 from rfl, hm, Nat.mul_mod_left] at h3
      exact h3
    have h2 : (s.reg a / 256 * 256 ||| m) < 2 ^ 32 := Nat.or_lt_two_pow (by have := reg_lt s a; omega) hw
    omega
  unfold State.raiseMask
  dsimp only
  split
  · rename_i v fm he
    split
    · rw [fire_reg _ (eventVector_lt he) (pba_sum h), summarise_reg _ h, e]
    · rw [summarise_reg _ h, e]
  · rw [summarise_reg _ h, e]

/-- A raised flag reads 1. -/
theorem raise_flag_self (s : State) {a : Nat} (f : Fld) (h : a ∉ sumRegs a) (h8 : 8 ≤ f.lo) (hl : f.lo < 32) (hw : f.w = 1) :
    (s.raise a f).flag a f = true := by
  have hm : 2 ^ f.lo % 256 = 0 := by
    obtain ⟨k, hk⟩ := Nat.exists_eq_add_of_le h8
    rw [hk, pow_add]; exact Nat.mul_mod_right 256 _
  have hw32 : 2 ^ f.lo < 2 ^ 32 := Nat.pow_lt_pow_right (by decide) hl
  unfold State.raise State.flag State.fld
  rw [raiseMask_self s _ h hm hw32, hw]
  have e1 : (s.reg a / 256 * 256 ||| 2 ^ f.lo) % 256 = 0 := by
    have h3 := @Nat.or_mod_two_pow (s.reg a / 256 * 256) (2 ^ f.lo) 8
    rw [show (2 : Nat) ^ 8 = 256 from rfl, hm, Nat.mul_mod_left] at h3
    exact h3
  obtain ⟨k, hk⟩ := Nat.exists_eq_add_of_le h8
  obtain ⟨u, hu⟩ : ∃ u, (s.reg a / 256 * 256 ||| 2 ^ f.lo) = u * 256 := ⟨_, (Nat.div_mul_cancel (Nat.dvd_of_mod_eq_zero e1)).symm⟩
  have ht : Nat.testBit (u * 256) f.lo = true := by
    rw [← hu, Nat.testBit_or, Nat.testBit_two_pow_self, Bool.or_true]
  have hq : bits (u * 256 + (s.reg a + 1) % 256) f.lo 1 = bits (u * 256) f.lo 1 := by
    have hx : (s.reg a + 1) % 256 < 256 := Nat.mod_lt _ (by decide)
    generalize (s.reg a + 1) % 256 = x at hx
    have hs : ∀ n, n / 2 ^ f.lo = n / 256 / 2 ^ k := by
      intro n
      rw [hk, pow_add, show (2 : Nat) ^ 8 = 256 from rfl, Nat.div_div_eq_div_mul]
    have e : (u * 256 + x) / 256 = u * 256 / 256 := by omega
    have hd : (u * 256 + x) / 2 ^ f.lo = u * 256 / 2 ^ f.lo := by
      generalize 2 ^ f.lo = z at *
      generalize 2 ^ k = y at *
      rw [hs, hs, e]
    unfold bits
    rw [hd]
  rw [hu, hq]
  have hb : bits (u * 256) f.lo 1 = 1 := by
    have := Nat.testBit_eq_decide_div_mod_eq (x := u * 256) (i := f.lo)
    rw [ht] at this
    unfold bits
    simpa using this.symm
  rw [hb]; rfl

/-! ### what vectors and events leave -/

theorem onlyRegs_pending {s t : State} (h : onlyRegs s t) : t.pending = s.pending := by
  unfold onlyRegs at h; rw [h]
theorem onlyRegs_mem {s t : State} (h : onlyRegs s t) : t.mem = s.mem := by
  unfold onlyRegs at h; rw [h]
theorem onlyRegs_poison {s t : State} (h : onlyRegs s t) : t.poison = s.poison := by
  unfold onlyRegs at h; rw [h]
theorem onlyRegs_freeN {s t : State} (h : onlyRegs s t) : t.freeN = s.freeN := by
  unfold onlyRegs at h; rw [h]
theorem onlyRegs_parStop {s t : State} (h : onlyRegs s t) : t.parStop = s.parStop := by
  unfold onlyRegs at h; rw [h]
theorem onlyRegs_hif {s t : State} (h : onlyRegs s t) : t.hif = s.hif := by
  unfold onlyRegs at h; rw [h]
theorem onlyRegs_eng {s t : State} (h : onlyRegs s t) : t.eng = s.eng := by
  unfold onlyRegs at h; rw [h]
theorem onlyRegs_dies {s t : State} (h : onlyRegs s t) : t.dies = s.dies := by
  unfold onlyRegs at h; rw [h]
theorem onlyRegs_faces {s t : State} (h : onlyRegs s t) : t.faces = s.faces := by
  unfold onlyRegs at h; rw [h]
theorem onlyRegs_strms {s t : State} (h : onlyRegs s t) : t.strms = s.strms := by
  unfold onlyRegs at h; rw [h]
theorem onlyRegs_benches {s t : State} (h : onlyRegs s t) : t.benches = s.benches := by
  unfold onlyRegs at h; rw [h]
theorem onlyRegs_cru {s t : State} (h : onlyRegs s t) : t.cru = s.cru := by
  unfold onlyRegs at h; rw [h]
theorem onlyRegs_dram {s t : State} (h : onlyRegs s t) : t.dram = s.dram := by
  unfold onlyRegs at h; rw [h]
theorem onlyRegs_plc {s t : State} (h : onlyRegs s t) : t.plc = s.plc := by
  unfold onlyRegs at h; rw [h]
theorem onlyRegs_fab {s t : State} (h : onlyRegs s t) : t.fab = s.fab := by
  unfold onlyRegs at h; rw [h]
theorem onlyRegs_obs {s t : State} (h : onlyRegs s t) : t.obs = s.obs := by
  unfold onlyRegs at h; rw [h]
theorem onlyRegs_boot {s t : State} (h : onlyRegs s t) : t.boot = s.boot := by
  unfold onlyRegs at h; rw [h]
theorem onlyRegs_pwr {s t : State} (h : onlyRegs s t) : t.pwr = s.pwr := by
  unfold onlyRegs at h; rw [h]
@[simp] theorem fire_pending (s : State) (v : Nat) : (s.fire v).pending = s.pending := onlyRegs_pending (onlyRegs_fire s v)
@[simp] theorem fire_mem (s : State) (v : Nat) : (s.fire v).mem = s.mem := onlyRegs_mem (onlyRegs_fire s v)
@[simp] theorem fire_poison (s : State) (v : Nat) : (s.fire v).poison = s.poison := onlyRegs_poison (onlyRegs_fire s v)
@[simp] theorem fire_freeN (s : State) (v : Nat) : (s.fire v).freeN = s.freeN := onlyRegs_freeN (onlyRegs_fire s v)
@[simp] theorem fire_parStop (s : State) (v : Nat) : (s.fire v).parStop = s.parStop := onlyRegs_parStop (onlyRegs_fire s v)
@[simp] theorem fire_hif (s : State) (v : Nat) : (s.fire v).hif = s.hif := onlyRegs_hif (onlyRegs_fire s v)
@[simp] theorem fire_eng (s : State) (v : Nat) : (s.fire v).eng = s.eng := onlyRegs_eng (onlyRegs_fire s v)
@[simp] theorem fire_dies (s : State) (v : Nat) : (s.fire v).dies = s.dies := onlyRegs_dies (onlyRegs_fire s v)
@[simp] theorem fire_faces (s : State) (v : Nat) : (s.fire v).faces = s.faces := onlyRegs_faces (onlyRegs_fire s v)
@[simp] theorem fire_strms (s : State) (v : Nat) : (s.fire v).strms = s.strms := onlyRegs_strms (onlyRegs_fire s v)
@[simp] theorem fire_benches (s : State) (v : Nat) : (s.fire v).benches = s.benches := onlyRegs_benches (onlyRegs_fire s v)
@[simp] theorem fire_cru (s : State) (v : Nat) : (s.fire v).cru = s.cru := onlyRegs_cru (onlyRegs_fire s v)
@[simp] theorem fire_dram (s : State) (v : Nat) : (s.fire v).dram = s.dram := onlyRegs_dram (onlyRegs_fire s v)
@[simp] theorem fire_plc (s : State) (v : Nat) : (s.fire v).plc = s.plc := onlyRegs_plc (onlyRegs_fire s v)
@[simp] theorem fire_fab (s : State) (v : Nat) : (s.fire v).fab = s.fab := onlyRegs_fab (onlyRegs_fire s v)
@[simp] theorem fire_obs (s : State) (v : Nat) : (s.fire v).obs = s.obs := onlyRegs_obs (onlyRegs_fire s v)
@[simp] theorem fire_boot (s : State) (v : Nat) : (s.fire v).boot = s.boot := onlyRegs_boot (onlyRegs_fire s v)
@[simp] theorem fire_pwr (s : State) (v : Nat) : (s.fire v).pwr = s.pwr := onlyRegs_pwr (onlyRegs_fire s v)
@[simp] theorem raiseMask_pending (s : State) (a m : Nat) : (s.raiseMask a m).pending = s.pending := onlyRegs_pending (onlyRegs_raiseMask s a m)
@[simp] theorem raiseMask_mem (s : State) (a m : Nat) : (s.raiseMask a m).mem = s.mem := onlyRegs_mem (onlyRegs_raiseMask s a m)
@[simp] theorem raiseMask_poison (s : State) (a m : Nat) : (s.raiseMask a m).poison = s.poison := onlyRegs_poison (onlyRegs_raiseMask s a m)
@[simp] theorem raiseMask_freeN (s : State) (a m : Nat) : (s.raiseMask a m).freeN = s.freeN := onlyRegs_freeN (onlyRegs_raiseMask s a m)
@[simp] theorem raiseMask_parStop (s : State) (a m : Nat) : (s.raiseMask a m).parStop = s.parStop := onlyRegs_parStop (onlyRegs_raiseMask s a m)
@[simp] theorem raiseMask_hif (s : State) (a m : Nat) : (s.raiseMask a m).hif = s.hif := onlyRegs_hif (onlyRegs_raiseMask s a m)
@[simp] theorem raiseMask_eng (s : State) (a m : Nat) : (s.raiseMask a m).eng = s.eng := onlyRegs_eng (onlyRegs_raiseMask s a m)
@[simp] theorem raiseMask_dies (s : State) (a m : Nat) : (s.raiseMask a m).dies = s.dies := onlyRegs_dies (onlyRegs_raiseMask s a m)
@[simp] theorem raiseMask_faces (s : State) (a m : Nat) : (s.raiseMask a m).faces = s.faces := onlyRegs_faces (onlyRegs_raiseMask s a m)
@[simp] theorem raiseMask_strms (s : State) (a m : Nat) : (s.raiseMask a m).strms = s.strms := onlyRegs_strms (onlyRegs_raiseMask s a m)
@[simp] theorem raiseMask_benches (s : State) (a m : Nat) : (s.raiseMask a m).benches = s.benches := onlyRegs_benches (onlyRegs_raiseMask s a m)
@[simp] theorem raiseMask_cru (s : State) (a m : Nat) : (s.raiseMask a m).cru = s.cru := onlyRegs_cru (onlyRegs_raiseMask s a m)
@[simp] theorem raiseMask_dram (s : State) (a m : Nat) : (s.raiseMask a m).dram = s.dram := onlyRegs_dram (onlyRegs_raiseMask s a m)
@[simp] theorem raiseMask_plc (s : State) (a m : Nat) : (s.raiseMask a m).plc = s.plc := onlyRegs_plc (onlyRegs_raiseMask s a m)
@[simp] theorem raiseMask_fab (s : State) (a m : Nat) : (s.raiseMask a m).fab = s.fab := onlyRegs_fab (onlyRegs_raiseMask s a m)
@[simp] theorem raiseMask_obs (s : State) (a m : Nat) : (s.raiseMask a m).obs = s.obs := onlyRegs_obs (onlyRegs_raiseMask s a m)
@[simp] theorem raiseMask_boot (s : State) (a m : Nat) : (s.raiseMask a m).boot = s.boot := onlyRegs_boot (onlyRegs_raiseMask s a m)
@[simp] theorem raiseMask_pwr (s : State) (a m : Nat) : (s.raiseMask a m).pwr = s.pwr := onlyRegs_pwr (onlyRegs_raiseMask s a m)
@[simp] theorem raise_pending (s : State) (a : Nat) (f : Fld) : (s.raise a f).pending = s.pending := onlyRegs_pending (onlyRegs_raiseMask s a _)
@[simp] theorem raise_mem (s : State) (a : Nat) (f : Fld) : (s.raise a f).mem = s.mem := onlyRegs_mem (onlyRegs_raiseMask s a _)
@[simp] theorem raise_poison (s : State) (a : Nat) (f : Fld) : (s.raise a f).poison = s.poison := onlyRegs_poison (onlyRegs_raiseMask s a _)
@[simp] theorem raise_freeN (s : State) (a : Nat) (f : Fld) : (s.raise a f).freeN = s.freeN := onlyRegs_freeN (onlyRegs_raiseMask s a _)
@[simp] theorem raise_parStop (s : State) (a : Nat) (f : Fld) : (s.raise a f).parStop = s.parStop := onlyRegs_parStop (onlyRegs_raiseMask s a _)
@[simp] theorem raise_hif (s : State) (a : Nat) (f : Fld) : (s.raise a f).hif = s.hif := onlyRegs_hif (onlyRegs_raiseMask s a _)
@[simp] theorem raise_eng (s : State) (a : Nat) (f : Fld) : (s.raise a f).eng = s.eng := onlyRegs_eng (onlyRegs_raiseMask s a _)
@[simp] theorem raise_dies (s : State) (a : Nat) (f : Fld) : (s.raise a f).dies = s.dies := onlyRegs_dies (onlyRegs_raiseMask s a _)
@[simp] theorem raise_faces (s : State) (a : Nat) (f : Fld) : (s.raise a f).faces = s.faces := onlyRegs_faces (onlyRegs_raiseMask s a _)
@[simp] theorem raise_strms (s : State) (a : Nat) (f : Fld) : (s.raise a f).strms = s.strms := onlyRegs_strms (onlyRegs_raiseMask s a _)
@[simp] theorem raise_benches (s : State) (a : Nat) (f : Fld) : (s.raise a f).benches = s.benches := onlyRegs_benches (onlyRegs_raiseMask s a _)
@[simp] theorem raise_cru (s : State) (a : Nat) (f : Fld) : (s.raise a f).cru = s.cru := onlyRegs_cru (onlyRegs_raiseMask s a _)
@[simp] theorem raise_dram (s : State) (a : Nat) (f : Fld) : (s.raise a f).dram = s.dram := onlyRegs_dram (onlyRegs_raiseMask s a _)
@[simp] theorem raise_plc (s : State) (a : Nat) (f : Fld) : (s.raise a f).plc = s.plc := onlyRegs_plc (onlyRegs_raiseMask s a _)
@[simp] theorem raise_fab (s : State) (a : Nat) (f : Fld) : (s.raise a f).fab = s.fab := onlyRegs_fab (onlyRegs_raiseMask s a _)
@[simp] theorem raise_obs (s : State) (a : Nat) (f : Fld) : (s.raise a f).obs = s.obs := onlyRegs_obs (onlyRegs_raiseMask s a _)
@[simp] theorem raise_boot (s : State) (a : Nat) (f : Fld) : (s.raise a f).boot = s.boot := onlyRegs_boot (onlyRegs_raiseMask s a _)
@[simp] theorem raise_pwr (s : State) (a : Nat) (f : Fld) : (s.raise a f).pwr = s.pwr := onlyRegs_pwr (onlyRegs_raiseMask s a _)

/-- A command of a powered device answers a next state. -/
theorem done_on {s : State} (h : s.boot.on = true) (t : State) : done s t = .next (queued s t) := by
  simp only [done, h, if_true, queued]

end Sys2Proof.Laws
end

