-- ==== Sys2Proof/Laws/Memory.lean ====
section
/-! SUPPORT. Every operation that changes local memory keeps its canonical form. -/

namespace Sys2Proof.Laws

open Sys2Proof Sys2Proof.Machine

theorem hostPut_wf (s : State) (off : Nat) (v : List Byte) (h : Memory.wf s.mem = true) : Memory.wf (s.hostPut off v).mem = true := by
  unfold State.hostPut
  split
  · exact setBytes_wf _ _ _ h
  · exact h

theorem restoreBelow_wf (s : State) (l : Nat) (c : CLine) (d : Bool) (h : Memory.wf s.mem = true) :
    Memory.wf (s.restoreBelow l c d).mem = true := by
  unfold State.restoreBelow
  split
  · exact h
  · cases d
    · exact h
    · exact setBytes_wf _ _ _ h

theorem dropLine_wf (s : State) (l : Nat) (c : CLine) (h : Memory.wf s.mem = true) : Memory.wf (s.dropLine l c).mem = true :=
  restoreBelow_wf _ _ _ _ h

/-- A burst changes no byte. -/
@[simp] theorem burst_mem (s : State) (a : Nat) : (s.burst a).mem = s.mem := by
  unfold State.burst
  dsimp only
  split <;> rfl

/-- Writing a dirty line back changes no byte that a read sees. -/
theorem evictLine_wf (s : State) (l : Nat) (c : CLine) (h : Memory.wf s.mem = true) : Memory.wf (s.evictLine l c).mem = true := by
  unfold State.evictLine
  split
  · exact (burst_mem s (l * 256)).symm ▸ h
  · exact dropLine_wf _ _ _ h

theorem makeWay_wf (s : State) (l : Nat) (h : Memory.wf s.mem = true) : Memory.wf (s.makeWay l).mem = true := by
  unfold State.makeWay
  split
  · exact evictLine_wf _ _ _ h
  · exact h

/-- What a reset leaves of memory. -/
theorem hostCells_wf (m : List Host.Cell) (h : Memory.wf m = true) : Memory.wf (hostCells m) = true := mapWf_filter _ _ _ h

/-- Inserting cells that are not 0 under keys that are new and differ. -/
theorem insertCells_wf (l m : List Host.Cell) (hm : Memory.wf m = true) (hv : ∀ c ∈ l, c.2 ≠ 0) (hn : ∀ c ∈ l, ∀ e ∈ m, e.1 ≠ c.1)
    (hd : l.Pairwise (fun a b => a.1 ≠ b.1)) :
    Memory.wf (l.foldr (fun (c : Host.Cell) (m : List Host.Cell) => mapInsert c.1 c.2 m) m) = true ∧
    ∀ e ∈ l.foldr (fun (c : Host.Cell) (m : List Host.Cell) => mapInsert c.1 c.2 m) m, e ∈ l ∨ e ∈ m := by
  induction l with
  | nil => exact ⟨hm, fun e he => .inr he⟩
  | cons c l ih =>
    obtain ⟨h1, h2⟩ := List.pairwise_cons.1 hd
    obtain ⟨iw, im⟩ := ih (fun x hx => hv x (.tail _ hx)) (fun x hx => hn x (.tail _ hx)) h2
    have hfresh : ∀ e ∈ l.foldr (fun (c : Host.Cell) (m : List Host.Cell) => mapInsert c.1 c.2 m) m, e.1 ≠ c.1 := fun e he =>
      (im e he).elim (fun hl => (h1 e hl).symm) (fun hmem => hn c (.head _) e hmem)
    refine ⟨mapWf_insert _ _ _ _ iw (hv c (.head _)) hfresh, fun e he => ?_⟩
    rcases (mem_mapInsert _ _ _ _).1 he with rfl | he
    · exact .inl (.head _)
    · exact (im e he).imp (.tail _) id

/-! ### recording a fault -/

@[simp] theorem send_obs (s : State) (p : Packet) (u : TagUse) : (s.send p u).obs = s.obs := rfl
@[simp] theorem send_mem (s : State) (p : Packet) (u : TagUse) : (s.send p u).mem = s.mem := rfl

theorem hostPut_obs (s : State) (off : Nat) (v : List Byte) : (s.hostPut off v).obs = s.obs := by
  unfold State.hostPut
  split <;> simp only [State.bump_obs]

theorem faultRing_obs (s : State) (r : FaultRec) : (s.faultRing r).obs = s.obs := by
  unfold State.faultRing
  simp only [apply_ite State.obs, fire_obs, State.setReg_obs, hostPut_obs, State.bumpSat_obs, ite_self]

theorem faultRing_wf (s : State) (r : FaultRec) (h : Memory.wf s.mem = true) : Memory.wf (s.faultRing r).mem = true := by
  unfold State.faultRing
  have hp (off : Nat) := hostPut_wf s off r.bytes h
  simp only [apply_ite State.mem, fire_mem, State.setReg_mem, State.bumpSat_mem, ite_self]
  split
  · exact h
  · split
    · exact h
    · exact hp _

theorem capture_mem (s : State) (k p : Nat) : (s.capture k p).mem = s.mem := by
  have h := State.bump_mem s TRC_DROP_LO 1
  unfold State.capture
  generalize s.bump TRC_DROP_LO 1 = t at h ⊢
  split
  · rfl
  · split
    · split
      · exact h
      · rfl
    · rfl

theorem dropFifo_mem (s : State) : s.dropFifo.mem = s.mem := by
  unfold State.dropFifo
  exact State.bump_mem _ _ _

theorem dumpOn_mem (s : State) (k : Nat) (l : List (Nat × List Nat)) : (s.dumpOn k l).mem = s.mem := by
  unfold State.dumpOn
  rw [raise_mem]
  rfl

theorem startDump_mem (s : State) (k : Nat) : (s.startDump k).mem = s.mem := by
  unfold State.startDump
  split
  · exact raise_mem _ _ _
  · exact (dumpOn_mem _ _ _).trans (dropFifo_mem s)

theorem updHold_mem (s : State) : s.updHold.mem = s.mem := by
  unfold State.updHold
  split
  · rfl
  · exact State.setFlag_mem _ _ _ _

theorem fatal_mem (s : State) : s.fatal.mem = s.mem := by
  have key (t : State) (h : t.mem = s.mem) : (if t.flag DUMP_CFG DUMP_CFG_FATAL then t.startDump 2 else t).mem = s.mem := by
    split
    · rw [startDump_mem, h]
    · exact h
  have run (t : State) (h : t.mem = s.mem) : (if t.running then t.setFlag STEP_STAT STEP_STAT_FIN false else t).mem = s.mem := by
    split
    · exact h
    · exact h
  unfold State.fatal
  refine key _ ?_
  rw [updHold_mem, State.setFlag_mem]
  refine run _ ?_
  split <;> rfl

theorem deliver_wf (s : State) (r : FaultRec) (h : Memory.wf s.mem = true) : Memory.wf (s.deliver r).mem = true := by
  unfold State.deliver
  dsimp only
  split
  · exact h
  · rw [capture_mem]
    exact faultRing_wf _ _ h

/-- Recording a fault changes memory only by its record. -/
theorem fault_wf (s : State) (c k o d : Nat) (h : Memory.wf s.mem = true) : Memory.wf (s.fault c k o d).mem = true := by
  have key (b : Bool) (t : State) (p : Packet) (u : TagUse) (ht : Memory.wf t.mem = true) :
      Memory.wf (if b then t.send p u else t).mem = true := by
    cases b <;> exact ht
  have fin (t : State) (ht : Memory.wf t.mem = true) : Memory.wf (if c = 4 then t.fatal else t).mem = true := by
    split
    · rw [fatal_mem]; exact ht
    · exact ht
  unfold State.fault
  exact fin _ (key _ _ _ _ (deliver_wf _ _ h))

theorem ended_wf (s : State) (a c : Nat) (h : Memory.wf s.mem = true) : Memory.wf (s.ended a c).mem = true := by
  unfold State.ended
  refine fault_wf _ _ _ _ _ ?_
  split
  · exact (raise_mem _ _ _).symm ▸ h
  · exact h

/-! ### stores of the units -/

theorem dirtyLine_mem (s : State) (l : Nat) : (s.dirtyLine l).mem = s.mem := by
  unfold State.dirtyLine
  split
  · rfl
  · split <;> rfl

theorem loadLine256_mem (s : State) (l : Nat) (k : Bool) (u : Nat) : (s.loadLine256 l k u).mem = s.mem := by
  unfold State.loadLine256
  dsimp only
  split
  · exact burst_mem _ _
  · exact burst_mem _ _

theorem useTick_mem (s : State) : s.useTick.2.mem = s.mem := rfl

theorem fillLine_wf (s : State) (l : Nat) (k : Bool) (h : Memory.wf s.mem = true) : Memory.wf (s.fillLine l k).mem = true := by
  have key (t : State) (b : Bool) (ev : Nat) (ht : Memory.wf t.mem = true) :
      Memory.wf (if b then t.raise ev MC_EVENT_KEEP_DENY else t).mem = true := by
    cases b
    · exact ht
    · exact (raise_mem t _ _).symm ▸ ht
  unfold State.fillLine
  dsimp only
  rw [loadLine256_mem, useTick_mem]
  exact key _ _ _ (makeWay_wf s l h)

theorem touchLine_mem (s : State) (l hint : Nat) : (s.touchLine l hint).mem = s.mem := by
  unfold State.touchLine
  split
  · rfl
  · split <;> rfl

/-- An error found in a line may bring its clean bytes back from DRAM. -/
theorem lineError_wf (s : State) (l : Nat) (c : CLine) (e : LineErr) (h : Memory.wf s.mem = true) :
    Memory.wf (s.lineError l c e).mem = true := by
  have lost (ev o : Nat) : Memory.wf (((s.poisonLine l c).raise ev MC_EVENT_CACHE_UE).fault 1 0x0103 ev o).mem = true :=
    fault_wf _ _ _ _ _ ((raise_mem _ _ _).symm ▸ h)
  have re : Memory.wf (s.reloadLine l c).mem = true := by
    unfold State.reloadLine
    rw [loadLine256_mem]
    exact restoreBelow_wf s l c true h
  unfold State.lineError
  dsimp only
  split
  · exact h
  · split
    · exact h
    · exact h
    · exact h
    · split
      · exact lost _ _
      · exact fault_wf _ _ _ _ _ re
  · split
    · exact h
    · exact h
    · exact lost _ _

theorem mergeLost_wf (s : State) (a n : Nat) (h : Memory.wf s.mem = true) : Memory.wf (s.mergeLost a n).mem = true := by
  unfold State.mergeLost
  split
  · exact h
  · split
    · exact fault_wf _ _ _ _ _ h
    · exact h

/-- A write's way through its slice. -/
theorem dcTake_wf (s : State) (hint a n : Nat) (e : LineErr) (h : Memory.wf s.mem = true) :
    Memory.wf (s.dcTake hint a n e).mem = true := by
  have hit (t : State) : (t.countHit a).mem = t.mem := State.bump_mem _ _ _
  have miss : Memory.wf (s.countMiss a).mem = true := (State.bump_mem s _ _).symm ▸ h
  unfold State.dcTake
  dsimp only
  split
  · rw [touchLine_mem, dirtyLine_mem, hit]
    exact lineError_wf _ _ _ _ h
  · generalize s.countMiss a = t at miss ⊢
    split
    · rw [burst_mem]
      exact mergeLost_wf _ _ _ miss
    · rw [dirtyLine_mem]
      exact fillLine_wf _ _ _ miss

theorem dcStore_wf (s : State) (hint a : Nat) (v : List Byte) (bad : Bool) (e : LineErr) (h : Memory.wf s.mem = true) :
    Memory.wf (s.dcStore hint a v bad e).mem = true := memPut_wf _ _ _ _ (dcTake_wf _ _ _ _ _ h)

/-- A fold of operations each of which keeps the form. -/
theorem foldl_wf {α : Type} (f : State → α → State) (hf : ∀ s a, Memory.wf s.mem = true → Memory.wf (f s a).mem = true) (l : List α)
    (s : State) (h : Memory.wf s.mem = true) : Memory.wf (l.foldl f s).mem = true := by
  induction l generalizing s with
  | nil => exact h
  | cons a l ih => exact ih _ (hf s a h)

theorem localPut_wf (s : State) (hint a : Nat) (v : List Byte) (bad : Bool) (h : Memory.wf s.mem = true) :
    Memory.wf (s.localPut hint a v bad).mem = true := by
  unfold State.localPut
  split
  · exact foldl_wf _ (fun s q hs => dcStore_wf s hint q.1 _ bad .none hs) _ s h
  · exact hostPut_wf _ _ _ h
  · exact memPut_wf _ _ _ _ h

theorem memWrite_wf (s : State) (a : Nat) (v : List Byte) (bad : Bool) (h : Memory.wf s.mem = true) :
    Memory.wf (s.memWrite a v bad).mem = true := by
  unfold State.memWrite
  split
  · exact h
  · split
    · exact ended_wf _ _ _ h
    · exact localPut_wf _ _ _ _ _ h

theorem tablePut_wf (s : State) (a n v : Nat) (h : Memory.wf s.mem = true) : Memory.wf (s.tablePut a n v).mem = true :=
  memWrite_wf _ _ _ _ h

theorem clearRange_wf (s : State) (a n : Nat) (h : Memory.wf s.mem = true) : Memory.wf (s.zeroRange a n).mem = true := by
  unfold State.zeroRange
  split
  · exact ended_wf _ _ _ h
  · exact mapWf_filter _ _ _ (foldl_wf _ (fun s (p : Nat × Nat) hs => dcTake_wf s 0 p.1 p.2 .none hs) _ s h)

/-! ### reads of host memory by units (R358, R362) -/

theorem hostRead1_wf (s : State) (o n : Nat) (h : Memory.wf s.mem = true) : Memory.wf (s.hostRead1 o n).mem = true := by
  unfold State.hostRead1
  dsimp only
  split
  · rw [State.bump_mem]; exact h
  · rw [raise_mem, State.bump_mem]; exact h
  · exact ended_wf _ _ _ ((raise_mem _ _ _).symm ▸ h)
  · exact ended_wf _ _ _ ((raise_mem _ _ _).symm ▸ h)

theorem hostSeen_wf (s : State) (o n : Nat) (h : Memory.wf s.mem = true) : Memory.wf (s.hostSeen o n).mem = true := by
  unfold State.hostSeen
  split
  · exact ended_wf _ _ _ h
  · exact foldl_wf _ (fun s (p : Nat × Nat) hs => hostRead1_wf s p.1 p.2 hs) _ s h

end Sys2Proof.Laws
end

