-- ==== Sys2Proof/Tests/Slice0.lean ====
section
/-! SUPPORT. Tests of the model: well-formedness refuses ill-formed commands, the worked examples of the spec, and for every
statement a state and operands that meet its hypotheses. -/

namespace Sys2Proof.Tests

set_option Elab.async false

open Sys2Proof Sys2Proof.Machine

/-! ### ill-formed commands are refused -/

theorem test_wf_refuses_misaligned : Instr.wf (.pairLoRead .host 3) = false := by decide
theorem test_wf_refuses_short_block : Instr.wf (.objCreate []) = false := by decide
theorem test_wf_refuses_line_crossing : Instr.wf (.dcReadNormal 250 10 .none) = false := by decide
theorem test_wf_refuses_line_outside_dram : Instr.wf (.dcWriteNormal 0x20000000000 [0] false .none) = false := by decide
theorem test_wf_refuses_empty_line_access : Instr.wf (.dcReadKeep 0 0 .none) = false := by decide
theorem test_wf_refuses_packet_type : Instr.wf (.rd { type := 16, src := 0, dst := 0 }) = false := by decide
theorem test_wf_refuses_packet_device : Instr.wf (.dbl { type := 5, src := 4096, dst := 0 }) = false := by decide
theorem test_wf_refuses_burst_outside_dram : Instr.wf (.dramReadDone 0x20000000000 []) = false := by decide
theorem test_wf_refuses_seven_temperatures : Instr.wf (.thermalReading 0 [0, 0, 0, 0, 0, 0, 0]) = false := by decide
theorem test_wf_refuses_short_die_reading : Instr.wf (.dieTempReading []) = false := by decide
theorem test_wf_refuses_short_alert : Instr.wf (.pmbAlert []) = false := by decide
theorem test_wf_refuses_short_flit : Instr.wf (.seqFlitReceive 0 0 [] 0 []) = false := by decide
theorem test_wf_refuses_wide_word : Instr.wf (.passAccept 0 0 ⟨0, 2 ^ 80⟩) = false := by decide
theorem test_wf_refuses_wide_row_word : Instr.wf (.planishRow 0 0 (2 ^ 80)) = false := by decide
theorem test_wf_refuses_wide_flit_word : Instr.wf (.seqFlitReceive 0 0 (List.replicate 32 0) 0 [2 ^ 80]) = false := by decide
theorem test_wf_refuses_wide_control_word : Instr.wf (.lctlReceive 0 1 0 false [] [2 ^ 80]) = false := by decide
theorem test_wf_refuses_wide_stage_word : Instr.wf (.cruDeadline ⟨0, [(0, [2 ^ 80])]⟩) = false := by decide
theorem test_wf_refuses_short_fetch : Instr.wf (.mendComplete (some [])) = false := by decide

/-! ### worked examples -/

def next? (r : Res) : State := match r with | .next t => t | _ => State.reset
/-- Reset with registers set. -/
def st (l : List (Nat × Nat)) : State := l.foldl (fun s e => s.setReg e.1 e.2) State.reset
/-- A powered device in stage READY with its host link up. -/
def ready (l : List (Nat × Nat)) : State :=
  let s := st ([(AON_BOOT_STAT, 8), (PKG_PD_STAT 0, 0xFFFFFFFF), (PKG_PD_STAT 1, 0xFFFFFFFF), (PKG_PD_STAT 2, 0xFFFFFFFF),
    (PKG_PD_STAT 3, 0x7FFFFFF)] ++ l)
  { (s.setFlag HIF_STAT HIF_STAT_LINK_UP true) with boot := { s.boot with perst := false, chosen := some 0 } }

-- the check value of the IEEE CRC-32 of R278 and R399
theorem test_crc32 : crc32 [0x31, 0x32, 0x33, 0x34, 0x35, 0x36, 0x37, 0x38, 0x39] = 0xCBF43926 := by decide +kernel

-- FIPS 180-4: SHA-256 of "abc"
theorem test_sha256 :
    sha256 [0x61, 0x62, 0x63] = 0xBA7816BF8F01CFEA414140DE5DAE2223B00361A396177A9CB410FF61F20015AD := by decide +kernel

-- FIPS 197, appendix C.1
theorem test_aes128 : aes128 (List.range 16) ((List.range 16).map (fun i => 0x11 * i)) =
    [0x69, 0xC4, 0xE0, 0xD8, 0x6A, 0x7B, 0x04, 0x30, 0xD8, 0xCD, 0xB7, 0x80, 0x70, 0xB4, 0xC5, 0x5A] := by decide +kernel

-- chapter 6, the worked counter of R180
theorem test_sprue_counter : sprueCtr 4200 2 37 0x11 (5 * 2 ^ 16 + 40 / 16) = 0x00001068020250011000000000050002 := by decide +kernel

def fp4Acts : List (List Opd) := [[5, 9, 7, 0].map (opdOf .fp4 true 0x7F)]
def fp4Wts : List (List Opd) := [[3, 6, 0xC, 1].map (opdOf .fp4 true 0x7C)]
-- chapter 2, worked pass: the window, D3, the correction and the fold, F1 to F4, BF16
theorem test_worked_pass_window : tileExp 4 fp4Acts = 2 ∧ tileExp 4 fp4Wts = -1 ∧
    joinSum 4 1 2 (-1) ((fp4Acts.getD 0 []).zip (fp4Wts.getD 0 [])) = -38 * 2 ^ 40 ∧
    passSums 4 1 false fp4Acts fp4Wts = ([[0xBF980000]], 0) := by decide +kernel
theorem test_worked_pass_drain : addRows [0xBF980000] (correction [(3, 0x5A)] fp4Wts) = [0x3D800000] ∧
    finalRow 0x34 0x40000000 0x3F000000 [0x3D800000] [0x3A] = [0x3D700000] ∧
    fmtConvert .bf16 true false .ne (fv32 0x3D700000) = (0x3D70, {}) := by decide +kernel
-- chapter 2, R45: a BF16 product joined from two nibbles
theorem test_bf16_join :
    joinSum 8 2 0 0 [(⟨false, 0xC0, -7, 0⟩, ⟨false, 0xD8, -7, 0⟩)] = 41472 * 2 ^ 32 := by decide +kernel

-- chapter 3, quantising a weight block
theorem test_weight_block : pickTensor (fv32 0x40400000) (fvNat 6) = 0x3F000000 ∧
    (pickE4m3 (fv32 0x3F99999A) (fvNat 3)).code = 0x2D ∧
    (let r := wBlock .fp4 (fvNat 6) true false 0x2D 0x3F000000
      [0x3E99999A, 0xBE2E147B, 0x3CA3D70A, 0x3C23D70A, 0xBDCCCCCD, 0x3E000000]
     r.1 = 0x7D ∧ r.2.1 = [7, 0xD, 1, 0, 0xC, 4] ∧ r.2.2.1.und = 1 ∧ r.2.2.1.sat = 0) := by decide +kernel

def rep (n v : Nat) : List Nat := List.replicate n v
-- chapter 4, worked row: R106's rotation of blocks 0 and 1, and R112 on the rotated row
theorem test_rotation : rotate 1 2 false (rep 32 0 |>.map (fun _ => false)) (rep 32 0x3E800000) = 0x40000000 :: rep 31 0 ∧
    rotate 1 2 false (true :: (rep 31 0).map (fun _ => false)) (0x3F800000 :: rep 31 0) = rep 32 0xBE800000 := by decide +kernel
theorem test_planish_row :
    (let r := planish 0 2 0x48 0x3E800000 false (0x40000000 :: rep 31 0 ++ rep 32 0xBE800000 ++ rep 32 0x3E800000 ++ rep 32 0x3F000000)
     r.codes = rep 32 0 ++ rep 32 0xD ++ rep 32 5 ++ rep 32 7 ∧ r.tok = 0x2B ∧ r.list = [0x805C, 0] ∧ r.aclip = 0x3F000000 ∧
     r.outl = 1 ∧ r.ovf = 0 ∧ r.cnt.sat = 0 ∧ r.cnt.und = 0) := by decide +kernel

-- chapter 5, six layers ask at once
def thr : SteerThr := ⟨5, 12, 4, 10, 2, 0, 0⟩
def asked : List (AssayRec × Nat) :=
  [({ layer := 3, elems := 2 ^ 30, shErr := 0x3D800000, shN := 1 }, 0x40000000), ({ layer := 7, elems := 2 ^ 30, sat := 393216 }, 0x3FC00000),
   ({ layer := 12, elems := 2 ^ 30, und := 100663296 }, 0x3FC00000), ({ layer := 19, elems := 2 ^ 30, ovf := 4194304 }, 0x40800000),
   ({ layer := 22, elems := 2 ^ 30, shErr := 0x3D200000, shN := 1 }, 0x3FA00000), ({ layer := 30, elems := 2 ^ 30, sat := 327680 }, 0x3FA00000)]
theorem test_severities : (asked.all fun e => steerAsks thr e.1 && steerSev thr e.1 == e.2) = true := by decide +kernel
def cand (id fine sev : Nat) (asks : Bool) : Cand := ⟨id, fine, 0, false, 0, 0, sev, asks, 0, 0⟩
def homed : List Cand := [cand 3 0 0x40000000 true, cand 7 0 0x3FC00000 true, cand 12 1 0x3FC00000 true, cand 19 0 0x40800000 true,
  cand 22 0 0x3FA00000 true, cand 30 2 0x3FA00000 true] ++ (List.range 10).map (fun i => cand (100 + i) 0 0 false)
theorem test_six_layers_ask :
    (let d := decideAll false 128 4 256 4200 homed
     (d.cands.take 6).map (fun c => (c.id, c.fine, c.pend, c.pstep)) =
       [(19, 1, false, 0), (3, 1, false, 0), (7, 1, false, 0), (12, 2, false, 0), (22, 0, true, 4200), (30, 2, true, 4200)] ∧
     d.storm = false ∧ d.promoted = 4 ∧ d.asked = 6 ∧ d.demoted = 0) := by decide +kernel
-- chapter 5, a storm: 9 of 16 ask
theorem test_storm :
    (let l := (List.range 16).map (fun i => cand i 0 0x40000000 (decide (i < 9)))
     let d := decideAll false 128 4 256 4350 l
     d.storm = true ∧ d.cands = l) := by decide +kernel
theorem test_no_storm_at_eight :
    (let d := decideAll false 128 4 256 4350 ((List.range 16).map (fun i => cand i 0 0x40000000 (decide (i < 8))))
     d.storm = false ∧ d.promoted = 4) := by decide +kernel

-- chapter 10: the escalated block, its two elements, the divided result, the sample and the witness
theorem test_escalated_block : (pickBlock (fv32 0x40466666) (fvNat 57344)).code = 0x71 ∧
    (blockCodes .e5m2 false 0x71 [0x40466666, 0x3A83126F]).1.map (accElem .e5m2 0x71) = [0x40400000, 0x3A800000] := by decide +kernel
theorem test_divided_result :
    resultVals false 1 { sums := [0x36400000], word := 7 + 2 ^ 8, use := 0 } = some [0x34DB6DB7] := by decide +kernel
theorem test_sampled_blocks : (List.range 2592).filter (fun i => sampled 10 4210 (111456 + i)) = [286, 1310, 2334] ∧ witnessOf 43 = 47 := by
  decide +kernel

-- chapter 12: the alias of STEER_CTRL.FREEZE clears it alone
theorem test_alias_clears_freeze :
    (let t := next? (Machine.exec (.bitAliasWrite .host 0x301000 1 false) (ready [(STEER_CTRL, 7)]))
     STEER_CTRL = 0x301000 ∧ t.reg STEER_CTRL = 5) := by decide +kernel
-- chapter 12: a sequence clear against a stale mirror
theorem test_stale_sequence_clear :
    (let s := ready [(MC_EVENT 6 3, 0x312)]
     let t := next? (Machine.exec (.sequenceClear .host 0x1613008 0x111) s)
     MC_EVENT 6 3 = 0x1613008 ∧ t.reg (MC_EVENT 6 3) = 0x312 ∧ t.fld PKG_SQ_MISS PKG_SQ_MISS_COUNT = 1) := by decide +kernel
theorem test_fresh_sequence_clear :
    (next? (Machine.exec (.sequenceClear .host 0x1613008 0x312) (ready [(MC_EVENT 6 3, 0x312)]))).reg (MC_EVENT 6 3) = 0x12 := by
  decide +kernel
-- chapter 12: STEP_RUN to a member
def anchor (l : List (Nat × Nat)) : State :=
  ready ([(PKG_ROLE, 1), (LD_GEOM 0, 0x7333), (HIF_CTRL, 0xFFFFFFFF)] ++ l)
theorem test_step_run_to_a_member :
    (let s := anchor [(H2F_DATA 0, 0x00A04310), (H2F_STAT 0, 1)]
     let t := next? (Machine.exec (.mailboxForward 0) s)
     s.isAnchor = true ∧ s.inGeom 0x21 = true ∧ t.reg (F2H_DATA 0) = 0x430F ∧ t.hif.fwdOut = [(0, 0x21)]) := by decide +kernel
-- chapter 11: the line peers of 0x321 in x
theorem test_line_peers :
    (let s := ready [(BAR_GRP 15, 2 ^ 24 + 0x303030), (PKG_ROLE, 0x321 * 4), (LD_DEVID 0, 0x321)]
     s.devId = 0x321 ∧ s.linePeers 15 0 = [0x021, 0x121, 0x221] ∧ s.linePeers 15 2 = [0x320, 0x322, 0x323]) := by decide +kernel
-- chapter 15: a cap at P0 with p100 = 4.3 kW and PCAP_LIM = 250
theorem test_cap_at_p0 :
    (let s := (ready [(PWR_LIMIT, 250 * 2 ^ 16 + 500)]).setFld PWR_STAT PWR_STAT_POINT 0
     let t := next? (Machine.exec .pwrCapAssert { s with pwr := { s.pwr with rails := [(0, (4300000, 4300000))] } })
     t.point = 2 ∧ t.duty = 16 ∧ t.flag PWR_EVENT PWR_EVENT_CAP = true) := by decide +kernel
-- R213 and R214: one symbol is corrected, nine are not, and the poison pattern is found
theorem test_rs_corrects_one : rsDecode [(5, 0x3C)] = .corrected [(5, 0x3C)] ∧ rsDecode rsPoison = .poison := by decide +kernel
-- R215: one and two errors of a protected word are corrected, three detected
theorem test_bch_words : bchDecode 1 = .corrected ∧ bchDecode (2 ^ 77 + 2 ^ 3) = .corrected ∧ bchDecode 7 = .uncorrectable ∧
    bchDecode bchPoison = .poison := by decide +kernel

/-! ### what the statements assume is met: queue and steps -/

def refuses (r : Res) : Bool := match r with | .refused x => x == .privateDebug | _ => false
def goesTo (r : Res) (t : State) : Bool := match r with | .next u => u == t | _ => false
theorem witness_NoCommandTouchesTheQueue :
    (let s := { ready [] with pending := [.jtagInstruction (.debug (.foreman 0) false), .perstNDeassert] }
     refuses (Machine.step s) = true ∧ s.boot.on = true ∧ s.boot.fuses.dbgLock = false ∧
     goesTo (Machine.step { s with pending := s.pending.tail }) { s with pending := [] } = true ∧
     ({ s with boot := { s.boot with on := false } } : State).boot.on = false) := by decide +kernel
theorem witness_EveryStepKeepsTheStateCanonical :
    (let s := ready [(MC_STAT 0 0, 0xF)]
     s.pending.all Instr.wf = true ∧ Memory.wf s.mem = true ∧ Registers.wf s.regs = true ∧ goesTo (Machine.step s) s = true) := by
  decide +kernel

/-! ### a device in a step -/

/-- A list of 32-bit words as bytes. -/
def wordBytes (l : List Nat) : List Byte := l.flatMap (leBytes 4)
/-- A program header: one layer at 0x200, two phases at 0x400, descriptors at 0x600, face 0 of die 0 leads a gang. -/
def hdr0 : List Byte :=
  wordBytes [0, 0, 0, 0, 1 + 2 * 2 ^ 16, 4, 0x200, 0x400, 0x600] ++ List.replicate 28 0 ++ wordBytes [1] ++ List.replicate 60 0 ++
  (List.range 16).flatMap (fun _ => leBytes 8 0xFFFFFFFFFFFFFFFF) ++ List.replicate 256 0
def slot0 : Slot := { base := 0, steps := 1, left := 1, first := 0, replace := false, hdr := hdr0 }
/-- A layer of 32 × 32 elements at FN2, homed here. -/
def layer0 : List Byte := wordBytes [1 + 2 * 2 ^ 24, 2 ^ 13, 32, 32, 0, 0, 0, 0] ++ List.replicate 96 0
/-- Words of a descriptor of die 0, face 0: its first word's code and flags, and K0. -/
def desc0 (w0 w3 k0 : Nat) : List Nat := [w0 + 2 ^ 11, 0, 0, w3, 0, 0, 0, k0, 0, 0, 0, 0, 0, 0, 0, 0]
/-- A step runs phase 0, of KIND `kind`, of a program whose descriptor 0 has the words `w`. -/
def stepping (kind : Nat) (w : List Nat) : State :=
  let s := ready [(MC_STAT 0 0, 0xF), (STEP_STAT, 0x20005)]
  let m := setBytes layer0 0x200 []
  let m := setBytes (wordBytes [kind]) 0x400 m
  let m := setBytes (wordBytes w) 0x600 m
  { s with mem := m, eng := { s.eng with active := some slot0, mode := .phase } }
def held0 (w : List Nat) (r : Run) : Held := ⟨0, w, layer0, [], r⟩
/-- The same with the descriptor held by face 0 of die 0. -/
def holding (kind : Nat) (w : List Nat) (r : Run) : State :=
  let s := stepping kind w
  s.setFace 0 0 { s.face 0 0 with held := [held0 w r] }

def claimSt (w : List Nat) : State := let s := stepping 0 w; s.setDie 0 { s.die 0 with window := [0] }
def claimU (w : List Nat) : State := claiming (claimSt w) slot0 0 0 0
theorem witness_AFaceClaimsTheOldestEligibleDescriptor :
    (let s := claimSt (desc0 0 0 0)
     let t := stepping 0 []
     s.boot.on = true ∧ s.eng.active = some slot0 ∧ s.mayClaim 0 0 = true ∧ wanted s slot0 0 0 = some 0 ∧
     (claimU (desc0 0 0 0)).checkClaim slot0 0 0 0 = .holds (held0 (desc0 0 0 0) .waiting) ∧
     t.boot.on = true ∧ t.eng.active = some slot0 ∧ t.mayClaim 0 0 = true ∧ wanted t slot0 0 0 = none) := by decide +kernel
theorem witness_ABarinOnItsOwnPhaseIsRejected :
    (let w := desc0 (2 ^ 28) 0 0
     let s := claimSt w
     s.boot.on = true ∧ s.eng.active = some slot0 ∧ s.mayClaim 0 0 = true ∧ s.eng.cause = none ∧ (s.chan 15).closed = false ∧
     0 < 2 ^ 20 ∧ wanted s slot0 0 0 = some 0 ∧ (claimU w).checkClaim slot0 0 0 0 = .fails .barin 1) := by decide +kernel
def startsAs (kind : Nat) (w : List Nat) (k : DescKind) : Bool :=
  let s := holding kind w .waiting
  decide (s.readyHeld 0 0 = some (held0 w .waiting)) && decide (descKind s.phaseKind w = some k)
theorem witness_StartingADescriptorRunsItsUnit :
    startsAs 0 (desc0 0 0 0) .nop ∧ startsAs 0 (desc0 1 0 0) .gemm ∧ startsAs 0 (desc0 3 0 0) .layerData ∧
    startsAs 0 (desc0 3 0 1) .plain ∧ startsAs 1 (desc0 3 0 2) .gradPair ∧ startsAs 2 (desc0 3 0 0) .send ∧
    startsAs 0 (desc0 2 0 0) .attnFwd ∧ startsAs 1 (desc0 2 0 1) .attnKv ∧ startsAs 1 (desc0 2 0 2) .attnQ ∧
    (let u (kind k0 : Nat) := begun (holding kind (desc0 2 0 k0) .waiting) 0 0 (held0 (desc0 2 0 k0) .waiting)
     (u 0 0).attnBenches 0 0 ≠ [] ∧ (u 1 1).attnBenches 0 0 ≠ [] ∧ (u 1 2).attnBenches 0 0 ≠ []) ∧
    (let u := begun (holding 0 (desc0 1 0 0) .waiting) 0 0 (held0 (desc0 1 0 0) .waiting)
     (u.faceSeen 0 0 (u.ringAddr (dIn (desc0 1 0 0))) 64).gemmStartFail 0 0 (held0 (desc0 1 0 0) .waiting) = none) := by decide +kernel
theorem witness_WorkingCopyDescriptorsAct :
    startsAs 3 (desc0 4 0 0) .measure ∧ startsAs 3 (desc0 4 0 1) .make ∧ startsAs 3 (desc0 5 0 0) .opt ∧
    startsAs 3 (desc0 4 0 2) .publish := by decide +kernel
theorem witness_GemmTilesAreDealtOncePerBench :
    (let s := holding 0 (desc0 1 0 0) .waiting
     gangSize (s.gangMap 0) 0 = 1 ∧ 15 < 16 * gangSize (s.gangMap 0) 0) := by decide +kernel
def tally0 (landed : Bool) : TallyMsg := ⟨0, 255, 0, 0, landed⟩
def tallying (landed : Bool) (r : Run) : State :=
  let s := holding 0 (desc0 0 0x1000 0) r
  { s with eng := { s.eng with tallies := [tally0 landed] } }
theorem witness_ADescriptorCompletesThroughItsTally :
    (let s := holding 0 (desc0 0 0x1000 0) .running
     let u := holding 0 (desc0 0 0 0) .running
     s.eng.aborted = false ∧ s.runningHeld 0 0 = some (held0 (desc0 0 0x1000 0) .running) ∧ s.workDone 0 0 = true ∧
     dPostEn (desc0 0 0x1000 0) = true ∧ u.runningHeld 0 0 = some (held0 (desc0 0 0 0) .running) ∧ u.workDone 0 0 = true ∧
     dPostEn (desc0 0 0 0) = false ∧ (tallying false .posted).eng.tallies = [tally0 false] ∧
     ((tallying true .posted).face 0 0).held.find? (fun h => h.run == .posted) = some (held0 (desc0 0 0x1000 0) .posted) ∧
     tally0 true ∈ (tallying true .posted).eng.tallies) := by decide +kernel

theorem witness_ColumnSumsAreExactWithoutLostBits :
    (let a := fp4Acts.getD 0 []
     let w := fp4Wts.getD 0 []
     a ∈ fp4Acts ∧ w ∈ fp4Wts ∧ a.length ≤ 32 ∧ (∀ o ∈ a, o.spc = 0 ∧ o.u < 2 ^ 4) ∧ (∀ o ∈ w, o.spc = 0 ∧ o.u < 2 ^ 4) ∧
     lostCount 4 1 (tileExp 4 fp4Acts) (tileExp 4 fp4Wts) (a.zip w) = 0 ∧
     lostCount 8 2 0 0 [(⟨false, 0xC0, -7, 0⟩, ⟨false, 0xD8, -7, 0⟩)] = 0) := by decide +kernel
def gemm0 : Gemm := ⟨0, 0, 0, 32, 0, 32, 0, 32, 0, 0, 0, 0x3F800000, 0x3F800000, layer0, 64, false, []⟩
def pass0 (instr : Nat) : Pass :=
  { instr := instr, tile := 0, acts := fp4Acts, tok := [], wts := fp4Wts, wch := [], outl := [], bad := false }
/-- Bench 0 of face 0 of die 0 in a GEMM. -/
def benching (x : Bench) : State :=
  let s := holding 0 (desc0 1 0 0) .running
  (s.setFace 0 0 { s.face 0 0 with gemm := some gemm0 }).setBench 0 0 0 x
theorem witness_PassesEnterAndLeaveABench :
    (let s := benching { tile := some 0 }
     (s.face 0 (gangLeader (s.gangMap 0) 0)).gemm = some gemm0 ∧ (s.bench 0 0 0).tile = some 0 ∧ s.takes 0 0 0 = true ∧
     s.nextPass 0 0 0 gemm0 = some (0, 0, gemm0) ∧ wordUe 0 = false ∧ (s.bench 0 0 0).passes.length < 2 ∧
     (∀ r ∈ s.passReads 0 0 gemm0 0 0, s.awaits 0 0 r = false) ∧
     ((benching { passes := [pass0 0x8000] }).bench 0 0 0).passes.find? (fun p => bit p.instr 15 && p.lane.isNone) = some (pass0 0x8000) ∧
     ((benching { passes := [pass0 0x2000] }).bench 0 0 0).passes = [pass0 0x2000] ∧ bit 0x2000 13 = true ∧ bit 0x2000 14 = false ∧
     bit 0x2000 15 = false ∧ (pass0 0x2000).bad = false ∧ bit gemm0.w0 12 = false ∧
     ((benching { passes := [pass0 0x2000] }).bench 0 0 0).shadow = []) := by decide +kernel
def late0 (row : Nat) : LateRow := ⟨0, row, [0x3F800000]⟩
def park0 : ParkRow := ⟨0, 3, [0x3F800000], 0x38, [0x38], false⟩
theorem witness_LateCorrectionsReachTheirRows :
    (let s := benching { late := [late0 3], park := [park0], acc := [[0]] }
     let t := benching { late := [late0 0], park := [park0], acc := [[0]], shadow := [(0, (0, 0))] }
     (s.bench 0 0 0).park.find? (fun p => p.tile == 0 && p.row == 3) = some park0 ∧
     (t.bench 0 0 0).park.find? (fun p => p.tile == 0 && p.row == 0) = none ∧
     (t.bench 0 0 0).park.find? (fun p => !(t.bench 0 0 0).late.any (fun l => l.tile == p.tile && l.row == p.row)) = some park0 ∧
     (∀ p ∈ (s.bench 0 0 0).park, ∃ l ∈ (s.bench 0 0 0).late, l.tile = p.tile ∧ l.row = p.row) ∧ wordSpoils 0 = false ∧ wordUe 7 = true ∧
     (t.bench 0 0 0).shadow = [(0, (0, 0))]) := by decide +kernel
theorem witness_ElementCodesSurviveDecodeAndConvert :
    fmtDecode .fp4 true 5 = .fin false 3 0 ∧ (fmtDecode .fp4 true 8).isFin = true ∧ (fmtDecode .fp4 true 8).isZero = true ∧
    15 < 2 ^ Fmt.fp4.width := by decide +kernel
theorem witness_NearestEvenGivesANearestCode :
    (Fmt.fp4.lay.any fun L => (fpConvert L false .ne (.fin false 13 (-3))).2.sat == 0 && (fpDecode L 0xF).isFin) = true := by decide +kernel
/-- Face 0 of die 0 with one row at its planisher's head. -/
def rowing (k0 : Nat) (u : RowUse) : State :=
  let s := holding 0 (desc0 3 0 k0) .running
  s.setFace 0 0 { s.face 0 0 with rows := [⟨u, 0, [0x3F800000], false⟩] }
/-- A layer at FN0 with ROT 1 and ROTS stream 5, whose descriptor is held; its sign buffer is as given. -/
def signing (x y : SignHalf) : State :=
  let s := stepping 0 (desc0 3 0 0)
  let b := wordBytes [1 + 2 ^ 29, 2 ^ 13, 32, 32, 0, 5, 0, 0] ++ List.replicate 96 0
  s.setFace 0 0 { s.face 0 0 with held := [⟨0, desc0 3 0 0, b, [⟨2, 5⟩], .waiting⟩], signs0 := x, signs1 := y }
def needOf (u : State) : Option (Nat × Nat) :=
  ((u.face 0 0).held.filterMap u.signNeed).find? (fun k => !(u.face 0 0).signs0.serves k && !(u.face 0 0).signs1.serves k)
theorem witness_PlanisherRowsAndSigns :
    (let s := rowing 0 .planish
     let h := held0 (desc0 3 0 0) .running
     let other : SignHalf := ⟨some 9, 0, true⟩
     let fills : SignHalf := ⟨some 9, 0, false⟩
     let n := signing {} {}
     let m := signing other {}
     let b := signing fills fills
     s.boot.on = true ∧ s.runningHeld 0 0 = some h ∧ (s.face 0 0).rows = [⟨.planish, 0, [0x3F800000], false⟩] ∧
     ([RowUse.planish, .gradIn, .measure, .make, .opt].all fun u => (rowing 0 u).rowReady 0 0 h) = true ∧
     needOf s = none ∧ (needOf n).isSome = true ∧ (needOf m).isSome = true ∧ (needOf b).isSome = true ∧
     n.halfIdle 0 0 (n.face 0 0).signs0 = true ∧ n.halfIdle 0 0 (n.face 0 0).signs1 = true ∧ m.halfIdle 0 0 (m.face 0 0).signs1 = true ∧
     b.halfIdle 0 0 (b.face 0 0).signs0 = false ∧ b.halfIdle 0 0 (b.face 0 0).signs1 = false ∧ (b.face 0 0).signs0.ready = false ∧
     ((signing {} fills).face 0 0).signs0.layer = none ∧ ((signing {} fills).face 0 0).signs1.layer = some 9) := by decide +kernel
def ctl (sub : Nat) (d : List Byte) : Packet := { type := 8, src := 1, dst := 0, args := sub, tag := 7, data := d }
theorem witness_AssayRecordsAndSummariesMerge :
    (let s := ready []
     let t := ready [(STEER_LAST_STEP, 4)]
     let p := ctl 1 (summaryBytes { layer := 3, step := 5 } 1 false)
     ((s.setDie 2 { s.die 2 with merge := [{ layer := 3 }] }).die 2).merge = [{ layer := 3 }] ∧ ctlSub p 1 = true ∧
     s.reg STEER_LAST_STEP = 0xFFFFFFFF ∧ t.reg STEER_LAST_STEP < sumStep p.data ∧
     sumStep p.data ≤ (ready [(STEER_LAST_STEP, 5)]).reg STEER_LAST_STEP ∧ ctlSub (ctl 2 []) 2 = true) := by decide +kernel
theorem witness_SummariesAndBarriersKeepEveryField :
    (let r : AssayRec := { layer := 4095, step := 2 ^ 32 - 1, elems := 2 ^ 48 - 1, shN := 65535, amax := 0x7F7FFFFF }
     let m : BarMsg := ⟨4095, 15, true, false, 2 ^ 32 - 1, 65535, 65535⟩
     r.layer < 2 ^ 12 ∧ r.elems < 2 ^ 48 ∧ r.sat < 2 ^ 48 ∧ r.shN < 2 ^ 16 ∧ r.shErr < 2 ^ 32 ∧ summaryRec (summaryBytes r 4095 true) = r ∧
     m.ch < 16 ∧ m.epoch < 2 ^ 32) := by decide +kernel

/-! ### a valid program -/

/-- Words that wait in mailbox m, with its ring. -/
def mboxed (m w : Nat) (s : State) : State :=
  ((s.setFlag (H2F_STAT m) H2F_STAT_FULL true).setReg (H2F_DATA m) w).setFlag (HIF_RING_HI m) HIF_RING_HI_V true
/-- The bytes from 0x10 on of a program of one layer, phases FWD and COMMIT and one NOP; `n` counts its phases. -/
def body0 (n : Nat) : List Byte :=
  wordBytes [1 + n * 2 ^ 16, 1, 0x200, 0x280, 0x400] ++ List.replicate 28 0 ++
  wordBytes [1, 0, 0, 0, 0x322BCC77, 0, 0, 0, 1, 0, 0, 0, 0, 0, 0, 0] ++ (List.range 16).flatMap (fun _ => leBytes 8 1) ++
  List.replicate 256 0 ++ layer0 ++ wordBytes [0x10000] ++ List.replicate 156 0 ++ wordBytes [0x10003] ++ List.replicate 220 0 ++
  wordBytes (desc0 0 0 0)
def prog0 (n : Nat) : List Byte := wordBytes [0x50535A52, 1, 0x440, 111727013] ++ body0 n
/-- The program, stored at 0x10000. -/
def progMem (n : Nat) : List Host.Cell :=
  ((prog0 n).zipIdx.filter (fun e => e.1 != 0)).map (fun e => (0x10000 + e.2, e.1))
def runBlk : List Byte := leBytes 8 0 ++ leBytes 8 0x10000 ++ wordBytes [3, 0xFFFFFFFF, 0] ++ List.replicate 36 0
def stopped (l : List (Nat × Nat)) (w n : Nat) : State :=
  { mboxed 0 w (ready (l ++ [(MC_STAT 0 0, 0xF)])) with mem := progMem n }
def isClear (m : Nat) (s : State) : Bool := !s.flag (F2H_STAT m) F2H_STAT_FULL && !s.hif.late.contains m
def stopping (s : State) : State := { s with eng := { s.eng with stop := some (.own 0x11) } }
/-- The CRC register, evaluated at every byte. -/
def crcS : List Byte → Nat → Nat
  | [], c => c
  | b :: l, 0 => crcS l (crcStepR 0xEDB88320 8 (0 ^^^ b.toNat))
  | b :: l, c + 1 => crcS l (crcStepR 0xEDB88320 8 ((c + 1) ^^^ b.toNat))
theorem crcR_eq_crcS (l : List Byte) (c : Nat) : crcR 0xEDB88320 l c = crcS l c := by
  induction l generalizing c with
  | nil => rfl
  | cons b l ih => cases c <;> exact ih _
theorem prog_crc : crc32 (body0 2) = 111727013 := by
  rw [crc32, crcR_eq_crcS]; decide +kernel
def good? : RunCheck → Bool | .good p => p.steps == 3 | .bad _ _ => false
def progSt : State := took (stopped [] 0x10 2) 0 0x10
def progHdr : List Byte := (prog0 2).take 512
theorem prog_head : progSt.memRead 0x10000 512 = (progHdr, false) := by decide +kernel
theorem prog_body : progSt.memRead 0x10010 1072 = (body0 2, false) := by decide +kernel
theorem prog_good : good? (progSt.checkRun runBlk) = true := by
  have ha : blkNat runBlk 8 8 = 0x10000 := by decide +kernel
  have ht : hTotal progHdr = 0x440 := by decide +kernel
  have hc : hCrc progHdr = 111727013 := by decide +kernel
  unfold State.checkRun
  simp only [ha, prog_head, ht, Nat.reduceSub, Nat.reduceAdd, prog_body, prog_crc, hc]
  rw [if_neg (by decide +kernel), if_neg (by decide +kernel), if_neg (by decide +kernel), if_neg (by decide +kernel),
    if_neg (by decide +kernel), if_neg (by decide +kernel), if_neg (by decide +kernel), if_neg (by decide +kernel),
    if_neg (by decide +kernel), if_neg (by decide +kernel), if_neg (by decide +kernel)]
  decide +kernel
theorem witness_StepRunIsCheckedAndLoaded :
    (let s := stopped [] 0x10 2
     let q := stopped [(STEP_STAT, 5)] 0x11 2
     s.boot.on = true ∧ s.cmdAt 0 = some (.own 0x10) ∧ wFwd 0x10 = false ∧ s.eng.stop = none ∧ wCode 0x10 = 0x10 ∧
     s.flag (HIF_RING_HI 0) HIF_RING_HI_V = true ∧ s.hostLost (s.blkOff 0 (.own 0x10)) 64 = false ∧ isClear 0 s = true ∧
     (s.setFlag (HIF_RING_HI 0) HIF_RING_HI_V false).flag (HIF_RING_HI 0) HIF_RING_HI_V = false ∧ (stopping s).eng.stop = some (.own 0x11) ∧
     (stopping s).cmdAt 0 = some (.own 0x10) ∧ progSt.checkRun (leBytes 8 0 ++ leBytes 8 0x10800 ++ List.replicate 48 0) = .bad 5 0 ∧
     q.cmdAt 0 = some (.own 0x11) ∧ q.running = true ∧ (stopped [] 0x11 2).running = false) := by decide +kernel
/-- A device whose program is loaded and whose step may start; channel 15's group word is `g`. -/
def startable (g : Nat) : State :=
  let s := ready [(STEP_CTRL, 1), (PKG_ROLE, 0x4001), (STEP_STAT, 1), (BAR_GRP 15, g)]
  { s with eng := { s.eng with active := some slot0 } }
theorem witness_AStepStartsOnlyWhenItMay :
    (let s := startable 0
     let u := startable (2 ^ 24 + 1)
     s.boot.on = true ∧ s.canStart = true ∧ (∀ c, c < 16 → s.grpBad c = false) ∧ (s.chan 15).held = [] ∧
     u.canStart = true ∧ u.grpBad 15 = true) := by decide +kernel
/-- A step that waits before microstep 0, with an input ring in a program that has one. -/
def filling (ring : Nat) (l : List (Nat × Nat)) : State :=
  let s := ready ([(STEP_STAT, 0x20005)] ++ l)
  { s with eng := { s.eng with active := some { slot0 with hdr := hdr0.take 0x64 ++ leBytes 3 ring ++ hdr0.drop 0x67 }, mode := .fill } }
theorem witness_AMicrostepWaitsForItsBatch :
    (let s := filling 0 []
     let u := filling 7 [(STEP_STAT, 0xA0005)]
     let v := u.objSeen (hInObj u.hdr * 2 ^ 40) 8 none
     s.boot.on = true ∧ s.running = true ∧ s.eng.mode = .fill ∧ s.flag STEP_STAT STEP_STAT_IN_WAIT = false ∧ hInObj s.hdr = 0 ∧
     (∀ c, c < 15 → (s.chan c).held = []) ∧
     u.running = true ∧ u.flag STEP_STAT STEP_STAT_IN_WAIT = true ∧ hInObj u.hdr = 7 ∧ (∀ n, v.readFill = some n → n ≤ u.gmicro)) := by
  decide +kernel
def arrived (n : Nat) : State :=
  let s := stepping 0 []
  (List.range n).foldl (fun s d => s.setFlag (BAR_CH d 14) BAR_CH_DIE_ARR true) s
theorem witness_ChannelClosesWhenAllDiesHaveArrived :
    (let s := arrived 16
     s.boot.on = true ∧ (arrived 15).flag (BAR_CH 15 14) BAR_CH_DIE_ARR = false ∧
     (∀ d, d < 16 → s.flag (BAR_CH d 14) BAR_CH_DIE_ARR = true) ∧ s.running = true ∧ s.eng.mode = .phase ∧ (s.chan 14).closed = false ∧
     s.grpEn 14 = false ∧ 14 ≠ s.phaseBarch ∧ bit (s.reg BAR_PSTAT) 3 = false) := by decide +kernel
/-- A device in its commit wait, with a group word for channel 15 and its FIN. -/
def committing (g : Nat) (fin : Bool) : State :=
  let s := ((stepping 3 []).setReg (BAR_GRP 15) g).setFlag STEP_STAT STEP_STAT_FIN fin
  ({ s with eng := { s.eng with mode := .wait } }).setChan 15 { epoch := some 0, sent := true }
theorem witness_TheDeviceVotesItsFiniteBit :
    (let s := committing 0 true
     let u := committing (2 ^ 24 + 0x10) true
     s.boot.on = true ∧ s.running = true ∧ s.eng.mode = .wait ∧ s.quiet = true ∧ s.eng.aborted = false ∧
     s.flag STEP_CTRL STEP_CTRL_ABANDON = false ∧ s.jobsClosed = true ∧ s.jobFailed = none ∧ s.eng.sums = [] ∧
     s.eng.active = some slot0 ∧ s.grpEn 15 = false ∧ s.flag STEP_STAT STEP_STAT_FIN = true ∧ (∀ c, c < 15 → (s.chan c).held = []) ∧
     (List.range (hPhases slot0.hdr)).find? (fun i => phKind (s.phaseW0 slot0 i) == 3) = some 0 ∧
     u.grpEn 15 = true ∧ (u.chan 15).rx = [] ∧ u.grpLen 15 0 = 2 ∧ u.linePeers 15 0 = [0x100] ∧ (u.chan 15).sent = true ∧
     (committing 0 false).flag STEP_STAT STEP_STAT_FIN = false) := by decide +kernel
def grouped : State := (committing (2 ^ 24 + 0x10) true).setChan 15 { epoch := some 0 }
def bar (epoch group : Nat) : BarMsg := ⟨0x100, 15, true, false, epoch, group, 1⟩
def barIn (m : BarMsg) : Packet := { barPkt 0 m with src := m.src }
theorem witness_ABarPacketCountsOncePerStageAndPosition :
    (let s := grouped
     let t := s.setChan 15 { epoch := some 0, rx := [⟨0, 1, true⟩] }
     let m := barMsg (barIn (bar 0 0))
     s.boot.on = true ∧ (barIn (bar 0 0)).type = 4 ∧ m = bar 0 0 ∧ s.grpEn 15 = true ∧ m.group = s.gid 15 ∧ m.notice = false ∧
     s.stageOf 15 m.fanin = some 0 ∧ (s.chan 15).epoch = some 0 ∧ m.src ∈ s.linePeers 15 0 ∧
     (s.chan 15).rx.any (fun r => r.stage == 0 && r.pos == coord m.src 0) = false ∧ (s.chan 15).closed = false ∧
     (t.chan 15).rx.any (fun r => r.stage == 0 && r.pos == coord m.src 0) = true ∧
     (s.nextEpochs 15 0).contains 0x10000 = true ∧ s.grpEn 14 = false) := by decide +kernel
theorem witness_WatchdogsAndHoldsOfAStep :
    (let s := (stepping 0 []).setReg DUMP_CFG 0
     let u := { s.setReg (LD_GEOM 0) 0x7333 with eng := { s.eng with back := [⟨0x100, bar 0 0, 1⟩] } }
     s.boot.on = true ∧ s.running = true ∧ s.eng.aborted = false ∧ s.eng.cause = none ∧ s.eng.mode = .phase ∧
     (s.chan 15).closed = false ∧ s.flag DUMP_CFG DUMP_CFG_WDOG = false ∧ (committing 0 true).eng.mode = .wait ∧
     (let f := filling 7 []
      f.running = true ∧ f.eng.aborted = false ∧ f.eng.cause = none ∧ f.eng.mode = .fill ∧ (f.chan 15).closed = false) ∧
     s.flag DUMP_CFG DUMP_CFG_C15 = false ∧ s.linkUp = true ∧ s.regOn STEP_CTRL = true ∧ u.eng.back = [⟨0x100, bar 0 0, 1⟩] ∧ u.inGeom 0x100 = true) := by
  decide +kernel
def steered (en done : Bool) : State :=
  let s := (stepping 3 []).setFlag STEER_CTRL STEER_CTRL_EN en
  { s with eng := { s.eng with decided := done } }
theorem witness_SteeringDecisionIsMadeOnceInCommit :
    (let s := steered true false
     s.boot.on = true ∧ s.inCommit = true ∧ s.eng.aborted = false ∧ s.optsDone = true ∧ s.eng.decided = false ∧ s.parStop = [] ∧
     s.flag STEER_CTRL STEER_CTRL_EN = true ∧ (steered false false).flag STEER_CTRL STEER_CTRL_EN = false ∧
     (steered true true).eng.decided = true ∧ (steered true true).inCommit = true ∧ (steered true true).optsDone = true) := by decide +kernel
theorem witness_SteeringKeepsItsBoundsAndBudget :
    (let l := [cand 1 3 5 false, cand 2 0 4 true]
     (∀ c ∈ l, c.floor ≤ c.fine ∧ c.fine ≤ 3) ∧ (decideAll false 128 4 256 9 l).storm = false ∧ (decideAll false 1 4 256 9 l).storm = true) := by
  decide +kernel

/-! ### memory, cache and streams -/

/-- Channel 511, the last of the device, answers; line 2^33 − 1 is resident or not. -/
def cached (l : List (Nat × Option CLine)) : State :=
  let s := ready [(MC_STAT 0 0, 0xF), (MC_STAT 15 7, 0xF)]
  { s with dram := { s.dram with lines := l } }
def line0 : CLine := ⟨false, false, 1, [], []⟩
theorem witness_CachedReadsReturnWhatMemoryHolds :
    (let s := cached [(0x1FFFFFFFF, some line0)]
     let t := cached []
     s.boot.on = true ∧ dcRange 0x1FFFFFFFF00 256 = true ∧ s.served 0x1FFFFFFFF00 256 = true ∧ (s.line 0x1FFFFFFFF).isSome = true ∧
     dcRange 255 1 = true ∧ t.served 255 1 = true ∧ (t.setLines 0).length < 16 ∧ t.burstSpent 255 2 = false) := by decide +kernel
theorem witness_CachedWritesStoreTheirBytesOnly :
    (let s := cached [(0x1FFFFFFFF, some line0)]
     s.boot.on = true ∧ dcRange 0x1FFFFFFFFFF [(7 : Byte)].length = true ∧ s.served 0x1FFFFFFFFFF 1 = true ∧
     (s.line 0x1FFFFFFFF).isSome = true ∧ Memory.wf s.mem = true ∧ (cached []).served 0 1 = true ∧
     ((cached []).setLines 0).length < 16 ∧ (cached []).burstSpent 0 2 = false ∧ (cached []).beatLost 0 1 = false) := by decide +kernel
theorem witness_CorrectedBurstsOnlyCount :
    (let s := cached []
     s.boot.on = true ∧ s.chanOk (gchan 0x1FFFFFFFFFF) = true ∧ s.dramBad 0 = [] ∧ rsDecode [] = .clean ∧
     rsDecode [(3, 0x5A)] = .corrected [(3, 0x5A)] ∧ s.scrubEn 15 7 = true ∧ s.chanReady 511 = true ∧ s.tstate 15 < 2) := by decide +kernel
theorem witness_RefreshRowsAndWindowsOfAChannel :
    (let s := cached []
     let t := s.setFld (MC_STAT 15 7) (refPost 31) 8
     s.boot.on = true ∧ s.chanOk 511 = true ∧ s.fld (MC_STAT 15 7) (refPost 31) = 0 ∧ t.chanOk 511 = true ∧
     t.fld (MC_STAT 15 7) (refPost 31) = 8) := by decide +kernel
theorem witness_TheThermalLadderMovesOneStep :
    (let s := (cached []).setFlag HIF_STAT HIF_STAT_LINK_UP false
     s.boot.on = true ∧ [85, 0, 0, 0, 0, 0, 0, 0].length = 8 ∧ s.canHost = false ∧ nextTstate (s.tstate 0) 85 = 1 ∧
     (s.setFlag (MC_STAT 15 0) MC_STAT_GRACE true).flag (MC_STAT 15 0) MC_STAT_GRACE = true) := by decide +kernel
theorem witness_AFlushLeavesNoLineOfItsController :
    (let s := cached [(0x1FFFFFFFF, some line0)]
     let u := { s with dram := { s.dram with flush := [127] } }
     s.boot.on = true ∧ s.linkUp = true ∧ s.regOn (DC_CTRL 15 7) = true ∧ 127 ∈ u.dram.flush ∧ u.tstate 15 ≠ 3) := by decide +kernel

/-- A powered device in stage READY whose 512 channels answer. -/
def serving (l : List (Nat × Nat)) : State := ready ((List.range 128).map (fun i => (MC_STAT (i / 8) (i % 8), 0xF)) ++ l)
theorem serving_serves : allServe (serving []) := by
  have h : ∀ g : Fin 512, (serving []).chanOk g.val = true := by decide +kernel
  exact fun g hg => h ⟨g, hg⟩
/-- Stream 7 of face 63 of die 15 over 2 KiB of granule 0 of object 5: direction `dir`. -/
def sword (dir : Nat) : Nat := 5 * 2 ^ 40 + 2 ^ 80 + dir * 2 ^ 90 + 4 * 2 ^ 93 + 32 * 2 ^ 112
def streaming (dir : Nat) (k : Strm) : State := (((serving [(LD_GEOM 0, 0x7333)]).setSdesc 15 63 7 (sword dir)).setReg (PF_STAT 15 63 7) (1 + dir * 2)).setStrm 15 63 7 k
/-- Place the ledger entry of key k with kind, class, device and address. -/
def withLed (k kind cls dev addr : Nat) (s : State) : State := s.setLed ((keyWays k).headD 0) (leMake k kind false false cls dev addr)
theorem witness_StreamsIssueReturnAndAcknowledgeLines :
    (let s := streaming 0 { next := 7, flight := [6], freed := 4, lies := [(6, some (.here 0))] }
     let w := s.sdesc 15 63 7
     let k := s.strm 15 63 7
     let g : Seg := ⟨5 * 2 ^ 40 + 7 * 256, 256, 7 * 256⟩
     let h : Seg := ⟨5 * 2 ^ 40 + 6 * 256, 256, 6 * 256⟩
     let t := streaming 1 { next := 7, flight := [6], freed := 4, fill := [(7, 2 ^ 256 - 1)] }
     let u := streaming 1 { next := 8, flight := [7], lies := [(7, some (.here 0))] }
     let v := withLed (5 * 2 ^ 24) kProxy 2 0x21 0 t
     let x := v.streamResolve 15 63 7 g.oa
     s.boot.on = true ∧ s.flag (PF_STAT 15 63 7) PF_STAT_ACTIVE = true ∧ s.flag (PF_STAT 15 63 7) PF_STAT_DIR = false ∧
     streamSeg w 7 = some g ∧ 7 - (k.free 4).freed < min (sdDepth w) (16 * sdRing w) ∧ s.faceFlight 15 63 < 256 ∧
     ((withLed (5 * 2 ^ 24) kProxy 2 0x21 0 s).streamResolve 15 63 7 g.oa).1 = .away 0x21 ∧ s.inGeom 0x21 = true ∧
     streamSeg w 6 = some h ∧ 6 ∈ k.flight ∧ k.place 6 = .here 0 ∧ s.lineShut (.here 0) h = false ∧
     s.lineWaits (.here 0) h (sdHint w < 2) = false ∧ v.flag (PF_STAT 15 63 7) PF_STAT_DIR = true ∧
     streamSeg (v.sdesc 15 63 7) 7 = some g ∧ (v.strm 15 63 7).flight.length < sdDepth (v.sdesc 15 63 7) ∧ v.faceFlight 15 63 < 256 ∧
     (v.strm 15 63 7).filled 7 g = true ∧ x.2.storeLie (oaKey g.oa) x.1 = .away 0x21 ∧
     (u.strm 15 63 7).flight.find? (u.strm 15 63 7).ownAck = some 7 ∧ ((u.strm 15 63 7).land 7).flight = [] ∧
     streamSeg (u.sdesc 15 63 7) 8 = none) := by decide +kernel

/-! ### placement -/

def blk (a0 a1 a2 a3 : Nat) : List Byte := leBytes 8 0 ++ leBytes 8 a0 ++ leBytes 8 a1 ++ leBytes 4 a2 ++ leBytes 4 a3 ++ List.replicate 32 0
/-- The host's word waits in mailbox 1. -/
def asking (w : Nat) (s : State) : State := mboxed 1 w s
def isWaiting (s : State) (w : Nat) : Bool :=
  decide (s.cmdAt 1 = some (.own w)) && !wFwd w && s.flag (HIF_RING_HI 1) HIF_RING_HI_V &&
  !s.hostLost (s.blkOff 1 (.own w)) 64 && s.plc.busy.isNone &&
  !s.flag (F2H_STAT 1) F2H_STAT_FULL && !s.hif.late.contains 1 && Memory.wf s.mem
def regioned (used : Nat) : State :=
  (((serving []).setReg (PLC_REGION_W2 63) 4).setReg (PLC_REGION_W3 63) used).setFlag (PLC_REGION_W3 63) PLC_REGION_W3_V true
theorem witness_ObjectCommandsAreDoneAndAnswered :
    (let s := serving []
     let r := regioned 0
     let l := withLed (5 * 2 ^ 24) kLocal 2 0 3 s
     s.boot.on = true ∧ isWaiting (asking 0x20 s) 0x20 = true ∧ s.objBad 1 (2 ^ 32) = false ∧ s.objBad 0 (2 ^ 32) = true ∧
     s.objBad 1 0 = true ∧ (∀ a ∈ l.ledgerAddrs, leKind (l.led a) = kLocal ∧ leAddr (l.led a) < 2 ^ 25) ∧ l.ledgerAddrs.length = 1 ∧
     isWaiting (asking 0x21 s) 0x21 = true ∧ s.running = false ∧ (st [(STEP_STAT, 4)]).running = true ∧ s.ownId 0 = false ∧ s.ownId 4094 = true ∧
     isWaiting (asking 0x22 s) 0x22 = true ∧ s.regionV 63 = false ∧ s.regionClash 0x10000 1 = false ∧
     isWaiting (asking 0x23 r) 0x23 = true ∧ r.regionV 63 = true ∧ r.regionUsed 63 = 0 ∧ (regioned 4).regionV 63 = true ∧
     (regioned 4).regionUsed 63 ≠ 0 ∧ isWaiting (asking 0x26 s) 0x26 = true) := by decide +kernel
def keeping (l : List (Nat × Option (Nat × Nat))) : State := let s := serving []; { s with plc := { s.plc with resv := l } }
theorem witness_ReservedFramesAndEvacuation :
    (let s := asking 0x24 (serving [])
     let k := asking 0x24 (keeping [(15, some (3, 2))])
     let e := asking 0x25 (serving [])
     let b := { e with plc := { e.plc with busy := some (.own 0x25), evac := some 2 } }
     let g := b.takeFrame 0 (5 * 2 ^ 24) 2 false false
     s.boot.on = true ∧ isWaiting s 0x24 = true ∧ s.running = false ∧ mapGet (fun _ => none) 15 s.plc.resv = none ∧
     (∀ x ∈ s.plc.resv, x.2 = none) ∧ fmUsed (s.fm 65493) = false ∧ 65493 < poolFrames 0 ∧
     mapGet (fun _ => none) 15 k.plc.resv = some (3, 2) ∧ isWaiting k 0x24 = true ∧ isWaiting e 0x25 = true ∧ e.eng.active = none ∧
     e.eng.next = none ∧ (stepping 0 []).flag STEP_STAT STEP_STAT_HOLD = false ∧ (stepping 0 []).eng.active.isSome = true ∧
     b.plc.busy ≠ none ∧ b.plc.evac ≠ none ∧ isWaiting b 0x25 = false ∧ b.cmdAt 1 = some (.own 0x25) ∧
     b.hostLost (b.blkOff 1 (.own 0x25)) 64 = false ∧ b.evacEmpty = true ∧ g.evacEmpty = false) := by decide +kernel
def oa5 : Nat := 5 * 2 ^ 40
def k5 : Nat := 5 * 2 ^ 24
/-- Object 5 of this device (class 2), every channel ready, and its frames counted. -/
def owning : State :=
  let s := serving [(PLC_FREE, 65494), (PLC_WATER, 1 + 2 * 2 ^ 16), (PLC_STAT, 1), (PLC_CTRL, 1), (LD_GEOM 0, 0x7333)]
  { s with mem := setBytes (leBytes 32 (1 + 2 * 2 + 4 * 2 ^ 10 + 2 ^ 32)) (objRecAddr 5) s.mem }
/-- A granule of object 5 of device 1. -/
def kOther : Nat := (1 * 4096 + 5) * 2 ^ 24
theorem witness_ResolutionPlacesFreshensAndAsks :
    (let s := owning
     let l := withLed k5 kLocal 2 0 3 s
     let p := withLed kOther kProxy 2 0x21 0 s
     let m := { p with fab := { p.fab with tags := [(4, some (.obj (.read (keyOa kOther)) 0)), (5, some (.obj (.read (keyOa kOther)) 3))] } }
     s.boot.on = true ∧ s.flag PLC_STAT PLC_STAT_EVACUATED = false ∧ oaKey oa5 = k5 ∧ s.whereIs k5 = .empty ∧
     orBind (s.objRec 5) = false ∧ orMirror (s.objRec 5) = false ∧ orTmin (s.objRec 5) = 0 ∧ s.lowMark < s.freeFrames ∧
     (s.pickFrame (s.objRec 5) none).isSome = true ∧ ((keyWays k5).find? (fun a => leKind (s.led a) == kEmpty)).isSome = true ∧
     l.lookup k5 = some ((keyWays k5).headD 0, leMake k5 kLocal false false 2 0 3) ∧ leKind (leMake k5 kLocal false false 2 0 3) = kLocal ∧
     leAddr (leMake k5 kLocal false false 2 0 3) < 2 ^ 25 ∧ s.serverOf 0 = s.devId ∧
     s.keyGone kOther = false ∧ s.lookup kOther = none ∧ s.serverOf 1 = 1 ∧ s.devId = 0 ∧ s.inGeom 1 = true ∧
     p.lookup kOther = some ((keyWays kOther).headD 0, leMake kOther kProxy false false 2 0x21 0) ∧
     leKind (leMake kOther kProxy false false 2 0x21 0) = kProxy ∧ leClass (leMake kOther kProxy false false 2 0x21 0) = 2 ∧
     p.inGeom (leDev (leMake kOther kProxy false false 2 0x21 0)) = true ∧ s.lookup (6 * 2 ^ 24) = none ∧ orValid (s.objRec 6) = false ∧
     (s.setFlag PLC_STAT PLC_STAT_EVACUATED true).flag PLC_STAT PLC_STAT_EVACUATED = true ∧
     (k5, true) ∈ (s.setLedc k5 [(k5, true)]).ledcWays k5 ∧ (k5, false) ∉ (s.setLedc k5 [(k5, true)]).ledcWays k5 ∧
     m.useOf 4 = some (.obj (.read (keyOa kOther)) 0) ∧ m.useOf 5 = some (.obj (.read (keyOa kOther)) 3) ∧
     (∀ b ∈ keyWays kOther, b ≠ (keyWays kOther).headD 0 → leKind (p.led b) = kEmpty)) := by decide +kernel
def granule (used : Bool) (s : State) : State := if used then s.takeFrame 3 k5 2 false false else s
def mig (rsp : Bool) (op addr : Nat) : Packet := { type := 7, rsp := rsp, src := 9, dst := 0, args := op, addr := addr, ext := keyOa k5, tag := 4, data := [1] }
def moved (m : Move) (s : State) : State := { s with plc := { s.plc with moves := [m] } }
def move0 : Move := ⟨k5, .evict, some (3 * 65536), 9, 0, false, true, []⟩
theorem witness_AgesMovesMendsAndTheRebuiltMap :
    (let s := granule true owning
     let d := moved move0 (withLed k5 kMoving 2 9 3 s)
     let n := { (withLed k5 kLocal 2 0 3 s).setLed ((keyWays k5).headD 0) (leMake k5 kLocal true false 2 0 3) with
       plc := { s.plc with mends := [⟨k5, 2, [9], false⟩], rebuild := [511, 0] } }
     let q := { s with fab := { s.fab with tags := [(4, some (.mig k5))] } }
     s.boot.on = true ∧ Memory.wf s.mem = true ∧ (ready []).flag PLC_STAT PLC_STAT_READY = false ∧ s.flag PLC_STAT PLC_STAT_READY = true ∧
     s.flag PLC_STAT PLC_STAT_EVICTING = false ∧ 3 ∈ s.poolUsed ∧ s.engineFree = true ∧ s.flag PLC_CTRL PLC_CTRL_EVICT_EN = true ∧
     (s.setReg PLC_FREE 1023).freeFrames < (s.setReg PLC_FREE 1023).lowMark ∧ s.lowMark ≤ s.freeFrames ∧
     regionOf (mig false 0 (3 * 65536)).addr = .dram ∧ s.served (3 * 65536) 512 = true ∧
     lePoison (leMake k5 kMoving false false 2 9 3) = false ∧ fmKey (s.fm 3) = oaKey (keyOa k5) ∧ fmUsed (s.fm 3) = true ∧
     fmKey ((granule false owning).fm 3) ≠ k5 ∧ d.lookup k5 = some ((keyWays k5).headD 0, leMake k5 kMoving false false 2 9 3) ∧
     leKind (leMake k5 kMoving false false 2 9 3) = kMoving ∧ d.chanOk (gchan ((keyWays k5).headD 0)) = true ∧
     q.useOf 4 = some (.mig k5) ∧ d.plc.moves.find? (fun m => m.done) = some move0 ∧ move0.srcAddr = some (3 * 65536) ∧
     d.plc.evac = none ∧ d.plc.round = none ∧ (∀ m ∈ (moved { move0 with done := false } s).plc.moves, m.done = false) ∧
     lePoison (n.led ((keyWays k5).headD 0)) = true ∧ (n.lookup k5).isSome = true ∧ (n.pickFrame (n.objRec 5) none).isSome = true ∧
     0 ∈ n.plc.rebuild ∧ n.chanOk 511 = true ∧ 510 ∉ n.plc.rebuild ∧ (keyWays k5).headD 0 ∈ n.ledgerAddrs ∧ n.ledgerAddrs.length = 1 ∧
     fmNopool (n.fm 3) = false) := by decide +kernel
def led (op ext : Nat) (oa : Nat) : Packet := { type := 6, src := 0x21, dst := 0, args := op, addr := oa, ext := ext, tag := 4, data := leBytes 16 0 }
theorem witness_LedgerPacketsKeepTheLedgersInStep :
    (let s := owning
     let l := withLed k5 kLocal 2 0 3 s
     let w := withLed k5 kPeer 2 0x21 3 s
     let e := leMake k5 kLocal false false 2 0 3
     let q := { s with fab := { s.fab with tags := [(4, some (.lookup (.read (keyOa kOther)) 0))] } }
     s.boot.on = true ∧ (led 0 0 oa5).type = 6 ∧ Memory.wf s.mem = true ∧ q.useOf 4 = some (.lookup (.read (keyOa kOther)) 0) ∧
     leClass (leNat ((led 0 0 oa5).data.take 16)) ≠ 1 ∧ ledHolder 0x21 (leNat ((led 0 0 oa5).data.take 16)) = 0x21 ∧ q.inGeom 0x21 = true ∧
     q.lookup (oaKey (keyOa kOther)) = none ∧ q.keyGone (oaKey (keyOa kOther)) = false ∧
     ((keyWays kOther).find? (fun a => leKind (q.led a) == kEmpty)).isSome = true ∧
     l.lookup k5 = some ((keyWays k5).headD 0, e) ∧ leR0V e = false ∧ leAddr e < 2 ^ 25 ∧
     (leR0V (setBits (setBits e 57 1 1) 104 12 9) = true ∧ leR1V (setBits (setBits e 57 1 1) 104 12 9) = false ∧
      leRepl0 (setBits (setBits e 57 1 1) 104 12 9) = 9) ∧ lePoison e = false ∧
     s.serverOf (keyObj kOther / 4096) ≠ s.devId ∧ s.highMark < s.freeFrames ∧ s.unevacuated = true ∧ (s.pickFrame (extRec 0) none).isSome = true ∧
     s.lookup kOther = none ∧ (s.setReg PLC_FREE 2048).freeFrames ≤ (s.setReg PLC_FREE 2048).highMark ∧
     s.serverOf (keyObj k5 / 4096) = s.devId ∧ (w.pickFrame (w.objRec 5) none).isSome = true ∧
     w.lookup k5 = some ((keyWays k5).headD 0, leMake k5 kPeer false false 2 0x21 3) ∧
     (let d := moved move0 (withLed k5 kMoving 2 9 3 s)
      d.lookup k5 = some ((keyWays k5).headD 0, leMake k5 kMoving false false 2 9 3) ∧ d.moveOf k5 = some move0 ∧
      leKind (leMake k5 kMoving false false 2 9 3) = kMoving ∧ s.flag PLC_STAT PLC_STAT_EVACUATED = false) ∧
     w.flag PLC_CTRL PLC_CTRL_PULL_EN = false ∧ l.moveOf k5 = none ∧ (∀ b ∈ l.ledgerAddrs, b = (keyWays k5).headD 0) ∧
     oaOwner (keyOa kOther) ≠ s.devId ∧ s.flag (PLC_ALIAS 15) PLC_ALIAS_V = false ∧
     (∀ i, i < 16 → s.flag (PLC_ALIAS i) PLC_ALIAS_V = false) ∧ s.serverOf (oaOwner oa5) = s.devId ∧ s.lookup k5 = none ∧
     lePoison (leNat ((led 5 1 oa5).data.take 16)) = false ∧ leKind (leNat ((led 5 1 oa5).data.take 16)) ≠ kPeer) := by decide +kernel

/-! ### links, routers and Crucibles -/

/-- Link l of trunk 0 in a state; the far end of trunk 0 is device 0x100. -/
def linked (l st : Nat) (k : Link) (more : List (Nat × Nat)) : State :=
  (ready ([(LD_GEOM 0, 0x7333), (lnkStat l, st + 0x100 * 2 ^ 6 + 5 * 2 ^ 18), (LD_STAT (l / 32), 64), (LD_TRUNK 0 0, 0x100 * 2 ^ 15 + 2 ^ 27)] ++
    (List.range 128).filterMap (fun j => if j = l then none else some (lnkStat j, 7 * 8)) ++ more)).setLink l k
def farEnd (s : State) : LinkId := { dev := 0x100, port := 1, link := 5, crc := s.geomCrc }
theorem witness_LinksTrainCheckAndRetrain :
    (let s (st : Nat) := linked 127 st {} [(lnkCtrl 127, 1)]
     (s 4).boot.on = true ∧ (s 1).lstate 127 = lsDetect ∧ (s 2).lstate 127 = lsTrain ∧ (s 5).lstate 127 = lsRetrain ∧
     (s 3).lstate 127 = lsCheck ∧ (s 3).checkOk 127 (farEnd (s 3)) = true ∧ (s 3).checkOk 127 { farEnd (s 3) with port := 0 } = false ∧
     (s 4).lstate 127 = lsUp ∧ ((s 4).link 127).retries ≤ (s 4).ldFld 3 (LD_HEALTH_CFG 3) LD_HEALTH_CFG_RETRY_LIM ∧
     (s 4).ldFld 3 (LD_HEALTH_CFG 3) LD_HEALTH_CFG_AUTO_RETRAIN ≠ 0 ∧ (s 6).lstate 127 = lsFailed ∧ (s 4).linkUp = true ∧
     (s 4).regOn (lnkCtrl 127) = true ∧ (s 4).mayTrain 127 = true ∧ (s 4).flag (lnkCtrl 127) LNK_CTRL_EN = true ∧
     (linked 127 0 {} [(lnkCtrl 127, 0)]).flag (lnkCtrl 127) LNK_CTRL_EN = false ∧ (s 0).lstate 127 = lsDown ∧ (s 0).lport 127 < 6 ∧
     (s 0).flag (LD_STAT 3) LD_STAT_READY = true ∧ (linked 127 4 {} [(lnkStat 0, 4)]).upLinks 0 = [0, 127] ∧
     ((s 4).upLinks ((s 4).lport 127)).filter (fun j => j != 127) = [] ∧ (s 3).fab.resend = [] ∧ (s 4).parStop.contains (LD_CTRL 3) = false ∧
     (let u := linked 127 4 {} [(lnkStat 0, 4)]
      (u.upLinks 0).filter (fun j => j != 127) = [0] ∧ u.unanswered 0 = [] ∧ 1 ≤ u.credit 0 6 ∧ u.replayFlits 0 < 512) ∧
     (s 4).fld (LNK_RETRAINS 3 31) LNK_RETRAINS_HOUR < (s 4).ldFld 3 (LD_HEALTH_CFG 3) LD_HEALTH_CFG_RETRAIN_MAX ∧
     (s 4).lstate 127 ≠ lsDisabled ∧ (s 7).lstate 127 = lsDisabled ∧ (s 7).mayTrain 127 = true ∧ (s 1).fld AON_BOOT_STAT AON_BOOT_STAT_STAGE ≠ 6 ∧
     (let b (st : Nat) := linked 127 st {} [(AON_BOOT_STAT, 6)]
      (b 1).fld AON_BOOT_STAT AON_BOOT_STAT_STAGE = 6 ∧ (b 1).lstate 127 = lsDetect ∧ (b 2).lstate 127 = lsTrain)) := by decide +kernel
theorem witness_FlitsAreTakenInOrderOrAskedForAgain :
    (let s := linked 127 4 {} []
     let n := linked 127 4 { naking := true, naks := 7 } []
     let got := mapGet (fun _ => []) 8 (s.link 127).part ++ List.replicate 32 (0 : Byte)
     s.boot.on = true ∧ (linked 127 0 {} []).lstate 127 ≠ lsUp ∧ s.lstate 127 = lsUp ∧ ((s.link 127).rxAck + 1) % 4096 % 16 = 0 ∧
     badWords [] = false ∧ 32 * (1 + headerLen got) ≤ got.length ∧
     (mapGet (fun _ => []) 8 (s.link 127).part ++ [(0 : Byte)]).length < 32 * (1 + headerLen [(0 : Byte)]) ∧ 1 % 16 ≠ 0 ∧
     (n.link 127).naking = true ∧ 7 ≤ (n.link 127).naks ∧ (s.link 127).naking = false ∧ (s.link 127).naks < 7 ∧ n.lstate 127 = lsUp ∧
     badWords [7] = true ∧ poisonWords [] = false ∧ isControl 0 = false ∧ isControl bchControl = true ∧
     isControl (0 ^^^ bchControl) = true ∧ mapGet (fun _ => []) (s.lport 127) s.fab.resend = [] ∧
     (if (n.link 127).nakAck = 0 then (n.link 127).nakIn else 0) + 1 < 8) := by decide +kernel
def pkt (type dst : Nat) (ord : Bool) : Packet := { type := type, src := 0, dst := dst, ord := ord, tag := 4, data := List.replicate 32 7 }
def toLink (p : Packet) (k : Link) : State :=
  let s := linked 0 4 k []
  { s with fab := { s.fab with waiting := [p] } }
theorem witness_PacketsTakeTheirRouteOrAreReturned :
    (let p := pkt 1 0x100 true
     let q := pkt 1 0x100 false
     let s := linked 0 4 {} []
     let w := toLink q {}
     let i := linked 0 4 { inbox := [p] } []
     let sync : Packet := { type := 8, src := 0x100, dst := 0, args := 5, ext := 5 * 2 ^ 12 }
     let e : Nat × Packet := (9, p)
     let r := { s with fab := { s.fab with resync := [(0, [⟨4, [e]⟩])] } }
     s.boot.on = true ∧ s.devId = 0 ∧ s.atRouter none p = true ∧ i.atRouter (some 0) p = true ∧ s.atRouter (some 0) p = false ∧
     (pkt 1 0 true).dst = s.devId ∧ (pkt 9 0 true).type = 9 ∧ { p with hops := 48 }.hops = 48 ∧ p.hops < 48 ∧ p.detour = false ∧
     s.fab.waiting = [] ∧ s.candidates 0x100 = [0] ∧ (linked 0 0 {} []).trunkUp 0 = false ∧
     ((linked 0 0 {} [(LD_GEOM 0, 0x333)]).dimWrap 0 = false ∧ (linked 0 0 {} [(LD_GEOM 0, 0x333)]).trunkUp 0 = false ∧
      (linked 0 0 {} [(LD_GEOM 0, 0x333)]).candidates 0x100 = [0]) ∧
     s.trunkUp 0 = true ∧ s.upLinks 0 = [0] ∧ s.ordOut 0 = false ∧ s.ordBehind none p = false ∧
     pktFlits p ≤ s.credit 0 (3 * pktCls p) ∧ s.replayFlits 0 + pktFlits p ≤ 512 ∧
     (linked 0 4 { credit := [1] } []).credit 0 (3 * pktCls p) < pktFlits p ∧ p ∉ w.fab.waiting ∧ q ∈ w.fab.waiting ∧ q.esc = false ∧
     q.dst ≠ w.devId ∧
     (List.range 128).find? (fun l => s.fld (lnkStat l) LNK_STAT_NBR_ID == sync.src &&
       s.fld (lnkStat l) LNK_STAT_NBR_LINK == bits sync.ext 12 7 && s.lport l < 6) = some 0 ∧ (s.link 0).rxAck < 4096 ∧
     (((r.lives 0).filter (fun f => f.tag == 4)).flatMap (fun f => f.kept)).filter (fun e => !seqAcked 8 e.1) = [e] ∧
     (((r.lives 0).filter (fun f => f.tag == 4)).flatMap (fun f => f.kept)).filter (fun e => !seqAcked 9 e.1) = [] ∧
     (s.link 0).ends = [] ∧ (s.link 0).asked = [] ∧
     (let k := (linked 0 4 { asked := [(0, 4095)], ends := [7] } []).link 0
      k.asked.find? (fun e => e.1 == sync.tag) = some (0, 4095) ∧ k.ends.headD k.rxAck = 7) ∧ r.upLinks (r.lport 0) = [0] ∧
     r.fits 0 p.vc p = true ∧ mapGet (fun _ => []) (r.lport 0) r.fab.resend = []) := by decide +kernel
def asked1 (type addr : Nat) : Packet := { type := type, ak := true, src := 0x100, dst := 0, args := 8, addr := addr, ext := 0xF, tag := 4, data := List.replicate 32 7 }
def rspOf (type status : Nat) : Packet := { type := type, rsp := true, src := 0x100, dst := 0, status := status, tag := 4 }
theorem witness_RequestsAreServedAndResponsesSettle :
    (let s := cached []
     let u (x : TagUse) := { s with fab := { s.fab with tags := [(4, some x)] } }
     s.boot.on = true ∧ (pkt 0 1 false).dst ≠ s.devId ∧ (asked1 0 0).dst = s.devId ∧ akOk (asked1 0 0x1FFFFFFFF00) = true ∧
     regionOf 0x1FFFFFFFF00 = .dram ∧ dcRange 0x1FFFFFFFF00 (rdLen (asked1 0 0)) = true ∧ s.served 0x1FFFFFFFF00 256 = true ∧
     s.mustWait 0x1FFFFFFFF00 256 = false ∧ rdHint (asked1 0 0) = 0 ∧ (s.setLines 0x1FFFFFFFF).length < 16 ∧
     regionOf 0x2000FFFFFF00 = .faceStore ∧ 0x2000FFFFFF00 + 256 ≤ 0x200100000000 ∧ s.served 0x400000000 256 = false ∧
     regionOf 0x20000000000 = .reserved ∧ akOk (asked1 0 (2 ^ 60)) = false ∧ s.fromAnchor (asked1 0 0x300000000000) = false ∧
     regionOf 0x300000000000 = .register ∧ regionOf 0x300040000000 = .bitAlias ∧ (u (.obj (.read 5) 2)).useOf (rspOf 0 0).tag = some (.obj (.read 5) 2) ∧ s.fab.nextTag ≠ 4 ∧
     (u .write).useOf (rspOf 1 0).tag = some .write ∧ s.lowPending (.memQueue 0 0) .scrub = true ∧ s.lowPending .tracePort .trace = false ∧ (s.setLines (0x1FFFFFFFF00 / 256)).length < 16) := by decide +kernel

/-- Job 4095 of 256 blocks in one part at Crucible 127, whose entry 0 is in state `stt` for step 9. -/
def jobbed (stt : Nat) : State :=
  (ready [(DIR_W0 4095, 3), (DIR_W1 4095, 1 + 2 * 2 ^ 8), (DIR_W2 4095, 256), (DIR_W3 4095, 4), (DIR_W4 4095, 4 + 127 * 2 ^ 16)]).setPart
    127 0 stt 4095 9
def accIn (step slot copy shard : Nat) : Packet := accPkt 0 step 4095 slot copy shard 3 (accExt 127 false false false 1 1) false false (List.replicate 256 0)
def doneIn (slot step : Nat) : Packet := donePkt 0 4095 127 slot 0 false 4 step
theorem witness_ContributionsAndDonesReachTheirParts :
    (let s := jobbed jtOpen
     let c := jobbed jtClosed
     let t := { s with cru := { s.cru with timers := [4095] } }
     let e (s : State) := (s.partAt 4095 127).map (fun p => (ptStep p.2, ptState p.2))
     s.boot.on = true ∧ (accIn 9 1 0 0).type = 3 ∧ (accPkt 0 9 4095 1 0 0 3 0 true false []).type = 2 ∧ bits (accIn 9 1 0 0).args 0 12 = 4095 ∧
     s.cruOf 4095 0 = 127 ∧ e s = some (9, jtOpen) ∧ e c = some (9, jtClosed) ∧ stepOlder (accIn 8 1 0 0).tag 9 = true ∧
     (ready []).partAt 4095 127 = none ∧ (ready []).dirRecv 4095 = false ∧ s.dirRecv 4095 = true ∧ s.accReason (accIn 9 1 0 0) = 0 ∧
     s.accReason (accIn 9 2 0 0) = 4 ∧ s.accReason (accIn 9 1 0 1) = 2 ∧ s.accReason (accIn 9 1 1 0) = 5 ∧ s.accReason (accIn 9 1 2 0) = 0 ∧
     (accVals (accIn 9 1 0 0)).all imgFin = true ∧ bit (accIn 9 1 0 0).ext 8 = false ∧ brCount 0 + bits (accIn 9 1 0 0).ext 16 8 ≤ 255 ∧
     ctlSub (doneIn 1 9) 6 = true ∧ (doneIn 1 9).addr % 16 = 0 ∧ s.partIx 4095 127 < s.nparts 4095 ∧ s.fld (DIR_W1 4095) DIR_W1_NSLOT = 2 ∧
     bits (doneIn 1 9).ext 32 16 = 9 ∧ stepOlder (bits (doneIn 1 8).ext 32 16) 9 = true ∧ 4095 ∈ t.cru.timers ∧ 4095 ∉ s.cru.timers ∧
     (∃ x ∈ (t.setReg (DIR_W12 4095) (9 * 2 ^ 16)).parts, ptJob x.2.2 = 4095 ∧
       ptStep x.2.2 = (t.setReg (DIR_W12 4095) (9 * 2 ^ 16)).jobStep 4095 ∧ ptState x.2.2 = jtOpen) ∧
     (∀ x ∈ c.parts, ptState x.2.2 ≠ jtOpen) ∧
     (let k := stageKey 127 false 4095 255
      let g : Staged := { sums := [0], word := 1, use := 0 }
      let v := { s with cru := { s.cru with stage := [(k, some g)] } }
      mapGet (fun _ => none) k v.cru.stage = some g ∧ bchDecode 7 = .uncorrectable ∧ bchDecode 3 ≠ .uncorrectable)) := by decide +kernel

/-! ### registers and the host path -/

theorem witness_SequenceClearClearsOnlyTheFlagsSeen :
    (let s := ready [(MC_EVENT 15 7, 0x312)]
     s.boot.on = true ∧ isSQ (MC_EVENT 15 7) = true ∧ MC_EVENT 15 7 % 4 = 0 ∧ s.linkUp = true ∧ s.regOn (MC_EVENT 15 7) = true ∧
     0x112 % 256 = s.reg (MC_EVENT 15 7) % 256 ∧ 0x111 % 256 ≠ s.reg (MC_EVENT 15 7) % 256) := by decide +kernel
theorem witness_RegisterWriteSetsItsFieldsAndNothingElse :
    (let s := ready []
     s.boot.on = true ∧ plainReg STEER_CTRL = true ∧ STEER_CTRL % 4 = 0 ∧ s.linkUp = true ∧ s.regOn STEER_CTRL = true ∧
     bit (accMask .rw STEER_CTRL) 0 = true ∧ plainReg (MC_CTRL 15 7) = true ∧ s.regOn (MC_CTRL 15 7) = true ∧
     reqNo .host < reqNo .foreman ∧ reqNo .foreman < reqNo .dieCtl ∧ STEER_CTRL ≠ PKG_RACE_ADDR ∧ STEER_CTRL ≠ PKG_RACE_CNT) := by
  decide +kernel
/-- R376: the host's write of 1 and the Foreman's of 0 meet in one cycle; the Foreman's stands and the race is counted. -/
theorem test_race_is_logged :
    (let t := (ready []).writeAll ⟨.foreman, [(.host, 1)]⟩ 0 (accessRegs .bar0 STEER_CTRL 4) (fun s r x => s.barPut r .bar0 STEER_CTRL 4 x)
     t.reg STEER_CTRL % 2 = 0 ∧ t.reg PKG_RACE_ADDR = STEER_CTRL + 3 * 2 ^ 26 ∧ t.reg PKG_RACE_CNT = 1) := by decide +kernel
theorem witness_PairsAndSummariesAreReadWhole :
    (let s := ready []
     s.boot.on = true ∧ s.linkUp = true ∧ pairOf STEP_GMICRO_LO = 1 ∧ pairOf (STEP_GMICRO_LO + 4) = 2 ∧ STEP_GMICRO_LO % 4 = 0 ∧
     s.regOn (STEP_GMICRO_LO + 4) = true ∧ s.regOn STEP_GMICRO_LO = true ∧ steadyWord STEP_GMICRO_LO = true ∧
     steadyWord (STEP_GMICRO_LO + 4) = true ∧ plainWord 0x301020 = true ∧ plainWord 0x301024 = true ∧
     pairOf 0x301020 = 1 ∧ pairOf 0x301024 = 2 ∧ s.regOn PKG_EVENT_SUM = true ∧ s.regOn (DIE_FACE_SUM_1 15) = true ∧
     STEP_GMICRO_LO % 8 = 0 ∧ STEP_GMICRO_LO < 0x2000000 ∧ STEER_CTRL % 4 = 0 ∧ STEER_CTRL < 0x4000000 ∧ pairOf STEER_CTRL = 0 ∧
     steadyWord STEER_CTRL = true ∧ accMask .rc STEER_CTRL = 0 ∧ s.regOn STEER_CTRL = true) := by decide +kernel
def halfOpen (a v : Nat) (l : List (Nat × Nat)) : State := (ready l).setHalf 0 (some (a, v))
theorem witness_GuardedPairTakenWholeOrFailed :
    (let s := ready []
     let h := halfOpen (SPR_KEY 3) 5 []
     s.boot.on = true ∧ isWG AON_RST_CTRL = true ∧ isSQ AON_RST_CTRL = false ∧ AON_RST_CTRL % 4 = 0 ∧ s.regOn AON_RST_CTRL = true ∧
     s.openOthers (reqNo .host) AON_RST_CTRL = [] ∧ s.linkUp = true ∧ reqNo .host = 0 ∧ h.regOn (SPR_KEY 3) = true ∧
     h.openOthers 0 (SPR_KEY 3) = [] ∧ h.half 0 = some (SPR_KEY 3, 5) ∧ (0xFFFFFFFA : Nat) = 0xFFFFFFFF - 5 ∧ h.running = false) := by
  decide +kernel
theorem witness_WritesOfStepStateAreDroppedDuringAStep :
    (let s := halfOpen (SPR_KEY 0) 5 [(STEP_STAT, 4)]
     s.boot.on = true ∧ s.linkUp = true ∧ s.pdOn 3 = true ∧ s.running = true ∧ (ready []).running = false ∧ (ready []).pdOn 3 = true ∧
     s.openOthers 0 (SPR_KEY 0) = [] ∧ s.half 0 = some (SPR_KEY 0, 5)) := by decide +kernel
theorem witness_ControlWritesSetTheirFields :
    (let s := ready []
     s.boot.on = true ∧ s.linkUp = true ∧ s.regOn (FSQ_CTRL 15 63) = true ∧ s.regOn (BENCH_CTRL 15 63 15) = true ∧
     (s.face 15 (gangLeader (s.gangMap 15) 63)).gemm = none ∧ s.regOn STEP_CTRL = true ∧ s.running = false ∧
     (stepping 0 []).running = true ∧ s.regOn (STEER_ENTRY_W0 4095 + 4 * 7) = true ∧ s.regOn TRC_CTRL = true ∧ s.regOn TRC_MARK = true ∧
     bit 0 TRC_CTRL_PORT_EN.lo = false ∧ s.regOn HM_CONS = true ∧ s.regOn FR_CONS = true ∧ 0 = s.reg HM_PROD ∧ 0 = s.reg FR_PROD) := by
  decide +kernel
theorem witness_ParityScrubRecordsAndStopsTheUnit :
    (let s := ready []
     s.boot.on = true ∧ s.regOn (MC_CTRL 15 7) = true ∧ s.flag PKG_CFGPAR_ADDR PKG_CFGPAR_ADDR_VALID = false ∧
     (s.setFlag PKG_CFGPAR_ADDR PKG_CFGPAR_ADDR_VALID true).flag PKG_CFGPAR_ADDR PKG_CFGPAR_ADDR_VALID = true) := by decide +kernel
theorem witness_DirectoryWordsAreWrittenBetweenSteps :
    (let s := ready []
     s.boot.on = true ∧ s.linkUp = true ∧ s.pdOn 3 = true ∧ s.running = false ∧ (stepping 0 []).running = true ∧
     DIR_W0 4095 = 0x540000 + 4095 * 64 ∧ DIR_W14 4095 = 0x540000 + 4095 * 64 + 4 * 14) := by decide +kernel
def unlinked (l : List (Nat × Nat)) : State :=
  let s := (ready l).setFlag HIF_STAT HIF_STAT_LINK_UP false
  { s with boot := { s.boot with pcie := true } }
theorem witness_WithoutFlitModeTheLinkIsRetried :
    (let s := unlinked []
     s.boot.on = true ∧ s.isMember = false ∧ s.boot.perst = false ∧ s.pcieOn = true ∧ s.flag HIF_STAT HIF_STAT_LINK_UP = false) :=
  by decide +kernel
theorem witness_TheHostPathCarriesAccessesBothWays :
    (let s := ready [(MC_STAT 0 0, 0xF)]
     let r : HostReq := ⟨4, 0x1000, 4, asked1 0 (hwBase + 0x1000)⟩
     let q := { s with hif := { s.hif with reqs := [r] } }
     let a := anchor [(HIF_PEER_SEL, 0x1123)]
     let d := s.setFlag HIF_STAT HIF_STAT_D3HOT true
     s.boot.on = true ∧ (unlinked []).boot.perst = false ∧ (unlinked []).isMember = false ∧ (unlinked []).pcieOn = true ∧ (unlinked []).flag HIF_STAT HIF_STAT_LINK_UP = false ∧
     (unlinked []).flag HIF_STAT HIF_STAT_D3HOT = false ∧ s.isMember = false ∧ s.flag HIF_STAT HIF_STAT_LINK_UP = true ∧
     s.flag HIF_STAT HIF_STAT_D3HOT = false ∧ d.flag HIF_STAT HIF_STAT_D3HOT = true ∧ d.flag HIF_STAT HIF_STAT_LINK_UP = true ∧
     s.barOpen false = true ∧ s.bar2Region 0 0 = none ∧ s.bar2Region (2 ^ 41) 4 = none ∧ s.bar2Region 252 4 = some .dram ∧
     dcRange (s.bar2Addr 252) 4 = true ∧ s.served (s.bar2Addr 252) 4 = true ∧ s.mustWait (s.bar2Addr 252) 4 = false ∧
     (s.setLines 0).length < 16 ∧ (s.setReg HIF_WIN_BASE 0x800).bar2Region 0xFFFFFFFC 4 = some .faceStore ∧
     q.hif.reqs.find? (fun x => x.tag == r.tag) = some r ∧ q.hif.reqQ = [] ∧ 2 ^ 44 - 1 < 2 ^ 44 ∧ s.isAnchor = false ∧ a.isAnchor = true ∧ a.linkUp = true ∧
     0x3FFFFFC % 4 = 0 ∧ a.flag HIF_PEER_SEL HIF_PEER_SEL_V = true ∧ a.flag HIF_CTRL HIF_CTRL_PEER_EN = true ∧ a.inGeom 0x123 = true ∧
     a.fld HIF_PEER_SEL HIF_PEER_SEL_DEV = 0x123) := by decide +kernel
theorem witness_TheHostPathCarriesAccessesBothWays_config :
    (let s := ready []
     let h := { s with boot := { s.boot with cfgHeld := true } }
     s.boot.on = true ∧ s.isMember = false ∧ s.flag HIF_STAT HIF_STAT_LINK_UP = true ∧ s.boot.cfgHeld = false ∧ h.boot.cfgHeld = true ∧
     h.boot.on = true ∧ h.isMember = false ∧ h.flag HIF_STAT HIF_STAT_LINK_UP = true ∧ (stepping 0 []).boot.on = true ∧
     (stepping 0 []).flag HIF_STAT HIF_STAT_LINK_UP = true ∧ (stepping 0 []).isMember = false ∧
     (stepping 0 []).flag HIF_STAT HIF_STAT_D3HOT = false ∧ (stepping 0 []).running = true ∧
     ((stepping 0 []).chan 15).closed = false) := by decide +kernel
def fwdPkt (v : List Byte) : Packet := { type := 8, src := 0x123, dst := 0, args := 3, tag := 4, data := v }
/-- Mailbox m holds a word. -/
def worded (m w : Nat) (s : State) : State := (s.setFlag (H2F_STAT m) H2F_STAT_FULL true).setReg (H2F_DATA m) w
/-- A CFG_SET of the host waits for a compaction. -/
def setHeld : State :=
  let s := (ready []).setFlag (H2F_STAT 2) H2F_STAT_TIMING true
  { s with boot := { s.boot with held := [⟨.own 0x31, 0x30, 0, true, false⟩] } }
theorem witness_MailboxesCarryWordsAndAnswers :
    (let s := ready []
     let a := anchor []
     let f (dev : Nat) := 0x120 + dev * 2 ^ 9
     let m := ready [(PKG_ROLE, 2), (LD_DEVID 0, 0x123 * 2 ^ 12 + 2 ^ 24)]
     let o := { a with hif := { a.hif with fwdOut := [(15, 0x123)] } }
     let dm (w : Nat) := (s.setFlag (H2D_STAT 15) H2D_STAT_FULL true).setReg (H2D_DATA 15) w
     s.boot.on = true ∧ s.linkUp = true ∧ s.pdOn 0 = true ∧ s.flag (H2F_STAT 15) H2F_STAT_FULL = false ∧
     (worded 15 0xF0 s).flag (H2F_STAT 15) H2F_STAT_FULL = true ∧ s.flag (F2H_STAT 15) F2H_STAT_FULL = false ∧
     (s.setFlag (F2H_STAT 15) F2H_STAT_FULL true).flag (F2H_STAT 15) F2H_STAT_FULL = true ∧ mapGet (fun _ => []) 15 s.hif.f2hQ = [] ∧
     s.flag (H2F_STAT 0) H2F_STAT_TIMING = false ∧ (s.setFlag (H2F_STAT 0) H2F_STAT_TIMING true).flag (H2F_STAT 0) H2F_STAT_TIMING = true ∧
     s.stopWaits = false ∧ s.cmdAt 15 = none ∧ (stopping s).stopWaits = true ∧ isClear 0 (stopping s) = true ∧
     (worded 0 (f 0x123) (stopping s)).cmdAt 0 = some (.own (f 0x123)) ∧ (stopping s).eng.stop ≠ none ∧ (worded 15 0xF0 s).cmdAt 15 = some (.own 0xF0) ∧ wFwd 0xF0 = false ∧ wCode 0xF0 = 0xF0 ∧
     isClear 15 s = true ∧ knownCode 15 0xF1 = false ∧ s.eng.stop = none ∧ (worded 1 (f 0x123) a).cmdAt 1 = some (.own (f 0x123)) ∧
     wFwd (f 0x123) = true ∧ wDev (f 0x123) = 0x123 ∧ s.isAnchor = false ∧ a.isAnchor = true ∧ a.flag HIF_CTRL HIF_CTRL_FWD_EN = true ∧
     a.inGeom 0x123 = true ∧ a.inGeom 0x444 = false ∧ a.devId ≠ 0x123 ∧ o.hif.fwdOut.find? (fun e => e.1 == 15) = some (15, 0x123) ∧
     (fwdPkt (mboxFlit 0 15 1 0)).args % 256 = 3 ∧ bit (blkNat (mboxFlit 0 15 1 0) 4 4) 4 = true ∧ bits (blkNat (mboxFlit 0 15 1 0) 4 4) 0 4 = 15 ∧
     (15, (fwdPkt []).src) ∈ o.hif.fwdOut ∧ wCode 0 ≠ 0x0F ∧ isClear 15 o = true ∧ bit (blkNat (mboxFlit 0x20 1 0 0) 4 4) 4 = false ∧
     m.isMember = true ∧ m.flag (LD_DEVID 0) LD_DEVID_ANCHOR_V = true ∧ (fwdPkt []).src = m.fld (LD_DEVID 0) LD_DEVID_ANCHOR ∧
     mapGet (fun _ => none) 1 m.hif.fwdIn = none ∧ (ready [(PKG_PD_STAT 3, 0)]).pdOn (diePd 15) = false ∧ s.pdOn (diePd 15) = true ∧
     (s.setFlag (D2H_STAT 15) D2H_STAT_FULL true).flag (D2H_STAT 15) D2H_STAT_FULL = true ∧ mapGet (fun _ => []) 15 s.hif.d2hQ = [] ∧
     (dm 0x40).flag (H2D_STAT 15) H2D_STAT_FULL = true ∧ (dm 0x40).flag (D2H_STAT 15) D2H_STAT_FULL = false ∧
     (dm 0x40).hif.late.contains 31 = false ∧ wCode ((dm 0x42).reg (H2D_DATA 15)) = 0x42 ∧ (dm 0x42).busyFaces 15 = 0 ∧
     (holding 0 (desc0 0 0 0) .running).busyFaces 0 = 1) := by decide +kernel
-- the same statement's clause about a CFG_SET that waits
theorem witness_MailboxesCarryWordsAndAnswers_waiting :
    ((ready []).setWaits = false ∧ setHeld.boot.on = true ∧ setHeld.setWaits = true ∧
     setHeld.flag (H2F_STAT 2) H2F_STAT_TIMING = true ∧ isClear 2 setHeld = true) := by decide +kernel
-- and its clauses about a member's read of a command block
theorem witness_MailboxesCarryWordsAndAnswers_block :
    (let m := ready [(PKG_ROLE, 2), (LD_DEVID 0, 0x123 * 2 ^ 12 + 2 ^ 24), (LD_GEOM 0, 0x7333)]
     let c : FwdCmd := ⟨0x20, 0x4000, 0x123, 9, none, [], true, false⟩
     let n := { m with hif := { m.hif with fwdIn := [(1, some c)] }, fab := { m.fab with tags := [(4, some (.block 1))] } }
     needsBlk 1 (wCode 0x20) = true ∧ needsBlk 15 (wCode 0xF0) = false ∧ m.inGeom 0x123 = true ∧ (rspOf 0 0).type = 0 ∧ (rspOf 0 0).poison = false ∧
     n.useOf (rspOf 0 0).tag = some (.block 1) ∧ mapGet (fun _ => none) 1 n.hif.fwdIn = some c ∧ c.blk = none) := by decide +kernel
theorem witness_DoorbellsAndForwardedFaultsReachTheHost :
    (let s := ready [(DB_CFG 63, 1), (MSIX_CTRL 79, 0)]
     let p : Packet := { type := 5, src := 1, dst := 0, args := 63 + 7 * 2 ^ 16 }
     let r := anchor [(FR_RING_HI, 0x1000)]
     let v := FaultRec.bytes ⟨3, false, 0x123, 0x301, 1, 2, 3, 4, 5⟩
     let w := { r with obs := { r.obs with win := [(3, 255)] } }
     s.boot.on = true ∧ p.type = 5 ∧ s.fld (DB_CFG 63) DB_CFG_THRESH = 1 ∧ 1 ≤ satAdd 32 (s.reg (DB_COUNT 63)) 1 ∧ 63 ∉ s.hif.dbFired ∧
     s.linkUp = true ∧ s.flag (MSIX_CTRL 79) MSIX_CTRL_MASK = false ∧ (ready [(DB_CFG 63, 0)]).fld (DB_CFG 63) DB_CFG_THRESH = 0 ∧ s.pdOn 0 = true ∧
     v.length = 32 ∧ r.isAnchor = true ∧ r.limited 3 = false ∧ (w.setReg FR_CFG 255).limited 3 = true ∧
     r.flag FR_RING_HI FR_RING_HI_V = true ∧ r.canHost = true ∧ ringUsed (r.reg FR_PROD) (r.reg FR_CONS) < 2 ^ ringLog 0) := by decide +kernel

/-! ### start-up, trust, observation and power -/

def staged (k : Nat) (q : List Nat) : State := let s := ready [(AON_BOOT_STAT, k)]; { s with boot := { s.boot with powerQ := q } }
def cfg0 : List Byte := defaultCfg.take 12 ++ leBytes 4 264353841 ++ defaultCfg.drop 16
/-- An NVM whose bank 0 holds the default configuration. -/
def cfgNvm : List Host.Cell := (cfg0.zipIdx.filter (fun e => e.1 != 0xFF)).map (fun e => (bankBase 0 + e.2, e.1))
theorem witness_ResetsAndStartUpFollowTheirStages :
    (let s := halfOpen AON_RST_CTRL 1 []
     let b (k : Nat) := (staged k []).setHalf 0 (some (AON_RST_CTRL, 1))
     let w := { s with boot := { s.boot with warming := true } }
     let n := { staged 1 [] with boot := { (staged 1 []).boot with nvm := cfgNvm } }
     let p (k : Nat) (c : Option Nat) := { staged k [] with boot := { (staged k []).boot with perst := true, chosen := c } }
     s.boot.on = true ∧ s.flag HIF_STAT HIF_STAT_LINK_UP = true ∧ s.linkUp = true ∧ s.pdOn 0 = true ∧ s.openOthers 0 AON_RST_CTRL = [] ∧
     s.half 0 = some (AON_RST_CTRL, 1) ∧ bit 1 0 = true ∧ s.stage = 8 ∧ s.boot.warming = false ∧ (b 1).stage ≤ 1 ∧ (b 15).stage = 15 ∧
     w.boot.warming = true ∧ (p 0 none).boot.perst = true ∧ (p 0 none).stage = 0 ∧ (p 0 none).boot.chosen = none ∧ (p 8 (some 0)).stage ≠ 0 ∧
     (staged 1 []).boot.perst = false ∧ (staged 1 []).boot.chosen ≠ none ∧ (staged 1 []).stage = 1 ∧ (staged 0 []).stage ≠ 1 ∧
     bankChoice (staged 1 []).boot.nvm = none ∧ bankChoice n.boot.nvm = some 0 ∧ (staged 2 [122]).boot.powerQ = [122] ∧
     (staged 3 [11, 122]).boot.powerQ = [11, 122] ∧ (staged 5 []).stage = 5 ∧ (staged 5 []).boot.trained.contains 511 = false ∧
     (staged 5 []).boot.trained.length < 511 ∧ (staged 7 []).stage = 7 ∧ (staged 2 []).isMember = false ∧ (staged 2 []).boot.pcie = false ∧
     (unlinked []).boot.pcie = true ∧ (unlinked []).boot.perst = false) := by
  decide +kernel
-- a bank whose GEN was damaged after it was written counts as bad beside a good one of a lower GEN
theorem witness_ResetsAndStartUpFollowTheirStages_bank :
    bankBad (nvmPut cfgNvm (bankBase 1) (leBytes 4 0x43465A52 ++ leBytes 4 1 ++ leBytes 4 0x90 ++ leBytes 4 0 ++ leBytes 4 9)) = true := by
  decide +kernel
/-- The host's word waits in mailbox m; configuration cfg0 is in effect. -/
def trusting (m w : Nat) (b : Boot) : State := { mboxed m w (ready []) with boot := { b with on := true, cfg := cfg0, chosen := some 0, nvm := nvmPut b.nvm 0x800000 cfg0 } }
def isAsked (m w : Nat) (s : State) : Bool :=
  decide (s.cmdAt m = some (.own w)) && !wFwd w && s.flag (HIF_RING_HI m) HIF_RING_HI_V &&
  !s.hostLost (s.blkOff m (.own w)) 64 && isClear m s
theorem witness_ConfigurationFusesAndTrustCommandsAct :
    (let s := trusting 2 0x31 { perst := false, fwSvn := 5, fuses := { keyProg := 3 } }
     let f := trusting 2 0x31 { fwWrite := some (.own 0x34, []) }
     let m := trusting 2 0x31 { mustCompact := true, compact := some ⟨1, cfg0, false, none⟩ }
     let d := trusting 2 0x31 { sessions := [true, false], nvm := [(factoryBase, 4), (factoryBase + 1, 0), (factoryBase + 2, 7)] }
     ([0x30, 0x31, 0x32, 0x33, 0x34, 0x35, 0x36, 0x37].all fun w => isAsked 2 w (trusting 2 w {}) && wCode w == w) = true ∧
     f.mbox2Busy = true ∧ f.longRuns = true ∧ s.mbox2Busy = false ∧ s.longRuns = false ∧ s.boot.mustCompact = false ∧ m.boot.mustCompact = true ∧
     (trusting 2 0x31 { held := [⟨.own 0x31, 0x20, 0, true, true⟩] }).mbox2Busy = true ∧
     (trusting 2 0x31 { held := [⟨.own 0x31, 0x20, 0, true, true⟩] }).longRuns = false ∧ s.hostLost 0x1000 0x40000 = false ∧
     ({ s with hif := { s.hif with pages := [(1, some .timeout)] } } : State).hostLost 0x1000 4 = true ∧ d.boot.sessions.length = 2 ∧
     d.boot.sessions.contains false = true ∧ s.boot.sessions.length < 2 ∧ 0 < (certChain d.boot.nvm).length ∧ fieldOk (cfgLen cfg0) 0x1C = false ∧ fieldOk (cfgLen cfg0) 0x20 = true ∧
     fieldOk (cfgLen cfg0) 0x8C = true ∧ fieldOk (cfgLen cfg0) 0x90 = false ∧ s.canHost = true ∧
     s.flag AON_CFG_STAT AON_CFG_STAT_DEFAULTS = false ∧ (s.setFlag AON_CFG_STAT AON_CFG_STAT_DEFAULTS true).flag AON_CFG_STAT AON_CFG_STAT_DEFAULTS = true) := by decide +kernel
theorem witness_ConfigurationFusesAndTrustCommandsAct_more :
    (let s := trusting 2 0x31 { perst := false, fwSvn := 5, fuses := { keyProg := 3 } }
     let f := trusting 2 0x31 { fwWrite := some (.own 0x34, []) }
     let c (wait : Bool) (b : Nat) := trusting 2 0x31 { compact := some ⟨b, cfg0, wait, none⟩, erase := [b] }
     let h := trusting 2 0x31 { compact := some ⟨1, cfg0, false, none⟩, held := List.replicate 64 ⟨.own 0x31, 0x20, 0, true, false⟩ }
     let d := trusting 2 0x31 { sessions := [true, false], nvm := [(factoryBase, 4), (factoryBase + 1, 0), (factoryBase + 2, 7)] }
     s.storedLen = 0x90 ∧ s.noBank = false ∧ (s.setFlag AON_CFG_STAT AON_CFG_STAT_DEFAULTS true).noBank = true ∧
     s.boot.compact = none ∧ s.cfgRecords < 36864 ∧ (c true 1).boot.compact.isSome = true ∧ h.boot.held.length = 64 ∧
     (c true 1).boot.held.length < 64 ∧ cfgGood [] = false ∧ cfgGood cfg0 = true ∧ s.boot.fuses.svn < s.boot.fwSvn ∧
     f.boot.fwSvn ≤ f.boot.fuses.svn ∧ s.fld AON_BOOT_STAT AON_BOOT_STAT_KEY_SLOT = 0 ∧
     (List.range 4).any (fun i => i != 1 && bit s.boot.fuses.keyProg i && !bit s.boot.fuses.keyRev i) = true ∧
     cbArg3 (blk 0 0 0 0x4C4F434B) = 0x4C4F434B ∧ s.boot.fwWrite = none ∧ (c false 1).boot.held = [] ∧ f.boot.fwWrite = some (.own 0x34, []) ∧
     f.boot.chosen = some 0 ∧ s.boot.erase = [] ∧ (c true 1).boot.erase = [1] ∧ s.flag HIF_STAT HIF_STAT_LINK_UP = true ∧
     (unlinked []).flag HIF_STAT HIF_STAT_LINK_UP = false ∧ s.flag HIF_STAT HIF_STAT_IDE = false ∧ (d.setFlag AON_SPDM_STAT AON_SPDM_STAT_IDE_KEYS true).flag AON_SPDM_STAT AON_SPDM_STAT_IDE_KEYS = true ∧
     (s.measurement 1).isSome = true ∧ s.stage = 8 ∧ s.smbCfg = true ∧ ({ s with boot := { s.boot with cfg := List.replicate 144 0 } } : State).smbCfg = false ∧ bit (cbArg3 (blk 0x20 0 0 0)) 0 = false ∧
     wCode 0x38 = 0x38 ∧ s.boot.fuses.dbgLock = false ∧ (staged 15 []).stage = 15 ∧ s.regOn PKG_ROLE = true ∧ steadyWord PKG_ROLE = true ∧
     pairOf PKG_ROLE = 0 ∧ accMask .rc PKG_ROLE = 0 ∧ placeOf (F2H_DATA 0) 8 16 PKG_ROLE = none ∧ placeOf (DB_COUNT 0) 16 64 PKG_ROLE = none ∧
     placeOf (D2H_DATA 0) 0x400 16 PKG_ROLE = none ∧
     (trusting 2 0 { fuses := { dbgLock := true } }).boot.fuses.dbgLock = true) := by decide +kernel
def hm0 (n : Nat) : Hallmark := { watch := 15, words := [0, 0, 5 * 2 ^ 8, n], step := 1, micro := 0, phase := 0 }
def marked (n : Nat) (l : List (Nat × Nat)) : State := let s := ready l; { s with obs := { s.obs with marks := [(15, [hm0 n])] } }
def dumping (n : Option Nat) (l : List (Nat × Nat)) : State :=
  let s := ready l; { s with obs := { s.obs with dump := n, fifo := [⟨8, 1, 2⟩] }, boot := { s.boot with fuses := { dbgLock := true } } }
theorem witness_HallmarksTraceAndDumpsAreWrittenWhole :
    (let s := marked 769 [(HM_RING_HI, 0x1000)]
     let d := dumping (some 3) [(DUMP_LEN, 1), (DUMP_CFG, 0x10)]
     s.boot.on = true ∧ mapGet (fun _ => []) 14 s.obs.marks = [] ∧ mapGet (fun _ => []) 15 s.obs.marks = [hm0 769] ∧
     0 + 49152 < hmLen (hm0 769) ∧ hmLen (hm0 768) ≤ 0 + 49152 ∧ s.isMember = false ∧ (s.setReg HIF_CTRL 0).canHost = false ∧
     ((marked 768 [(HM_RING_HI, 0x1000)]).setReg HIF_CTRL 1).canHost = true ∧ s.flag HM_RING_HI HM_RING_HI_V = true ∧
     ringUsed (s.reg HM_PROD) (s.reg HM_CONS) < 2 ^ ringLog 6 ∧ 2 ^ ringLog 6 ≤ ringUsed 64 0 ∧ s.pending = [] ∧ s.obs.fifo = [] ∧
     d.obs.fifo = [⟨8, 1, 2⟩] ∧ (d.setReg TRC_STAT 1).flag TRC_STAT TRC_STAT_LINK = true ∧ d.flag TRC_STAT TRC_STAT_LINK = false ∧
     s.obs.dump = none ∧ d.obs.dump = some 3 ∧ (d.setReg HIF_CTRL 1).dumpMem = true ∧ s.dumpMem = false ∧
     d.flag TRC_STAT TRC_STAT_DEST = false ∧ d.boot.fuses.dbgLock = true ∧ d.flag DUMP_CFG DUMP_CFG_TENSOR = true ∧
     isAsked 4 0x50 (trusting 4 0x50 {}) = true ∧ isAsked 4 0x51 (trusting 4 0x51 {}) = true) := by decide +kernel
/-- A device at a point with a duty whose rail 0 reads `mw`, at every one of the last ten ticks. -/
def governed (point duty mw : Nat) (p : Power) : State :=
  let s := ready [(PWR_STAT, point + duty * 4 + 0x80), (PWR_REQ, 0)]
  { s with pwr := { p with rails := [(0, (mw, mw))], hist := List.replicate 10 mw } }
theorem witness_TheGovernorKeepsLimitsAndAnswersPins :
    (let s := governed 1 16 500000 { quiet := 99 }
     let o := governed 2 16 1100000 {}
     let c := governed 0 16 3000000 { capRun := true, capLate := true, tj := true, tj110 := true, trip := true, up := some 1 }
     s.boot.on = true ∧ s.point = 1 ∧ o.point = 2 ∧ c.point = 0 ∧ isAsked 3 0x60 (trusting 3 0x60 {}) = true ∧
     isAsked 3 0x61 (trusting 3 0x61 {}) = true ∧ isAsked 3 0x62 (trusting 3 0x62 {}) = true ∧ cbArg3 (blk 0 0 0 3) % 4 = 3 ∧
     cbArg3 (blk 0 0 0 2) % 4 ≠ 3 ∧ bits (cbArg2 (blk 0 0 0x01000000 0)) 0 9 = 0 ∧ bits (cbArg2 (blk 0 0 0x01000001 0)) 16 9 = 256 ∧
     (staged 5 []).isReady = false ∧ s.isReady = true ∧ s.pcap = 2500000 ∧ s.effLimit.1 = 1000000 ∧ s.p100 = 500000 ∧ c.pcap < c.p100 ∧
     s.govFld PWR_CTRL PWR_CTRL_GOV_EN = 1 ∧ s.ceiling = 0 ∧ s.p1 = 500000 ∧ s.pwr.tj = false ∧ s.effLimit.1 < o.p1 ∧ o.ceiling ≤ o.point ∧
     s.pwr.capLate = false ∧ s.pwr.tj110 = false ∧ upFits s.p1 s.effLimit.1 s.point = true ∧ 99 ≤ s.pwr.quiet ∧ s.pwr.up = none ∧ s.duty = 16 ∧
     (governed 1 8 500000 { quiet := 98 }).duty < 16 ∧ (governed 1 8 500000 { quiet := 98 }).pwr.quiet < 99 ∧
     (governed 1 8 900000 {}).effLimit.1 * 9 ≤ (governed 1 8 900000 {}).p1 * 10 ∧ 1 < ((governed 1 16 0 {}).setReg PWR_REQ 2).ceiling) := by decide +kernel
theorem witness_TheGovernorKeepsLimitsAndAnswersPins_pins :
    (let s := governed 1 16 500000 { quiet := 99 }
     let c := governed 0 16 3000000 { capRun := true, capLate := true, tj := true, tj110 := true, trip := true, up := some 1 }
     s.flag PWR_STAT PWR_STAT_TRANS = false ∧ (c.setFlag PWR_STAT PWR_STAT_TRANS true).flag PWR_STAT PWR_STAT_TRANS = true ∧ c.pwr.up = some 1 ∧
     c.ceiling ≤ 1 ∧ 1 < (c.setReg PWR_REQ 2).ceiling ∧ (s.setFld PWR_CTRL PWR_CTRL_GOV_EN 0).govFld PWR_CTRL PWR_CTRL_GOV_EN ≠ 1 ∧ s.ceiling < s.point ∧
     (s.setFld PWR_CTRL PWR_CTRL_THROT_EN 0).govFld PWR_CTRL PWR_CTRL_THROT_EN ≠ 1 ∧ s.stage = 8 ∧ (staged 4 []).stage < 5 ∧
     s.flag PWR_STAT PWR_STAT_COOL_OK = true ∧ (ready []).flag PWR_STAT PWR_STAT_COOL_OK = false ∧ s.flag PWR_STAT PWR_STAT_PWR_CAP = false ∧
     (s.setFlag PWR_STAT PWR_STAT_PWR_CAP true).flag PWR_STAT PWR_STAT_PWR_CAP = true ∧ s.pwr.capRun = false ∧ c.pwr.capRun = true ∧
     (governed 0 16 2500000 { capRun := true }).p100 ≤ (governed 0 16 2500000 { capRun := true }).pcap ∧
     [2, 3].map (fun n => decide (n < 3)) = [true, false] ∧ (List.replicate 68 120).length = 68 ∧ (List.replicate 68 120).foldl max 0 = 120 ∧
     s.pwr.trip = false ∧ c.pwr.trip = true ∧ s.boot.perst = false ∧ railDomain 33 = 122 ∧ s.idleGate 18560 = false ∧ s.idleGate 18559 = true ∧
     (123 - 1 = 122 ∧ 106 = 11 + 6 * 15 + 5) ∧ s.dieClean 15 = true ∧ (holding 0 (desc0 0 0 0) .running).idleGate 0 = true) := by decide +kernel

end Sys2Proof.Tests
end

section
/-! SUPPORT. Laws of registers and events that go beyond one field: fields that share no bit, what a raised event register shows
(R370), and that nothing that left the device is taken back. -/

namespace Sys2Proof.Laws

open Sys2Proof Sys2Proof.Machine

/-! ### fields of one register -/

/-- A field below bit `m` sees the value modulo 2 ^ m only. -/
theorem bits_mod {lo w m : Nat} (h : lo + w ≤ m) (v : Nat) : bits (v % 2 ^ m) lo w = bits v lo w := by
  apply Nat.eq_of_testBit_eq
  intro i
  simp only [bits, Nat.testBit_mod_two_pow, Nat.testBit_div_two_pow]
  by_cases hi : i < w
  · have : i + lo < m := by omega
    simp [hi, this]
  · simp [hi]

/-- A field from bit `m` on sees the quotient by 2 ^ m only. -/
theorem bits_div {lo m : Nat} (h : m ≤ lo) (v w : Nat) : bits v lo w = bits (v / 2 ^ m) (lo - m) w := by
  unfold bits
  rw [Nat.div_div_eq_div_mul, ← pow_add, Nat.add_sub_cancel' h]

/-- Setting a field leaves every field that shares no bit with it. -/
theorem bits_setBits_other {lo w lo' w' : Nat} (h : lo + w ≤ lo' ∨ lo' + w' ≤ lo) (v x : Nat) :
    bits (setBits v lo w x) lo' w' = bits v lo' w' := by
  have hlow : v % 2 ^ lo < 2 ^ lo := Nat.mod_lt _ (by positivity)
  rcases h with h | h
  · have hfld : x % 2 ^ w < 2 ^ w := Nat.mod_lt _ (by positivity)
    have hsum : v % 2 ^ lo + x % 2 ^ w * 2 ^ lo < 2 ^ (lo + w) := by
      rw [pow_add, Nat.mul_comm (2 ^ lo)]
      calc v % 2 ^ lo + x % 2 ^ w * 2 ^ lo < (x % 2 ^ w + 1) * 2 ^ lo := by rw [Nat.add_mul]; omega
        _ ≤ 2 ^ w * 2 ^ lo := Nat.mul_le_mul_right _ hfld
    rw [bits_div h, bits_div h v, setBits, Nat.add_mul_div_right _ _ (by positivity), Nat.div_eq_of_lt hsum, Nat.zero_add]
  · rw [← bits_mod h, ← bits_mod h v]
    congr 1
    have e : setBits v lo w x = v % 2 ^ lo + (x % 2 ^ w + v / 2 ^ (lo + w) * 2 ^ w) * 2 ^ lo := by
      unfold setBits; rw [pow_add]; ring
    rw [e, Nat.add_mul_mod_self_right, Nat.mod_mod]

theorem fld_of_reg {s t : State} {a : Nat} (h : t.reg a = s.reg a) (f : Fld) : t.fld a f = s.fld a f :=
  congrArg (fun v => bits v f.lo f.w) h
theorem flag_of_reg {s t : State} {a : Nat} (h : t.reg a = s.reg a) (f : Fld) : t.flag a f = s.flag a f :=
  congrArg (· != 0) (fld_of_reg h f)

theorem reg_setFld_same (s : State) (a : Nat) (f : Fld) (v : Nat) (h : f.lo + f.w ≤ 32) :
    (s.setFld a f v).reg a = setBits (s.reg a) f.lo f.w v := by
  unfold State.setFld
  rw [reg_setReg_same, Nat.mod_eq_of_lt (setBits_lt v (reg_lt s a) h)]

/-- Setting a field of a register leaves its other fields. -/
theorem fld_setFld_other (s : State) (a : Nat) {f g : Fld} (v : Nat) (h : f.lo + f.w ≤ 32)
    (hd : f.lo + f.w ≤ g.lo ∨ g.lo + g.w ≤ f.lo) : (s.setFld a f v).fld a g = s.fld a g := by
  unfold State.fld
  rw [reg_setFld_same s a f v h, bits_setBits_other hd]

theorem flag_setFld_other (s : State) (a : Nat) {f g : Fld} (v : Nat) (h : f.lo + f.w ≤ 32)
    (hd : f.lo + f.w ≤ g.lo ∨ g.lo + g.w ≤ f.lo) : (s.setFld a f v).flag a g = s.flag a g :=
  congrArg (· != 0) (fld_setFld_other s a v h hd)

theorem fld_setFlag_other (s : State) (a : Nat) {f g : Fld} (b : Bool) (h : f.lo + f.w ≤ 32)
    (hd : f.lo + f.w ≤ g.lo ∨ g.lo + g.w ≤ f.lo) : (s.setFlag a f b).fld a g = s.fld a g := fld_setFld_other s a _ h hd

theorem flag_setFlag_other (s : State) (a : Nat) {f g : Fld} (b : Bool) (h : f.lo + f.w ≤ 32)
    (hd : f.lo + f.w ≤ g.lo ∨ g.lo + g.w ≤ f.lo) : (s.setFlag a f b).flag a g = s.flag a g := flag_setFld_other s a _ h hd

/-- A flag reads what was written to it. -/
theorem flag_setFlag_same (s : State) (a : Nat) {f : Fld} (b : Bool) (h : f.lo < 32) (hw : f.w = 1) :
    (s.setFlag a f b).flag a f = b := by
  unfold State.flag State.setFlag
  rw [fld_setFld_same _ _ _ _ (by omega), hw]
  cases b <;> rfl

/-- A one-bit field is its bit of the register. -/
theorem flag_eq_testBit (s : State) (a : Nat) {f : Fld} (hw : f.w = 1) : s.flag a f = (s.reg a).testBit f.lo := by
  rw [State.flag, State.fld, hw, bits, pow_one, Nat.testBit_eq_decide_div_mod_eq]
  rcases Nat.mod_two_eq_zero_or_one (s.reg a / 2 ^ f.lo) with h | h <;> simp [h]

/-! ### what raising events shows -/

/-- Raising flags of an event register: each flag reads 1 afterwards where it was 1 or is raised (R370). -/
theorem raiseMask_flag (s : State) {a : Nat} (m : Nat) (h : a ∉ sumRegs a) (hm : m % 256 = 0) (hw : m < 2 ^ 32) {f : Fld}
    (h8 : 8 ≤ f.lo) (h1 : f.w = 1) : (s.raiseMask a m).flag a f = (s.flag a f || m.testBit f.lo) := by
  obtain ⟨k, hk⟩ := Nat.exists_eq_add_of_le h8
  have hi (v : Nat) : v.testBit f.lo = (v / 2 ^ 8).testBit k := by rw [Nat.testBit_div_two_pow, hk, Nat.add_comm]
  have hlow : (s.reg a + 1) % 256 < 2 ^ 8 := Nat.mod_lt _ (by decide)
  have hq : (s.reg a / 256 * 256 ||| m) = (s.reg a / 2 ^ 8 ||| m / 2 ^ 8) * 2 ^ 8 := by
    have hm' : m = m / 2 ^ 8 * 2 ^ 8 := (Nat.div_mul_cancel (Nat.dvd_of_mod_eq_zero hm)).symm
    conv_lhs => rw [hm']
    simp only [← Nat.shiftLeft_eq, Nat.shiftLeft_or_distrib, show 256 = 2 ^ 8 from rfl]
  rw [flag_eq_testBit _ _ h1, flag_eq_testBit _ _ h1, raiseMask_self s m h hm hw, hi, hi (s.reg a), hi m, hq, Nat.add_comm,
    Nat.add_mul_div_right _ _ (by decide), Nat.div_eq_of_lt hlow, Nat.zero_add, Nat.testBit_or]

theorem raise_reg (s : State) {a b : Nat} (f : Fld) (h : b ∉ sumRegs a) (ha : b ≠ a) : (s.raise a f).reg b = s.reg b :=
  raiseMask_reg s _ h ha

/-! ### what left the device stays out -/

theorem out_subset_fire (s : State) (v : Nat) : s.out ⊆ (s.fire v).out := by
  rcases fire_cases s v with h | ⟨x, h⟩ <;> rw [h]
  · exact List.subset_cons_self _ _
  · exact List.Subset.refl _

theorem out_subset_pkgSum (s : State) (m : Nat) : s.out ⊆ (s.pkgSum m).out := by
  have h : (s.orReg PKG_EVENT_SUM m).out = s.out := State.orReg_out s _ m
  unfold State.pkgSum
  generalize s.orReg PKG_EVENT_SUM m = t at h
  rw [← h]
  split
  · exact out_subset_fire t 9
  · exact List.Subset.refl _

theorem out_subset_summarise (s : State) (a : Nat) : s.out ⊆ (s.summarise a).out := by
  unfold State.summarise
  dsimp only
  split
  · refine List.Subset.trans ?_ (out_subset_pkgSum _ _)
    rw [State.orReg_out]
    split
    · split <;> simp only [State.orReg_out, List.Subset.refl]
    · exact List.Subset.refl _
  · repeat' split
    all_goals first | exact out_subset_pkgSum _ _ | exact List.Subset.refl _

theorem out_subset_raiseMask (s : State) (a m : Nat) : s.out ⊆ (s.raiseMask a m).out := by
  have h : s.out ⊆ ((s.setReg a ((s.reg a / 256 * 256 ||| m) + (s.reg a + 1) % 256)).summarise a).out :=
    out_subset_summarise (s.setReg a _) a
  unfold State.raiseMask
  dsimp only
  split
  · split
    · exact List.Subset.trans h (out_subset_fire _ _)
    · exact h
  · exact h

theorem out_subset_raise (s : State) (a : Nat) (f : Fld) : s.out ⊆ (s.raise a f).out := out_subset_raiseMask s a _

/-! ### frames -/

theorem regsKept_refl (s : State) (l : List Nat) : regsKept s s l := fun _ _ => rfl
theorem regsKept_trans {s t u : State} {l : List Nat} (h : regsKept s t l) (g : regsKept t u l) : regsKept s u l :=
  fun a ha => (g a ha).trans (h a ha)
theorem regsKept_mono {s t : State} {l l' : List Nat} (h : regsKept s t l) (hl : l ⊆ l') : regsKept s t l' :=
  fun a ha => h a (fun hm => ha (hl hm))
theorem regsKept_setReg (s : State) {a : Nat} {l : List Nat} (ha : a ∈ l) (v : Nat) : regsKept s (s.setReg a v) l :=
  fun _ hb => reg_setReg_other s (ne_of_mem_of_not_mem ha hb).symm v
theorem regsKept_setPair (s : State) {a : Nat} {l : List Nat} (ha : a ∈ l) (ha4 : a + 4 ∈ l) (v : Nat) :
    regsKept s (s.setPair a v) l :=
  regsKept_trans (regsKept_setReg s ha _) (regsKept_setReg _ ha4 _)
theorem regsKept_bump (s : State) {a : Nat} {l : List Nat} (ha : a ∈ l) (ha4 : a + 4 ∈ l) (n : Nat) :
    regsKept s (s.bump a n) l := regsKept_setPair s ha ha4 _
theorem regsKept_fire (s : State) {v : Nat} {l : List Nat} (hv : v < 512) (hl : pbaRegs ⊆ l) : regsKept s (s.fire v) l :=
  fun _ hb => fire_reg s hv (fun h => hb (hl h))
theorem regsKept_raise (s : State) {a : Nat} {l : List Nat} (ha : a ∈ l) (hl : sumRegs a ⊆ l) (f : Fld) :
    regsKept s (s.raise a f) l :=
  fun _ hb => raise_reg s f (fun h => hb (hl h)) (ne_of_mem_of_not_mem ha hb).symm

/-- A pair reads what was written to it. -/
theorem pair_setPair_same (s : State) (a : Nat) {v : Nat} (h : v < 2 ^ 64) : (s.setPair a v).pair a = v := by
  have hne : a ≠ a + 4 := by omega
  unfold State.pair State.setPair
  rw [reg_setReg_same, reg_setReg_other _ hne, reg_setReg_same]
  omega

theorem onlyRegs_bump (s : State) (a n : Nat) : onlyRegs s (s.bump a n) :=
  onlyRegs_trans (onlyRegs_setReg _ _ _) (onlyRegs_setReg _ _ _)

theorem pair_of_reg {s t : State} {a : Nat} (h : t.reg a = s.reg a) (h4 : t.reg (a + 4) = s.reg (a + 4)) : t.pair a = s.pair a := by
  rw [State.pair, State.pair, h, h4]

/-! ### one flag in each of several registers -/

/-- A fold that sets one flag in each of several registers. -/
theorem foldl_setFlag_onlyRegs (a : Nat → Nat) (f : Fld) (b : Nat → Bool) (l : List Nat) (s : State) :
    onlyRegs s (l.foldl (fun s r => s.setFlag (a r) f (b r)) s) := by
  induction l generalizing s with
  | nil => exact onlyRegs_refl s
  | cons r l ih => exact onlyRegs_trans (onlyRegs_setReg s _ _) (ih _)

theorem foldl_setFlag_regs (a : Nat → Nat) (f : Fld) (b : Nat → Bool) (l : List Nat) (s : State) :
    regsKept s (l.foldl (fun s r => s.setFlag (a r) f (b r)) s) (l.map a) := by
  induction l generalizing s with
  | nil => exact regsKept_refl s _
  | cons r l ih =>
    exact regsKept_trans (regsKept_setReg s List.mem_cons_self _) (regsKept_mono (ih _) (List.subset_cons_self _ _))

/-- Each register of the fold shows its flag. -/
theorem foldl_setFlag_flag {a : Nat → Nat} (ha : Function.Injective a) {f : Fld} (hf : f.lo < 32) (hw : f.w = 1) (b : Nat → Bool)
    {l : List Nat} (hl : l.Nodup) {r : Nat} (hr : r ∈ l) (s : State) :
    (l.foldl (fun s r => s.setFlag (a r) f (b r)) s).flag (a r) f = b r := by
  induction l generalizing s with
  | nil => cases hr
  | cons x l ih =>
    obtain ⟨hx, hn⟩ := List.nodup_cons.1 hl
    rcases List.mem_cons.1 hr with rfl | hr
    · have hk := foldl_setFlag_regs a f b l (s.setFlag (a r) f (b r)) (a r) (by rwa [List.mem_map_of_injective ha])
      exact (flag_of_reg hk f).trans (flag_setFlag_same s _ _ hf hw)
    · exact ih hn hr _

theorem foldl_setFlag_out (s : State) (a : Nat → Nat) (f : Fld) (b : Nat → Bool) (l : List Nat) :
    (l.foldl (fun s r => s.setFlag (a r) f (b r)) s).out = s.out := by
  induction l generalizing s with
  | nil => rfl
  | cons r l ih => exact (ih _).trans (State.setFlag_out s (a r) f (b r))

/-! ### power domains -/

theorem pdOn_eq_flag (s : State) (j : Nat) : s.pdOn j = s.flag (PKG_PD_STAT (j / 32)) ⟨j % 32, 1⟩ := by
  rw [State.pdOn, bit_eq_testBit, flag_eq_testBit _ _ rfl]

theorem pdOn_congr {s t : State} {j : Nat} (h : t.reg (PKG_PD_STAT (j / 32)) = s.reg (PKG_PD_STAT (j / 32))) : t.pdOn j = s.pdOn j := by
  rw [State.pdOn, State.pdOn, h]

theorem pdStat_injective : Function.Injective PKG_PD_STAT := fun i j h => by unfold PKG_PD_STAT at h; omega

theorem setPd_same (s : State) (j : Nat) (on : Bool) : (s.setPd j on).pdOn j = on := by
  rw [pdOn_eq_flag]
  exact flag_setFlag_same s _ on (Nat.mod_lt _ (by decide)) rfl

theorem setPd_other (s : State) {i j : Nat} (on : Bool) (h : i ≠ j) : (s.setPd j on).pdOn i = s.pdOn i := by
  by_cases hr : i / 32 = j / 32
  · rw [pdOn_eq_flag, pdOn_eq_flag, hr]
    exact flag_setFlag_other s _ on (by simp only; omega) (by simp only; omega)
  · exact pdOn_congr (reg_setFlag_other s (pdStat_injective.ne hr) _ _)

theorem onlyRegs_setPd (s : State) (j : Nat) (on : Bool) : onlyRegs s (s.setPd j on) := onlyRegs_setReg s _ _

/-- A command whose effect leaves the queue ends in its effect. -/
theorem done_kept {s t : State} (h : s.boot.on = true) (hp : t.pending = s.pending) : done s t = .next t := by
  rw [done_on h, queued, ← hp]

theorem done_self (s : State) : done s s = .next s := by
  simp only [done, ite_self]

end Sys2Proof.Laws
end

section
/-! SUPPORT. What an action of the governor leaves as it was, said once (`Steered`), and what each of its operations does to point,
duty and the transition (R450 to R454). -/

namespace Sys2Proof.Governor

open Sys2Proof Sys2Proof.Machine Sys2Proof.Laws

/-! ### the inputs of a decision -/

theorem govFld_congr {s t : State} {a : Nat} (hp : t.parStop = s.parStop) (hr : t.reg a = s.reg a) (f : Fld) :
    t.govFld a f = s.govFld a f := by
  rw [State.govFld, State.govFld, hp, fld_of_reg hr]

theorem p100_congr {s t : State} (h : t.pwr.rails = s.pwr.rails) : t.p100 = s.p100 := by rw [State.p100, State.p100, h]

/-- The duty the governor shows for a duty it means: 16 where THROT_EN is 0 (R461). -/
def shownDuty (s : State) (n : Nat) : Nat := if s.govFld PWR_CTRL PWR_CTRL_THROT_EN = 1 then n else 16

/-- Two states in which the governor finds the same requests, limits, readings and pins. -/
structure SameInputs (s t : State) : Prop where
  boot : t.boot = s.boot
  parStop : t.parStop = s.parStop
  rails : t.pwr.rails = s.pwr.rails
  ctrl : t.reg PWR_CTRL = s.reg PWR_CTRL
  req : t.reg PWR_REQ = s.reg PWR_REQ
  limit : t.reg PWR_LIMIT = s.reg PWR_LIMIT
  bootStat : t.reg AON_BOOT_STAT = s.reg AON_BOOT_STAT
  cool : t.flag PWR_STAT PWR_STAT_COOL_OK = s.flag PWR_STAT PWR_STAT_COOL_OK
  cap : t.flag PWR_STAT PWR_STAT_PWR_CAP = s.flag PWR_STAT PWR_STAT_PWR_CAP

namespace SameInputs

variable {s t : State}

theorem trans {u : State} (h : SameInputs s t) (g : SameInputs t u) : SameInputs s u :=
  ⟨g.boot.trans h.boot, g.parStop.trans h.parStop, g.rails.trans h.rails, g.ctrl.trans h.ctrl, g.req.trans h.req,
    g.limit.trans h.limit, g.bootStat.trans h.bootStat, g.cool.trans h.cool, g.cap.trans h.cap⟩
theorem govCtrl (h : SameInputs s t) (f : Fld) : t.govFld PWR_CTRL f = s.govFld PWR_CTRL f := govFld_congr h.parStop h.ctrl f
theorem shownDuty (h : SameInputs s t) (n : Nat) : shownDuty t n = shownDuty s n := by
  rw [Governor.shownDuty, Governor.shownDuty, h.govCtrl]
theorem p100 (h : SameInputs s t) : t.p100 = s.p100 := p100_congr h.rails
theorem pcap (h : SameInputs s t) : t.pcap = s.pcap := by rw [State.pcap, State.pcap, govFld_congr h.parStop h.limit]
theorem effLimit (h : SameInputs s t) : t.effLimit = s.effLimit := by
  have hp : t.plim = s.plim := by rw [State.plim, State.plim, h.boot]
  rw [State.effLimit, State.effLimit, hp, govFld_congr h.parStop h.limit, h.cap, h.pcap]
theorem reqPoint (h : SameInputs s t) : t.reqPoint = s.reqPoint := by
  rw [State.reqPoint, State.reqPoint, govFld_congr h.parStop h.req]
theorem coolCeiling (h : SameInputs s t) : t.coolCeiling = s.coolCeiling := by
  rw [State.coolCeiling, State.coolCeiling, h.cool, govFld_congr h.parStop h.req]
theorem ceiling (h : SameInputs s t) : t.ceiling = s.ceiling := by
  rw [State.ceiling, State.ceiling, h.reqPoint, h.coolCeiling]
theorem isReady (h : SameInputs s t) : t.isReady = s.isReady := by
  rw [State.isReady, State.isReady, fld_of_reg h.bootStat]
theorem vrms (h : SameInputs s t) : t.vrms = s.vrms := by
  have hv (d : Nat) : t.vrmAddr d = s.vrmAddr d := by rw [State.vrmAddr, State.vrmAddr, h.boot]
  rw [State.vrms, State.vrms, funext hv]

end SameInputs

/-! ### the frame of an action -/

/-- The registers an action of the governor writes: its status, its events and what raising them may change. -/
def steerRegs : List Nat := PWR_STAT :: PWR_EVENT :: sumRegs PWR_EVENT

/-- What an action of the governor leaves: nothing but its registers, its record of the step up and of the quiet ticks, and what left
the device differs; the two pins it answers show as before, and no event is taken back. -/
structure Steered (s t : State) : Prop where
  rest : t = { s with regs := t.regs, out := t.out, pwr := t.pwr }
  regs : regsKept s t steerRegs
  cool : t.flag PWR_STAT PWR_STAT_COOL_OK = s.flag PWR_STAT PWR_STAT_COOL_OK
  cap : t.flag PWR_STAT PWR_STAT_PWR_CAP = s.flag PWR_STAT PWR_STAT_PWR_CAP
  events : ∀ f : Fld, 8 ≤ f.lo → f.w = 1 → s.flag PWR_EVENT f = true → t.flag PWR_EVENT f = true
  pwr : t.pwr = { s.pwr with up := t.pwr.up, quiet := t.pwr.quiet }
  out : s.out ⊆ t.out

namespace Steered

variable {s t u : State}

theorem refl (s : State) : Steered s s where
  rest := rfl
  regs := regsKept_refl s _
  cool := rfl
  cap := rfl
  events := fun _ _ _ h => h
  pwr := rfl
  out := List.Subset.refl _

theorem trans (h : Steered s t) (g : Steered t u) : Steered s u where
  rest := by rw [g.rest, h.rest]
  regs := regsKept_trans h.regs g.regs
  cool := g.cool.trans h.cool
  cap := g.cap.trans h.cap
  events := fun f h8 h1 hf => g.events f h8 h1 (h.events f h8 h1 hf)
  pwr := by rw [g.pwr, h.pwr]
  out := List.Subset.trans h.out g.out

/-! ### what reads as before -/

theorem pending (h : Steered s t) : t.pending = s.pending := by rw [h.rest]
theorem mem (h : Steered s t) : t.mem = s.mem := by rw [h.rest]
theorem reg (h : Steered s t) {a : Nat} (ha : a ∉ steerRegs) : t.reg a = s.reg a := h.regs a ha
theorem fld (h : Steered s t) {a : Nat} (ha : a ∉ steerRegs) (f : Fld) : t.fld a f = s.fld a f := fld_of_reg (h.reg ha) f

theorem sameInputs (h : Steered s t) : SameInputs s t where
  boot := by rw [h.rest]
  parStop := by rw [h.rest]
  rails := by rw [h.pwr]
  ctrl := h.reg (by decide)
  req := h.reg (by decide)
  limit := h.reg (by decide)
  bootStat := h.reg (by decide)
  cool := h.cool
  cap := h.cap

theorem p1 (h : Steered s t) : t.p1 = s.p1 := by rw [State.p1, State.p1, h.pwr]

/-! ### the operations it is made of -/

/-- Setting a field of PWR_STAT that is not one of the two pins. -/
theorem setFld (s : State) {f : Fld} (v : Nat) (h : f.lo + f.w ≤ 32) (hf : f.lo + f.w ≤ 7 ∨ 9 ≤ f.lo) :
    Steered s (s.setFld PWR_STAT f v) where
  rest := rfl
  regs := regsKept_setReg s (by decide) _
  cool := flag_setFld_other s _ v h (by simp only; omega)
  cap := flag_setFld_other s _ v h (by simp only; omega)
  events := fun g _ _ hg => (flag_of_reg (reg_setFld_other s (by decide) f v) g).trans hg
  pwr := rfl
  out := List.Subset.refl _

theorem setFlag (s : State) {f : Fld} (b : Bool) (h : f.lo + f.w ≤ 32) (hf : f.lo + f.w ≤ 7 ∨ 9 ≤ f.lo) :
    Steered s (s.setFlag PWR_STAT f b) := setFld s _ h hf

theorem emit (s : State) (o : Output) : Steered s (s.emit o) where
  rest := rfl
  regs := regsKept_refl s _
  cool := rfl
  cap := rfl
  events := fun _ _ _ h => h
  pwr := rfl
  out := List.subset_cons_self _ _

/-- Noting a step up or a count of quiet ticks. -/
theorem note (s : State) (up : Option Nat) (quiet : Nat) :
    Steered s { s with pwr := { s.pwr with up := up, quiet := quiet } } where
  rest := rfl
  regs := regsKept_refl s _
  cool := rfl
  cap := rfl
  events := fun _ _ _ h => h
  pwr := rfl
  out := List.Subset.refl _

theorem raise (s : State) {f : Fld} (h8 : 8 ≤ f.lo) (hl : f.lo < 32) : Steered s (s.raise PWR_EVENT f) where
  rest := by
    have h := onlyRegs_raiseMask s PWR_EVENT (2 ^ f.lo)
    rw [← State.raise, onlyRegs] at h
    rw [raise_pwr]
    exact h
  regs := regsKept_raise s (by decide) (by decide) f
  cool := flag_of_reg (raise_reg s f (by decide) (by decide)) _
  cap := flag_of_reg (raise_reg s f (by decide) (by decide)) _
  events := fun g g8 g1 hg => by
    obtain ⟨k, hk⟩ := Nat.exists_eq_add_of_le h8
    have hm : 2 ^ f.lo % 256 = 0 := by rw [hk, pow_add]; exact Nat.mul_mod_right 256 _
    rw [State.raise, raiseMask_flag s _ (by decide) hm (Nat.pow_lt_pow_right (by decide) hl) g8 g1, hg, Bool.true_or]
  pwr := by rw [raise_pwr]
  out := out_subset_raise s _ f

end Steered

/-! ### point and duty -/

theorem duty_lt (s : State) : s.duty < 32 := bits_lt _ _ _

theorem shownDuty_lt (s : State) {n : Nat} (h : n < 32) : shownDuty s n < 32 := by
  unfold shownDuty
  split <;> omega

theorem reqPoint_le (s : State) : s.reqPoint ≤ 2 := by
  have h : s.govFld PWR_REQ PWR_REQ_POINT < 4 := by
    unfold State.govFld State.fld
    split <;> exact bits_lt _ _ _
  unfold State.reqPoint
  dsimp only
  split <;> omega

theorem coolCeiling_le (s : State) : s.coolCeiling ≤ 2 := by
  unfold State.coolCeiling
  repeat' split
  all_goals decide

theorem ceiling_le (s : State) : s.ceiling ≤ 2 := Nat.max_le.2 ⟨reqPoint_le s, coolCeiling_le s⟩

theorem point_of_reg {s t : State} (h : t.reg PWR_STAT = s.reg PWR_STAT) : t.point = s.point := fld_of_reg h _
theorem duty_of_reg {s t : State} (h : t.reg PWR_STAT = s.reg PWR_STAT) : t.duty = s.duty := fld_of_reg h _

/-! #### raising an event, and telling the regulators -/

@[simp] theorem raise_point (s : State) (f : Fld) : (s.raise PWR_EVENT f).point = s.point :=
  point_of_reg (raise_reg s f (by decide) (by decide))
@[simp] theorem raise_duty (s : State) (f : Fld) : (s.raise PWR_EVENT f).duty = s.duty :=
  duty_of_reg (raise_reg s f (by decide) (by decide))

@[simp] theorem emit_point (s : State) (o : Output) : (s.emit o).point = s.point := rfl
@[simp] theorem emit_duty (s : State) (o : Output) : (s.emit o).duty = s.duty := rfl

/-! #### setQuiet -/

theorem steered_setQuiet (s : State) (n : Nat) : Steered s (s.setQuiet n) := .note s _ _
@[simp] theorem setQuiet_point (s : State) (n : Nat) : (s.setQuiet n).point = s.point := rfl
@[simp] theorem setQuiet_duty (s : State) (n : Nat) : (s.setQuiet n).duty = s.duty := rfl
@[simp] theorem setQuiet_up (s : State) (n : Nat) : (s.setQuiet n).pwr.up = s.pwr.up := rfl
@[simp] theorem setQuiet_quiet (s : State) (n : Nat) : (s.setQuiet n).pwr.quiet = n := rfl

/-! #### setLimiter -/

theorem steered_setLimiter (s : State) (v : Nat) : Steered s (s.setLimiter v) := .setFld s v (by decide) (by decide)
@[simp] theorem setLimiter_point (s : State) (v : Nat) : (s.setLimiter v).point = s.point :=
  fld_setFld_other s _ v (by decide) (by decide)
@[simp] theorem setLimiter_duty (s : State) (v : Nat) : (s.setLimiter v).duty = s.duty :=
  fld_setFld_other s _ v (by decide) (by decide)
@[simp] theorem setLimiter_pwr (s : State) (v : Nat) : (s.setLimiter v).pwr = s.pwr := rfl
theorem setLimiter_limiter (s : State) {v : Nat} (h : v < 8) : (s.setLimiter v).fld PWR_STAT PWR_STAT_LIMITER = v :=
  (fld_setFld_same s _ _ v (by decide)).trans (Nat.mod_eq_of_lt h)

/-! #### setDuty -/

theorem steered_setDuty (s : State) (n : Nat) : Steered s (s.setDuty n) := .setFld s _ (by decide) (by decide)
@[simp] theorem setDuty_point (s : State) (n : Nat) : (s.setDuty n).point = s.point :=
  fld_setFld_other s _ _ (by decide) (by decide)
theorem setDuty_duty (s : State) {n : Nat} (h : n < 32) : (s.setDuty n).duty = shownDuty s n :=
  (fld_setFld_same s _ _ _ (by decide)).trans (Nat.mod_eq_of_lt (shownDuty_lt s h))
@[simp] theorem setDuty_pwr (s : State) (n : Nat) : (s.setDuty n).pwr = s.pwr := rfl

/-! #### cancelUp -/

theorem steered_cancelUp (s : State) : Steered s s.cancelUp := by
  unfold State.cancelUp
  split
  · exact .refl s
  · exact (Steered.note s none s.pwr.quiet).trans (.emit _ _)
theorem cancelUp_reg (s : State) (a : Nat) : s.cancelUp.reg a = s.reg a := by
  unfold State.cancelUp
  split <;> rfl
@[simp] theorem cancelUp_point (s : State) : s.cancelUp.point = s.point := point_of_reg (cancelUp_reg s _)
@[simp] theorem cancelUp_duty (s : State) : s.cancelUp.duty = s.duty := duty_of_reg (cancelUp_reg s _)
@[simp] theorem cancelUp_up (s : State) : s.cancelUp.pwr.up = none := by
  unfold State.cancelUp
  split
  · assumption
  · rfl
/-- A step up that is cancelled sends the rails back to the point in force. -/
theorem cancelUp_sends_back {s : State} {p : Nat} (h : s.pwr.up = some p) :
    .voltage s.vrms (pointMv s.point) ∈ s.cancelUp.out := by
  unfold State.cancelUp
  rw [h]
  exact List.mem_cons_self

/-! #### pointDown -/

/-- A step down to a slower point; the transition begins and is recorded. -/
theorem pointDown_of_lt {s : State} {p : Nat} (h : s.point < p) :
    s.pointDown p = (((s.cancelUp.setFld PWR_STAT PWR_STAT_POINT p).setFlag PWR_STAT PWR_STAT_TRANS true).emit
      (.voltage ((s.cancelUp.setFld PWR_STAT PWR_STAT_POINT p).setFlag PWR_STAT PWR_STAT_TRANS true).vrms (pointMv p))).raise
        PWR_EVENT PWR_EVENT_POINT := by
  rw [State.pointDown, if_neg (by rw [cancelUp_point]; omega)]

theorem pointDown_of_le {s : State} {p : Nat} (h : p ≤ s.point) : s.pointDown p = s.cancelUp := by
  rw [State.pointDown, if_pos (by rwa [cancelUp_point])]

theorem steered_pointDown (s : State) (p : Nat) : Steered s (s.pointDown p) := by
  by_cases h : s.point < p
  · rw [pointDown_of_lt h]
    exact (steered_cancelUp s).trans <| (Steered.setFld _ p (by decide) (by decide)).trans <|
      (Steered.setFlag _ true (by decide) (by decide)).trans <| (Steered.emit _ _).trans (.raise _ (by decide) (by decide))
  · rw [pointDown_of_le (Nat.le_of_not_lt h)]
    exact steered_cancelUp s

theorem pointDown_point (s : State) {p : Nat} (hp : p < 4) : (s.pointDown p).point = max s.point p := by
  by_cases h : s.point < p
  · rw [pointDown_of_lt h, raise_point, emit_point, Nat.max_eq_right h.le]
    exact (fld_setFlag_other _ PWR_STAT true (by decide) (by decide)).trans <|
      (fld_setFld_same _ _ _ _ (by decide)).trans (Nat.mod_eq_of_lt hp)
  · rw [pointDown_of_le (Nat.le_of_not_lt h), cancelUp_point, Nat.max_eq_left (Nat.le_of_not_lt h)]

@[simp] theorem pointDown_duty (s : State) (p : Nat) : (s.pointDown p).duty = s.duty := by
  by_cases h : s.point < p
  · rw [pointDown_of_lt h, raise_duty, emit_duty, ← cancelUp_duty s]
    exact (fld_setFlag_other _ PWR_STAT true (by decide) (by decide)).trans (fld_setFld_other _ _ _ (by decide) (by decide))
  · rw [pointDown_of_le (Nat.le_of_not_lt h), cancelUp_duty]

@[simp] theorem pointDown_up (s : State) (p : Nat) : (s.pointDown p).pwr.up = none := by
  by_cases h : s.point < p
  · rw [pointDown_of_lt h, raise_pwr]
    exact cancelUp_up s
  · rw [pointDown_of_le (Nat.le_of_not_lt h), cancelUp_up]

/-! #### pointUp -/

/-- A step up begins: the rails ramp toward the faster point. -/
theorem pointUp_of_lt {s : State} {p : Nat} (h : p < s.point) (hu : s.pwr.up = none) :
    s.pointUp p = ({ s.setFlag PWR_STAT PWR_STAT_TRANS true with pwr := { s.pwr with up := some p } } : State).emit
      (.voltage s.vrms (pointMv p)) := by
  rw [State.pointUp, if_neg (by rw [hu, not_or]; exact ⟨Nat.not_le.2 h, by decide⟩)]
  rfl

theorem steered_pointUp (s : State) (p : Nat) : Steered s (s.pointUp p) := by
  unfold State.pointUp
  split
  · exact .refl s
  · exact (Steered.setFlag s true (by decide) (by decide)).trans <| (Steered.note _ (some p) s.pwr.quiet).trans (.emit _ _)

@[simp] theorem pointUp_point (s : State) (p : Nat) : (s.pointUp p).point = s.point := by
  unfold State.pointUp
  split
  · rfl
  · exact fld_setFlag_other s PWR_STAT true (by decide) (by decide)
@[simp] theorem pointUp_duty (s : State) (p : Nat) : (s.pointUp p).duty = s.duty := by
  unfold State.pointUp
  split
  · rfl
  · exact fld_setFlag_other s PWR_STAT true (by decide) (by decide)
@[simp] theorem pointUp_quiet (s : State) (p : Nat) : (s.pointUp p).pwr.quiet = s.pwr.quiet := by
  unfold State.pointUp
  split <;> rfl

/-- A step up that begins: its target is noted, the regulators are told, and the transition shows. -/
theorem pointUp_begins {s : State} {p : Nat} (h : p < s.point) (hu : s.pwr.up = none) :
    (s.pointUp p).pwr.up = some p ∧ .voltage s.vrms (pointMv p) ∈ (s.pointUp p).out ∧
      (s.pointUp p).flag PWR_STAT PWR_STAT_TRANS = true := by
  rw [pointUp_of_lt h hu]
  exact ⟨rfl, List.mem_cons_self, flag_setFlag_same s PWR_STAT true (by decide) rfl⟩

/-! #### floorPoint -/

theorem steered_floorPoint (s : State) : Steered s s.floorPoint :=
  (steered_pointDown s 2).trans <| (steered_cancelUp _).trans (steered_setDuty _ _)

theorem floorPoint_point {s : State} (h : s.point ≤ 2) : s.floorPoint.point = 2 := by
  rw [State.floorPoint, setDuty_point, cancelUp_point, pointDown_point s (by decide), Nat.max_eq_right h]

theorem floorPoint_duty (s : State) : s.floorPoint.duty = shownDuty s 4 := by
  rw [State.floorPoint, setDuty_duty _ (by decide), ((steered_pointDown s 2).trans (steered_cancelUp _)).sameInputs.shownDuty]

end Sys2Proof.Governor
end

section
/-! SUPPORT. The governor's tick (R452): its readings, then one decision on them. -/

namespace Sys2Proof.Governor

open Sys2Proof Sys2Proof.Machine Sys2Proof.Laws

/-! ### the readings -/

/-- The cap's deadline was missed and p100 still exceeds the cap. -/
def stillLate (s : State) : Bool := s.pwr.capLate && decide (s.pcap < s.p100)

/-- The registers that the readings of a tick write. -/
def readingRegs : List Nat := [PWR_READ, PWR_ENERGY_LO, PWR_ENERGY_LO + 4]

/-- The state a tick decides in: the readings are counted, the duty stands as THROT_EN has it, and a cap that is met is forgotten. -/
def readTick (s : State) : State :=
  let r := s.tickRead.setDuty s.duty
  if decide (r.p100 ≤ r.pcap) then { r with pwr := { r.pwr with capRun := false, capLate := false } } else r

/-- The decision with GOV_EN = 0. -/
def ungoverned (s : State) : State :=
  if s.pwr.tj then
    (if s.point < 2 then s.pointDown (s.point + 1) else if 4 < s.duty then s.setDuty (s.duty - 1) else s).setLimiter 5
  else if s.flag PWR_STAT PWR_STAT_PWR_CAP then (if s.point < s.ceiling then s.pointDown s.ceiling else s).setLimiter 3
  else
    let s := (s.setDuty 16).setLimiter (if s.reqPoint < s.coolCeiling then 4 else 0)
    if s.point < s.ceiling then s.pointDown s.ceiling else s.pointUp s.ceiling

/-- The decision of a tick on its readings. -/
def decideTick (s : State) : State :=
  if s.pwr.capLate then s.floorPoint.setLimiter 3
  else if s.pwr.tj110 then s.floorPoint.setLimiter 5
  else if s.govFld PWR_CTRL PWR_CTRL_GOV_EN = 1 then s.govern
  else ungoverned s

theorem tick_eq (s : State) : s.tick = decideTick (readTick s) := rfl

/-! #### tickRead -/

/-- p100 of this tick joins the last ten. -/
def noteP100 (s : State) : State := { s with pwr := { s.pwr with hist := (s.p100 :: s.pwr.hist).take 10 } }
/-- Energy is counted, in units of 1 mJ, and the rest is kept (PWR_ENERGY). -/
def countEnergy (s : State) (p : Nat) : State :=
  let e := s.pwr.eRem + p
  ({ s with pwr := { s.pwr with eRem := e % 10000 } } : State).bump PWR_ENERGY_LO (e / 10000)
/-- The average and the peak are shown. -/
def showRead (s : State) (avg peak : Nat) : State := (s.setFld PWR_READ PWR_READ_AVG avg).setFld PWR_READ PWR_READ_PEAK peak

theorem tickRead_eq (s : State) : ∃ peak,
    s.tickRead = countEnergy (showRead (noteP100 s) (min 65535 ((noteP100 s).p1 / 1000)) peak) s.p100 := ⟨_, rfl⟩

theorem countEnergy_pwr (s : State) (p : Nat) :
    (countEnergy s p).pwr = { s.pwr with eRem := (s.pwr.eRem + p) % 10000 } := State.bump_pwr _ _ _
theorem showRead_pwr (s : State) (a p : Nat) : (showRead s a p).pwr = s.pwr := by
  rw [showRead, State.setFld_pwr, State.setFld_pwr]
theorem noteP100_pwr (s : State) : (noteP100 s).pwr = { s.pwr with hist := (s.p100 :: s.pwr.hist).take 10 } := rfl

theorem tickRead_pwr (s : State) :
    s.tickRead.pwr = { s.pwr with hist := (s.p100 :: s.pwr.hist).take 10, eRem := (s.pwr.eRem + s.p100) % 10000 } := by
  obtain ⟨peak, h⟩ := tickRead_eq s
  rw [h, countEnergy_pwr, showRead_pwr, noteP100_pwr]

theorem tickRead_p1 (s : State) : s.tickRead.p1 = (noteP100 s).p1 := by
  rw [State.p1, State.p1, tickRead_pwr, noteP100_pwr]

theorem countEnergy_regs (s : State) (p : Nat) : regsKept s (countEnergy s p) [PWR_ENERGY_LO, PWR_ENERGY_LO + 4] :=
  regsKept_bump { s with pwr := _ } (by decide) (by decide) _
theorem showRead_regs (s : State) (a p : Nat) : regsKept s (showRead s a p) [PWR_READ] :=
  regsKept_trans (regsKept_setReg _ (by decide) _) (regsKept_setReg _ (by decide) _)

theorem tickRead_regs (s : State) : regsKept s s.tickRead readingRegs := by
  obtain ⟨peak, h⟩ := tickRead_eq s
  rw [h]
  exact regsKept_trans (regsKept_mono (showRead_regs (noteP100 s) _ _) (by decide)) (regsKept_mono (countEnergy_regs _ _) (by decide))

theorem tickRead_avg (s : State) : s.tickRead.fld PWR_READ PWR_READ_AVG = min 65535 (s.tickRead.p1 / 1000) := by
  rw [tickRead_p1]
  obtain ⟨peak, h⟩ := tickRead_eq s
  have h16 : min 65535 ((noteP100 s).p1 / 1000) < 2 ^ 16 := by omega
  rw [h, fld_of_reg (countEnergy_regs _ _ _ (by decide)), showRead, fld_setFld_other _ _ _ (by decide) (by decide),
    fld_setFld_same _ _ _ _ (by decide), Nat.mod_eq_of_lt h16]

theorem countEnergy_pair (s : State) (p : Nat) :
    (countEnergy s p).pair PWR_ENERGY_LO = (s.pair PWR_ENERGY_LO + (s.pwr.eRem + p) / 10000) % 2 ^ 64 :=
  pair_setPair_same { s with pwr := _ } _ (Nat.mod_lt _ (by positivity))

theorem tickRead_energy (s : State) :
    s.tickRead.pair PWR_ENERGY_LO = (s.pair PWR_ENERGY_LO + (s.pwr.eRem + s.p100) / 10000) % 2 ^ 64 := by
  obtain ⟨peak, h⟩ := tickRead_eq s
  have hs : (showRead (noteP100 s) (min 65535 ((noteP100 s).p1 / 1000)) peak).pair PWR_ENERGY_LO = s.pair PWR_ENERGY_LO :=
    pair_of_reg (showRead_regs (noteP100 s) _ _ _ (by decide)) (showRead_regs (noteP100 s) _ _ _ (by decide))
  rw [h, countEnergy_pair, hs, showRead_pwr, noteP100_pwr]

/-! The readings touch registers and the governor's record only. -/

theorem tickRead_pending (s : State) : s.tickRead.pending = s.pending := by
  obtain ⟨peak, h⟩ := tickRead_eq s
  rw [h, countEnergy, State.bump_pending, showRead, State.setFld_pending, State.setFld_pending, noteP100]
theorem tickRead_mem (s : State) : s.tickRead.mem = s.mem := by
  obtain ⟨peak, h⟩ := tickRead_eq s
  rw [h, countEnergy, State.bump_mem, showRead, State.setFld_mem, State.setFld_mem, noteP100]
theorem tickRead_boot (s : State) : s.tickRead.boot = s.boot := by
  obtain ⟨peak, h⟩ := tickRead_eq s
  rw [h, countEnergy, State.bump_boot, showRead, State.setFld_boot, State.setFld_boot, noteP100]
theorem tickRead_parStop (s : State) : s.tickRead.parStop = s.parStop := by
  obtain ⟨peak, h⟩ := tickRead_eq s
  rw [h, countEnergy, State.bump_parStop, showRead, State.setFld_parStop, State.setFld_parStop, noteP100]

theorem tickRead_sameInputs (s : State) : SameInputs s s.tickRead where
  boot := tickRead_boot s
  parStop := tickRead_parStop s
  rails := by rw [tickRead_pwr]
  ctrl := tickRead_regs s _ (by decide)
  req := tickRead_regs s _ (by decide)
  limit := tickRead_regs s _ (by decide)
  bootStat := tickRead_regs s _ (by decide)
  cool := flag_of_reg (tickRead_regs s _ (by decide)) _
  cap := flag_of_reg (tickRead_regs s _ (by decide)) _

/-! #### the state a tick decides in -/

/-- A cap that is met is forgotten. -/
def forgetMetCap (s : State) : State :=
  if decide (s.p100 ≤ s.pcap) then { s with pwr := { s.pwr with capRun := false, capLate := false } } else s

theorem readTick_eq (s : State) : readTick s = forgetMetCap (s.tickRead.setDuty s.duty) := rfl

theorem forgetMetCap_sameInputs (s : State) : SameInputs s (forgetMetCap s) := by
  unfold forgetMetCap
  split <;> exact ⟨rfl, rfl, rfl, rfl, rfl, rfl, rfl, rfl, rfl⟩

theorem forgetMetCap_reg (s : State) (a : Nat) : (forgetMetCap s).reg a = s.reg a := by
  unfold forgetMetCap
  split <;> rfl

theorem forgetMetCap_capLate (s : State) : (forgetMetCap s).pwr.capLate = stillLate s := by
  unfold forgetMetCap stillLate
  by_cases h : s.p100 ≤ s.pcap
  · simp [h]
  · simp [h, Nat.lt_of_not_le h]

/-- What a tick's readings leave of the rest of the record. -/
theorem forgetMetCap_pwr (s : State) :
    (forgetMetCap s).pwr = { s.pwr with capRun := (forgetMetCap s).pwr.capRun, capLate := (forgetMetCap s).pwr.capLate } := by
  unfold forgetMetCap
  split <;> rfl

theorem forgetMetCap_pending (s : State) : (forgetMetCap s).pending = s.pending := by
  unfold forgetMetCap
  split <;> rfl
theorem forgetMetCap_mem (s : State) : (forgetMetCap s).mem = s.mem := by
  unfold forgetMetCap
  split <;> rfl

section
variable (s : State)

theorem readTick_sameInputs : SameInputs s (readTick s) :=
  ((tickRead_sameInputs s).trans (steered_setDuty _ _).sameInputs).trans (forgetMetCap_sameInputs _)
theorem readTick_pending : (readTick s).pending = s.pending := by
  rw [readTick_eq, forgetMetCap_pending, (steered_setDuty _ _).pending, tickRead_pending]
theorem readTick_mem : (readTick s).mem = s.mem := by
  rw [readTick_eq, forgetMetCap_mem, (steered_setDuty _ _).mem, tickRead_mem]
theorem readTick_reg {a : Nat} (ha : a ∉ steerRegs) : (readTick s).reg a = s.tickRead.reg a := by
  rw [readTick_eq, forgetMetCap_reg, (steered_setDuty _ _).reg ha]
theorem readTick_point : (readTick s).point = s.point := by
  rw [readTick_eq, point_of_reg (forgetMetCap_reg _ _), setDuty_point, point_of_reg (tickRead_regs s _ (by decide))]
theorem readTick_duty : (readTick s).duty = shownDuty s s.duty := by
  rw [readTick_eq, duty_of_reg (forgetMetCap_reg _ _), setDuty_duty _ (duty_lt s), (tickRead_sameInputs s).shownDuty]

/-- The record of the governor in the state a tick decides in. -/
theorem readTick_pwr : ∃ run, (readTick s).pwr =
    { s.pwr with hist := (s.p100 :: s.pwr.hist).take 10, eRem := (s.pwr.eRem + s.p100) % 10000, capRun := run,
                 capLate := stillLate s } := by
  have hl : stillLate (s.tickRead.setDuty s.duty) = stillLate s := by
    have hi := (tickRead_sameInputs s).trans (steered_setDuty s.tickRead s.duty).sameInputs
    rw [stillLate, stillLate, hi.pcap, hi.p100, setDuty_pwr, tickRead_pwr]
  refine ⟨(forgetMetCap (s.tickRead.setDuty s.duty)).pwr.capRun, ?_⟩
  rw [readTick_eq, forgetMetCap_pwr, forgetMetCap_capLate, hl, setDuty_pwr, tickRead_pwr]

end

/-! ### the decision -/

section
variable {s : State}

theorem govern_below_ceiling (h : s.point < s.ceiling) :
    s.govern = (s.pointDown (s.point + 1)).setLimiter (if s.reqPoint < s.coolCeiling then 4 else 0) := by
  rw [State.govern]
  exact if_pos h

/-- One step less: a slower point, or at P2 one off the duty (R452). -/
def stepLess (s : State) : State :=
  if s.point < 2 then s.pointDown (s.point + 1) else if 4 < s.duty then s.cancelUp.setDuty (s.duty - 1) else s.cancelUp

theorem govern_over_limit (hc : s.ceiling ≤ s.point) (h : s.effLimit.1 < s.p1 ∨ s.pwr.tj = true) :
    s.govern = ((stepLess s).setQuiet 0).setLimiter (if ((stepLess s).setQuiet 0).pwr.tj then 5 else s.effLimit.2) := by
  rw [State.govern]
  exact (if_neg (Nat.not_lt.2 hc)).trans (if_pos h)

/-- Within the limit: quiet ticks are counted, and after 100 of them comes one step more, at point `q` under the limit `lim` and the
ceiling `c` (R452). -/
def stepMore (s : State) (lim q c : Nat) : State :=
  let n := if s.p1 * 10 < lim * 9 then s.pwr.quiet + 1 else 0
  if n < 100 then s.setQuiet n
  else
    let s := s.setQuiet 0
    if s.duty < 16 then s.setDuty (s.duty + 1)
    else if c < q ∧ upFits s.p1 lim q then s.pointUp (q - 1) else s

theorem govern_within_limit (hc : s.ceiling ≤ s.point) (h : ¬(s.effLimit.1 < s.p1 ∨ s.pwr.tj = true)) :
    s.govern = stepMore (s.setLimiter (if s.reqPoint < s.coolCeiling then 4 else 0)) s.effLimit.1 s.point s.ceiling := by
  rw [State.govern]
  exact (if_neg (Nat.not_lt.2 hc)).trans (if_neg h)

end

/-! #### stepLess -/

theorem steered_stepLess (s : State) : Steered s (stepLess s) := by
  unfold stepLess
  split
  · exact steered_pointDown s _
  · split
    · exact (steered_cancelUp s).trans (steered_setDuty _ _)
    · exact steered_cancelUp s

theorem stepLess_point {s : State} (h : s.point ≤ 2) : (stepLess s).point = min 2 (s.point + 1) := by
  unfold stepLess
  split
  · rw [pointDown_point s (by omega)]; omega
  · rw [apply_ite State.point, setDuty_point, cancelUp_point, ite_self]; omega

theorem stepLess_duty {s : State} (h : s.point = 2) :
    (stepLess s).duty = if 4 < s.duty then shownDuty s (s.duty - 1) else s.duty := by
  have hd := duty_lt s
  rw [stepLess, if_neg (by omega), apply_ite State.duty, setDuty_duty _ (by omega), (steered_cancelUp s).sameInputs.shownDuty,
    cancelUp_duty]

/-- One off a duty that is shown already. -/
theorem shownDuty_less (s : State) (n : Nat) :
    (if 4 < shownDuty s n then shownDuty s (shownDuty s n - 1) else shownDuty s n) = shownDuty s (if 4 < n then n - 1 else n) := by
  unfold shownDuty
  by_cases h : s.govFld PWR_CTRL PWR_CTRL_THROT_EN = 1 <;> simp [h]

/-! #### stepMore -/

section
variable {s : State} {lim q c : Nat}

theorem stepMore_of_near (h : lim * 9 ≤ s.p1 * 10) : stepMore s lim q c = s.setQuiet 0 := by
  simp [stepMore, Nat.not_lt.2 h]

theorem stepMore_of_waiting (h : s.p1 * 10 < lim * 9) (hq : s.pwr.quiet < 99) :
    stepMore s lim q c = s.setQuiet (s.pwr.quiet + 1) := by
  have hn : s.pwr.quiet + 1 < 100 := by omega
  simp only [stepMore, if_pos h, if_pos hn]

/-- After the quiet ticks. -/
theorem stepMore_of_quiet (h : s.p1 * 10 < lim * 9) (hq : 99 ≤ s.pwr.quiet) :
    stepMore s lim q c =
      if s.duty < 16 then (s.setQuiet 0).setDuty (s.duty + 1)
      else if c < q ∧ upFits s.p1 lim q then (s.setQuiet 0).pointUp (q - 1) else s.setQuiet 0 := by
  have hn : ¬ s.pwr.quiet + 1 < 100 := by omega
  simp only [stepMore, if_pos h, if_neg hn, setQuiet_duty, (steered_setQuiet s 0).p1]

theorem steered_stepMore : Steered s (stepMore s lim q c) := by
  rcases Nat.lt_or_ge (s.p1 * 10) (lim * 9) with h | h
  · rcases Nat.lt_or_ge s.pwr.quiet 99 with hq | hq
    · exact stepMore_of_waiting h hq ▸ steered_setQuiet s _
    · rw [stepMore_of_quiet h hq]
      split
      · exact (steered_setQuiet s _).trans (steered_setDuty _ _)
      · split
        · exact (steered_setQuiet s _).trans (steered_pointUp _ _)
        · exact steered_setQuiet s _
  · exact stepMore_of_near h ▸ steered_setQuiet s _

theorem stepMore_point : (stepMore s lim q c).point = s.point := by
  simp only [stepMore, apply_ite State.point, setQuiet_point, setDuty_point, pointUp_point, ite_self]

end

/-! #### govern -/

theorem steered_govern (s : State) : Steered s s.govern := by
  by_cases hc : s.point < s.ceiling
  · rw [govern_below_ceiling hc]
    exact (steered_pointDown s _).trans (steered_setLimiter _ _)
  · by_cases h : s.effLimit.1 < s.p1 ∨ s.pwr.tj = true
    · rw [govern_over_limit (Nat.le_of_not_lt hc) h]
      exact (steered_stepLess s).trans <| (steered_setQuiet _ _).trans (steered_setLimiter _ _)
    · rw [govern_within_limit (Nat.le_of_not_lt hc) h]
      exact (steered_setLimiter s _).trans steered_stepMore

/-! #### ungoverned -/

section
variable {s : State}

/-- One step less without the governor: a step up that ramps is not cancelled at P2. -/
theorem ungoverned_of_hot (h : s.pwr.tj = true) : ungoverned s =
    (if s.point < 2 then s.pointDown (s.point + 1) else if 4 < s.duty then s.setDuty (s.duty - 1) else s).setLimiter 5 := by
  rw [ungoverned, if_pos h]

theorem ungoverned_of_cap (h : s.pwr.tj = false) (hc : s.flag PWR_STAT PWR_STAT_PWR_CAP = true) :
    ungoverned s = (if s.point < s.ceiling then s.pointDown s.ceiling else s).setLimiter 3 := by
  rw [ungoverned, h, if_neg Bool.false_ne_true, if_pos hc]

/-- What has neither heat nor a cap to heed runs at duty 16. -/
def unthrottled (s : State) : State := (s.setDuty 16).setLimiter (if s.reqPoint < s.coolCeiling then 4 else 0)

theorem ungoverned_of_free (h : s.pwr.tj = false) (hc : s.flag PWR_STAT PWR_STAT_PWR_CAP = false) : ungoverned s =
    if (unthrottled s).point < (unthrottled s).ceiling then (unthrottled s).pointDown (unthrottled s).ceiling
    else (unthrottled s).pointUp (unthrottled s).ceiling := by
  rw [ungoverned, h, hc, if_neg Bool.false_ne_true, if_neg Bool.false_ne_true]
  rfl

theorem steered_unthrottled (s : State) : Steered s (unthrottled s) := (steered_setDuty s _).trans (steered_setLimiter _ _)

theorem steered_ungoverned (s : State) : Steered s (ungoverned s) := by
  cases h : s.pwr.tj
  case true =>
    rw [ungoverned_of_hot h]
    refine Steered.trans ?_ (steered_setLimiter _ _)
    split
    · exact steered_pointDown s _
    · split
      · exact steered_setDuty s _
      · exact .refl s
  case false =>
    cases hc : s.flag PWR_STAT PWR_STAT_PWR_CAP
    case true =>
      rw [ungoverned_of_cap h hc]
      refine Steered.trans ?_ (steered_setLimiter _ _)
      split
      · exact steered_pointDown s _
      · exact .refl s
    case false =>
      rw [ungoverned_of_free h hc]
      refine (steered_unthrottled s).trans ?_
      split
      · exact steered_pointDown _ _
      · exact steered_pointUp _ _

end

/-! #### the decision as a whole -/

theorem steered_decideTick (s : State) : Steered s (decideTick s) := by
  unfold decideTick
  split
  · exact (steered_floorPoint s).trans (steered_setLimiter _ _)
  · split
    · exact (steered_floorPoint s).trans (steered_setLimiter _ _)
    · split
      · exact steered_govern s
      · exact steered_ungoverned s

theorem decideTick_forced {s : State} (h : s.pwr.capLate = true ∨ s.pwr.tj110 = true) :
    ∃ v, decideTick s = s.floorPoint.setLimiter v := by
  unfold decideTick
  split
  · exact ⟨3, rfl⟩
  · rename_i hl
    exact ⟨5, if_pos (h.resolve_left hl)⟩

theorem decideTick_governed {s : State} (hl : s.pwr.capLate = false) (ht : s.pwr.tj110 = false)
    (hg : s.govFld PWR_CTRL PWR_CTRL_GOV_EN = 1) : decideTick s = s.govern := by
  rw [decideTick, hl, ht, if_neg Bool.false_ne_true, if_neg Bool.false_ne_true, if_pos hg]

theorem decideTick_ungoverned {s : State} (hl : s.pwr.capLate = false) (ht : s.pwr.tj110 = false)
    (hg : s.govFld PWR_CTRL PWR_CTRL_GOV_EN ≠ 1) : decideTick s = ungoverned s := by
  rw [decideTick, hl, ht, if_neg Bool.false_ne_true, if_neg Bool.false_ne_true, if_neg hg]

end Sys2Proof.Governor
end

section
/-! SUPPORT. What a tick does, in terms of the state before it (R452, R454, R455, R461). -/

namespace Sys2Proof.Governor

open Sys2Proof Sys2Proof.Machine Sys2Proof.Laws

/-! ### points and duties of the decisions -/

section
variable {s : State}

theorem govern_point (hp : s.point ≤ 2) : s.govern.point =
    if s.point < s.ceiling then s.point + 1
    else if s.effLimit.1 < s.p1 ∨ s.pwr.tj = true then min 2 (s.point + 1) else s.point := by
  have hc := ceiling_le s
  split
  · next h => rw [govern_below_ceiling h, setLimiter_point, pointDown_point s (by omega)]; omega
  · next h =>
    split
    · next hl => rw [govern_over_limit (Nat.le_of_not_lt h) hl, setLimiter_point, setQuiet_point, stepLess_point hp]
    · next hl => rw [govern_within_limit (Nat.le_of_not_lt h) hl, stepMore_point, setLimiter_point]

theorem govern_duty_over_limit (hc : s.ceiling ≤ s.point) (h : s.effLimit.1 < s.p1 ∨ s.pwr.tj = true) (hp : s.point = 2) :
    s.govern.duty = if 4 < s.duty then shownDuty s (s.duty - 1) else s.duty := by
  rw [govern_over_limit hc h, setLimiter_duty, setQuiet_duty, stepLess_duty hp]

theorem ungoverned_point (hp : s.point ≤ 2) :
    (ungoverned s).point = if s.pwr.tj = true then min 2 (s.point + 1) else max s.point s.ceiling := by
  have hc := ceiling_le s
  cases h : s.pwr.tj
  case true =>
    rw [ungoverned_of_hot h, setLimiter_point, apply_ite State.point, pointDown_point s (by omega), apply_ite State.point,
      setDuty_point, ite_self, if_pos rfl]
    split <;> omega
  case false =>
    rw [if_neg Bool.false_ne_true]
    cases hcap : s.flag PWR_STAT PWR_STAT_PWR_CAP
    case true =>
      rw [ungoverned_of_cap h hcap, setLimiter_point, apply_ite State.point, pointDown_point s (by omega)]
      split <;> omega
    case false =>
      have hu : (unthrottled s).point = s.point := by rw [unthrottled, setLimiter_point, setDuty_point]
      rw [ungoverned_of_free h hcap, apply_ite State.point, pointUp_point, (steered_unthrottled s).sameInputs.ceiling,
        pointDown_point _ (by omega), hu]
      split <;> omega

theorem ungoverned_duty_of_hot (h : s.pwr.tj = true) (hp : s.point = 2) :
    (ungoverned s).duty = if 4 < s.duty then shownDuty s (s.duty - 1) else s.duty := by
  have hd := duty_lt s
  rw [ungoverned_of_hot h, setLimiter_duty, if_neg (by omega), apply_ite State.duty, setDuty_duty _ (by omega)]

theorem ungoverned_duty_of_cap (h : s.pwr.tj = false) (hc : s.flag PWR_STAT PWR_STAT_PWR_CAP = true) :
    (ungoverned s).duty = s.duty := by
  rw [ungoverned_of_cap h hc, setLimiter_duty, apply_ite State.duty, pointDown_duty, ite_self]

theorem ungoverned_duty_of_free (h : s.pwr.tj = false) (hc : s.flag PWR_STAT PWR_STAT_PWR_CAP = false) :
    (ungoverned s).duty = 16 := by
  rw [ungoverned_of_free h hc, apply_ite State.duty, pointDown_duty, pointUp_duty, ite_self, unthrottled, setLimiter_duty,
    setDuty_duty s (by decide), shownDuty, ite_self]

/-- With nothing to heed, the step up to the ceiling begins (R461). -/
theorem ungoverned_steps_up (h : s.pwr.tj = false) (hc : s.flag PWR_STAT PWR_STAT_PWR_CAP = false) (hlt : s.ceiling < s.point)
    (hu : s.pwr.up = none) : (ungoverned s).pwr.up = some s.ceiling ∧ .voltage s.vrms (pointMv s.ceiling) ∈ (ungoverned s).out := by
  have hi := (steered_unthrottled s).sameInputs
  have hp : (unthrottled s).point = s.point := by rw [unthrottled, setLimiter_point, setDuty_point]
  have hup : (unthrottled s).pwr.up = none := by rw [unthrottled, setLimiter_pwr, setDuty_pwr, hu]
  obtain ⟨b1, b2, -⟩ := pointUp_begins (s := unthrottled s) (p := s.ceiling) (by rwa [hp]) hup
  rw [ungoverned_of_free h hc, hi.ceiling, hp, if_neg (by omega)]
  exact ⟨b1, hi.vrms ▸ b2⟩

theorem decideTick_point_ge (hp : s.point ≤ 2) : s.point ≤ (decideTick s).point := by
  by_cases h : s.pwr.capLate = true ∨ s.pwr.tj110 = true
  · obtain ⟨v, e⟩ := decideTick_forced h
    rw [e, setLimiter_point, floorPoint_point hp]
    exact hp
  · simp only [not_or, Bool.not_eq_true] at h
    obtain ⟨hl, ht⟩ := h
    by_cases hg : s.govFld PWR_CTRL PWR_CTRL_GOV_EN = 1
    · rw [decideTick_governed hl ht hg, govern_point hp]
      repeat' split
      all_goals omega
    · rw [decideTick_ungoverned hl ht hg, ungoverned_point hp]
      split <;> omega

end

/-! ### the tick -/

section
variable (s : State)

theorem steered_tick : Steered (readTick s) s.tick := steered_decideTick _

theorem tick_pending : s.tick.pending = s.pending := (steered_tick s).pending.trans (readTick_pending s)
theorem tick_mem : s.tick.mem = s.mem := (steered_tick s).mem.trans (readTick_mem s)
theorem tick_reg {a : Nat} (ha : a ∉ steerRegs) : s.tick.reg a = s.tickRead.reg a :=
  ((steered_tick s).reg ha).trans (readTick_reg s ha)

theorem readTick_p1 : (readTick s).p1 = (noteP100 s).p1 := by
  obtain ⟨run, h⟩ := readTick_pwr s
  rw [State.p1, State.p1, h, noteP100_pwr]
theorem tick_p1 : s.tick.p1 = (readTick s).p1 := (steered_tick s).p1

theorem tick_hist : s.tick.pwr.hist = (s.p100 :: s.pwr.hist).take 10 := by
  obtain ⟨run, h⟩ := readTick_pwr s
  rw [(steered_tick s).pwr, h]

theorem tick_avg : s.tick.fld PWR_READ PWR_READ_AVG = min 65535 (s.tick.p1 / 1000) := by
  rw [fld_of_reg (tick_reg s (by decide)), tickRead_avg, tickRead_p1, tick_p1, readTick_p1]

theorem tick_energy : s.tick.pair PWR_ENERGY_LO = (s.pair PWR_ENERGY_LO + (s.pwr.eRem + s.p100) / 10000) % 2 ^ 64 := by
  rw [pair_of_reg (tick_reg s (by decide)) (tick_reg s (by decide)), tickRead_energy]

end

section
variable {s : State}

/-- A missed cap still exceeded, or 110 degrees (R454, R455). -/
theorem tick_forced (hp : s.point ≤ 2) (h : stillLate s = true ∨ s.pwr.tj110 = true) :
    s.tick.point = 2 ∧ s.tick.duty = shownDuty s 4 := by
  obtain ⟨run, hr⟩ := readTick_pwr s
  obtain ⟨v, e⟩ := decideTick_forced (s := readTick s) (by rw [hr]; exact h)
  rw [tick_eq, e, setLimiter_point, setLimiter_duty, floorPoint_duty, (readTick_sameInputs s).shownDuty]
  exact ⟨floorPoint_point (by rwa [readTick_point]), rfl⟩

theorem tick_point_ge (hp : s.point ≤ 2) : s.point ≤ s.tick.point := by
  have h := decideTick_point_ge (s := readTick s) (by rwa [readTick_point])
  rwa [readTick_point] at h

section ungoverned

variable (hl : stillLate s = false) (ht : s.pwr.tj110 = false) (hg : s.govFld PWR_CTRL PWR_CTRL_GOV_EN ≠ 1)
include hl ht hg

theorem tick_ungoverned : s.tick = ungoverned (readTick s) := by
  obtain ⟨run, hr⟩ := readTick_pwr s
  rw [tick_eq, decideTick_ungoverned]
  · rw [hr, hl]
  · rw [hr, ht]
  · rwa [(readTick_sameInputs s).govCtrl]

theorem tick_ungoverned_point (hp : s.point ≤ 2) :
    s.tick.point = if s.pwr.tj = true then min 2 (s.point + 1) else max s.point s.ceiling := by
  obtain ⟨run, hr⟩ := readTick_pwr s
  rw [tick_ungoverned hl ht hg, ungoverned_point (by rwa [readTick_point]), readTick_point, (readTick_sameInputs s).ceiling, hr]

theorem tick_ungoverned_duty_hot (hj : s.pwr.tj = true) (hp : s.point = 2) :
    s.tick.duty = shownDuty s (if 4 < s.duty then s.duty - 1 else s.duty) := by
  obtain ⟨run, hr⟩ := readTick_pwr s
  rw [tick_ungoverned hl ht hg, ungoverned_duty_of_hot (by rw [hr, hj]) (by rw [readTick_point, hp]), readTick_duty,
    (readTick_sameInputs s).shownDuty, shownDuty_less]

theorem tick_ungoverned_duty_cap (hj : s.pwr.tj = false) (hc : s.flag PWR_STAT PWR_STAT_PWR_CAP = true) :
    s.tick.duty = shownDuty s s.duty := by
  obtain ⟨run, hr⟩ := readTick_pwr s
  rw [tick_ungoverned hl ht hg, ungoverned_duty_of_cap (by rw [hr, hj]) (by rw [(readTick_sameInputs s).cap, hc]), readTick_duty]

theorem tick_ungoverned_duty_free (hj : s.pwr.tj = false) (hc : s.flag PWR_STAT PWR_STAT_PWR_CAP = false) : s.tick.duty = 16 := by
  obtain ⟨run, hr⟩ := readTick_pwr s
  rw [tick_ungoverned hl ht hg, ungoverned_duty_of_free (by rw [hr, hj]) (by rw [(readTick_sameInputs s).cap, hc])]

theorem tick_ungoverned_steps_up (hj : s.pwr.tj = false) (hc : s.flag PWR_STAT PWR_STAT_PWR_CAP = false)
    (hlt : s.ceiling < s.point) (hu : s.pwr.up = none) :
    s.tick.pwr.up = some s.ceiling ∧ .voltage s.vrms (pointMv s.ceiling) ∈ s.tick.out := by
  obtain ⟨run, hr⟩ := readTick_pwr s
  have hi := readTick_sameInputs s
  have h := ungoverned_steps_up (s := readTick s) (by rw [hr, hj]) (by rw [hi.cap, hc]) (by rwa [hi.ceiling, readTick_point])
    (by rw [hr, hu])
  rwa [hi.ceiling, hi.vrms, ← tick_ungoverned hl ht hg] at h

end ungoverned

section governed

variable (hl : stillLate s = false) (ht : s.pwr.tj110 = false) (hg : s.govFld PWR_CTRL PWR_CTRL_GOV_EN = 1)
include hl ht hg

theorem tick_governed : s.tick = (readTick s).govern := by
  obtain ⟨run, hr⟩ := readTick_pwr s
  rw [tick_eq, decideTick_governed]
  · rw [hr, hl]
  · rw [hr, ht]
  · rwa [(readTick_sameInputs s).govCtrl]

theorem tick_governed_point (hp : s.point ≤ 2) : s.tick.point =
    if s.point < s.ceiling then s.point + 1
    else if s.effLimit.1 < s.tick.p1 ∨ s.pwr.tj = true then min 2 (s.point + 1) else s.point := by
  obtain ⟨run, hr⟩ := readTick_pwr s
  have hi := readTick_sameInputs s
  rw [tick_p1, tick_governed hl ht hg, govern_point (by rwa [readTick_point]), readTick_point, hi.ceiling, hi.effLimit, hr]

theorem tick_governed_duty_less (hc : s.ceiling ≤ s.point) (h : s.effLimit.1 < s.tick.p1 ∨ s.pwr.tj = true) (hp : s.point = 2) :
    s.tick.duty = shownDuty s (if 4 < s.duty then s.duty - 1 else s.duty) := by
  obtain ⟨run, hr⟩ := readTick_pwr s
  have hi := readTick_sameInputs s
  rw [tick_p1] at h
  rw [tick_governed hl ht hg, govern_duty_over_limit (by rwa [hi.ceiling, readTick_point]) (by rw [hi.effLimit, hr]; exact h)
    (by rw [readTick_point, hp]), readTick_duty, hi.shownDuty, shownDuty_less]

/-- Within the limit a tick is the count of quiet ticks, or the step more after them. -/
theorem tick_within_limit (hc : s.ceiling ≤ s.point) (h : s.tick.p1 ≤ s.effLimit.1) (hj : s.pwr.tj = false) :
    ∃ v, s.tick = stepMore ((readTick s).setLimiter v) s.effLimit.1 s.point s.ceiling := by
  obtain ⟨run, hr⟩ := readTick_pwr s
  have hi := readTick_sameInputs s
  rw [tick_p1] at h
  have hn : ¬((readTick s).effLimit.1 < (readTick s).p1 ∨ (readTick s).pwr.tj = true) := by
    rw [hi.effLimit, hr, hj]
    simpa using h
  refine ⟨if (readTick s).reqPoint < (readTick s).coolCeiling then 4 else 0, ?_⟩
  rw [tick_governed hl ht hg, govern_within_limit (by rwa [hi.ceiling, readTick_point]) hn, hi.effLimit, hi.ceiling, readTick_point]

end governed

/-! #### within the limit -/

section within

variable {v lim q c : Nat} (ht : s.tick = stepMore ((readTick s).setLimiter v) lim q c)
include ht

theorem tick_near (h : lim * 9 ≤ s.tick.p1 * 10) : s.tick.pwr.quiet = 0 ∧ s.tick.duty = shownDuty s s.duty := by
  rw [tick_p1, ← (steered_setLimiter _ v).p1] at h
  rw [ht, stepMore_of_near h, setQuiet_duty, setLimiter_duty, readTick_duty]
  exact ⟨rfl, rfl⟩

theorem tick_waits (h : s.tick.p1 * 10 < lim * 9) (hq : s.pwr.quiet < 99) :
    s.tick.pwr.quiet = s.pwr.quiet + 1 ∧ s.tick.duty = shownDuty s s.duty ∧ s.tick.pwr.up = s.pwr.up := by
  obtain ⟨run, hr⟩ := readTick_pwr s
  rw [tick_p1, ← (steered_setLimiter _ v).p1] at h
  rw [ht, stepMore_of_waiting h (by rwa [setLimiter_pwr, hr]), setQuiet_duty, setLimiter_duty, readTick_duty, setQuiet_quiet,
    setQuiet_up, setLimiter_pwr, hr]
  exact ⟨rfl, rfl, rfl⟩

/-- After 100 ticks below 90 % of the limit. -/
theorem tick_quiet (h : s.tick.p1 * 10 < lim * 9) (hq : 99 ≤ s.pwr.quiet) : s.tick =
    let u := (readTick s).setLimiter v
    if shownDuty s s.duty < 16 then (u.setQuiet 0).setDuty (shownDuty s s.duty + 1)
    else if c < q ∧ upFits s.tick.p1 lim q then (u.setQuiet 0).pointUp (q - 1) else u.setQuiet 0 := by
  obtain ⟨run, hr⟩ := readTick_pwr s
  rw [tick_p1, ← (steered_setLimiter _ v).p1] at h ⊢
  conv_lhs => rw [ht, stepMore_of_quiet h (by rwa [setLimiter_pwr, hr]), setLimiter_duty, readTick_duty]

theorem tick_quiet_zero (h : s.tick.p1 * 10 < lim * 9) (hq : 99 ≤ s.pwr.quiet) : s.tick.pwr.quiet = 0 := by
  rw [tick_quiet ht h hq]
  dsimp only
  split
  · rw [setDuty_pwr, setQuiet_quiet]
  · split
    · rw [pointUp_quiet, setQuiet_quiet]
    · rw [setQuiet_quiet]

theorem tick_adds_duty (h : s.tick.p1 * 10 < lim * 9) (hq : 99 ≤ s.pwr.quiet) (hd : shownDuty s s.duty < 16) :
    s.tick.duty = s.duty + 1 := by
  have hi := (readTick_sameInputs s).trans ((steered_setLimiter (readTick s) v).trans (steered_setQuiet _ 0)).sameInputs
  have hen : s.govFld PWR_CTRL PWR_CTRL_THROT_EN = 1 := by
    by_contra hne
    rw [shownDuty, if_neg hne] at hd
    omega
  rw [tick_quiet ht h hq]
  dsimp only
  rw [if_pos hd, setDuty_duty _ (by omega), hi.shownDuty, shownDuty, if_pos hen, shownDuty, if_pos hen]

end within

theorem tick_starts_step_up {v lim c : Nat} (ht : s.tick = stepMore ((readTick s).setLimiter v) lim s.point c)
    (h : s.tick.p1 * 10 < lim * 9) (hq : 99 ≤ s.pwr.quiet) (hd : 16 ≤ shownDuty s s.duty) (hc : c < s.point)
    (hf : upFits s.tick.p1 lim s.point = true) (hu : s.pwr.up = none) :
    s.tick.pwr.up = some (s.point - 1) ∧ .voltage s.vrms (pointMv (s.point - 1)) ∈ s.tick.out ∧
      s.tick.flag PWR_STAT PWR_STAT_TRANS = true := by
  obtain ⟨run, hr⟩ := readTick_pwr s
  have hv := ((readTick_sameInputs s).trans ((steered_setLimiter (readTick s) v).trans (steered_setQuiet _ 0)).sameInputs).vrms
  have hp : (((readTick s).setLimiter v).setQuiet 0).point = s.point := by rw [setQuiet_point, setLimiter_point, readTick_point]
  have hn : (((readTick s).setLimiter v).setQuiet 0).pwr.up = none := by rw [setQuiet_up, setLimiter_pwr, hr, hu]
  have hb := pointUp_begins (p := s.point - 1) (by omega) hn
  rw [tick_quiet ht h hq]
  dsimp only
  rw [if_neg (by omega), if_pos ⟨hc, hf⟩, ← hv]
  exact hb

end

end Sys2Proof.Governor
end

section
/-! SUPPORT. The end of a ramp, and the pins COOL_OK and PWR_CAP_N (R450, R453, R454). -/

namespace Sys2Proof.Governor

open Sys2Proof Sys2Proof.Machine Sys2Proof.Laws

/-! ### the end of a ramp -/

section
variable {s : State}

theorem rampDone_of_down (h : s.pwr.up = none) : s.rampDone = s.setFlag PWR_STAT PWR_STAT_TRANS false := by
  rw [State.rampDone, h]

theorem rampDone_of_fallen {p : Nat} (h : s.pwr.up = some p) (hc : p < s.ceiling) : s.rampDone = s.cancelUp := by
  rw [State.rampDone, h]
  exact if_pos hc

/-- The divider switches to the point the rails have ramped to. -/
def switchUp (s : State) (p : Nat) : State :=
  let s := (s.setFlag PWR_STAT PWR_STAT_TRANS false).setFld PWR_STAT PWR_STAT_POINT p
  { s with pwr := { s.pwr with up := none } }

theorem rampDone_of_reached {p : Nat} (h : s.pwr.up = some p) (hc : s.ceiling ≤ p) :
    s.rampDone = (switchUp s p).raise PWR_EVENT PWR_EVENT_POINT := by
  rw [State.rampDone, h]
  exact if_neg (Nat.not_lt.2 hc)

theorem steered_switchUp (s : State) (p : Nat) : Steered s (switchUp s p) :=
  (Steered.setFlag s false (by decide) (by decide)).trans <| (Steered.setFld _ p (by decide) (by decide)).trans (.note _ none _)

theorem switchUp_point (s : State) {p : Nat} (h : p < 3) : (switchUp s p).point = p :=
  (fld_setFld_same (s.setFlag PWR_STAT PWR_STAT_TRANS false) _ PWR_STAT_POINT p (by decide)).trans (Nat.mod_eq_of_lt (show p < 4 by omega))

theorem switchUp_trans (s : State) (p : Nat) : (switchUp s p).flag PWR_STAT PWR_STAT_TRANS = false :=
  (flag_setFld_other (s.setFlag PWR_STAT PWR_STAT_TRANS false) _ (f := PWR_STAT_POINT) p (by decide) (by decide)).trans
    (flag_setFlag_same s _ false (by decide) rfl)

theorem steered_rampDone (s : State) : Steered s s.rampDone := by
  rcases h : s.pwr.up with _ | p
  · exact rampDone_of_down h ▸ Steered.setFlag s false (by decide) (by decide)
  · rcases Nat.lt_or_ge p s.ceiling with hc | hc
    · exact rampDone_of_fallen h hc ▸ steered_cancelUp s
    · exact rampDone_of_reached h hc ▸ (steered_switchUp s p).trans (.raise _ (by decide) (by decide))

theorem rampDone_up (s : State) : s.rampDone.pwr.up = none := by
  rcases h : s.pwr.up with _ | p
  · rw [rampDone_of_down h, State.setFlag_pwr, h]
  · rcases Nat.lt_or_ge p s.ceiling with hc | hc
    · rw [rampDone_of_fallen h hc, cancelUp_up]
    · rw [rampDone_of_reached h hc, raise_pwr, switchUp]

/-- The end of a step down (R450). -/
theorem rampDone_ends_down (h : s.pwr.up = none) :
    s.rampDone.point = s.point ∧ s.rampDone.flag PWR_STAT PWR_STAT_TRANS = false := by
  rw [rampDone_of_down h]
  exact ⟨fld_setFlag_other s _ false (by decide) (by decide), flag_setFlag_same s _ false (by decide) rfl⟩

/-- A step up that the ceiling has overtaken is cancelled (R1, R450). -/
theorem rampDone_cancels {p : Nat} (h : s.pwr.up = some p) (hc : p < s.ceiling) (ht : s.flag PWR_STAT PWR_STAT_TRANS = true) :
    s.rampDone.point = s.point ∧ s.rampDone.flag PWR_STAT PWR_STAT_TRANS = true ∧
      .voltage s.vrms (pointMv s.point) ∈ s.rampDone.out := by
  rw [rampDone_of_fallen h hc, flag_of_reg (cancelUp_reg s _), cancelUp_point]
  exact ⟨rfl, ht, cancelUp_sends_back h⟩

/-- The end of a step up (R450). -/
theorem rampDone_switches {p : Nat} (h : s.pwr.up = some p) (hc : s.ceiling ≤ p) (hp : p < 3) :
    s.rampDone.point = p ∧ s.rampDone.flag PWR_STAT PWR_STAT_TRANS = false ∧ s.rampDone.flag PWR_EVENT PWR_EVENT_POINT = true := by
  rw [rampDone_of_reached h hc, raise_point, switchUp_point s hp]
  exact ⟨rfl, (flag_of_reg (raise_reg _ _ (by decide) (by decide)) _).trans (switchUp_trans s p),
    raise_flag_self _ _ (by decide) (by decide) (by decide) rfl⟩

end

/-! ### a pin of PWR_STAT changes -/

/-- A pin's new level is shown, and its event raised. -/
def notePin (s : State) (pin event : Fld) (level : Bool) : State := (s.setFlag PWR_STAT pin level).raise PWR_EVENT event

section
variable (s : State) {pin event : Fld} (level : Bool)

theorem notePin_pending : (notePin s pin event level).pending = s.pending := by rw [notePin, raise_pending, State.setFlag_pending]
theorem notePin_mem : (notePin s pin event level).mem = s.mem := by rw [notePin, raise_mem, State.setFlag_mem]
theorem notePin_pwr : (notePin s pin event level).pwr = s.pwr := by rw [notePin, raise_pwr, State.setFlag_pwr]
theorem notePin_parStop : (notePin s pin event level).parStop = s.parStop := by
  rw [notePin, raise_parStop, State.setFlag_parStop]
theorem notePin_reg {a : Nat} (h : a ∉ steerRegs) : (notePin s pin event level).reg a = s.reg a := by
  simp only [steerRegs, List.mem_cons, not_or] at h
  obtain ⟨hs, he, hm⟩ := h
  rw [notePin, raise_reg _ _ hm he, reg_setFlag_other _ hs]
theorem notePin_govFld {a : Nat} (h : a ∉ steerRegs) (f : Fld) : (notePin s pin event level).govFld a f = s.govFld a f :=
  govFld_congr (notePin_parStop s level) (notePin_reg s level h) f
theorem notePin_isReady : (notePin s pin event level).isReady = s.isReady := by
  rw [State.isReady, State.isReady, fld_of_reg (notePin_reg s level (by decide))]
theorem notePin_p100 : (notePin s pin event level).p100 = s.p100 := p100_congr (by rw [notePin_pwr])
theorem notePin_pcap : (notePin s pin event level).pcap = s.pcap := by
  rw [State.pcap, State.pcap, notePin_govFld s level (by decide)]

theorem notePin_fld {f : Fld} (h : pin.lo + pin.w ≤ 32) (hd : pin.lo + pin.w ≤ f.lo ∨ f.lo + f.w ≤ pin.lo) :
    (notePin s pin event level).fld PWR_STAT f = s.fld PWR_STAT f :=
  (fld_of_reg (raise_reg _ _ (by decide) (by decide)) f).trans (fld_setFlag_other s _ level h hd)
theorem notePin_pin (h : pin.lo < 32) (hw : pin.w = 1) : (notePin s pin event level).flag PWR_STAT pin = level :=
  (flag_of_reg (raise_reg _ _ (by decide) (by decide)) pin).trans (flag_setFlag_same s _ level h hw)
theorem notePin_event (h8 : 8 ≤ event.lo) (hl : event.lo < 32) (hw : event.w = 1) :
    (notePin s pin event level).flag PWR_EVENT event = true :=
  raise_flag_self _ _ (by decide) h8 hl hw

end

/-! ### COOL_OK -/

section
variable {s : State} {level : Bool}

/-- COOL_OK changes: its level and its event. -/
def noteCool (s : State) (level : Bool) : State := notePin s PWR_STAT_COOL_OK PWR_EVENT_COOL level

theorem coolChange_same (h : s.flag PWR_STAT PWR_STAT_COOL_OK = level) : s.coolChange level = s := by
  rw [State.coolChange, if_pos h]

/-- From READY on a step up that ramps is cancelled when COOL_OK changes. -/
def coolCancel (s : State) : State := if s.isReady then s.cancelUp else s

theorem coolChange_other (h : s.flag PWR_STAT PWR_STAT_COOL_OK ≠ level) :
    s.coolChange level = if level then coolCancel (noteCool s level) else (coolCancel (noteCool s level)).coolDrop := by
  rw [State.coolChange, if_neg h]
  rfl

theorem steered_coolCancel (s : State) : Steered s (coolCancel s) := by
  unfold coolCancel
  split
  · exact steered_cancelUp s
  · exact .refl s
theorem coolCancel_point (s : State) : (coolCancel s).point = s.point := by
  rw [coolCancel, apply_ite State.point, cancelUp_point, ite_self]

theorem steered_coolDrop (s : State) : Steered s s.coolDrop := by
  unfold State.coolDrop
  split
  · exact (steered_pointDown s _).trans (steered_setLimiter _ _)
  · exact .refl s

theorem coolDrop_point (h : s.isReady = true) : s.coolDrop.point = max s.point s.coolCeiling := by
  have hc := coolCeiling_le s
  rw [State.coolDrop, h, Bool.true_and, apply_ite State.point, setLimiter_point, pointDown_point s (by omega)]
  simp only [decide_eq_true_eq]
  split <;> omega

theorem coolDrop_up (h : s.pwr.up = none) : s.coolDrop.pwr.up = none := by
  unfold State.coolDrop
  split
  · rw [setLimiter_pwr, pointDown_up]
  · exact h

theorem coolDrop_early (h : s.isReady = false) : s.coolDrop = s := by
  rw [State.coolDrop, h, Bool.false_and, if_neg Bool.false_ne_true]

theorem steered_coolChange (h : s.flag PWR_STAT PWR_STAT_COOL_OK ≠ level) : Steered (noteCool s level) (s.coolChange level) := by
  rw [coolChange_other h]
  split
  · exact steered_coolCancel _
  · exact (steered_coolCancel _).trans (steered_coolDrop _)

theorem noteCool_point (s : State) (level : Bool) : (noteCool s level).point = s.point :=
  notePin_fld s level (by decide) (by decide)

theorem coolChange_point_kept (h : s.flag PWR_STAT PWR_STAT_COOL_OK ≠ level) (hl : level = true ∨ s.isReady = false) :
    (s.coolChange level).point = s.point := by
  rw [coolChange_other h]
  split
  · rw [coolCancel_point, noteCool_point]
  · rename_i hf
    have hr : (coolCancel (noteCool s level)).isReady = false := by
      rw [(steered_coolCancel _).sameInputs.isReady, noteCool, notePin_isReady]
      exact hl.resolve_left hf
    rw [coolDrop_early hr, coolCancel_point, noteCool_point]

theorem coolCancel_up (h : s.isReady = true) : (coolCancel s).pwr.up = none := by
  rw [coolCancel, h, if_pos rfl, cancelUp_up]

theorem coolChange_up (h : s.flag PWR_STAT PWR_STAT_COOL_OK ≠ level) (hr : s.isReady = true) : (s.coolChange level).pwr.up = none := by
  have hu : (coolCancel (noteCool s level)).pwr.up = none := coolCancel_up (by rw [noteCool, notePin_isReady, hr])
  rw [coolChange_other h]
  split
  · exact hu
  · exact coolDrop_up hu

/-- Without coolant the point drops to the cooling ceiling (R453). -/
theorem coolChange_drops (h : s.flag PWR_STAT PWR_STAT_COOL_OK ≠ false) (hr : s.isReady = true) :
    (s.coolChange false).point = max s.point (if s.govFld PWR_REQ PWR_REQ_ALLOW_P1 = 1 then 1 else 2) := by
  have hi := (steered_coolCancel (noteCool s false)).sameInputs
  have hc : (noteCool s false).coolCeiling = if s.govFld PWR_REQ PWR_REQ_ALLOW_P1 = 1 then 1 else 2 := by
    rw [State.coolCeiling, noteCool, notePin_pin s false (by decide) rfl, notePin_govFld s false (by decide)]
    exact if_neg Bool.false_ne_true
  rw [coolChange_other h, if_neg Bool.false_ne_true, coolDrop_point, coolCancel_point, noteCool_point, hi.coolCeiling, hc]
  rw [hi.isReady, noteCool, notePin_isReady, hr]

end

/-! ### PWR_CAP_N -/

/-- The point that the prediction gives under the cap (R454). -/
def capTarget (s : State) : Nat :=
  if predicts s.p100 s.point s.point s.pcap then s.point else if s.point = 0 ∧ predicts s.p100 0 1 s.pcap then 1 else 2

/-- The duty under the cap `lim`, of a power `p` and a ratio `r`: 16 sixteenths of what fits, within 4 to 16. -/
def capDuty (p lim : Nat) (r : Nat × Nat) : Nat := if p * r.2 = 0 then 16 else max 4 (min 16 (lim * r.1 * 16 / (p * r.2)))

/-- The move to the cap's point. -/
def capMove (s : State) : State :=
  if s.point < capTarget s then s.cancelUp.pointDown (capTarget s) else s.cancelUp

section
variable {s : State}

theorem capAct_eq (s : State) : s.capAct =
    ((capMove s).setDuty (capDuty s.p100 (capMove s).pcap (upRatio s.point (capTarget s)))).setLimiter 3 := rfl

theorem steered_capMove (s : State) : Steered s (capMove s) := by
  unfold capMove
  split
  · exact (steered_cancelUp s).trans (steered_pointDown _ _)
  · exact steered_cancelUp s

theorem steered_capAct (s : State) : Steered s s.capAct := by
  rw [capAct_eq]
  exact (steered_capMove s).trans <| (steered_setDuty _ _).trans (steered_setLimiter _ _)

theorem capTarget_bounds (h : s.point ≤ 2) : s.point ≤ capTarget s ∧ capTarget s ≤ 2 := by
  unfold capTarget
  repeat' split
  all_goals omega

theorem capAct_point (h : s.point ≤ 2) : s.capAct.point = capTarget s := by
  have hb := capTarget_bounds h
  rw [capAct_eq, setLimiter_point, setDuty_point, capMove, apply_ite State.point, pointDown_point _ (by omega), cancelUp_point]
  split <;> omega

theorem capDuty_bounds (p lim : Nat) (r : Nat × Nat) : 4 ≤ capDuty p lim r ∧ capDuty p lim r ≤ 16 := by
  unfold capDuty
  split <;> omega

/-- A duty above 4 keeps the predicted power at or below the cap. -/
theorem capDuty_fits (p lim : Nat) (r : Nat × Nat) :
    capDuty p lim r = 4 ∨ p * r.2 * capDuty p lim r ≤ lim * r.1 * 16 := by
  unfold capDuty
  split
  · next h => right; rw [h, Nat.zero_mul]; exact Nat.zero_le _
  · rcases Nat.lt_or_ge 4 (min 16 (lim * r.1 * 16 / (p * r.2))) with h | h
    · right
      have hm : max 4 (min 16 (lim * r.1 * 16 / (p * r.2))) ≤ lim * r.1 * 16 / (p * r.2) := by omega
      exact (Nat.mul_le_mul_left _ hm).trans (Nat.mul_div_le _ _)
    · left; omega

theorem capAct_duty (h : s.govFld PWR_CTRL PWR_CTRL_THROT_EN = 1) :
    s.capAct.duty = capDuty s.p100 s.pcap (upRatio s.point (capTarget s)) := by
  have hb := capDuty_bounds s.p100 s.pcap (upRatio s.point (capTarget s))
  have hi := (steered_capMove s).sameInputs
  rw [capAct_eq, hi.pcap, setLimiter_duty, setDuty_duty _ (by omega), hi.shownDuty, shownDuty, if_pos h]

/-! #### the pin is taken low -/

/-- PWR_CAP_N changes: its level and its event. -/
def noteCap (s : State) (level : Bool) : State := notePin s PWR_STAT_PWR_CAP PWR_EVENT_CAP level

/-- The 1 ms deadline runs. -/
def startCap (s : State) : State := { s with pwr := { s.pwr with capRun := true } }

theorem capAssert_again (h : s.flag PWR_STAT PWR_STAT_PWR_CAP = true) : s.capAssert = s := by
  rw [State.capAssert, if_pos h]

theorem capAssert_eq (h : s.flag PWR_STAT PWR_STAT_PWR_CAP = false) :
    s.capAssert = if s.isReady then (startCap (noteCap s true)).capAct else noteCap s true := by
  rw [State.capAssert, h, if_neg Bool.false_ne_true, ← notePin_isReady s (pin := PWR_STAT_PWR_CAP) (event := PWR_EVENT_CAP) true]
  rfl

theorem noteCap_point (s : State) (level : Bool) : (noteCap s level).point = s.point :=
  notePin_fld s level (by decide) (by decide)
theorem noteCap_duty (s : State) (level : Bool) : (noteCap s level).duty = s.duty :=
  notePin_fld s level (by decide) (by decide)

theorem startCap_target (s : State) : capTarget (startCap (noteCap s true)) = capTarget s := by
  have e1 : (startCap (noteCap s true)).p100 = s.p100 := notePin_p100 s true
  have e2 : (startCap (noteCap s true)).pcap = s.pcap := notePin_pcap s true
  have e3 : (startCap (noteCap s true)).point = s.point := noteCap_point s true
  rw [capTarget, capTarget, e1, e2, e3]

/-- What the cap leaves of the state with its pin noted. -/
theorem capAssert_shows (h : s.flag PWR_STAT PWR_STAT_PWR_CAP = false) : s.capAssert.pending = s.pending ∧
    s.capAssert.flag PWR_STAT PWR_STAT_PWR_CAP = true ∧ s.capAssert.flag PWR_EVENT PWR_EVENT_CAP = true := by
  have e1 : (noteCap s true).flag PWR_STAT PWR_STAT_PWR_CAP = true := notePin_pin s true (by decide) rfl
  have e2 : (noteCap s true).flag PWR_EVENT PWR_EVENT_CAP = true := notePin_event s true (by decide) (by decide) rfl
  have e3 : (noteCap s true).pending = s.pending := notePin_pending s true
  rw [capAssert_eq h]
  split
  · have hs := steered_capAct (startCap (noteCap s true))
    exact ⟨hs.pending.trans e3, hs.cap.trans e1, hs.events _ (by decide) rfl e2⟩
  · exact ⟨e3, e1, e2⟩

theorem capAssert_early (h : s.flag PWR_STAT PWR_STAT_PWR_CAP = false) (hr : s.isReady = false) :
    s.capAssert.point = s.point ∧ s.capAssert.duty = s.duty := by
  rw [capAssert_eq h, hr, if_neg Bool.false_ne_true]
  exact ⟨noteCap_point s true, noteCap_duty s true⟩

section ready

variable (h : s.flag PWR_STAT PWR_STAT_PWR_CAP = false) (hr : s.isReady = true)
include h hr

theorem capAssert_ready : s.capAssert = (startCap (noteCap s true)).capAct := by rw [capAssert_eq h, if_pos hr]

theorem capAssert_runs : s.capAssert.pwr.capRun = true := by
  rw [capAssert_ready h hr, (steered_capAct _).pwr]
  rfl

theorem capAssert_limiter : s.capAssert.fld PWR_STAT PWR_STAT_LIMITER = 3 := by
  rw [capAssert_ready h hr, capAct_eq, setLimiter_limiter _ (by decide)]

theorem capAssert_point (hp : s.point ≤ 2) : s.capAssert.point = capTarget s := by
  have e : (startCap (noteCap s true)).point = s.point := noteCap_point s true
  rw [capAssert_ready h hr, capAct_point (by rwa [e]), startCap_target]

theorem capAssert_duty (ht : s.govFld PWR_CTRL PWR_CTRL_THROT_EN = 1) :
    s.capAssert.duty = capDuty s.p100 s.pcap (upRatio s.point (capTarget s)) := by
  have e0 : (startCap (noteCap s true)).govFld PWR_CTRL PWR_CTRL_THROT_EN = s.govFld PWR_CTRL PWR_CTRL_THROT_EN :=
    notePin_govFld s true (by decide) _
  have e1 : (startCap (noteCap s true)).p100 = s.p100 := notePin_p100 s true
  have e2 : (startCap (noteCap s true)).pcap = s.pcap := notePin_pcap s true
  have e3 : (startCap (noteCap s true)).point = s.point := noteCap_point s true
  rw [capAssert_ready h hr, capAct_duty (by rwa [e0]), e1, e2, e3, startCap_target]

end ready

/-! #### the pin is released -/

theorem capRelease_idle (h : s.flag PWR_STAT PWR_STAT_PWR_CAP = false) : s.capRelease = s := by
  rw [State.capRelease, h]
  rfl

theorem capRelease_eq (h : s.flag PWR_STAT PWR_STAT_PWR_CAP = true) :
    s.capRelease = { noteCap s false with pwr := { (noteCap s false).pwr with capRun := false, capLate := false } } := by
  rw [State.capRelease, h]
  rfl

end

end Sys2Proof.Governor
end

section
/-! SUPPORT. Recording a fault (R436 to R441): what it leaves as it was, said once (`Logged`), that its record stands first in the
log; and what dropping lines of a die cache leaves (R223). -/

namespace Sys2Proof.Laws

open Sys2Proof Sys2Proof.Machine

/-- The registers that recording a fault may change: the fault ring and its counters, the trace unit, the step engine's run bits. -/
def faultRegs : List Nat :=
  [PKG_FAULT_SUM, FR_SUPPR, FR_DROP, FR_PROD, HIF_WR_BYTES_LO, HIF_WR_BYTES_LO + 4, TRC_DROP_LO, TRC_DROP_LO + 4, TRC_STAT,
    TRC_EVENT, STEP_STAT, STEP_CTRL] ++ sumRegs TRC_EVENT

/-- What the way of a fault record leaves: nothing but its registers, memory at the ring, what left the device, the trace, the fabric's
tags and the queue counters; the log and FAULT_N stay. -/
structure Logged (s t : State) : Prop where
  rest : t = { s with regs := t.regs, mem := t.mem, out := t.out, freeN := t.freeN, fab := t.fab, obs := t.obs,
                      queues := t.queues }
  regs : regsKept s t faultRegs
  out : s.out ⊆ t.out
  log : t.obs.log = s.obs.log
  faultN : s.obs.faultN = true → t.obs.faultN = true

namespace Logged

variable {s t u : State}

theorem refl (s : State) : Logged s s where
  rest := rfl
  regs := regsKept_refl s _
  out := List.Subset.refl _
  log := rfl
  faultN := id

theorem trans (h : Logged s t) (g : Logged t u) : Logged s u where
  rest := by rw [g.rest, h.rest]
  regs := regsKept_trans h.regs g.regs
  out := List.Subset.trans h.out g.out
  log := g.log.trans h.log
  faultN := fun hf => g.faultN (h.faultN hf)

theorem ite {p : Prop} [Decidable p] (h : p → Logged s t) (g : ¬p → Logged s u) : Logged s (if p then t else u) := by
  split
  · exact h ‹_›
  · exact g ‹_›

theorem pending (h : Logged s t) : t.pending = s.pending := by rw [h.rest]
theorem boot (h : Logged s t) : t.boot = s.boot := by rw [h.rest]
theorem pwr (h : Logged s t) : t.pwr = s.pwr := by rw [h.rest]
theorem parStop (h : Logged s t) : t.parStop = s.parStop := by rw [h.rest]
theorem dram (h : Logged s t) : t.dram = s.dram := by rw [h.rest]
theorem reg (h : Logged s t) {a : Nat} (ha : a ∉ faultRegs) : t.reg a = s.reg a := h.regs a ha

/-- An operation on registers. -/
theorem of_onlyRegs (h : onlyRegs s t) (hr : regsKept s t faultRegs) (ho : s.out ⊆ t.out) : Logged s t where
  rest := by unfold onlyRegs at h; rw [h]
  regs := hr
  out := ho
  log := by rw [onlyRegs_obs h]
  faultN := fun hf => by rwa [onlyRegs_obs h]

theorem setReg (s : State) {a : Nat} (ha : a ∈ faultRegs) (v : Nat) : Logged s (s.setReg a v) :=
  .of_onlyRegs (onlyRegs_setReg s a v) (regsKept_setReg s ha v) (List.Subset.refl _)
theorem setFld (s : State) {a : Nat} (ha : a ∈ faultRegs) (f : Fld) (v : Nat) : Logged s (s.setFld a f v) := setReg s ha _
theorem setFlag (s : State) {a : Nat} (ha : a ∈ faultRegs) (f : Fld) (b : Bool) : Logged s (s.setFlag a f b) := setReg s ha _
theorem bumpSat (s : State) {a : Nat} (ha : a ∈ faultRegs) (f : Fld) (n : Nat) : Logged s (s.bumpSat a f n) := setReg s ha _
theorem orReg (s : State) {a : Nat} (ha : a ∈ faultRegs) (m : Nat) : Logged s (s.orReg a m) := setReg s ha _
theorem bump (s : State) {a : Nat} (ha : a ∈ faultRegs) (h4 : a + 4 ∈ faultRegs) (n : Nat) : Logged s (s.bump a n) :=
  (setReg s ha _).trans (setReg _ h4 _)

theorem fire (s : State) {v : Nat} (hv : v < 512) : Logged s (s.fire v) :=
  .of_onlyRegs (onlyRegs_fire s v) (regsKept_fire s hv (by decide)) (out_subset_fire s v)
theorem raiseTrace (s : State) (f : Fld) : Logged s (s.raise TRC_EVENT f) :=
  .of_onlyRegs (onlyRegs_raiseMask s _ _) (regsKept_raise s (by decide) (by decide) f) (out_subset_raise s _ f)

/-- Output, memory, the trace, the fabric and the queue counters. -/
theorem note (s : State) (m : List Host.Cell) (o : List Output) (n : Nat) (f : Fabric) (b : Observe) (q : List (Nat × QGroup))
    (ho : s.out ⊆ o) (hl : b.log = s.obs.log) (hf : s.obs.faultN = true → b.faultN = true) :
    Logged s { s with mem := m, out := o, freeN := n, fab := f, obs := b, queues := q } where
  rest := rfl
  regs := regsKept_refl s _
  out := ho
  log := hl
  faultN := hf

/-- A change of the trace alone. -/
theorem trace (s : State) (b : Observe) (hl : b.log = s.obs.log) (hf : s.obs.faultN = true → b.faultN = true) :
    Logged s { s with obs := b } := note s _ _ _ _ b _ (List.Subset.refl _) hl hf

theorem emit (s : State) (o : Output) : Logged s (s.emit o) :=
  note s _ _ _ _ _ _ (List.subset_cons_self _ _) rfl id

theorem fabric (s : State) (f : Fabric) : Logged s { s with fab := f } := note s _ _ _ f _ _ (List.Subset.refl _) rfl id

theorem send (s : State) (p : Packet) (u : TagUse) : Logged s (s.send p u) := (emit s _).trans (fabric _ _)

theorem hostPut (s : State) (off : Nat) (v : List Byte) : Logged s (s.hostPut off v) := by
  unfold State.hostPut
  refine .ite (fun _ => ?_) (fun _ => refl s)
  refine (bump s (a := HIF_WR_BYTES_LO) (by decide) (by decide) v.length).trans ?_
  refine note _ _ _ _ _ _ _ ?_ rfl id
  rw [State.bump_out]
  exact List.subset_append_right _ _

theorem faultRing (s : State) (r : FaultRec) : Logged s (s.faultRing r) := by
  have put (off prod : Nat) : Logged s ((s.hostPut off r.bytes).setReg FR_PROD prod) :=
    (hostPut s off r.bytes).trans (setReg _ (by decide) _)
  unfold State.faultRing
  dsimp only
  exact .ite (fun _ => refl s) fun _ => .ite (fun _ => bumpSat s (by decide) _ _) fun _ =>
    .ite (fun _ => (put _ _).trans (fire _ (by decide))) (fun _ => put _ _)

theorem capture (s : State) (k p : Nat) : Logged s (s.capture k p) := by
  unfold State.capture
  split
  · exact refl s
  · refine .ite (fun _ => .ite (fun _ => ?_) (fun _ => ?_)) (fun _ => refl s)
    · exact (bump s (by decide) (by decide) 1).trans (trace _ _ rfl id)
    · refine Logged.trans (note s s.mem s.out (s.freeN + 1) s.fab
        { s.obs with fifo := s.obs.fifo ++ [TracePkt.mk k (Config.pkgTime s.freeN * 8) p] } s.queues (List.Subset.refl _) rfl id) ?_
      refine Logged.trans (note _ _ _ _ _ _ _ (List.Subset.refl _) rfl id) ((setFld _ (by decide) _ _).trans (fabric _ _))

theorem dropFifo (s : State) : Logged s s.dropFifo := by
  unfold State.dropFifo
  refine Logged.trans ?_ (bump _ (a := TRC_DROP_LO) (by decide) (by decide) _)
  exact trace s _ rfl id

theorem dumpOn (s : State) (k : Nat) (l : List (Nat × List Nat)) : Logged s (s.dumpOn k l) := by
  unfold State.dumpOn
  refine Logged.trans ?_ (raiseTrace _ _)
  refine Logged.trans ?_ (setFlag _ (a := TRC_STAT) (by decide) _ _)
  refine Logged.trans ?_ (setFlag _ (a := TRC_STAT) (by decide) _ _)
  refine Logged.trans ?_ (setFld _ (a := TRC_STAT) (by decide) _ _)
  exact trace s _ rfl id

theorem startDump (s : State) (k : Nat) : Logged s (s.startDump k) :=
  .ite (fun _ => raiseTrace s _) (fun _ => (dropFifo s).trans (dumpOn _ _ _))

theorem updHold (s : State) : Logged s s.updHold := .ite (fun _ => refl s) (fun _ => setFlag s (by decide) _ _)

end Logged

/-- FAULT_N is asserted. -/
def assertFaultN (s : State) : State :=
  if s.obs.faultN then s else { s.emit (.pin "FAULT_N" false) with obs := { s.obs with faultN := true } }
/-- The engine stops: FIN and EN are cleared. -/
def stopEngine (s : State) : State :=
  ((if s.running then s.setFlag STEP_STAT STEP_STAT_FIN false else s).setFlag STEP_CTRL STEP_CTRL_EN false).updHold

theorem fatal_eq (s : State) : s.fatal =
    if (stopEngine (assertFaultN s)).flag DUMP_CFG DUMP_CFG_FATAL then (stopEngine (assertFaultN s)).startDump 2
    else stopEngine (assertFaultN s) := rfl

theorem assertFaultN_logged (s : State) : Logged s (assertFaultN s) :=
  .ite (fun _ => .refl s) (fun _ => .note s _ _ _ _ _ _ (List.subset_cons_self _ _) rfl (fun _ => rfl))

theorem assertFaultN_faultN (s : State) : (assertFaultN s).obs.faultN = true := by
  unfold assertFaultN
  split
  · assumption
  · rfl

/-- Once FAULT_N is asserted, a fatal fault stops the engine and may start a dump. -/
theorem fatal_of_assert (s : State) : Logged (assertFaultN s) s.fatal := by
  have h (t : State) : Logged t (stopEngine t) :=
    (Logged.ite (fun _ => .setFlag t (by decide) _ _) (fun _ => .refl t)).trans <| (Logged.setFlag _ (by decide) _ _).trans (.updHold _)
  rw [fatal_eq]
  exact .ite (fun _ => (h _).trans (.startDump _ _)) (fun _ => h _)

theorem fatal_logged (s : State) : Logged s s.fatal := (assertFaultN_logged s).trans (fatal_of_assert s)
theorem fatal_faultN (s : State) : s.fatal.obs.faultN = true := (fatal_of_assert s).faultN (assertFaultN_faultN s)

theorem deliver_logged (s : State) (r : FaultRec) : Logged (s.logRec r) (s.deliver r) := by
  unfold State.deliver
  dsimp only
  refine .ite (fun _ => ?_) (fun _ => ?_)
  · exact (Logged.orReg _ (a := PKG_FAULT_SUM) (by decide) _).trans (.bumpSat _ (by decide) _ _)
  · refine Logged.trans ?_ (.capture _ _ _)
    refine Logged.trans ?_ (.faultRing _ _)
    exact (Logged.orReg _ (a := PKG_FAULT_SUM) (by decide) _).trans (.trace _ _ rfl id)

/-- The record of a fault, as it stands when it is made. -/
def faultRec (s : State) (cls code srcOff detail : Nat) : FaultRec :=
  ⟨cls, false, s.devId, code, s.obs.fseq, Config.pkgTime s.freeN, srcOff, s.reg STEP_NUM, detail⟩

/-- The record is made and put first in the log. -/
def recorded (s : State) (cls code srcOff detail : Nat) : State :=
  { s with freeN := s.freeN + 1,
           obs := { s.obs with fseq := (s.obs.fseq + 1) % 2 ^ 32,
                               log := (faultRec s cls code srcOff detail :: s.obs.log).take 64 } }

/-- A record is forwarded to the anchor of a MEMBER (R440). -/
def forwardRec (s : State) (r : FaultRec) : State :=
  if s.isMember && s.flag (LD_DEVID 0) LD_DEVID_ANCHOR_V then
    s.send { type := 8, src := 0, dst := s.fld (LD_DEVID 0) LD_DEVID_ANCHOR, args := 4, data := r.bytes } .other
  else s

section
variable (s : State) (cls code srcOff detail : Nat)

theorem fault_eq : s.fault cls code srcOff detail =
    let r := faultRec s cls code srcOff detail
    let t := forwardRec (({ s with freeN := s.freeN + 1, obs := { s.obs with fseq := (s.obs.fseq + 1) % 2 ^ 32 } } : State).deliver r) r
    if cls = 4 then t.fatal else t := rfl

theorem forwardRec_logged (s : State) (r : FaultRec) : Logged s (forwardRec s r) :=
  .ite (fun _ => .send s _ _) (fun _ => .refl s)

theorem fault_logged : Logged (recorded s cls code srcOff detail) (s.fault cls code srcOff detail) := by
  rw [fault_eq]
  dsimp only
  have h := (deliver_logged { s with freeN := s.freeN + 1, obs := { s.obs with fseq := (s.obs.fseq + 1) % 2 ^ 32 } }
    (faultRec s cls code srcOff detail)).trans (forwardRec_logged _ (faultRec s cls code srcOff detail))
  exact .ite (fun _ => h.trans (fatal_logged _)) (fun _ => h)

theorem fault_reg {a : Nat} (h : a ∉ faultRegs) : (s.fault cls code srcOff detail).reg a = s.reg a :=
  (fault_logged s cls code srcOff detail).reg h
theorem fault_pending : (s.fault cls code srcOff detail).pending = s.pending := (fault_logged s cls code srcOff detail).pending
theorem fault_pwr : (s.fault cls code srcOff detail).pwr = s.pwr := (fault_logged s cls code srcOff detail).pwr
theorem fault_parStop : (s.fault cls code srcOff detail).parStop = s.parStop := (fault_logged s cls code srcOff detail).parStop
theorem fault_dram : (s.fault cls code srcOff detail).dram = s.dram := (fault_logged s cls code srcOff detail).dram
theorem fault_out : s.out ⊆ (s.fault cls code srcOff detail).out := (fault_logged s cls code srcOff detail).out
theorem fault_log : (s.fault cls code srcOff detail).obs.log = (faultRec s cls code srcOff detail :: s.obs.log).take 64 :=
  (fault_logged s cls code srcOff detail).log

/-- The record of a fault is the newest in the log. -/
theorem fault_newest : newestFault (s.fault cls code srcOff detail) cls code detail :=
  ⟨faultRec s cls code srcOff detail, by rw [fault_log]; rfl, rfl, rfl, rfl⟩

/-- A DEVICE-FATAL fault asserts FAULT_N (R441). -/
theorem fault_fatal_faultN : (s.fault 4 code srcOff detail).obs.faultN = true := by
  rw [fault_eq]
  exact fatal_faultN _

end

theorem newestFault_congr {s t : State} (h : t.obs.log = s.obs.log) {c k d : Nat} (hn : newestFault s c k d) : newestFault t c k d := by
  obtain ⟨f, hf, hrest⟩ := hn
  exact ⟨f, h ▸ hf, hrest⟩

/-! ### lines that a die cache drops without writing them back (R223) -/

/-- A read of a map gives the default or a value listed under its key. -/
theorem mapGet_default_or_mem {α : Type} (d : Nat → α) (k : Nat) (l : List (Nat × α)) :
    mapGet d k l = d k ∨ (k, mapGet d k l) ∈ l := by
  induction l with
  | nil => exact .inl rfl
  | cons e l ih =>
    obtain ⟨j, v⟩ := e
    rw [mapGet_cons]
    split
    · next h => exact .inr (h ▸ List.mem_cons_self)
    · exact ih.imp_right (List.mem_cons_of_mem _)

/-- The lines listed are dropped. -/
def dropLines (es : List (Nat × Option CLine)) (s : State) : State :=
  es.foldl (fun s e => match e.2 with | some c => s.dropLine e.1 c | none => s) s

theorem dropLine_lines (s : State) (l : Nat) (c : CLine) :
    (s.dropLine l c).dram.lines = mapSet (fun _ => none) l none s.dram.lines := by
  unfold State.dropLine State.restoreBelow
  split <;> rfl

/-- Nothing but memory, its poison and the records of DRAM differs. -/
def onlyDram (s t : State) : Prop := t = { s with mem := t.mem, poison := t.poison, dram := t.dram }

theorem onlyDram_trans {s t u : State} (h : onlyDram s t) (g : onlyDram t u) : onlyDram s u := by
  unfold onlyDram at *
  rw [g, h]

theorem dropLine_onlyDram (s : State) (l : Nat) (c : CLine) : onlyDram s (s.dropLine l c) := by
  unfold State.dropLine State.restoreBelow
  split <;> rfl

theorem dropLines_onlyDram (es : List (Nat × Option CLine)) (s : State) : onlyDram s (dropLines es s) := by
  induction es generalizing s with
  | nil => rfl
  | cons e es ih =>
    obtain ⟨k, _ | c⟩ := e
    · exact ih s
    · exact onlyDram_trans (dropLine_onlyDram s k c) (ih _)

theorem dropLines_rest (es : List (Nat × Option CLine)) (s : State) : dropLines es s =
    { s with mem := (dropLines es s).mem, poison := (dropLines es s).poison, dram := (dropLines es s).dram } :=
  dropLines_onlyDram es s

/-- A line is gone after the drop where it was not resident before or was listed. -/
theorem dropLines_line (es : List (Nat × Option CLine)) (s : State) (l : Nat)
    (h : mapGet (fun _ => none) l s.dram.lines = none ∨ ∃ c, (l, some c) ∈ es) :
    mapGet (fun _ => none) l (dropLines es s).dram.lines = none := by
  induction es generalizing s with
  | nil => exact h.resolve_right (by simp)
  | cons e es ih =>
    obtain ⟨k, _ | c⟩ := e
    · exact ih s (h.imp_right fun ⟨c, hc⟩ => ⟨c, by simpa using hc⟩)
    · refine ih (s.dropLine k c) ?_
      rw [dropLine_lines, mapGet_set]
      by_cases hk : l = k
      · exact .inl (if_pos hk)
      · rw [if_neg hk]
        exact h.imp_right fun ⟨c', hc⟩ => ⟨c', by simpa [hk] using hc⟩

theorem dropLines_all (s : State) (l : Nat) : mapGet (fun _ => none) l (dropLines s.dram.lines s).dram.lines = none := by
  refine dropLines_line _ s l ?_
  rcases hv : mapGet (fun _ => none) l s.dram.lines with _ | c
  · exact .inl rfl
  · refine .inr ⟨c, ?_⟩
    have h := mapGet_default_or_mem (fun _ => none) l s.dram.lines
    rw [hv] at h
    exact h.resolve_left (by simp)

end Sys2Proof.Laws
end

section
/-! SUPPORT. The cap's deadline, the regulators and the temperatures (R449, R454 to R456). -/

namespace Sys2Proof.Governor

open Sys2Proof Sys2Proof.Machine Sys2Proof.Laws

/-! ### the cap's deadline -/

/-- The deadline has run out. -/
def endCapRun (s : State) : State := { s with pwr := { s.pwr with capRun := false } }
/-- The record and the event of a missed cap (R454). -/
def recordLate (s : State) : State :=
  (((endCapRun s).fault 0 0x0407 PWR_EVENT ((endCapRun s).p100 / 1000))).raise PWR_EVENT PWR_EVENT_CAP_LATE
/-- The missed cap is remembered until it is met. -/
def noteLate (s : State) : State := { s with pwr := { s.pwr with capLate := true } }

section
variable {s : State}

theorem capDeadline_idle (h : s.pwr.capRun = false) : s.capDeadline = s := by
  rw [State.capDeadline, h]
  rfl

theorem capDeadline_met (h : s.pwr.capRun = true) (hm : s.p100 ≤ s.pcap) : s.capDeadline = endCapRun s := by
  rw [State.capDeadline, h]
  exact if_pos hm

theorem capDeadline_missed (h : s.pwr.capRun = true) (hm : s.pcap < s.p100) :
    s.capDeadline = (noteLate (recordLate s)).floorPoint := by
  rw [State.capDeadline, h]
  exact if_neg (Nat.not_le.2 hm)

theorem recordLate_reg {a : Nat} (hf : a ∉ faultRegs) (hs : a ∉ steerRegs) : (recordLate s).reg a = s.reg a := by
  simp only [steerRegs, List.mem_cons, not_or] at hs
  obtain ⟨-, he, hm⟩ := hs
  exact (raise_reg _ _ hm he).trans (fault_reg (endCapRun s) _ _ _ _ hf)

theorem recordLate_stat : (recordLate s).reg PWR_STAT = s.reg PWR_STAT :=
  (raise_reg _ _ (by decide) (by decide)).trans (fault_reg (endCapRun s) _ _ _ _ (by decide))

theorem recordLate_parStop : (recordLate s).parStop = s.parStop :=
  (raise_parStop _ _ _).trans (fault_parStop (endCapRun s) _ _ _ _)

theorem recordLate_pending : (recordLate s).pending = s.pending :=
  (raise_pending _ _ _).trans (fault_pending (endCapRun s) _ _ _ _)

theorem recordLate_newest : newestFault (recordLate s) 0 0x0407 (s.p100 / 1000) :=
  newestFault_congr (by rw [recordLate, raise_obs]) (fault_newest (endCapRun s) 0 0x0407 PWR_EVENT ((endCapRun s).p100 / 1000))

/-- A missed cap is recorded, remembered, and forces the floor (R454). -/
theorem capDeadline_records (h : s.pwr.capRun = true) (hm : s.pcap < s.p100) (hp : s.point ≤ 2) :
    newestFault s.capDeadline 0 0x0407 (s.p100 / 1000) ∧ s.capDeadline.flag PWR_EVENT PWR_EVENT_CAP_LATE = true ∧
      s.capDeadline.pwr.capLate = true ∧ s.capDeadline.point = 2 ∧ s.capDeadline.duty = shownDuty s 4 := by
  have hs := steered_floorPoint (noteLate (recordLate s))
  have hpt : (noteLate (recordLate s)).point = s.point := point_of_reg recordLate_stat
  have hen : (noteLate (recordLate s)).govFld PWR_CTRL PWR_CTRL_THROT_EN = s.govFld PWR_CTRL PWR_CTRL_THROT_EN :=
    govFld_congr recordLate_parStop (recordLate_reg (by decide) (by decide)) _
  rw [capDeadline_missed h hm, floorPoint_duty, shownDuty, hen]
  refine ⟨newestFault_congr (by rw [hs.rest]; rfl) recordLate_newest, hs.events _ (by decide) rfl ?_, ?_,
    floorPoint_point (by rwa [hpt]), rfl⟩
  · exact raise_flag_self _ _ (by decide) (by decide) (by decide) rfl
  · rw [hs.pwr, noteLate]

theorem capDeadline_pending : s.capDeadline.pending = s.pending := by
  cases h : s.pwr.capRun
  case false => rw [capDeadline_idle h]
  case true =>
    rcases Nat.lt_or_ge s.pcap s.p100 with hm | hm
    · rw [capDeadline_missed h hm, (steered_floorPoint _).pending, noteLate, recordLate_pending]
    · rw [capDeadline_met h hm, endCapRun]

end

/-! ### regulators -/

/-- The registers of a rail show a reading. -/
def showRail (s : State) (r mv a : Nat) (good : Bool) : State :=
  ((s.setFld (PWR_RAIL r) PWR_RAIL_IOUT (min 1023 a)).setFld (PWR_RAIL r) PWR_RAIL_VOUT (min 1023 mv)).setFlag (PWR_RAIL r)
    PWR_RAIL_PGOOD good

/-- A rail's power of this poll and of the one before, and its failed polls in a row. -/
def putRail (s : State) (r w before fails : Nat) : State :=
  { s with pwr := { s.pwr with rails := mapSet (fun _ => (0, 0)) r (w, before) s.pwr.rails,
                               fails := mapSet (fun _ => 0) r fails s.pwr.fails } }

section
variable (s : State) (r : Nat)

theorem pollRail_read (mv a : Nat) (good : Bool) : s.pollRail r (some (mv, a)) good =
    putRail (showRail s r mv a good) r (mv * a) (mapGet (fun _ => (0, 0)) r s.pwr.rails).1 0 := rfl

/-- The third failed poll in a row is reported. -/
def noteFail (n : Nat) : State := if n = 3 then s.raise PWR_EVENT PWR_EVENT_TELEM else s

/-- A poll fails, the `n`th in a row: the older reading stands, and from the third on the site is estimated with 10 % added. -/
def failRail (old n : Nat) : State :=
  if 3 ≤ n then putRail (noteFail s n).draw.2 r (Config.siteEstimate r (noteFail s n).freeN * 11 / 10) old n
  else putRail (noteFail s n) r old old n

theorem pollRail_failed (good : Bool) : s.pollRail r none good =
    failRail s r (mapGet (fun _ => (0, 0)) r s.pwr.rails).1 (mapGet (fun _ => 0) r s.pwr.fails + 1) := rfl

theorem putRail_reg (w b n a : Nat) : (putRail s r w b n).reg a = s.reg a := rfl
theorem putRail_pending (w b n : Nat) : (putRail s r w b n).pending = s.pending := rfl
theorem putRail_rails (w b n : Nat) : mapGet (fun _ => (0, 0)) r (putRail s r w b n).pwr.rails = (w, b) := mapGet_set_same _ _ _ _
theorem putRail_fails (w b n : Nat) : mapGet (fun _ => 0) r (putRail s r w b n).pwr.fails = n := mapGet_set_same _ _ _ _

theorem showRail_pending (mv a : Nat) (good : Bool) : (showRail s r mv a good).pending = s.pending := by
  rw [showRail, State.setFlag_pending, State.setFld_pending, State.setFld_pending]

theorem showRail_regs (mv a : Nat) (good : Bool) : regsKept s (showRail s r mv a good) [PWR_RAIL r] :=
  regsKept_trans (regsKept_trans (regsKept_setReg s List.mem_cons_self _) (regsKept_setReg _ List.mem_cons_self _))
    (regsKept_setReg _ List.mem_cons_self _)

theorem showRail_iout (mv a : Nat) (good : Bool) : (showRail s r mv a good).fld (PWR_RAIL r) PWR_RAIL_IOUT = min 1023 a := by
  rw [showRail, fld_setFlag_other _ _ _ (by decide) (by decide), fld_setFld_other _ _ _ (by decide) (by decide),
    fld_setFld_same _ _ _ _ (by decide)]
  exact Nat.mod_eq_of_lt (show _ < 1024 by omega)
theorem showRail_vout (mv a : Nat) (good : Bool) : (showRail s r mv a good).fld (PWR_RAIL r) PWR_RAIL_VOUT = min 1023 mv := by
  rw [showRail, fld_setFlag_other _ _ _ (by decide) (by decide), fld_setFld_same _ _ _ _ (by decide)]
  exact Nat.mod_eq_of_lt (show _ < 1024 by omega)
theorem showRail_pgood (mv a : Nat) (good : Bool) : (showRail s r mv a good).flag (PWR_RAIL r) PWR_RAIL_PGOOD = good :=
  flag_setFlag_same _ _ good (by decide) rfl

theorem noteFail_onlyRegs (n : Nat) : onlyRegs s (noteFail s n) := by
  unfold noteFail
  split
  · exact onlyRegs_raiseMask s _ _
  · exact onlyRegs_refl s

theorem failRail_pending (old n : Nat) : (failRail s r old n).pending = s.pending := by
  have h := onlyRegs_pending (noteFail_onlyRegs s n)
  unfold failRail
  split <;> rw [putRail_pending]
  · exact h
  · exact h

theorem failRail_fails (old n : Nat) : mapGet (fun _ => 0) r (failRail s r old n).pwr.fails = n := by
  unfold failRail
  split <;> exact putRail_fails _ _ _ _ _

theorem failRail_stands (old : Nat) {n : Nat} (h : n < 3) :
    mapGet (fun _ => (0, 0)) r (failRail s r old n).pwr.rails = (old, old) := by
  rw [failRail, if_neg (Nat.not_le.2 h), putRail_rails]

theorem failRail_estimates (old : Nat) {n : Nat} (h : 3 ≤ n) :
    mapGet (fun _ => (0, 0)) r (failRail s r old n).pwr.rails = (Config.siteEstimate r s.freeN * 11 / 10, old) := by
  rw [failRail, if_pos h, putRail_rails, onlyRegs_freeN (noteFail_onlyRegs s n)]

theorem failRail_telem (old : Nat) {n : Nat} (h : n = 3) : (failRail s r old n).flag PWR_EVENT PWR_EVENT_TELEM = true := by
  subst h
  have hr : (failRail s r old 3).reg PWR_EVENT = (s.raise PWR_EVENT PWR_EVENT_TELEM).reg PWR_EVENT := by
    rw [failRail, if_pos (Nat.le_refl 3), putRail_reg, noteFail, if_pos rfl, State.draw]
    rfl
  exact (flag_of_reg hr _).trans (raise_flag_self s _ (by decide) (by decide) (by decide) rfl)

end

theorem rail_injective : Function.Injective PWR_RAIL := fun i j h => by unfold PWR_RAIL at h; omega

/-! ### temperatures -/

/-- The hottest sensor of a reading is shown (R456). -/
def showTemp (s : State) (l : List Nat) : State :=
  (s.setFld PWR_TEMP PWR_TEMP_TJ_MAX (min 255 (l.foldl max 0))).setFld PWR_TEMP PWR_TEMP_SENSOR (l.idxOf (l.foldl max 0))

/-- The step of 100 degrees holds until 97, that of 110 until 107 (R455). -/
def hotAt (was : Bool) (on off t : Nat) : Bool := decide (on ≤ t) || (was && decide (off ≤ t))

theorem hotAt_of_le (was : Bool) {on t : Nat} (off : Nat) (h : on ≤ t) : hotAt was on off t = true := by
  rw [hotAt, decide_eq_true h, Bool.true_or]

/-- The temperature steps in force. -/
def noteTj (s : State) (tj tj110 : Bool) : State := { s with pwr := { s.pwr with tj := tj, tj110 := tj110 } }

/-- The first step is recorded when it begins. -/
def raiseTj (s : State) (t : Nat) : State :=
  if hotAt s.pwr.tj 100 97 t && !s.pwr.tj then s.raise PWR_EVENT PWR_EVENT_TJ_THROT else s

/-- The second step forces the floor when it begins. -/
def floorTj (s : State) (was : Bool) : State := if s.pwr.tj110 && !was then s.floorPoint.setLimiter 5 else s

/-- A reading is shown and its temperature steps are noted. -/
def takeTemps (s : State) (l : List Nat) : State :=
  let u := showTemp s l
  let t := l.foldl max 0
  noteTj (raiseTj u t) (hotAt u.pwr.tj 100 97 t) (hotAt u.pwr.tj110 110 107 t)

/-- A reading before the trip of R456. -/
def heedTemps (s : State) (l : List Nat) : State :=
  floorTj (takeTemps s l) (raiseTj (showTemp s l) (l.foldl max 0)).pwr.tj110

section
variable (s : State)

theorem showTemp_pwr (l : List Nat) : (showTemp s l).pwr = s.pwr := by rw [showTemp, State.setFld_pwr, State.setFld_pwr]
theorem showTemp_pending (l : List Nat) : (showTemp s l).pending = s.pending := by
  rw [showTemp, State.setFld_pending, State.setFld_pending]
theorem showTemp_regs (l : List Nat) : regsKept s (showTemp s l) [PWR_TEMP] :=
  regsKept_trans (regsKept_setReg s List.mem_cons_self _) (regsKept_setReg _ List.mem_cons_self _)
theorem showTemp_parStop (l : List Nat) : (showTemp s l).parStop = s.parStop := by
  rw [showTemp, State.setFld_parStop, State.setFld_parStop]

theorem raiseTj_onlyRegs (t : Nat) : onlyRegs s (raiseTj s t) := by
  unfold raiseTj
  split
  · exact onlyRegs_raiseMask s _ _
  · exact onlyRegs_refl s
theorem raiseTj_regs (t : Nat) : regsKept s (raiseTj s t) (PWR_EVENT :: sumRegs PWR_EVENT) := by
  unfold raiseTj
  split
  · exact regsKept_raise s List.mem_cons_self (List.subset_cons_self _ _) _
  · exact regsKept_refl s _

theorem noteTj_reg (b c : Bool) (a : Nat) : (noteTj s b c).reg a = s.reg a := rfl

theorem steered_floorTj (was : Bool) : Steered s (floorTj s was) := by
  unfold floorTj
  split
  · exact (steered_floorPoint s).trans (steered_setLimiter _ _)
  · exact .refl s

theorem dieTemps_eq (l : List Nat) : s.dieTemps l =
    if 120 ≤ l.foldl max 0 then (heedTemps s l).thermTrip (l.idxOf (l.foldl max 0)) else heedTemps s l := rfl

end

section
variable (s : State) (l : List Nat)

theorem takeTemps_pwr : (takeTemps s l).pwr =
    { s.pwr with tj := hotAt s.pwr.tj 100 97 (l.foldl max 0), tj110 := hotAt s.pwr.tj110 110 107 (l.foldl max 0) } := by
  rw [takeTemps, noteTj, onlyRegs_pwr (raiseTj_onlyRegs _ _), showTemp_pwr]

theorem takeTemps_pending : (takeTemps s l).pending = s.pending := by
  rw [takeTemps, noteTj, onlyRegs_pending (raiseTj_onlyRegs _ _), showTemp_pending]
theorem takeTemps_parStop : (takeTemps s l).parStop = s.parStop := by
  rw [takeTemps, noteTj, onlyRegs_parStop (raiseTj_onlyRegs _ _), showTemp_parStop]

theorem takeTemps_reg {a : Nat} (h : a ∉ PWR_TEMP :: PWR_EVENT :: sumRegs PWR_EVENT) : (takeTemps s l).reg a = s.reg a := by
  obtain ⟨ht, he⟩ := not_or.1 (mt List.mem_cons.2 h)
  rw [takeTemps, noteTj_reg, raiseTj_regs _ _ _ he, showTemp_regs _ _ _ (by simpa using ht)]

theorem takeTemps_temp : (takeTemps s l).reg PWR_TEMP = (showTemp s l).reg PWR_TEMP := by
  rw [takeTemps, noteTj_reg, raiseTj_regs _ _ _ (by decide)]

theorem heedTemps_eq : heedTemps s l = floorTj (takeTemps s l) s.pwr.tj110 := by
  rw [heedTemps, onlyRegs_pwr (raiseTj_onlyRegs _ _), showTemp_pwr]

theorem steered_heedTemps : Steered (takeTemps s l) (heedTemps s l) := steered_floorTj _ _

theorem heedTemps_pending : (heedTemps s l).pending = s.pending := (steered_heedTemps s l).pending.trans (takeTemps_pending s l)

theorem heedTemps_tj : (heedTemps s l).pwr.tj = hotAt s.pwr.tj 100 97 (l.foldl max 0) := by
  rw [(steered_heedTemps s l).pwr, takeTemps_pwr]
theorem heedTemps_tj110 : (heedTemps s l).pwr.tj110 = hotAt s.pwr.tj110 110 107 (l.foldl max 0) := by
  rw [(steered_heedTemps s l).pwr, takeTemps_pwr]
theorem heedTemps_trip : (heedTemps s l).pwr.trip = s.pwr.trip := by
  rw [(steered_heedTemps s l).pwr, takeTemps_pwr]

theorem heedTemps_temp : (heedTemps s l).reg PWR_TEMP = (showTemp s l).reg PWR_TEMP :=
  ((steered_heedTemps s l).reg (by decide)).trans (takeTemps_temp s l)

theorem heedTemps_max : (heedTemps s l).fld PWR_TEMP PWR_TEMP_TJ_MAX = min 255 (l.foldl max 0) := by
  rw [fld_of_reg (heedTemps_temp s l), showTemp, fld_setFld_other _ _ _ (by decide) (by decide), fld_setFld_same _ _ _ _ (by decide)]
  exact Nat.mod_eq_of_lt (show _ < 256 by omega)

theorem heedTemps_sensor (h : l.length = 68) : (heedTemps s l).fld PWR_TEMP PWR_TEMP_SENSOR = l.idxOf (l.foldl max 0) := by
  rw [fld_of_reg (heedTemps_temp s l), showTemp, fld_setFld_same _ _ _ _ (by decide)]
  have hi : l.idxOf (l.foldl max 0) ≤ l.length := List.idxOf_le_length
  exact Nat.mod_eq_of_lt (show _ < 256 by omega)

theorem heedTemps_throttles (h : 100 ≤ l.foldl max 0) (hw : s.pwr.tj = false) :
    (heedTemps s l).flag PWR_EVENT PWR_EVENT_TJ_THROT = true := by
  refine (steered_heedTemps s l).events _ (by decide) rfl ?_
  have hr : raiseTj (showTemp s l) (l.foldl max 0) = (showTemp s l).raise PWR_EVENT PWR_EVENT_TJ_THROT := by
    rw [raiseTj, showTemp_pwr, hw, hotAt_of_le _ _ h, if_pos (show (true && !false) = true from rfl)]
  rw [takeTemps, flag_of_reg (noteTj_reg _ _ _ _), hr]
  exact raise_flag_self _ _ (by decide) (by decide) (by decide) rfl

/-- At 110 degrees the floor is forced (R455). -/
theorem heedTemps_floor (h : 110 ≤ l.foldl max 0) (hw : s.pwr.tj110 = false) (hp : s.point ≤ 2) :
    (heedTemps s l).point = 2 ∧ (heedTemps s l).duty = shownDuty s 4 := by
  have hpt : (takeTemps s l).point = s.point := point_of_reg (takeTemps_reg s l (by decide))
  have hen : (takeTemps s l).govFld PWR_CTRL PWR_CTRL_THROT_EN = s.govFld PWR_CTRL PWR_CTRL_THROT_EN :=
    govFld_congr (takeTemps_parStop s l) (takeTemps_reg s l (by decide)) _
  have hf : floorTj (takeTemps s l) s.pwr.tj110 = (takeTemps s l).floorPoint.setLimiter 5 := by
    have ht : (takeTemps s l).pwr.tj110 = true := by rw [takeTemps_pwr]; exact hotAt_of_le _ _ h
    rw [floorTj, ht, hw, if_pos (show (true && !false) = true from rfl)]
  rw [heedTemps_eq, hf, setLimiter_point, setLimiter_duty, floorPoint_point (by rwa [hpt]), floorPoint_duty, shownDuty, hen, shownDuty]
  exact ⟨rfl, rfl⟩

end

end Sys2Proof.Governor
end

section
/-! SUPPORT. THERMTRIP gates the sites, whose die caches lose what they hold (R225, R456). -/

namespace Sys2Proof.Governor

open Sys2Proof Sys2Proof.Machine Sys2Proof.Laws

/-! ### the sites lose their power -/

/-- FSQ_STAT of face F of the package. -/
def faceStat (i : Nat) : Nat := FSQ_STAT (i / 64) (i % 64)

theorem faceStat_ge (i : Nat) : 0x1000000 ≤ faceStat i := by
  unfold faceStat FSQ_STAT faceBase dieBase
  omega

/-- Every face shows GATED. -/
def gateFaces (s : State) : State := (List.range 1024).foldl (fun s i => s.setFlag (faceStat i) FSQ_STAT_GATED true) s

/-- PD11 and above are off. -/
def siteDomainsOff (s : State) : State :=
  (((s.setReg (PKG_PD_STAT 0) (s.reg (PKG_PD_STAT 0) % 2048)).setReg (PKG_PD_STAT 1) 0).setReg (PKG_PD_STAT 2) 0).setReg (PKG_PD_STAT 3) 0

/-- The registers of the domains. -/
def domainRegs : List Nat := [PKG_PD_STAT 0, PKG_PD_STAT 1, PKG_PD_STAT 2, PKG_PD_STAT 3]

section
variable (s : State)

theorem gateSites_eq : s.gateSites = siteDomainsOff (dropLines (gateFaces s).dram.lines (gateFaces s)) := by
  unfold State.gateSites siteDomainsOff dropLines gateFaces faceStat
  rfl

theorem gateFaces_onlyRegs : onlyRegs s (gateFaces s) := foldl_setFlag_onlyRegs faceStat FSQ_STAT_GATED (fun _ => true) _ s

theorem gateFaces_out : (gateFaces s).out = s.out := foldl_setFlag_out s faceStat FSQ_STAT_GATED (fun _ => true) (List.range 1024)

theorem gateFaces_reg {a : Nat} (h : a < 0x1000000) : (gateFaces s).reg a = s.reg a := by
  refine foldl_setFlag_regs faceStat FSQ_STAT_GATED (fun _ => true) _ s a fun hm => ?_
  obtain ⟨i, -, rfl⟩ := List.mem_map.1 hm
  exact absurd h (Nat.not_lt.2 (faceStat_ge i))

theorem siteDomainsOff_onlyRegs : onlyRegs s (siteDomainsOff s) :=
  onlyRegs_trans (onlyRegs_trans (onlyRegs_trans (onlyRegs_setReg _ _ _) (onlyRegs_setReg _ _ _)) (onlyRegs_setReg _ _ _))
    (onlyRegs_setReg _ _ _)
theorem siteDomainsOff_out : (siteDomainsOff s).out = s.out := by
  rw [siteDomainsOff, State.setReg_out, State.setReg_out, State.setReg_out, State.setReg_out]

theorem siteDomainsOff_regs : regsKept s (siteDomainsOff s) domainRegs :=
  regsKept_trans (regsKept_trans (regsKept_trans (regsKept_setReg _ (by decide) _) (regsKept_setReg _ (by decide) _))
    (regsKept_setReg _ (by decide) _)) (regsKept_setReg _ (by decide) _)

/-- Only the domains below PD11 keep their power. -/
theorem siteDomainsOff_reg {i : Nat} (h : i < 4) :
    (siteDomainsOff s).reg (PKG_PD_STAT i) = if i = 0 then s.reg (PKG_PD_STAT 0) % 2048 else 0 := by
  have h0 : s.reg (PKG_PD_STAT 0) % 2048 % 2 ^ 32 = s.reg (PKG_PD_STAT 0) % 2048 := by omega
  unfold siteDomainsOff
  rcases (by omega : i = 0 ∨ i = 1 ∨ i = 2 ∨ i = 3) with rfl | rfl | rfl | rfl
  · rw [reg_setReg_other _ (by decide), reg_setReg_other _ (by decide), reg_setReg_other _ (by decide), reg_setReg_same, h0, if_pos rfl]
  · rw [reg_setReg_other _ (by decide), reg_setReg_other _ (by decide), reg_setReg_same]; rfl
  · rw [reg_setReg_other _ (by decide), reg_setReg_same]; rfl
  · rw [reg_setReg_same]; rfl

theorem siteDomainsOff_pdOn {j : Nat} (h : j < 128) : (siteDomainsOff s).pdOn j = (decide (j < 11) && s.pdOn j) := by
  unfold State.pdOn
  rw [siteDomainsOff_reg s (by omega), bit_eq_testBit, bit_eq_testBit]
  split
  · next h0 =>
    have hj : j % 32 = j := by omega
    rw [h0, hj, show 2048 = 2 ^ 11 from rfl, Nat.testBit_mod_two_pow]
  · next h0 =>
    have hj : ¬ j < 11 := by omega
    rw [Nat.zero_testBit, decide_eq_false hj, Bool.false_and]

theorem gateSites_pending : s.gateSites.pending = s.pending := by
  rw [gateSites_eq, onlyRegs_pending (siteDomainsOff_onlyRegs _), dropLines_rest, onlyRegs_pending (gateFaces_onlyRegs s)]
theorem gateSites_pwr : s.gateSites.pwr = s.pwr := by
  rw [gateSites_eq, onlyRegs_pwr (siteDomainsOff_onlyRegs _), dropLines_rest, onlyRegs_pwr (gateFaces_onlyRegs s)]
theorem gateSites_out : s.gateSites.out = s.out := by
  rw [gateSites_eq, siteDomainsOff_out, dropLines_rest, gateFaces_out]
theorem gateSites_line (l : Nat) : mapGet (fun _ => none) l s.gateSites.dram.lines = none := by
  rw [gateSites_eq, onlyRegs_dram (siteDomainsOff_onlyRegs _)]
  exact dropLines_all _ l
theorem dropLines_reg (es : List (Nat × Option CLine)) (a : Nat) : (dropLines es s).reg a = s.reg a := by
  rw [dropLines_rest]
  rfl
theorem gateSites_reg {a : Nat} (h : a < 0x1000000) (hd : a ∉ domainRegs) : s.gateSites.reg a = s.reg a := by
  rw [gateSites_eq, siteDomainsOff_regs _ _ hd, dropLines_reg, gateFaces_reg s h]
theorem gateSites_pdOn {j : Nat} (h : j < 128) : s.gateSites.pdOn j = (decide (j < 11) && s.pdOn j) := by
  have hr : (dropLines (gateFaces s).dram.lines (gateFaces s)).reg (PKG_PD_STAT (j / 32)) = s.reg (PKG_PD_STAT (j / 32)) := by
    rw [dropLines_reg, gateFaces_reg]
    unfold PKG_PD_STAT
    omega
  rw [gateSites_eq, siteDomainsOff_pdOn _ h, State.pdOn, hr, State.pdOn]

end

/-! ### THERMTRIP -/

/-- The pin is driven and stays asserted. -/
def assertTrip (s : State) : State := { s.emit (.pin "THERMTRIP_N" false) with pwr := { s.pwr with trip := true } }

section
variable {s : State} (n : Nat)

theorem thermTrip_again (h : s.pwr.trip = true) : s.thermTrip n = s := by rw [State.thermTrip, if_pos h]

theorem thermTrip_eq (h : s.pwr.trip = false) : s.thermTrip n = (assertTrip s).gateSites.fault 4 0x0505 0 n := by
  rw [State.thermTrip, h, if_neg Bool.false_ne_true]
  rfl

theorem thermTrip_pending : (s.thermTrip n).pending = s.pending := by
  cases h : s.pwr.trip
  · rw [thermTrip_eq n h, fault_pending, gateSites_pending]; rfl
  · rw [thermTrip_again n h]

theorem thermTrip_pwr : (s.thermTrip n).pwr = { s.pwr with trip := true } := by
  cases h : s.pwr.trip
  · rw [thermTrip_eq n h, fault_pwr, gateSites_pwr]; rfl
  · rw [thermTrip_again n h, ← h]

/-- A trip leaves the registers of the governor. -/
theorem thermTrip_reg {a : Nat} (hf : a ∉ faultRegs) (hl : a < 0x1000000) (hd : a ∉ domainRegs) :
    (s.thermTrip n).reg a = s.reg a := by
  cases h : s.pwr.trip
  · rw [thermTrip_eq n h, fault_reg _ _ _ _ _ hf, gateSites_reg _ hl hd]; rfl
  · rw [thermTrip_again n h]

/-- What a trip does (R456): the pin, the record, the caches and the power of the sites. -/
theorem thermTrip_gates (h : s.pwr.trip = false) : .pin "THERMTRIP_N" false ∈ (s.thermTrip n).out ∧
    newestFault (s.thermTrip n) 4 0x0505 n ∧ (∀ l, mapGet (fun _ => none) l (s.thermTrip n).dram.lines = none) ∧
    ∀ j, j < 128 → (s.thermTrip n).pdOn j = (decide (j < 11) && s.pdOn j) := by
  rw [thermTrip_eq n h]
  refine ⟨fault_out _ _ _ _ _ ?_, fault_newest _ _ _ _ _, fun l => ?_, fun j hj => ?_⟩
  · rw [gateSites_out]
    exact List.mem_cons_self
  · rw [fault_dram, gateSites_line]
  · have hreg : PKG_PD_STAT (j / 32) ∉ faultRegs := by
      rcases (by omega : j / 32 = 0 ∨ j / 32 = 1 ∨ j / 32 = 2 ∨ j / 32 = 3) with e | e | e | e <;> rw [e] <;> decide
    rw [State.pdOn, fault_reg _ _ _ _ _ hreg]
    exact gateSites_pdOn _ hj

end

end Sys2Proof.Governor
end

section
/-! SUPPORT. A reading of the die temperatures as a whole (R455, R456), and domains gated for idleness (R459). -/

namespace Sys2Proof.Governor

open Sys2Proof Sys2Proof.Machine Sys2Proof.Laws

/-! ### a reading of the temperatures -/

section
variable (s : State) (l : List Nat)

theorem dieTemps_pending : (s.dieTemps l).pending = s.pending := by
  rw [dieTemps_eq, apply_ite State.pending, thermTrip_pending, ite_self, heedTemps_pending]

theorem dieTemps_reg {a : Nat} (hf : a ∉ faultRegs) (hl : a < 0x1000000) (hd : a ∉ domainRegs) :
    (s.dieTemps l).reg a = (heedTemps s l).reg a := by
  rw [dieTemps_eq]
  split
  · exact thermTrip_reg _ hf hl hd
  · rfl

theorem dieTemps_tj : (s.dieTemps l).pwr.tj = hotAt s.pwr.tj 100 97 (l.foldl max 0) := by
  rw [dieTemps_eq, ← heedTemps_tj s l]
  split
  · rw [thermTrip_pwr]
  · rfl

theorem dieTemps_tj110 : (s.dieTemps l).pwr.tj110 = hotAt s.pwr.tj110 110 107 (l.foldl max 0) := by
  rw [dieTemps_eq, ← heedTemps_tj110 s l]
  split
  · rw [thermTrip_pwr]
  · rfl

theorem dieTemps_trips (h : 120 ≤ l.foldl max 0) : (s.dieTemps l).pwr.trip = true := by
  rw [dieTemps_eq, if_pos h, thermTrip_pwr]

theorem dieTemps_cool (h : l.foldl max 0 < 120) : (s.dieTemps l).pwr.trip = s.pwr.trip := by
  rw [dieTemps_eq, if_neg (Nat.not_le.2 h), heedTemps_trip]

end

/-! ### the faces of a quadrant -/

theorem fsqStat_injective (d : Nat) : Function.Injective (FSQ_STAT d) := fun i j h => by
  unfold FSQ_STAT faceBase at h
  omega

theorem fsqStat_ge (d f : Nat) : 0x1000000 ≤ FSQ_STAT d f := by
  unfold FSQ_STAT faceBase dieBase
  omega

theorem quadFaces_nodup (q : Nat) : (quadFaces q).Nodup :=
  List.Nodup.map (fun i j h => by simpa using h) List.nodup_range

/-- The faces of a quadrant show GATED, or run again. -/
def showQuad (s : State) (d q : Nat) (gate : Bool) : State :=
  (quadFaces q).foldl (fun s f => s.setFlag (FSQ_STAT d f) FSQ_STAT_GATED gate) s

section
variable (s : State) (d q : Nat) (gate : Bool)

theorem showQuad_onlyRegs : onlyRegs s (showQuad s d q gate) :=
  foldl_setFlag_onlyRegs (FSQ_STAT d) FSQ_STAT_GATED (fun _ => gate) (quadFaces q) s

theorem showQuad_flag {f : Nat} (hf : f ∈ quadFaces q) : (showQuad s d q gate).flag (FSQ_STAT d f) FSQ_STAT_GATED = gate :=
  foldl_setFlag_flag (fsqStat_injective d) (by decide) rfl (fun _ => gate) (quadFaces_nodup q) hf s

theorem showQuad_pdOn {j : Nat} (h : j < 128) : (showQuad s d q gate).pdOn j = s.pdOn j := by
  refine pdOn_congr (foldl_setFlag_regs (FSQ_STAT d) FSQ_STAT_GATED (fun _ => gate) (quadFaces q) s _ fun hm => ?_)
  obtain ⟨f, -, hf⟩ := List.mem_map.1 hm
  have hg := fsqStat_ge d f
  unfold PKG_PD_STAT at hf
  omega

/-- A quadrant is idle when none of its faces holds a descriptor or a row. -/
def quadIdle : Bool := (quadFaces q).all (fun f => (s.face d f).held.isEmpty && (s.face d f).rows.isEmpty)

/-- The common and controller domains of a die are idle when its cache is clean and none of its faces holds a descriptor. -/
def dieIdle : Bool := s.dieClean d && (List.range 64).all (fun f => (s.face d f).held.isEmpty)

theorem gateQuad_eq : s.gateQuad d q gate =
    if gate && !quadIdle s d q then s else showQuad (s.setPd (13 + 6 * d + q) (!gate)) d q gate := rfl

end

/-! ### gating a domain -/

section
variable {s : State} {d k : Nat} {gate : Bool}

/-- What makes domain k of a site idle. -/
def domainIdle (s : State) (d k : Nat) : Bool := if 2 ≤ k then quadIdle s d (k - 2) else dieIdle s d

theorem gateDomain_outside {pd : Nat} (h : pd < 11 ∨ 107 ≤ pd) (gate : Bool) : s.gateDomain pd gate = s := by
  unfold State.gateDomain
  exact if_pos (h.elim Or.inl fun h => Or.inr (Or.inl h))

theorem gateDomain_stays_off {pd : Nat} (h : s.stage < 5 ∨ s.stage = 15) : s.gateDomain pd false = s := by
  unfold State.gateDomain
  refine if_pos (Or.inr (Or.inr ?_))
  simpa [State.stage] using h

/-- A site's domain, when start-up does not hold it off. -/
theorem gateDomain_site (hd : d < 16) (hk : k < 6) (hs : gate = true ∨ (5 ≤ s.stage ∧ s.stage ≠ 15)) :
    s.gateDomain (11 + 6 * d + k) gate =
      if 2 ≤ k then s.gateQuad d (k - 2) gate else if gate && !dieIdle s d then s else s.setPd (11 + 6 * d + k) (!gate) := by
  have e1 : (11 + 6 * d + k - 11) / 6 = d := by omega
  have e2 : (11 + 6 * d + k - 11) % 6 = k := by omega
  have hn : ¬(11 + 6 * d + k < 11 ∨ 107 ≤ 11 + 6 * d + k ∨ (!gate && (decide (s.stage < 5) || s.stage == 15)) = true) := by
    rintro (h | h | h)
    · omega
    · omega
    · rcases hs with rfl | ⟨h5, h15⟩
      · simp at h
      · simp only [Bool.and_eq_true, Bool.or_eq_true, decide_eq_true_eq, beq_iff_eq] at h
        omega
  unfold State.gateDomain
  refine (if_neg hn).trans ?_
  rw [e1, e2]
  rfl

theorem gateDomain_busy (hd : d < 16) (hk : k < 6) (hi : domainIdle s d k = false) : s.gateDomain (11 + 6 * d + k) true = s := by
  rw [gateDomain_site hd hk (.inl rfl)]
  unfold domainIdle at hi
  split
  · next h2 =>
    rw [if_pos h2] at hi
    rw [gateQuad_eq, hi, if_pos (show (true && !false) = true from rfl)]
  · next h2 =>
    rw [if_neg h2] at hi
    rw [hi, if_pos (show (true && !false) = true from rfl)]

/-- A domain that gates or runs again. -/
theorem gateDomain_switches (hd : d < 16) (hk : k < 6)
    (h : (gate = true ∧ domainIdle s d k = true) ∨ (gate = false ∧ 5 ≤ s.stage ∧ s.stage ≠ 15)) :
    s.gateDomain (11 + 6 * d + k) gate =
      if 2 ≤ k then showQuad (s.setPd (11 + 6 * d + k) (!gate)) d (k - 2) gate else s.setPd (11 + 6 * d + k) (!gate) := by
  have hs : gate = true ∨ (5 ≤ s.stage ∧ s.stage ≠ 15) := h.imp And.left And.right
  have hg : gate = true → domainIdle s d k = true := fun hg => h.elim And.right fun hf => absurd (hg.symm.trans hf.1) (by decide)
  rw [gateDomain_site hd hk hs]
  unfold domainIdle at hg
  split
  · next h2 =>
    simp only [if_pos h2] at hg
    have e : 13 + 6 * d + (k - 2) = 11 + 6 * d + k := by omega
    rw [gateQuad_eq, e, if_neg (by simpa using hg)]
  · next h2 =>
    simp only [if_neg h2] at hg
    rw [if_neg (by simpa using hg)]

/-- The register file after a switch: the domain's bit, its faces, and nothing of the other domains (R459). -/
theorem gateDomain_shows (hd : d < 16) (hk : k < 6)
    (h : (gate = true ∧ domainIdle s d k = true) ∨ (gate = false ∧ 5 ≤ s.stage ∧ s.stage ≠ 15)) :
    let t := s.gateDomain (11 + 6 * d + k) gate
    onlyRegs s t ∧ t.pdOn (11 + 6 * d + k) = !gate ∧
      (2 ≤ k → ∀ f ∈ quadFaces (k - 2), t.flag (FSQ_STAT d f) FSQ_STAT_GATED = gate) ∧
      (∀ j, j < 128 → j ≠ 11 + 6 * d + k → t.pdOn j = s.pdOn j) := by
  intro t
  have ht : t = _ := gateDomain_switches hd hk h
  rw [ht]
  split
  · next h2 =>
    refine ⟨onlyRegs_trans (onlyRegs_setPd s _ _) (showQuad_onlyRegs _ _ _ _), ?_, fun _ f hf => showQuad_flag _ _ _ _ hf,
      fun j hj hne => ?_⟩
    · rw [showQuad_pdOn _ _ _ _ (by omega), setPd_same]
    · rw [showQuad_pdOn _ _ _ _ hj, setPd_other _ _ hne]
  · next h2 =>
    exact ⟨onlyRegs_setPd s _ _, setPd_same _ _ _, fun hk => absurd hk h2, fun j _ hne => setPd_other _ _ hne⟩

end

end Sys2Proof.Governor
end

section
/-! SUPPORT. A command of the host that waits is taken with its block and answered (R378 to R382): what the taking and the answer leave
as they were. -/

namespace Sys2Proof.Laws

open Sys2Proof Sys2Proof.Machine

/-! ### the host window -/

theorem regionOf_hostWindow (o : Nat) : regionOf (hwBase + o) = if o < 2 ^ 44 then .hostWindow else .reserved := by
  unfold regionOf hwBase
  iterate 8 rw [if_neg (by omega)]
  by_cases h : o < 2 ^ 44
  · rw [if_pos h, if_pos (by omega)]
  · rw [if_neg h, if_neg (by omega)]

theorem served_host (s : State) (o n : Nat) : s.served (hwBase + o) n = (decide (o < 2 ^ 44) && s.canHost) := by
  rw [State.served, regionOf_hostWindow]
  by_cases h : o < 2 ^ 44
  · rw [if_pos h, decide_eq_true h, Bool.true_and]
  · rw [if_neg h, decide_eq_false h, Bool.false_and]

theorem canHost_congr {s t : State} (hb : t.boot = s.boot) (hr : ∀ a ∈ [PKG_ROLE, HIF_STAT, HIF_CTRL], t.reg a = s.reg a) :
    t.canHost = s.canHost := by
  rw [State.canHost, State.canHost, State.isMember, State.isMember, hb, fld_of_reg (hr PKG_ROLE (by simp)),
    flag_of_reg (hr HIF_STAT (by simp)), flag_of_reg (hr HIF_STAT (by simp)), flag_of_reg (hr HIF_STAT (by simp)),
    flag_of_reg (hr HIF_CTRL (by simp))]

/-- What a read of the host window finds does not hang on registers but by the host path. -/
theorem hostLost_congr {s t : State} (h : onlyRegs s t) (hc : t.canHost = s.canHost) (o n : Nat) : t.hostLost o n = s.hostLost o n := by
  have hb : t.beatBad (hwBase + o) n = s.beatBad (hwBase + o) n := by
    simp only [State.beatBad, State.lostAt, onlyRegs_poison h, onlyRegs_dram h]
  have hp : t.pageBad (hwBase + o) n = s.pageBad (hwBase + o) n := by
    simp only [State.pageBad, State.pageEnd, onlyRegs_hif h]
  rw [State.hostLost, State.hostLost, State.memRead, State.memRead, served_host, served_host, hc, hb, hp]

/-- A read that is not lost has the host path, and no page of it ends in error. -/
theorem hostLost_false {s : State} {o n : Nat} (h : s.hostLost o n = false) :
    s.canHost = true ∧ s.served (hwBase + o) n = true ∧ ∀ b ∈ blocksOf 4096 o n, s.pageEnd (b * 4096) = none := by
  simp only [State.hostLost, State.memRead, Bool.or_eq_false_iff, Bool.not_eq_false'] at h
  obtain ⟨⟨hs, -⟩, hp⟩ := h
  have hs' := hs
  rw [served_host, Bool.and_eq_true, decide_eq_true_eq] at hs'
  obtain ⟨ho, hc⟩ := hs'
  refine ⟨hc, hs, fun b hb => ?_⟩
  rw [State.pageBad, regionOf_hostWindow, if_pos ho, Nat.add_sub_cancel_left] at hp
  rcases hl : s.hif.pages with _ | ⟨e, l⟩
  · rw [State.pageEnd, hl]; rfl
  · simp only [hl, List.isEmpty_cons, Bool.not_false, Bool.and_true, beq_self_eq_true, Bool.true_and, List.any_eq_false] at hp
    simpa using hp b hb

/-! ### reads of host memory that end with data -/

/-- Nothing but registers, the next tag of a read and what left the device differs. -/
def onlyAsked (s t : State) : Prop :=
  t = { s with regs := t.regs, out := t.out, hif := { s.hif with nextTag := t.hif.nextTag } }

theorem onlyAsked_trans {s t u : State} (h : onlyAsked s t) (g : onlyAsked t u) : onlyAsked s u := by
  unfold onlyAsked at *
  rw [g, h]
theorem onlyAsked_of_onlyRegs {s t : State} (h : onlyRegs s t) : onlyAsked s t := by
  rw [onlyRegs] at h
  rw [onlyAsked, h]
theorem onlyAsked_pending {s t : State} (h : onlyAsked s t) : t.pending = s.pending := by rw [onlyAsked] at h; rw [h]
theorem onlyAsked_mem {s t : State} (h : onlyAsked s t) : t.mem = s.mem := by rw [onlyAsked] at h; rw [h]
theorem onlyAsked_boot {s t : State} (h : onlyAsked s t) : t.boot = s.boot := by rw [onlyAsked] at h; rw [h]
theorem onlyAsked_pages {s t : State} (h : onlyAsked s t) : t.hif.pages = s.hif.pages := by rw [onlyAsked] at h; rw [h]
theorem onlyAsked_late {s t : State} (h : onlyAsked s t) : t.hif.late = s.hif.late := by rw [onlyAsked] at h; rw [h]

/-- What such a read leaves: nothing but the count of bytes read, the next tag and what left the device differs. -/
structure Fetched (s t : State) : Prop where
  rest : onlyAsked s t
  regs : regsKept s t [HIF_RD_BYTES_LO, HIF_RD_BYTES_LO + 4]

theorem Fetched.refl (s : State) : Fetched s s := ⟨rfl, regsKept_refl s _⟩
theorem Fetched.trans {s t u : State} (h : Fetched s t) (g : Fetched t u) : Fetched s u :=
  ⟨onlyAsked_trans h.rest g.rest, regsKept_trans h.regs g.regs⟩
theorem Fetched.of_onlyRegs {s t : State} (h : onlyRegs s t) (hr : regsKept s t [HIF_RD_BYTES_LO, HIF_RD_BYTES_LO + 4]) :
    Fetched s t := ⟨onlyAsked_of_onlyRegs h, hr⟩
theorem Fetched.ask (s : State) (o : Output) (n : Nat) :
    Fetched s { s.emit o with hif := { s.hif with nextTag := n } } := ⟨rfl, regsKept_refl s _⟩
theorem hostRead1_fetched {s : State} {o : Nat} (h : s.pageEnd o = none) (n : Nat) : Fetched s (s.hostRead1 o n) := by
  have e : s.hostRead1 o n = (({ s.emit (.hostRead s.hif.nextTag (s.hostAddr o) n) with
      hif := { s.hif with nextTag := (s.hif.nextTag + 1) % 16384 } } : State).bump HIF_RD_BYTES_LO n) := by
    unfold State.hostRead1
    dsimp only
    split
    · rfl
    all_goals
      rename_i he
      exact absurd (he.symm.trans h) (by simp)
  rw [e]
  exact (Fetched.ask s _ _).trans (.of_onlyRegs (onlyRegs_bump _ _ _) (regsKept_bump _ (by decide) (by decide) n))

theorem partsOf_page {k o n : Nat} (hk : 0 < k) {p : Nat × Nat} (h : p ∈ partsOf k o n) : p.1 / k ∈ blocksOf k o n := by
  obtain ⟨b, hb, rfl⟩ := List.mem_map.1 h
  have hge : o / k ≤ b := by
    unfold blocksOf at hb
    split at hb
    · cases hb
    · obtain ⟨i, -, rfl⟩ := List.mem_map.1 hb
      exact Nat.le_add_right _ _
  have e : max o (b * k) / k = b := by
    rcases Nat.lt_or_ge (b * k) o with hlt | hle
    · rw [Nat.max_eq_left hlt.le]
      exact le_antisymm hge ((Nat.le_div_iff_mul_le hk).2 hlt.le)
    · rw [Nat.max_eq_right hle, Nat.mul_div_cancel _ hk]
  exact e.symm ▸ hb

theorem hostSeen_fetched {s : State} {o n : Nat} (h : s.hostLost o n = false) : Fetched s (s.hostSeen o n) := by
  obtain ⟨-, hs, hp⟩ := hostLost_false h
  have hparts : ∀ p ∈ partsOf 4096 o n, mapGet (fun _ => none) (p.1 / 4096) s.hif.pages = none := fun p hm => by
    have := hp _ (partsOf_page (by decide) hm)
    rwa [State.pageEnd, Nat.mul_div_cancel _ (by decide)] at this
  rw [State.hostSeen, hs, if_neg (by decide)]
  generalize partsOf 4096 o n = l at hparts
  clear h hs hp
  induction l generalizing s with
  | nil => exact .refl s
  | cons p l ih =>
    have hf := hostRead1_fetched (s := s) (hparts p List.mem_cons_self) p.2
    exact hf.trans (ih fun q hq => by rw [onlyAsked_pages hf.rest]; exact hparts q (List.mem_cons_of_mem _ hq))

/-! ### answers and writes of the host path -/

theorem ansWord_zero (st : Nat) : ansWord st 0 = st := by rw [ansWord]; rfl

theorem leBytes_length (n v : Nat) : (leBytes n v).length = n := by
  induction n generalizing v with
  | zero => rfl
  | succ n ih => rw [leBytes, List.length_cons, ih]

theorem waiting_canHost {s : State} {w m code : Nat} (hw : waiting s m code w) : s.canHost = true := by
  obtain ⟨-, -, -, -, hl⟩ := hw
  obtain ⟨hc, -, -⟩ := hostLost_false hl
  exact hc

/-- A write to host memory with the host path. -/
theorem hostPut_of_canHost {s : State} (h : s.canHost = true) (off : Nat) (v : List Byte) :
    (s.hostPut off v).mem = setBytes v (hwBase + off) s.mem ∧ (s.hostPut off v).hif = s.hif ∧
      (s.hostPut off v).pending = s.pending ∧ regsKept s (s.hostPut off v) [HIF_WR_BYTES_LO, HIF_WR_BYTES_LO + 4] := by
  have hh := State.bump_hif s HIF_WR_BYTES_LO v.length
  have hp := State.bump_pending s HIF_WR_BYTES_LO v.length
  have hr : regsKept s (s.bump HIF_WR_BYTES_LO v.length) [HIF_WR_BYTES_LO, HIF_WR_BYTES_LO + 4] :=
    regsKept_bump s (by decide) (by decide) _
  rw [State.hostPut, if_pos h]
  generalize s.bump HIF_WR_BYTES_LO v.length = t at hh hp hr ⊢
  exact ⟨rfl, hh, hp, hr⟩

/-! ### taking a command -/

/-- The Foreman's own registers of mailbox m that taking its word changes. -/
theorem takeCmd_regs (s : State) (m w : Nat) : regsKept s (s.takeCmd m (.own w)) [H2F_STAT m, MBX_PEND] :=
  regsKept_trans (regsKept_setReg s (by simp) _) (regsKept_setReg _ (by simp) _)

theorem takeCmd_onlyRegs (s : State) (m w : Nat) : onlyRegs s (s.takeCmd m (.own w)) :=
  onlyRegs_trans (onlyRegs_setReg s _ _) (onlyRegs_setReg _ _ _)

theorem takeCmd_empties (s : State) (m w : Nat) :
    (s.takeCmd m (.own w)).flag (H2F_STAT m) H2F_STAT_FULL = false := by
  have hne : H2F_STAT m ≠ MBX_PEND := by unfold H2F_STAT MBX_PEND; omega
  exact (flag_of_reg (reg_setFlag_other _ hne _ _) _).trans (flag_setFlag_same s _ false (by decide) rfl)

theorem ring_notMem {m : Nat} (hm : m < 16) :
    HIF_RING_LO m ∉ [H2F_STAT m, MBX_PEND] ∧ HIF_RING_HI m ∉ [H2F_STAT m, MBX_PEND] := by
  unfold HIF_RING_LO HIF_RING_HI H2F_STAT MBX_PEND bar4Base
  constructor <;> simp <;> omega

theorem takeCmd_canHost {m : Nat} (hm : m < 16) (s : State) (w : Nat) : (s.takeCmd m (.own w)).canHost = s.canHost := by
  refine canHost_congr (onlyRegs_boot (takeCmd_onlyRegs s m w)) fun a ha => takeCmd_regs s m w a fun hn => ?_
  simp only [List.mem_cons, List.not_mem_nil, or_false] at ha hn
  unfold H2F_STAT MBX_PEND bar4Base at hn
  rcases ha with rfl | rfl | rfl
  · unfold PKG_ROLE at hn; omega
  · unfold HIF_STAT at hn; omega
  · unfold HIF_CTRL at hn; omega

theorem takeCmd_blkOff {m : Nat} (hm : m < 16) (s : State) (w : Nat) :
    (s.takeCmd m (.own w)).blkOff m (.own w) = s.blkOff m (.own w) := by
  obtain ⟨hlo, hhi⟩ := ring_notMem hm
  simp only [State.blkOff]
  rw [fld_of_reg (takeCmd_regs s m w _ hlo), fld_of_reg (takeCmd_regs s m w _ hhi)]

/-- The host's word that waits is served with its block, when the block can be read. -/
theorem serve_waiting {m code w : Nat} (hm : m < 16) {s : State} (h : waiting s m code w) (blk : List Byte)
    (f : State → List Byte → CmdSrc → State) : s.serve m code true blk f = f (took s m w) blk (.own w) := by
  obtain ⟨hc, hcode, hfwd, hv, hl⟩ := h
  have hv' : (s.takeCmd m (.own w)).flag (HIF_RING_HI m) HIF_RING_HI_V = true :=
    (flag_of_reg (takeCmd_regs s m w _ (ring_notMem hm).2) _).trans hv
  have hl' : (s.takeCmd m (.own w)).hostLost (s.blkOff m (.own w)) 64 = false :=
    (hostLost_congr (takeCmd_onlyRegs s m w) (takeCmd_canHost hm s w) _ _).trans hl
  unfold State.serve
  rw [hc]
  dsimp only
  rw [if_neg (by simp [CmdSrc.word, hcode, hfwd]), if_pos rfl]
  unfold State.withBlk
  dsimp only
  rw [hv', takeCmd_blkOff hm, hl', if_neg (by decide), if_neg (by decide), took]

section took

variable {m code w : Nat} {s : State}

theorem took_fetched (hm : m < 16) (h : waiting s m code w) : Fetched (s.takeCmd m (.own w)) (took s m w) := by
  obtain ⟨-, -, -, -, hl⟩ := h
  exact hostSeen_fetched ((hostLost_congr (takeCmd_onlyRegs s m w) (takeCmd_canHost hm s w) _ _).trans hl)

/-- Taking a command and reading its block leaves everything but some registers, the tags of reads and what left the device. -/
theorem took_onlyAsked (hm : m < 16) (h : waiting s m code w) : onlyAsked s (took s m w) :=
  onlyAsked_trans (onlyAsked_of_onlyRegs (takeCmd_onlyRegs s m w)) (took_fetched hm h).rest

theorem took_regs (hm : m < 16) (h : waiting s m code w) :
    regsKept s (took s m w) [H2F_STAT m, MBX_PEND, HIF_RD_BYTES_LO, HIF_RD_BYTES_LO + 4] :=
  regsKept_trans (regsKept_mono (takeCmd_regs s m w) (by simp)) (regsKept_mono (took_fetched hm h).regs (by simp))

end took

/-! ### answering -/

/-- FULL of a mailbox toward the host. -/
theorem f2hFull_onlyRegs (s : State) (m : Nat) (b : Bool) : onlyRegs s (s.f2hFull m b) := by
  have h : onlyRegs s ((s.setFlag (F2H_STAT m) F2H_STAT_FULL b).setFlag MBX_PEND ⟨m, 1⟩ b) :=
    onlyRegs_trans (onlyRegs_setReg s _ _) (onlyRegs_setReg _ _ _)
  unfold State.f2hFull
  dsimp only
  split
  · exact onlyRegs_trans h (onlyRegs_fire _ _)
  · split
    · exact h
    · exact onlyRegs_trans h (onlyRegs_setReg _ _ _)

theorem f2hFull_regs (s : State) (m : Nat) (b : Bool) : regsKept s (s.f2hFull m b) (F2H_STAT m :: MBX_PEND :: pbaRegs) := by
  have h : regsKept s ((s.setFlag (F2H_STAT m) F2H_STAT_FULL b).setFlag MBX_PEND ⟨m, 1⟩ b) (F2H_STAT m :: MBX_PEND :: pbaRegs) :=
    regsKept_trans (regsKept_setReg s (by simp) _) (regsKept_setReg _ (by simp) _)
  have hp : pbaRegs ⊆ F2H_STAT m :: MBX_PEND :: pbaRegs := fun a ha => List.mem_cons_of_mem _ (List.mem_cons_of_mem _ ha)
  unfold State.f2hFull
  dsimp only
  split
  · exact regsKept_trans h (regsKept_fire _ (by decide) hp)
  · split
    · exact h
    · exact regsKept_trans h (regsKept_setReg _ (hp (pba_mem 1 (by decide))) _)

/-- An answer into an empty mailbox, by the Foreman, of a command that was not answered before. -/
def answering (s : State) (m w : Nat) : State :=
  ((s.setFlag (H2F_STAT m) H2F_STAT_TIMING false).setReg (F2H_DATA m) w).f2hFull m true

section
variable {m w : Nat} {s : State}

theorem answer_clear {w0 : Nat} (hf : s.flag (F2H_STAT m) F2H_STAT_FULL = false) (hl : s.hif.late.contains m = false) :
    s.answer m (.own w0) w = answering s m w := by
  have hne : F2H_STAT m ≠ H2F_STAT m := by unfold F2H_STAT H2F_STAT; omega
  have hf' : (s.setFlag (H2F_STAT m) H2F_STAT_TIMING false).flag (F2H_STAT m) F2H_STAT_FULL = false :=
    (flag_of_reg (reg_setFlag_other s hne _ _) _).trans hf
  rw [State.answer, State.f2hPush, hl, if_neg Bool.false_ne_true, State.f2hPut, hf', if_pos (show (!false) = true from rfl), answering]

theorem answering_onlyRegs (s : State) (m w : Nat) : onlyRegs s (answering s m w) :=
  onlyRegs_trans (onlyRegs_trans (onlyRegs_setReg s _ _) (onlyRegs_setReg _ _ _)) (f2hFull_onlyRegs _ _ _)

theorem answering_regs (s : State) (m w : Nat) :
    regsKept s (answering s m w) (H2F_STAT m :: F2H_DATA m :: F2H_STAT m :: MBX_PEND :: pbaRegs) := by
  refine regsKept_trans (regsKept_trans (regsKept_setReg s (by simp) _) (regsKept_setReg _ (by simp) _))
    (regsKept_mono (f2hFull_regs _ _ _) fun a ha => ?_)
  exact List.mem_cons_of_mem _ (List.mem_cons_of_mem _ ha)

/-- FULL of the mailbox after the answer. -/
theorem f2hFull_full (hm : m < 16) (s : State) : (s.f2hFull m true).flag (F2H_STAT m) F2H_STAT_FULL = true := by
  have hne : F2H_STAT m ≠ MBX_PEND := by unfold F2H_STAT MBX_PEND; omega
  have hp (i : Nat) : F2H_STAT m ≠ MSIX_PBA i := by unfold F2H_STAT MSIX_PBA; omega
  have hnp : F2H_STAT m ∉ pbaRegs := fun h => by
    obtain ⟨i, -, hi⟩ := List.mem_map.1 h
    exact hp i hi.symm
  have h : ((s.setFlag (F2H_STAT m) F2H_STAT_FULL true).setFlag MBX_PEND ⟨m, 1⟩ true).flag (F2H_STAT m) F2H_STAT_FULL = true :=
    (flag_of_reg (reg_setFlag_other _ hne _ _) _).trans (flag_setFlag_same s _ true (by decide) rfl)
  unfold State.f2hFull
  dsimp only
  split
  · exact (flag_of_reg (fire_reg _ (by decide) hnp) _).trans h
  · split
    · exact h
    · exact (flag_of_reg (reg_setReg_other _ (hp _) _) _).trans h

theorem mailbox_notMem (hm : m < 16) : F2H_DATA m ∉ F2H_STAT m :: MBX_PEND :: pbaRegs ∧
    H2F_STAT m ∉ F2H_DATA m :: F2H_STAT m :: MBX_PEND :: pbaRegs := by
  have hp : ∀ a ∈ pbaRegs, bar4Base + 0x12000 ≤ a := fun a ha => by
    obtain ⟨i, -, rfl⟩ := List.mem_map.1 ha
    unfold MSIX_PBA
    omega
  constructor
  · intro h
    have h1 := hp (F2H_DATA m)
    simp only [List.mem_cons] at h
    unfold F2H_DATA at *
    unfold F2H_STAT MBX_PEND at h
    rcases h with h | h | h
    · omega
    · omega
    · have := h1 h; omega
  · intro h
    have h1 := hp (H2F_STAT m)
    simp only [List.mem_cons] at h
    unfold H2F_STAT at *
    unfold F2H_DATA F2H_STAT MBX_PEND at h
    rcases h with h | h | h | h
    · omega
    · omega
    · omega
    · have := h1 h; omega

/-- The host finds the answer (R378). -/
theorem answering_answered (hm : m < 16) (hw : w < 2 ^ 32) (h : s.flag (H2F_STAT m) H2F_STAT_FULL = false) :
    answered (answering s m w) m w := by
  obtain ⟨hd, hs⟩ := mailbox_notMem hm
  refine ⟨?_, f2hFull_full hm _, ?_⟩
  · rw [answering, f2hFull_regs _ _ _ _ hd, reg_setReg_same, Nat.mod_eq_of_lt hw]
  · have h2 : (answering s m w).reg (H2F_STAT m) = (s.setFlag (H2F_STAT m) H2F_STAT_TIMING false).reg (H2F_STAT m) := by
      rw [answering, f2hFull_regs _ _ _ _ (fun hh => hs (List.mem_cons_of_mem _ hh)), reg_setReg_other _ (ne_of_mem_of_not_mem List.mem_cons_self hs).symm]
    exact (flag_of_reg h2 _).trans ((flag_setFlag_other s _ false (by decide) (by decide)).trans h)

end

/-! ### a command taken and answered -/

/-- The registers of mailbox m that the Foreman writes lie in BAR4. -/
theorem mailbox_ge (m : Nat) : bar4Base ≤ H2F_STAT m ∧ bar4Base ≤ F2H_STAT m := by
  unfold H2F_STAT F2H_STAT
  omega

section
variable {m code w : Nat} {s u : State} {l : List Nat}

/-- A command of the host that has been taken and done is answered: `u` is the state its effect left, `l` the registers below BAR4 that
the effect may have changed. -/
theorem answer_taken (hm : m < 16) (hw : waiting s m code w) (hc : clearBox s m) (hr : regsKept (took s m w) u l)
    (hl : ∀ a ∈ l, a < bar4Base) (hlate : u.hif.late = s.hif.late) {v : Nat} (hv : v < 2 ^ 32) :
    onlyRegs u (u.answer m (.own w) v) ∧ answered (u.answer m (.own w) v) m v ∧
      regsKept u (u.answer m (.own w) v) (mailRegs m) ∧ regsKept s (u.answer m (.own w) v) (l ++ mailRegs m) := by
  obtain ⟨hfull, hnl⟩ := hc
  obtain ⟨gh, gf⟩ := mailbox_ge m
  have h1 : H2F_STAT m ∉ l := fun h => absurd (hl _ h) (Nat.not_lt.2 gh)
  have h2 : F2H_STAT m ∉ l := fun h => absurd (hl _ h) (Nat.not_lt.2 gf)
  have e1 : H2F_STAT m ∉ [HIF_RD_BYTES_LO, HIF_RD_BYTES_LO + 4] := by
    unfold H2F_STAT HIF_RD_BYTES_LO bar4Base; simp; omega
  have e2 : F2H_STAT m ∉ [H2F_STAT m, MBX_PEND, HIF_RD_BYTES_LO, HIF_RD_BYTES_LO + 4] := by
    unfold F2H_STAT H2F_STAT MBX_PEND HIF_RD_BYTES_LO bar4Base; simp; omega
  have hempty : u.flag (H2F_STAT m) H2F_STAT_FULL = false :=
    (flag_of_reg ((hr _ h1).trans ((took_fetched hm hw).regs _ e1)) _).trans (takeCmd_empties s m w)
  have hfull' : u.flag (F2H_STAT m) F2H_STAT_FULL = false :=
    (flag_of_reg ((hr _ h2).trans (took_regs hm hw _ e2)) _).trans hfull
  have hmail : regsKept u (answering u m v) (mailRegs m) := regsKept_mono (answering_regs u m v) fun a ha => by
    simp only [List.mem_cons] at ha
    unfold mailRegs
    rcases ha with rfl | rfl | rfl | rfl | ha
    all_goals simp [*]
  have htook : regsKept s (took s m w) (mailRegs m) := regsKept_mono (took_regs hm hw) (by unfold mailRegs; simp)
  rw [answer_clear hfull' (by rw [hlate, hnl])]
  refine ⟨answering_onlyRegs u m v, answering_answered hm hv hempty, hmail, ?_⟩
  exact regsKept_trans (regsKept_mono htook (List.subset_append_right _ _))
    (regsKept_trans (regsKept_mono hr (List.subset_append_left _ _)) (regsKept_mono hmail (List.subset_append_right _ _)))

end

end Sys2Proof.Laws
end

section
/-! SUPPORT. Mailbox 3: OP_SET, LIMIT_SET and PWR_GET (R460). -/

namespace Sys2Proof.Governor

open Sys2Proof Sys2Proof.Machine Sys2Proof.Laws

/-! ### OP_SET -/

section
variable {s : State} {w : Nat} {blk : List Byte}

/-- OP_SET: bad values change nothing, others are the point requested. -/
theorem opSet_shows (hc : clearBox s 3) (hw : waiting s 3 0x60 w) :
    let t := s.serve 3 0x60 true blk (fun t b src => (t.opSet b).1.answer 3 src (ansWord (t.opSet b).2 0))
    t.pending = s.pending ∧ t.mem = s.mem ∧
      (cbArg3 blk % 4 = 3 → answered t 3 0x18 ∧ regsKept s t (mailRegs 3)) ∧
      (cbArg3 blk % 4 ≠ 3 → answered t 3 0x00 ∧ t.fld PWR_REQ PWR_REQ_POINT = cbArg3 blk % 4 ∧
        regsKept s t (PWR_REQ :: mailRegs 3)) := by
  intro t
  have hu := took_onlyAsked (by decide) hw
  have ht : t = _ := serve_waiting (by decide) hw blk _
  by_cases h3 : cbArg3 blk % 4 = 3
  · have e : (took s 3 w).opSet blk = (took s 3 w, stBadValue) := if_pos h3
    have ha := answer_taken (by decide) hw hc (regsKept_refl (took s 3 w) []) (by simp) (onlyAsked_late hu)
      (v := stBadValue) (by decide)
    obtain ⟨ho, hans, -, hs⟩ := ha
    rw [ht, e, ansWord_zero]
    exact ⟨(onlyRegs_pending ho).trans (onlyAsked_pending hu), (onlyRegs_mem ho).trans (onlyAsked_mem hu), fun _ => ⟨hans, hs⟩,
      fun h => absurd h3 h⟩
  · have e : (took s 3 w).opSet blk = ((took s 3 w).setFld PWR_REQ PWR_REQ_POINT (cbArg3 blk % 4), stAccepted) := if_neg h3
    have ha := answer_taken (u := (took s 3 w).setFld PWR_REQ PWR_REQ_POINT (cbArg3 blk % 4)) (l := [PWR_REQ]) (by decide) hw hc
      (regsKept_setReg _ List.mem_cons_self _) (by decide)
      ((congrArg HostIf.late (State.setFld_hif _ _ _ _)).trans (onlyAsked_late hu)) (v := stAccepted) (by decide)
    obtain ⟨ho, hans, hm, hs⟩ := ha
    rw [ht, e, ansWord_zero]
    refine ⟨(onlyRegs_pending ho).trans ((State.setFld_pending _ _ _ _).trans (onlyAsked_pending hu)),
      (onlyRegs_mem ho).trans ((State.setFld_mem _ _ _ _).trans (onlyAsked_mem hu)), fun h => absurd h h3,
      fun _ => ⟨hans, ?_, hs⟩⟩
    refine (fld_of_reg (hm _ (by decide)) _).trans ((fld_setFld_same _ _ _ _ (by decide)).trans (Nat.mod_eq_of_lt ?_))
    exact Nat.mod_lt _ (by decide)

/-! ### LIMIT_SET -/

theorem limitSet_shows (hc : clearBox s 3) (hw : waiting s 3 0x61 w) :
    let sw := bits (cbArg2 blk) 0 9
    let pc := bits (cbArg2 blk) 16 9
    let t := s.serve 3 0x61 true blk (fun t b src => (t.limitSet b).1.answer 3 src (ansWord (t.limitSet b).2 0))
    t.pending = s.pending ∧ t.mem = s.mem ∧
      (sw = 0 ∨ pc = 0 → answered t 3 0x18 ∧ regsKept s t (mailRegs 3)) ∧
      (sw ≠ 0 → pc ≠ 0 → answered t 3 0x00 ∧ t.fld PWR_LIMIT PWR_LIMIT_SW_LIM = sw ∧ t.fld PWR_LIMIT PWR_LIMIT_PCAP_LIM = pc ∧
        regsKept s t (PWR_LIMIT :: mailRegs 3)) := by
  intro sw pc t
  have hu := took_onlyAsked (by decide) hw
  have ht : t = _ := serve_waiting (by decide) hw blk _
  by_cases h0 : sw = 0 ∨ pc = 0
  · have e : (took s 3 w).limitSet blk = (took s 3 w, stBadValue) := if_pos h0
    have ha := answer_taken (by decide) hw hc (regsKept_refl (took s 3 w) []) (by simp) (onlyAsked_late hu)
      (v := stBadValue) (by decide)
    obtain ⟨ho, hans, -, hs⟩ := ha
    rw [ht, e, ansWord_zero]
    exact ⟨(onlyRegs_pending ho).trans (onlyAsked_pending hu), (onlyRegs_mem ho).trans (onlyAsked_mem hu), fun _ => ⟨hans, hs⟩,
      fun h1 h2 => absurd h0 (not_or.2 ⟨h1, h2⟩)⟩
  · have e : (took s 3 w).limitSet blk =
        (((took s 3 w).setFld PWR_LIMIT PWR_LIMIT_SW_LIM sw).setFld PWR_LIMIT PWR_LIMIT_PCAP_LIM pc, stAccepted) := if_neg h0
    have hh : (((took s 3 w).setFld PWR_LIMIT PWR_LIMIT_SW_LIM sw).setFld PWR_LIMIT PWR_LIMIT_PCAP_LIM pc).hif = (took s 3 w).hif := by
      rw [State.setFld_hif, State.setFld_hif]
    have ha := answer_taken (u := ((took s 3 w).setFld PWR_LIMIT PWR_LIMIT_SW_LIM sw).setFld PWR_LIMIT PWR_LIMIT_PCAP_LIM pc)
      (l := [PWR_LIMIT]) (by decide) hw hc
      (regsKept_trans (regsKept_setReg _ List.mem_cons_self _) (regsKept_setReg _ List.mem_cons_self _)) (by decide)
      ((congrArg HostIf.late hh).trans (onlyAsked_late hu)) (v := stAccepted) (by decide)
    obtain ⟨ho, hans, hm, hs⟩ := ha
    have hb (v lo : Nat) : bits v lo 9 % 2 ^ 9 = bits v lo 9 := Nat.mod_eq_of_lt (bits_lt _ _ _)
    rw [ht, e, ansWord_zero]
    refine ⟨?_, ?_, fun h => absurd h h0, fun _ _ => ⟨hans, ?_, ?_, hs⟩⟩
    · rw [onlyRegs_pending ho, State.setFld_pending, State.setFld_pending, onlyAsked_pending hu]
    · rw [onlyRegs_mem ho, State.setFld_mem, State.setFld_mem, onlyAsked_mem hu]
    · exact (fld_of_reg (hm _ (by decide)) _).trans <| (fld_setFld_other _ _ _ (by decide) (by decide)).trans <|
        (fld_setFld_same _ _ _ _ (by decide)).trans (hb _ _)
    · exact (fld_of_reg (hm _ (by decide)) _).trans ((fld_setFld_same _ _ _ _ (by decide)).trans (hb _ _))

/-! ### PWR_GET -/

/-- The three words of PWR_GET. -/
def pwrWords (s : State) : List Byte := leBytes 4 (s.reg PWR_STAT) ++ leBytes 4 (s.reg PWR_READ) ++ leBytes 4 (s.reg PWR_TEMP)

theorem pwrWords_length (s : State) : (pwrWords s).length = 12 := by
  simp only [pwrWords, List.length_append, leBytes_length]

theorem took_canHost (hw : waiting s 3 0x62 w) : (took s 3 w).canHost = s.canHost :=
  canHost_congr (onlyAsked_boot (took_onlyAsked (by decide) hw)) (fun a ha => took_regs (by decide) hw a (by
    simp only [List.mem_cons, List.not_mem_nil, or_false] at ha
    rcases ha with rfl | rfl | rfl <;> decide))

theorem took_pwrWords (hw : waiting s 3 0x62 w) : pwrWords (took s 3 w) = pwrWords s := by
  have hr := took_regs (by decide) hw
  rw [pwrWords, pwrWords, hr _ (by decide), hr _ (by decide), hr _ (by decide)]

theorem took_blkOff (hw : waiting s 3 0x62 w) : (took s 3 w).blkOff 3 (.own w) = s.blkOff 3 (.own w) := by
  have hr := took_regs (by decide) hw
  simp only [State.blkOff]
  rw [fld_of_reg (hr _ (by decide)), fld_of_reg (hr _ (by decide))]

theorem pwrGet_of_canHost (h : s.canHost = true) :
    s.pwrGet (.own w) = (s.hostPut (s.blkOff 3 (.own w) + 0x20) (pwrWords s)).answer 3 (.own w) stAccepted := by
  rw [State.pwrGet, State.srcPut, if_pos h, ansWord_zero, pwrWords]

/-- PWR_GET writes the three words behind the block's header, and answers. -/
theorem pwrGet_shows (hc : clearBox s 3) (hw : waiting s 3 0x62 w) :
    let t := s.serve 3 0x62 true blk (fun t _ src => t.pwrGet src)
    let a := hwBase + (s.blkOff 3 (.own w) + 0x20)
    t.pending = s.pending ∧ answered t 3 0x00 ∧ bytesKept s t a 12 ∧ getBytes t.mem a 12 = pwrWords s := by
  intro t a
  have hu := took_onlyAsked (by decide) hw
  have hcan : (took s 3 w).canHost = true := (took_canHost hw).trans (waiting_canHost hw)
  obtain ⟨pm, ph, pp, pr⟩ := hostPut_of_canHost hcan (s.blkOff 3 (.own w) + 0x20) (pwrWords s)
  have hput : t = ((took s 3 w).hostPut (s.blkOff 3 (.own w) + 0x20) (pwrWords s)).answer 3 (.own w) stAccepted := by
    rw [← took_pwrWords hw, ← took_blkOff hw]
    exact (serve_waiting (by decide) hw blk _).trans (pwrGet_of_canHost hcan)
  obtain ⟨ho, hans, -, -⟩ := answer_taken (by decide) hw hc pr (by decide) ((congrArg HostIf.late ph).trans (onlyAsked_late hu))
    (v := stAccepted) (by decide)
  have hmem : t.mem = setBytes (pwrWords s) a s.mem := by
    rw [hput, onlyRegs_mem ho, pm, onlyAsked_mem hu]
  refine ⟨?_, by rw [hput]; exact hans, fun b hb => ?_, ?_⟩
  · rw [hput, onlyRegs_pending ho, pp, onlyAsked_pending hu]
  · rw [byteAt, byteAt, hmem]
    exact getByte_setBytes_other _ _ _ _ (by rwa [pwrWords_length])
  · rw [hmem, ← pwrWords_length s]
    exact getBytes_setBytes _ _ _

end

end Sys2Proof.Governor
end

section
/-! What the commands of the governor, its pins and its sensors do, and O60. -/

namespace Sys2Proof.Governor

open Sys2Proof Sys2Proof.Machine Sys2Proof.Laws

section
variable {s : State} (hon : s.boot.on = true)
include hon

/-! ### mailbox 3 -/

theorem exec_opSet {w : Nat} {blk : List Byte} (hc : clearBox s 3) (hw : waiting s 3 0x60 w) :
    ∃ t, Machine.exec (.opSet blk) s = .next t ∧ t.mem = s.mem ∧
      (cbArg3 blk % 4 = 3 → answered t 3 0x18 ∧ regsKept s t (mailRegs 3)) ∧
      (cbArg3 blk % 4 ≠ 3 → answered t 3 0x00 ∧ t.fld PWR_REQ PWR_REQ_POINT = cbArg3 blk % 4 ∧
        regsKept s t (PWR_REQ :: mailRegs 3)) := by
  obtain ⟨hp, h⟩ := opSet_shows (blk := blk) hc hw
  exact ⟨_, done_kept hon hp, h⟩

theorem exec_limitSet {w : Nat} {blk : List Byte} (hc : clearBox s 3) (hw : waiting s 3 0x61 w) :
    let sw := bits (cbArg2 blk) 0 9
    let pc := bits (cbArg2 blk) 16 9
    ∃ t, Machine.exec (.limitSet blk) s = .next t ∧ t.mem = s.mem ∧
      (sw = 0 ∨ pc = 0 → answered t 3 0x18 ∧ regsKept s t (mailRegs 3)) ∧
      (sw ≠ 0 → pc ≠ 0 → answered t 3 0x00 ∧ t.fld PWR_LIMIT PWR_LIMIT_SW_LIM = sw ∧ t.fld PWR_LIMIT PWR_LIMIT_PCAP_LIM = pc ∧
        regsKept s t (PWR_LIMIT :: mailRegs 3)) := by
  obtain ⟨hp, h⟩ := limitSet_shows (blk := blk) hc hw
  exact ⟨_, done_kept hon hp, h⟩

theorem exec_pwrGet {w : Nat} {blk : List Byte} (hc : clearBox s 3) (hw : waiting s 3 0x62 w) :
    ∃ t, Machine.exec (.pwrGet blk) s = .next t ∧ answered t 3 0x00 ∧
      let a := hwBase + (s.blkOff 3 (.own w) + 0x20)
      bytesKept s t a 12 ∧ (s.canHost = true → getBytes t.mem a 12 = pwrWords s) := by
  obtain ⟨hp, ha, hb, hg⟩ := pwrGet_shows (blk := blk) hc hw
  exact ⟨_, done_kept hon hp, ha, hb, fun _ => hg⟩

/-! ### the tick -/

omit hon in
theorem exec_governorTick_early (h : s.isReady = false) : Machine.exec .governorTick s = .next s := by
  rw [← done_self s]
  exact congrArg (done s) (if_neg (by rw [h]; decide))

theorem exec_governorTick (h : s.isReady = true) : Machine.exec .governorTick s = .next s.tick :=
  (congrArg (done s) (if_pos h)).trans (done_kept hon (tick_pending s))

omit hon in
/-- A tick with GOV_EN = 0 (R461). -/
theorem tick_without_governor (hp : s.point ≤ 2) (hl : stillLate s = false) (ht : s.pwr.tj110 = false)
    (hg : s.govFld PWR_CTRL PWR_CTRL_GOV_EN ≠ 1) :
    (s.pwr.tj = true → (s.point < 2 → s.tick.point = s.point + 1) ∧
      (s.point = 2 → s.tick.duty = shownDuty s (if 4 < s.duty then s.duty - 1 else s.duty))) ∧
    (s.pwr.tj = false → s.flag PWR_STAT PWR_STAT_PWR_CAP = true →
      s.tick.point = max s.point s.ceiling ∧ s.tick.duty = shownDuty s s.duty) ∧
    (s.pwr.tj = false → s.flag PWR_STAT PWR_STAT_PWR_CAP = false → s.tick.point = max s.point s.ceiling ∧ s.tick.duty = 16 ∧
      (s.ceiling < s.point → s.pwr.up = none →
        s.tick.pwr.up = some s.ceiling ∧ .voltage s.vrms (pointMv s.ceiling) ∈ s.tick.out)) := by
  have hpt := tick_ungoverned_point hl ht hg hp
  refine ⟨fun hj => ⟨fun h2 => ?_, tick_ungoverned_duty_hot hl ht hg hj⟩,
    fun hj hc => ⟨?_, tick_ungoverned_duty_cap hl ht hg hj hc⟩,
    fun hj hc => ⟨?_, tick_ungoverned_duty_free hl ht hg hj hc, tick_ungoverned_steps_up hl ht hg hj hc⟩⟩
  · rw [hpt, if_pos hj]; omega
  · rw [hpt, hj, if_neg Bool.false_ne_true]
  · rw [hpt, hj, if_neg Bool.false_ne_true]

omit hon in
/-- A tick with GOV_EN = 1 (R452). -/
theorem tick_with_governor (hp : s.point ≤ 2) (hl : stillLate s = false) (ht : s.pwr.tj110 = false)
    (hg : s.govFld PWR_CTRL PWR_CTRL_GOV_EN = 1) :
    (s.point < s.ceiling → s.tick.point = s.point + 1) ∧
    (s.ceiling ≤ s.point → s.effLimit.1 < s.tick.p1 ∨ s.pwr.tj = true → (s.point < 2 → s.tick.point = s.point + 1) ∧
      (s.point = 2 → s.tick.point = 2 ∧ s.tick.duty = shownDuty s (if 4 < s.duty then s.duty - 1 else s.duty))) ∧
    (s.ceiling ≤ s.point → s.tick.p1 ≤ s.effLimit.1 → s.pwr.tj = false → s.tick.point = s.point ∧
      (s.effLimit.1 * 9 ≤ s.tick.p1 * 10 → s.tick.pwr.quiet = 0 ∧ s.tick.duty = shownDuty s s.duty) ∧
      (s.tick.p1 * 10 < s.effLimit.1 * 9 → s.pwr.quiet < 99 →
        s.tick.pwr.quiet = s.pwr.quiet + 1 ∧ s.tick.duty = shownDuty s s.duty ∧ s.tick.pwr.up = s.pwr.up) ∧
      (s.tick.p1 * 10 < s.effLimit.1 * 9 → 99 ≤ s.pwr.quiet → s.tick.pwr.quiet = 0 ∧
        (shownDuty s s.duty < 16 → s.tick.duty = s.duty + 1) ∧
        (16 ≤ shownDuty s s.duty → s.ceiling < s.point → upFits s.tick.p1 s.effLimit.1 s.point = true → s.pwr.up = none →
          s.tick.pwr.up = some (s.point - 1) ∧ .voltage s.vrms (pointMv (s.point - 1)) ∈ s.tick.out ∧
          s.tick.flag PWR_STAT PWR_STAT_TRANS = true))) := by
  have hpt := tick_governed_point hl ht hg hp
  refine ⟨fun h => by rw [hpt, if_pos h], fun hc ho => ⟨fun h2 => ?_, fun h2 => ⟨?_, tick_governed_duty_less hl ht hg hc ho h2⟩⟩,
    fun hc h1 hj => ?_⟩
  · rw [hpt, if_neg (by omega), if_pos ho]; omega
  · rw [hpt, if_neg (by omega), if_pos ho]; omega
  · obtain ⟨v, hv⟩ := tick_within_limit hl ht hg hc h1 hj
    have hn : ¬(s.effLimit.1 < s.tick.p1 ∨ s.pwr.tj = true) := by rw [hj]; simpa using h1
    exact ⟨by rw [hpt, if_neg (by omega), if_neg hn], tick_near hv, tick_waits hv,
      fun h hq => ⟨tick_quiet_zero hv h hq, tick_adds_duty hv h hq, tick_starts_step_up hv h hq⟩⟩

/-! ### the end of a ramp -/

omit hon in
theorem exec_pointRampDone_idle (h : s.flag PWR_STAT PWR_STAT_TRANS = false) : Machine.exec .pointRampDone s = .next s := by
  rw [← done_self s]
  exact congrArg (done s) (if_neg (by rw [h]; decide))

theorem exec_pointRampDone (h : s.flag PWR_STAT PWR_STAT_TRANS = true) : Machine.exec .pointRampDone s = .next s.rampDone :=
  (congrArg (done s) (if_pos h)).trans (done_kept hon (steered_rampDone s).pending)

/-! ### the pins -/

theorem exec_coolOkChange (level : Bool) :
    (s.flag PWR_STAT PWR_STAT_COOL_OK = level → Machine.exec (.coolOkChange level) s = .next s) ∧
    (s.flag PWR_STAT PWR_STAT_COOL_OK ≠ level → ∃ t, Machine.exec (.coolOkChange level) s = .next t ∧
      t.flag PWR_STAT PWR_STAT_COOL_OK = level ∧ t.flag PWR_EVENT PWR_EVENT_COOL = true ∧ t.mem = s.mem ∧
      (level = true ∨ s.isReady = false → t.point = s.point) ∧
      (s.isReady = true → t.pwr.up = none ∧ (level = false →
        t.point = max s.point (if s.govFld PWR_REQ PWR_REQ_ALLOW_P1 = 1 then 1 else 2)))) := by
  refine ⟨fun h => ?_, fun h => ⟨s.coolChange level, ?_, ?_, ?_, ?_, coolChange_point_kept h, fun hr => ⟨coolChange_up h hr, ?_⟩⟩⟩
  · rw [← done_self s]
    exact congrArg (done s) (coolChange_same h)
  · exact done_kept hon ((steered_coolChange h).pending.trans (notePin_pending s level))
  · exact (steered_coolChange h).cool.trans (notePin_pin s level (by decide) rfl)
  · exact (steered_coolChange h).events _ (by decide) rfl (notePin_event s level (by decide) (by decide) rfl)
  · exact (steered_coolChange h).mem.trans (notePin_mem s level)
  · rintro rfl
    exact coolChange_drops h hr

theorem exec_pwrCapAssert (hp : s.point ≤ 2) :
    (s.flag PWR_STAT PWR_STAT_PWR_CAP = true → Machine.exec .pwrCapAssert s = .next s) ∧
    (s.flag PWR_STAT PWR_STAT_PWR_CAP = false → ∃ t, Machine.exec .pwrCapAssert s = .next t ∧
      t.flag PWR_STAT PWR_STAT_PWR_CAP = true ∧ t.flag PWR_EVENT PWR_EVENT_CAP = true ∧
      (s.isReady = false → t.point = s.point ∧ t.duty = s.duty) ∧
      (s.isReady = true → t.pwr.capRun = true ∧ t.fld PWR_STAT PWR_STAT_LIMITER = 3 ∧ t.point = capTarget s ∧
        (s.govFld PWR_CTRL PWR_CTRL_THROT_EN = 1 → 4 ≤ t.duty ∧ t.duty ≤ 16 ∧ (t.duty = 4 ∨
          s.p100 * (upRatio s.point t.point).2 * t.duty ≤ s.pcap * (upRatio s.point t.point).1 * 16)))) := by
  refine ⟨fun h => ?_, fun h => ?_⟩
  · rw [← done_self s]
    exact congrArg (done s) (capAssert_again h)
  · obtain ⟨hpend, hcap, hev⟩ := capAssert_shows h
    refine ⟨s.capAssert, done_kept hon hpend, hcap, hev, capAssert_early h, fun hr => ?_⟩
    have hpt := capAssert_point h hr hp
    refine ⟨capAssert_runs h hr, capAssert_limiter h hr, hpt, fun ht => ?_⟩
    obtain ⟨h4, h16⟩ := capDuty_bounds s.p100 s.pcap (upRatio s.point (capTarget s))
    rw [capAssert_duty h hr ht, hpt]
    exact ⟨h4, h16, capDuty_fits _ _ _⟩

theorem exec_pwrCapRelease :
    (s.flag PWR_STAT PWR_STAT_PWR_CAP = false → Machine.exec .pwrCapRelease s = .next s) ∧
    (s.flag PWR_STAT PWR_STAT_PWR_CAP = true → ∃ t, Machine.exec .pwrCapRelease s = .next t ∧
      t.flag PWR_STAT PWR_STAT_PWR_CAP = false ∧ t.flag PWR_EVENT PWR_EVENT_CAP = true ∧ t.pwr.capRun = false ∧
      t.pwr.capLate = false ∧ t.point = s.point) := by
  refine ⟨fun h => ?_, fun h => ?_⟩
  · rw [← done_self s]
    exact congrArg (done s) (capRelease_idle h)
  · have e1 : (noteCap s false).flag PWR_STAT PWR_STAT_PWR_CAP = false := notePin_pin s false (by decide) rfl
    have e2 : (noteCap s false).flag PWR_EVENT PWR_EVENT_CAP = true := notePin_event s false (by decide) (by decide) rfl
    have e3 : (noteCap s false).pending = s.pending := notePin_pending s false
    have e4 := noteCap_point s false
    have he := capRelease_eq h
    generalize noteCap s false = u at e1 e2 e3 e4 he
    refine ⟨s.capRelease, done_kept hon (by rw [he, e3]), ?_⟩
    rw [he]
    exact ⟨e1, e2, rfl, rfl, e4⟩

/-! ### the sensors -/

theorem exec_regulatorPoll (r : Fin 16) (good : Bool) :
    let old := mapGet (fun _ => (0, 0)) r.val s.pwr.rails
    let n := mapGet (fun _ => 0) r.val s.pwr.fails + 1
    (∀ mv a, ∃ t, Machine.exec (.regulatorPoll r (some (mv, a)) good) s = .next t ∧ regsKept s t [PWR_RAIL r.val] ∧
      t.fld (PWR_RAIL r.val) PWR_RAIL_IOUT = min 1023 a ∧ t.fld (PWR_RAIL r.val) PWR_RAIL_VOUT = min 1023 mv ∧
      t.flag (PWR_RAIL r.val) PWR_RAIL_PGOOD = good ∧ mapGet (fun _ => (0, 0)) r.val t.pwr.rails = (mv * a, old.1) ∧
      mapGet (fun _ => 0) r.val t.pwr.fails = 0) ∧
    (∃ t, Machine.exec (.regulatorPoll r none good) s = .next t ∧ mapGet (fun _ => 0) r.val t.pwr.fails = n ∧
      (n < 3 → mapGet (fun _ => (0, 0)) r.val t.pwr.rails = (old.1, old.1)) ∧
      (3 ≤ n → mapGet (fun _ => (0, 0)) r.val t.pwr.rails = (Config.siteEstimate r.val s.freeN * 11 / 10, old.1)) ∧
      (n = 3 → t.flag PWR_EVENT PWR_EVENT_TELEM = true)) := by
  intro old n
  refine ⟨fun mv a => ⟨putRail (showRail s r.val mv a good) r.val (mv * a) old.1 0, ?_, ?_, ?_, ?_, ?_, ?_, ?_⟩,
    ⟨failRail s r.val old.1 n, ?_, failRail_fails _ _ _ _, failRail_stands s r.val old.1, failRail_estimates s r.val old.1,
      failRail_telem s r.val old.1⟩⟩
  · exact (congrArg (done s) (pollRail_read s r.val mv a good)).trans
      (done_kept hon ((putRail_pending _ _ _ _ _).trans (showRail_pending s r.val mv a good)))
  · exact fun b hb => (putRail_reg _ _ _ _ _ _).trans (showRail_regs s r.val mv a good b hb)
  · exact (fld_of_reg (putRail_reg _ _ _ _ _ _) _).trans (showRail_iout s r.val mv a good)
  · exact (fld_of_reg (putRail_reg _ _ _ _ _ _) _).trans (showRail_vout s r.val mv a good)
  · exact (flag_of_reg (putRail_reg _ _ _ _ _ _) _).trans (showRail_pgood s r.val mv a good)
  · exact putRail_rails _ _ _ _ _
  · exact putRail_fails _ _ _ _ _
  · exact (congrArg (done s) (pollRail_failed s r.val good)).trans (done_kept hon (failRail_pending s r.val old.1 n))

theorem exec_pmbAlert (l : List Nat) : ∃ t, Machine.exec (.pmbAlert l) s = .next t ∧ onlyRegs s t ∧
    regsKept s t ((List.range 16).map PWR_RAIL) ∧ ∀ r, r < 16 → t.flag (PWR_RAIL r) PWR_RAIL_PGOOD = !bit (l.getD r 0) 11 := by
  have ho := foldl_setFlag_onlyRegs PWR_RAIL PWR_RAIL_PGOOD (fun r => !bit (l.getD r 0) 11) (List.range 16) s
  exact ⟨_, done_kept hon (onlyRegs_pending ho), ho, foldl_setFlag_regs _ _ _ _ _,
    fun r hr => foldl_setFlag_flag rail_injective (by decide) rfl _ List.nodup_range (List.mem_range.2 hr) s⟩

theorem exec_dieTempReading (hp : s.point ≤ 2) (l : List Nat) :
    (l.length ≠ 68 → Machine.exec (.dieTempReading l) s = .next s) ∧
    (l.length = 68 →
      let m := l.foldl max 0
      ∃ t, Machine.exec (.dieTempReading l) s = .next t ∧ t.fld PWR_TEMP PWR_TEMP_TJ_MAX = min 255 m ∧
        t.fld PWR_TEMP PWR_TEMP_SENSOR = l.idxOf m ∧ t.pwr.tj = (decide (100 ≤ m) || (s.pwr.tj && decide (97 ≤ m))) ∧
        t.pwr.tj110 = (decide (110 ≤ m) || (s.pwr.tj110 && decide (107 ≤ m))) ∧
        (100 ≤ m → s.pwr.tj = false → t.flag PWR_EVENT PWR_EVENT_TJ_THROT = true) ∧
        (110 ≤ m → s.pwr.tj110 = false → t.point = 2 ∧ t.duty = shownDuty s 4) ∧ (120 ≤ m → t.pwr.trip = true) ∧
        (m < 120 → t.pwr.trip = s.pwr.trip)) := by
  refine ⟨fun h => ?_, fun h => ⟨s.dieTemps l, ?_, ?_, ?_, dieTemps_tj s l, dieTemps_tj110 s l, fun h1 hw => ?_, fun h1 hw => ?_,
    dieTemps_trips s l, dieTemps_cool s l⟩⟩
  · rw [← done_self s]
    exact congrArg (done s) (if_neg h)
  · exact (congrArg (done s) (if_pos h)).trans (done_kept hon (dieTemps_pending s l))
  · exact (fld_of_reg (dieTemps_reg s l (by decide) (by decide) (by decide)) _).trans (heedTemps_max s l)
  · exact (fld_of_reg (dieTemps_reg s l (by decide) (by decide) (by decide)) _).trans (heedTemps_sensor s l h)
  · exact (flag_of_reg (dieTemps_reg s l (by decide) (by decide) (by decide)) _).trans (heedTemps_throttles s l h1 hw)
  · have hr := dieTemps_reg s l (a := PWR_STAT) (by decide) (by decide) (by decide)
    rw [point_of_reg hr, duty_of_reg hr]
    exact heedTemps_floor s l h1 hw hp

theorem exec_thermtrip (n : Nat) :
    (s.pwr.trip = true → Machine.exec (.thermtrip n) s = .next s) ∧
    (s.pwr.trip = false → ∃ t, Machine.exec (.thermtrip n) s = .next t ∧ t.pwr.trip = true ∧ .pin "THERMTRIP_N" false ∈ t.out ∧
      newestFault t 4 0x0505 n ∧ (∀ l, mapGet (fun _ => none) l t.dram.lines = none) ∧
      ∀ j, j < 128 → t.pdOn j = (decide (j < 11) && s.pdOn j)) := by
  refine ⟨fun h => ?_, fun h => ⟨s.thermTrip n, done_kept hon (thermTrip_pending n), ?_, thermTrip_gates n h⟩⟩
  · rw [← done_self s]
    exact congrArg (done s) (thermTrip_again n h)
  · rw [thermTrip_pwr]

/-! ### rails, clocks and idleness -/

theorem exec_railFault (n : Nat) :
    (s.boot.perst = true ∨ 34 ≤ n → Machine.exec (.railFault n) s = .next s) ∧
    (s.boot.perst = false → n < 34 → ∃ t, Machine.exec (.railFault n) s = .next t ∧ newestFault t 4 0x0503 (railDomain n) ∧
      t.obs.faultN = true) := by
  refine ⟨fun h => ?_, fun h hn => ⟨s.fault 4 0x0503 0 (railDomain n), ?_, fault_newest _ _ _ _ _, fault_fatal_faultN _ _ _ _⟩⟩
  · rw [← done_self s]
    exact congrArg (done s) (if_pos h)
  · refine (congrArg (done s) (if_neg ?_)).trans (done_kept hon (fault_pending _ _ _ _ _))
    rw [h, not_or]
    exact ⟨Bool.false_ne_true, Nat.not_le.2 hn⟩

theorem exec_refclkLoss : ∃ t, Machine.exec .refclkLoss s = .next t ∧ newestFault t 4 0x0503 0 ∧ t.obs.faultN = true :=
  ⟨s.fault 4 0x0503 0 0, done_kept hon (fault_pending _ _ _ _ _), fault_newest _ _ _ _ _, fault_fatal_faultN _ _ _ _⟩

theorem exec_unitIdleGate (n : Nat) :
    (s.idleGate n = false → Machine.exec (.unitIdleGate n) s = .next s) ∧
    (s.idleGate n = true →
      Machine.exec (.unitIdleGate n) s = .next { s with pwr := { s.pwr with idle := setInsert n s.pwr.idle } }) := by
  refine ⟨fun h => ?_, fun h => (congrArg (done s) (if_pos h)).trans (done_kept hon rfl)⟩
  rw [← done_self s]
  exact congrArg (done s) (if_neg (by rw [h]; decide))

omit hon in
theorem exec_domainIdleGating_kept {pd : Fin 123} {gate : Bool} (h : s.gateDomain pd.val gate = s) :
    Machine.exec (.domainIdleGating pd gate) s = .next s := by
  rw [← done_self s]
  exact congrArg (done s) h

theorem exec_domainIdleGating (d : Fin 16) (k : Fin 6) (gate : Bool) (pd : Fin 123) (hpd : pd.val = 11 + 6 * d.val + k.val) :
    (gate = true → domainIdle s d.val k.val = false → Machine.exec (.domainIdleGating pd gate) s = .next s) ∧
    (gate = false → s.stage < 5 ∨ s.stage = 15 → Machine.exec (.domainIdleGating pd gate) s = .next s) ∧
    ((gate = true ∧ domainIdle s d.val k.val = true) ∨ (gate = false ∧ 5 ≤ s.stage ∧ s.stage ≠ 15) →
      ∃ t, Machine.exec (.domainIdleGating pd gate) s = .next t ∧ onlyRegs s t ∧ t.pdOn pd.val = !gate ∧
        (2 ≤ k.val → ∀ f ∈ quadFaces (k.val - 2), t.flag (FSQ_STAT d.val f) FSQ_STAT_GATED = gate) ∧
        (∀ j, j < 128 → j ≠ pd.val → t.pdOn j = s.pdOn j)) := by
  refine ⟨?_, ?_, fun h => ?_⟩
  · rintro rfl hi
    exact exec_domainIdleGating_kept (by rw [hpd]; exact gateDomain_busy d.isLt k.isLt hi)
  · rintro rfl hs
    exact exec_domainIdleGating_kept (gateDomain_stays_off hs)
  · have ht := gateDomain_shows d.isLt k.isLt h
    rw [← hpd] at ht
    obtain ⟨ho, hrest⟩ := ht
    exact ⟨s.gateDomain pd.val gate, done_kept hon (onlyRegs_pending ho), ho, hrest⟩

end

/-- Settles O60: every clause is the law of its command, read off the frame of the governor's actions, of a fault's record and of a
command taken from its mailbox. -/
theorem theGovernorKeepsLimitsAndAnswersPins : Obligations.TheGovernorKeepsLimitsAndAnswersPins := by
  unfold Obligations.TheGovernorKeepsLimitsAndAnswersPins
  intro s hon hp full
  refine ⟨fun w blk hc => ⟨exec_opSet hon hc, exec_limitSet hon hc, exec_pwrGet hon hc⟩, exec_governorTick_early, fun hr => ?_,
    exec_pointRampDone_idle, fun ht => ?_, fun level => exec_coolOkChange hon level, ?_, fun h => ?_, fun h hm => ?_,
    fun h hm => ?_, fun r good => exec_regulatorPoll hon r good, exec_pmbAlert hon, exec_dieTempReading hon hp,
    exec_thermtrip hon, exec_railFault hon, exec_refclkLoss hon, exec_unitIdleGate hon,
    fun pd gate h => exec_domainIdleGating_kept (gateDomain_outside h gate), fun d k gate pd => exec_domainIdleGating hon d k gate pd⟩
  · exact ⟨s.tick, exec_governorTick hon hr, tick_point_ge hp, tick_mem s, tick_hist s, tick_avg s, tick_energy s, tick_forced hp,
      tick_without_governor hp, tick_with_governor hp⟩
  · exact ⟨s.rampDone, exec_pointRampDone hon ht, rampDone_up s, rampDone_ends_down, fun p hc hu => rampDone_cancels hu hc ht,
      fun p hc h3 hu => rampDone_switches hu hc h3⟩
  · obtain ⟨h1, h2⟩ := exec_pwrCapAssert hon hp
    obtain ⟨h3, h4⟩ := exec_pwrCapRelease hon
    exact ⟨h1, h2, h3, h4⟩
  · rw [← done_self s]
    exact congrArg (done s) (capDeadline_idle h)
  · exact (congrArg (done s) (capDeadline_met h hm)).trans (done_kept hon rfl)
  · exact ⟨s.capDeadline, done_kept hon capDeadline_pending, capDeadline_records h hm hp⟩

end Sys2Proof.Governor
end

section
/-! SUPPORT. What reads and writes of memory by the units leave as it was, said once (`MemSide`): the records of the work, of the
benches and of the step engine, and the registers of the faces, the die channels and the mailboxes (R216 to R225, R358, R436). -/

namespace Sys2Proof.Laws

open Sys2Proof Sys2Proof.Machine

/-! ### registers that memory is not about -/

/-- A register of a face, of a die's barrier unit, or of the mailboxes and doorbells. -/
abbrev aside (a : Nat) : Prop :=
  (0x1000000 ≤ a ∧ a < 0x2000000 ∧ 0x40000 ≤ a % 0x100000) ∨ (bar4Base ≤ a ∧ a < MSIX_PBA 0)

theorem not_aside_of_lt {a : Nat} (h : a < 0x1000000) : ¬ aside a := by
  unfold aside bar4Base
  omega

theorem not_aside_of_die {d o : Nat} (hd : d < 16) (ho : o < 0x40000) : ¬ aside (dieBase d + o) := by
  unfold aside dieBase bar4Base
  omega

theorem not_aside_pba (i : Nat) : ¬ aside (MSIX_PBA i) := by
  unfold aside MSIX_PBA bar4Base
  omega

/-- The summaries above an event register are not aside. -/
theorem not_aside_sumRegs {a b : Nat} (h : b ∈ sumRegs a) : ¬ aside b := by
  unfold sumRegs at h
  simp only [List.mem_append, List.mem_singleton] at h
  rcases h with (rfl | h) | h
  · exact not_aside_of_lt (by decide)
  · unfold dieOf at h
    split_ifs at h with hr
    · have hd : (a - 0x1000000) / 0x100000 < 16 := by omega
      simp only [List.mem_cons, List.not_mem_nil, or_false] at h
      rcases h with rfl | rfl | rfl
      · exact not_aside_of_die hd (by decide)
      · exact not_aside_of_die hd (by decide)
      · exact not_aside_of_die hd (by decide)
    · cases h
  · obtain ⟨i, -, rfl⟩ := List.mem_map.1 h
    exact not_aside_pba i

theorem not_aside_faultRegs {a : Nat} (h : a ∈ faultRegs) : ¬ aside a := by
  unfold faultRegs at h
  rcases List.mem_append.1 h with h | h
  · simp only [List.mem_cons, List.not_mem_nil, or_false] at h
    rcases h with rfl | rfl | rfl | rfl | rfl | rfl | rfl | rfl | rfl | rfl | rfl | rfl <;> decide
  · exact not_aside_sumRegs h

theorem stackOf_gchan_lt (a : Nat) : stackOf (gchan a) < 16 := by
  unfold stackOf gchan
  omega
theorem ctlOf_lt (g : Nat) : ctlOf g < 8 := by
  unfold ctlOf
  omega

/-- Registers of the controller of an address. -/
theorem not_aside_ctl (a : Nat) {r : Nat} (hr : r < 0x1000) :
    ¬ aside (dieBase (stackOf (gchan a)) + 0x10000 + ctlOf (gchan a) * 0x1000 + r) := by
  have := ctlOf_lt (gchan a)
  rw [Nat.add_assoc, Nat.add_assoc]
  exact not_aside_of_die (stackOf_gchan_lt a) (by omega)
theorem not_aside_mcEvent (a : Nat) : ¬ aside (MC_EVENT (stackOf (gchan a)) (ctlOf (gchan a))) := not_aside_ctl a (by decide)

/-! ### the frame -/

/-- What memory's side of the device leaves: nothing but memory and its poison, registers that are not aside, the records of DRAM,
of placement and of the fabric, the host path's next tag, what left the device, the trace and the queue counters differs. -/
structure MemSide (s t : State) : Prop where
  rest : t = { s with regs := t.regs, mem := t.mem, poison := t.poison, out := t.out, freeN := t.freeN,
                      hif := { s.hif with nextTag := t.hif.nextTag },
                      dram := t.dram, plc := t.plc, fab := t.fab, obs := t.obs, queues := t.queues }
  regs : ∀ a, aside a → t.reg a = s.reg a

namespace MemSide

variable {s t u : State}

theorem refl (s : State) : MemSide s s := ⟨rfl, fun _ _ => rfl⟩
theorem trans (h : MemSide s t) (g : MemSide t u) : MemSide s u where
  rest := by rw [g.rest, h.rest]
  regs := fun a ha => (g.regs a ha).trans (h.regs a ha)

theorem ite {p : Prop} [Decidable p] (h : p → MemSide s t) (g : ¬p → MemSide s u) : MemSide s (if p then t else u) := by
  split
  · exact h ‹_›
  · exact g ‹_›

/-- A fold of operations each of which stays on memory's side. -/
theorem foldl {α : Type} {f : State → α → State} {l : List α} (hf : ∀ s, ∀ a ∈ l, MemSide s (f s a)) (s : State) :
    MemSide s (l.foldl f s) := by
  induction l generalizing s with
  | nil => exact refl s
  | cons a l ih =>
    exact (hf s a List.mem_cons_self).trans (ih (fun s b hb => hf s b (List.mem_cons_of_mem _ hb)) _)

theorem pending (h : MemSide s t) : t.pending = s.pending := by rw [h.rest]
theorem eng (h : MemSide s t) : t.eng = s.eng := by rw [h.rest]
theorem dies (h : MemSide s t) : t.dies = s.dies := by rw [h.rest]
theorem faces (h : MemSide s t) : t.faces = s.faces := by rw [h.rest]
theorem boot (h : MemSide s t) : t.boot = s.boot := by rw [h.rest]
theorem late (h : MemSide s t) : t.hif.late = s.hif.late := by rw [h.rest]

theorem setReg (s : State) {a : Nat} (ha : ¬ aside a) (v : Nat) : MemSide s (s.setReg a v) :=
  ⟨rfl, fun _ hb => reg_setReg_other s (ne_of_mem_of_not_mem (s := {x | aside x}) hb ha) v⟩
theorem setFld (s : State) {a : Nat} (ha : ¬ aside a) (f : Fld) (v : Nat) : MemSide s (s.setFld a f v) := setReg s ha _
theorem bump (s : State) {a : Nat} (ha : ¬ aside a) (h4 : ¬ aside (a + 4)) (n : Nat) : MemSide s (s.bump a n) :=
  (setReg s ha _).trans (setReg _ h4 _)

theorem of_onlyRegs (h : onlyRegs s t) (hr : ∀ a, aside a → t.reg a = s.reg a) : MemSide s t :=
  ⟨by unfold onlyRegs at h; rw [h], hr⟩

theorem raise (s : State) {a : Nat} (ha : ¬ aside a) (f : Fld) : MemSide s (s.raise a f) :=
  of_onlyRegs (onlyRegs_raiseMask s a _) fun _ hb =>
    raise_reg s f (fun h => not_aside_sumRegs h hb) (fun h => ha (h ▸ hb))

theorem of_logged (h : Logged s t) : MemSide s t :=
  ⟨by rw [h.rest], fun _ ha => h.reg fun hf => not_aside_faultRegs hf ha⟩

theorem fault (s : State) (c k o d : Nat) : MemSide s (s.fault c k o d) := by
  have h : MemSide s (recorded s c k o d) := ⟨rfl, fun _ _ => rfl⟩
  exact h.trans (of_logged (fault_logged s c k o d))

/-- Memory, its poison, what left the device, the records of DRAM, placement and fabric, and the host path's next tag. -/
theorem note (s : State) (m : List Host.Cell) (p : List Nat) (o : List Output) (n h : Nat) (d : Dram) (l : Placement)
    (f : Fabric) (q : List (Nat × QGroup)) :
    MemSide s { s with mem := m, poison := p, out := o, freeN := n, hif := { s.hif with nextTag := h }, dram := d, plc := l, fab := f, queues := q } :=
  ⟨rfl, fun _ _ => rfl⟩

theorem send (s : State) (p : Packet) (u : TagUse) : MemSide s (s.send p u) := note s _ _ _ _ _ _ _ _ _

theorem ended (s : State) (a c : Nat) : MemSide s (s.ended a c) := by
  unfold State.ended
  exact (ite (fun _ => raise s (not_aside_mcEvent a) _) (fun _ => refl s)).trans (fault _ _ _ _ _)

/-! ### lines of the die cache -/

theorem burst (s : State) (a : Nat) : MemSide s (s.burst a) := by
  unfold State.burst
  exact ite (fun _ => note s _ _ _ _ _ _ _ _ _) (fun _ => note s _ _ _ _ _ _ _ _ _)
theorem setLine (s : State) (l : Nat) (c : Option CLine) : MemSide s (s.setLine l c) := note s _ _ _ _ _ _ _ _ _
theorem restoreBelow (s : State) (l : Nat) (c : CLine) (b : Bool) : MemSide s (s.restoreBelow l c b) :=
  ite (fun _ => refl s) (fun _ => note s _ _ _ _ _ _ _ _ _)
theorem dropLine (s : State) (l : Nat) (c : CLine) : MemSide s (s.dropLine l c) := (restoreBelow s _ _ _).trans (setLine _ _ _)
theorem evictLine (s : State) (l : Nat) (c : CLine) : MemSide s (s.evictLine l c) :=
  ite (fun _ => (burst s _).trans (note _ _ _ _ _ _ _ _ _ _)) (fun _ => dropLine s l c)
theorem makeWay (s : State) (l : Nat) : MemSide s (s.makeWay l) := by
  unfold State.makeWay
  split
  · exact evictLine s _ _
  · exact refl s
theorem countHit (s : State) (a : Nat) : MemSide s (s.countHit a) :=
  bump s (not_aside_ctl a (by decide)) (not_aside_ctl a (r := 0x10c) (by decide)) 1
theorem countMiss (s : State) (a : Nat) : MemSide s (s.countMiss a) :=
  bump s (not_aside_ctl a (by decide)) (not_aside_ctl a (r := 0x114) (by decide)) 1
theorem loadLine256 (s : State) (l : Nat) (k : Bool) (u : Nat) : MemSide s (s.loadLine256 l k u) := by
  unfold State.loadLine256
  exact ite (fun _ => (burst s _).trans (setLine _ _ _)) (fun _ => (burst s _).trans (note _ _ _ _ _ _ _ _ _ _))
theorem useTick (s : State) : MemSide s s.useTick.2 := note s _ _ _ _ _ _ _ _ _
theorem fillLine (s : State) (l : Nat) (k : Bool) : MemSide s (s.fillLine l k) := by
  have deny (t : State) : MemSide t (t.raise (MC_EVENT (stackOf (gchan (l * 256))) (ctlOf (gchan (l * 256)))) MC_EVENT_KEEP_DENY) :=
    raise t (not_aside_mcEvent _) _
  unfold State.fillLine
  dsimp only
  exact (makeWay s l).trans <| (ite (fun _ => deny _) (fun _ => refl _)).trans <| (useTick _).trans (loadLine256 _ _ _ _)
theorem touchLine (s : State) (l hint : Nat) : MemSide s (s.touchLine l hint) := by
  unfold State.touchLine
  split
  · exact refl s
  · exact ite (fun _ => refl s) (fun _ => note s _ _ _ _ _ _ _ _ _)
theorem dirtyLine (s : State) (l : Nat) : MemSide s (s.dirtyLine l) := by
  unfold State.dirtyLine
  split
  · exact refl s
  · exact ite (fun _ => refl s) (fun _ => note s _ _ _ _ _ _ _ _ _)

/-! ### reads -/

/-- A read of a line without an error in it. -/
theorem dcLook (s : State) (hint a n : Nat) : MemSide s (s.dcLook hint a n .none).2 := by
  unfold State.dcLook
  dsimp only
  split
  · refine (countHit s a).trans (ite (fun _ => ?_) (fun _ => touchLine _ _ _))
    split
    · exact dropLine _ _ _
    · exact refl _
  · exact (countMiss s a).trans (ite (fun _ => burst _ _) (fun _ => fillLine _ _ _))

theorem hostRead1 (s : State) (o n : Nat) : MemSide s (s.hostRead1 o n) := by
  have h : MemSide s { s.emit (.hostRead s.hif.nextTag (s.hostAddr o) n) with
    hif := { s.hif with nextTag := (s.hif.nextTag + 1) % 16384 } } := note s _ _ _ _ _ _ _ _ _
  unfold State.hostRead1
  dsimp only
  split
  · exact h.trans (bump _ (by decide) (by decide) n)
  · exact (h.trans (bump _ (by decide) (by decide) n)).trans (raise _ (by decide) _)
  · exact (h.trans (raise _ (by decide) _)).trans (ended _ _ _)
  · exact (h.trans (raise _ (by decide) _)).trans (ended _ _ _)

theorem hostSeen (s : State) (o n : Nat) : MemSide s (s.hostSeen o n) :=
  ite (fun _ => ended s _ _) (fun _ => foldl (fun s _ _ => hostRead1 s _ _) s)

theorem memSeenAs (s : State) (hint a n : Nat) : MemSide s (s.memSeenAs hint a n) :=
  ite (fun _ => ended s _ _) fun _ => ite (fun _ => foldl (fun s _ _ => dcLook s _ _ _) s) fun _ =>
    ite (fun _ => hostSeen s _ _) (fun _ => refl s)
theorem memSeen (s : State) (a n : Nat) : MemSide s (s.memSeen a n) := memSeenAs s 0 a n

/-! ### writes -/

theorem overLost (s : State) (a n : Nat) : MemSide s (s.overLost a n) :=
  ite (fun _ => refl s) (fun _ => note s _ _ _ _ _ _ _ _ _)
theorem memPut (s : State) (a : Nat) (v : List Byte) (bad : Bool) : MemSide s (s.memPut a v bad) :=
  (overLost s a v.length).trans (note _ _ _ _ _ _ _ _ _ _)
theorem mergeLost (s : State) (a n : Nat) : MemSide s (s.mergeLost a n) := by
  unfold State.mergeLost
  refine ite (fun _ => refl s) (fun _ => ?_)
  split
  · exact fault s _ _ _ _
  · exact refl s
theorem dcTake (s : State) (hint a n : Nat) : MemSide s (s.dcTake hint a n .none) := by
  unfold State.dcTake
  dsimp only
  split
  · exact ((countHit s a).trans (dirtyLine _ _)).trans (touchLine _ _ _)
  · exact (countMiss s a).trans (ite (fun _ => (mergeLost _ _ _).trans (burst _ _)) (fun _ => (fillLine _ _ _).trans (dirtyLine _ _)))
theorem dcStore (s : State) (hint a : Nat) (v : List Byte) (bad : Bool) : MemSide s (s.dcStore hint a v bad .none) :=
  (dcTake s hint a v.length).trans (memPut _ _ _ _)
theorem hostPut (s : State) (off : Nat) (v : List Byte) : MemSide s (s.hostPut off v) := of_logged (Logged.hostPut s off v)
theorem localPut (s : State) (hint a : Nat) (v : List Byte) (bad : Bool) : MemSide s (s.localPut hint a v bad) := by
  unfold State.localPut
  split
  · exact foldl (fun s _ _ => dcStore s _ _ _ _) s
  · exact (hostPut s _ _).trans (note _ _ _ _ _ _ _ _ _ _)
  · exact memPut s _ _ _
theorem memWrite (s : State) (a : Nat) (v : List Byte) (bad : Bool) : MemSide s (s.memWrite a v bad) :=
  ite (fun _ => refl s) fun _ => ite (fun _ => ended s _ _) (fun _ => localPut s _ _ _ _)

end MemSide

end Sys2Proof.Laws
end

section
/-! SUPPORT. The records of faces and dies, and what a die controller and a face sequencer show of them (R27, R28, R331): an operation
that only shows something touches registers only, and these are named. -/

namespace Sys2Proof.Laws

open Sys2Proof Sys2Proof.Machine

/-! ### records -/

theorem face_setFace_same (s : State) (d f : Nat) (x : Face) : (s.setFace d f x).face d f = x := mapGet_set_same _ _ _ _
theorem face_setFace_other (s : State) {d e f g : Nat} (h : 64 * e + g ≠ 64 * d + f) (x : Face) :
    (s.setFace d f x).face e g = s.face e g := mapGet_set_other _ h _ _
theorem die_setDie_same (s : State) (d : Nat) (x : Die) : (s.setDie d x).die d = x := mapGet_set_same _ _ _ _

theorem face_congr {s t : State} (h : t.faces = s.faces) (d f : Nat) : t.face d f = s.face d f := by
  rw [State.face, State.face, h]
theorem die_congr {s t : State} (h : t.dies = s.dies) (d : Nat) : t.die d = s.die d := by rw [State.die, State.die, h]

theorem queued_face (s t : State) (d f : Nat) : (queued s t).face d f = t.face d f := rfl
theorem queued_die (s t : State) (d : Nat) : (queued s t).die d = t.die d := rfl
theorem queued_rot (s t : State) (a : Nat) : (queued s t).rot a = t.rot a := rfl
theorem queued_mem (s t : State) : (queued s t).mem = t.mem := rfl
theorem queued_out (s t : State) : (queued s t).out = t.out := rfl
theorem queued_eng (s t : State) : (queued s t).eng = t.eng := rfl
theorem queued_reg (s t : State) (a : Nat) : (queued s t).reg a = t.reg a := rfl
theorem queued_fld (s t : State) (a : Nat) (f : Fld) : (queued s t).fld a f = t.fld a f := rfl
theorem queued_pair (s t : State) (a : Nat) : (queued s t).pair a = t.pair a := rfl

/-! ### folds -/

theorem onlyRegs_setFld (s : State) (a : Nat) (f : Fld) (v : Nat) : onlyRegs s (s.setFld a f v) := rfl
theorem onlyRegs_setFlag (s : State) (a : Nat) (f : Fld) (b : Bool) : onlyRegs s (s.setFlag a f b) := rfl

theorem onlyRegs_ite {s t u : State} {p : Prop} [Decidable p] (h : onlyRegs s t) (g : onlyRegs s u) :
    onlyRegs s (if p then t else u) := by
  split
  · exact h
  · exact g

theorem onlyRegs_foldl {α : Type} {f : State → α → State} (hf : ∀ s a, onlyRegs s (f s a)) (l : List α) (s : State) :
    onlyRegs s (l.foldl f s) := by
  induction l generalizing s with
  | nil => exact onlyRegs_refl s
  | cons a l ih => exact onlyRegs_trans (hf s a) (ih _)

/-- What each step of a fold leaves, the fold leaves. -/
theorem foldl_kept {α β : Type} (v : State → β) {f : State → α → State} {l : List α} (hf : ∀ s, ∀ a ∈ l, v (f s a) = v s) (s : State) :
    v (l.foldl f s) = v s := by
  induction l generalizing s with
  | nil => rfl
  | cons a l ih =>
    exact (ih (fun s b hb => hf s b (List.mem_cons_of_mem _ hb)) _).trans (hf s a List.mem_cons_self)

/-! ### what a face shows -/

/-- A field keeps its value when another register, or a field that shares no bit with it, is set. -/
theorem fld_setFld_apart (s : State) {a b : Nat} {f g : Fld} (v : Nat) (hf : f.lo + f.w ≤ 32)
    (h : b ≠ a ∨ f.lo + f.w ≤ g.lo ∨ g.lo + g.w ≤ f.lo) : (s.setFld a f v).fld b g = s.fld b g := by
  by_cases hab : b = a
  · subst hab
    exact fld_setFld_other s b v hf (h.resolve_left (absurd rfl))
  · exact fld_of_reg (reg_setFld_other s hab f v) g

/-- What the registers of one member of a gang show of the descriptor that runs. -/
def showMember (d g st : Nat) (run : Option Held) (s : State) : State :=
  let t := s.setFld (FSQ_STAT d g) FSQ_STAT_STATE st
  match run with
  | none => t
  | some h =>
    ((t.setFld (FSQ_STAT d g) FSQ_STAT_LAYER (dLayer h.words)).setFld (FSQ_STAT d g) FSQ_STAT_PHASE (dPhase h.words)).setFld
      (FSQ_CUR_IDX d g) FSQ_CUR_IDX_INDEX h.idx

/-- STATE of a face: a parity stop with nothing running, a descriptor running, none held, or some that wait. -/
def shownState (s : State) (d f : Nat) (run : Option Held) : Nat :=
  if s.flag (FSQ_STAT d f) FSQ_STAT_PARITY_STOP && run.isNone then 3
  else if run.isSome then 2 else if (s.face d f).held.isEmpty then 0 else 1

/-- `showFace` counts the descriptors the face holds, and shows the one that runs on every member. -/
theorem showFace_eq (s : State) (d f : Nat) : s.showFace d f =
    let run := (s.face d f).held.find? (fun h => h.run != .waiting)
    let t := s.setFld (FSQ_STAT d f) FSQ_STAT_CLAIMED (s.face d f).held.length
    (List.range (gangSize (t.gangMap d) f)).foldl (fun t i => showMember d (f + i) (shownState s d f run) run t) t := rfl

theorem onlyRegs_showMember (d g st : Nat) (run : Option Held) (s : State) : onlyRegs s (showMember d g st run s) := by
  unfold showMember
  dsimp only
  split
  · exact onlyRegs_setFld s _ _ _
  · exact onlyRegs_trans (onlyRegs_trans (onlyRegs_trans (onlyRegs_setFld s _ _ _) (onlyRegs_setFld _ _ _ _))
      (onlyRegs_setFld _ _ _ _)) (onlyRegs_setFld _ _ _ _)

theorem showMember_reg {d g a : Nat} (h1 : a ≠ FSQ_STAT d g) (h2 : a ≠ FSQ_CUR_IDX d g) (st : Nat) (run : Option Held) (s : State) :
    (showMember d g st run s).reg a = s.reg a := by
  cases run with
  | none => exact reg_setFld_other s h1 _ _
  | some h =>
    unfold showMember
    rw [reg_setFld_other _ h2, reg_setFld_other _ h1, reg_setFld_other _ h1, reg_setFld_other _ h1]

theorem fsqStat_ne_fsqCurIdx (d f g : Nat) : FSQ_STAT d f ≠ FSQ_CUR_IDX d g := by
  unfold FSQ_STAT FSQ_CUR_IDX faceBase dieBase
  omega

theorem showMember_claimed (d f g st : Nat) (run : Option Held) (s : State) :
    (showMember d g st run s).fld (FSQ_STAT d f) FSQ_STAT_CLAIMED = s.fld (FSQ_STAT d f) FSQ_STAT_CLAIMED := by
  cases run with
  | none => exact fld_setFld_apart s _ (by decide) (.inr (by decide))
  | some h =>
    unfold showMember
    rw [fld_setFld_apart _ _ (by decide) (.inl (fsqStat_ne_fsqCurIdx d f g)), fld_setFld_apart _ _ (by decide) (.inr (by decide)),
      fld_setFld_apart _ _ (by decide) (.inr (by decide)), fld_setFld_apart _ _ (by decide) (.inr (by decide))]

theorem onlyRegs_showFace (s : State) (d f : Nat) : onlyRegs s (s.showFace d f) := by
  rw [showFace_eq]
  exact onlyRegs_trans (onlyRegs_setFld s _ _ _) (onlyRegs_foldl (fun s _ => onlyRegs_showMember d _ _ _ s) _ _)

theorem showFace_reg (s : State) {d a : Nat} (f : Nat) (h : ∀ g, a ≠ FSQ_STAT d g ∧ a ≠ FSQ_CUR_IDX d g) :
    (s.showFace d f).reg a = s.reg a := by
  rw [showFace_eq]
  exact (foldl_kept (fun s => s.reg a) (fun s i _ => showMember_reg (h _).1 (h _).2 _ _ s) _).trans (reg_setFld_other s (h f).1 _ _)

/-- CLAIMED counts the descriptors the face holds (R28). -/
theorem showFace_claimed (s : State) (d f : Nat) :
    (s.showFace d f).fld (FSQ_STAT d f) FSQ_STAT_CLAIMED = (s.face d f).held.length % 2 ^ 3 := by
  rw [showFace_eq]
  exact (foldl_kept (fun s => s.fld (FSQ_STAT d f) FSQ_STAT_CLAIMED) (fun s i _ => showMember_claimed d f _ _ _ s) _).trans
    (fld_setFld_same s _ _ _ (by decide))

/-! ### what a die's channels show -/

/-- The registers of die d's channels. -/
def barRegs (d : Nat) : List Nat := BAR_STAT d :: (List.range 16).map (BAR_CH d)

theorem barCh_mem {d c : Nat} (h : c ∈ List.range 16) : BAR_CH d c ∈ barRegs d :=
  List.mem_cons_of_mem _ (List.mem_map_of_mem h)

theorem onlyRegs_showPend (s : State) (d : Nat) : onlyRegs s (s.showPend d) :=
  onlyRegs_foldl (fun s _ => onlyRegs_trans (onlyRegs_setFld s _ _ _) (onlyRegs_setFlag _ _ _ _)) _ s

theorem showPend_reg (s : State) {d a : Nat} (h : a ∉ barRegs d) : (s.showPend d).reg a = s.reg a := by
  refine foldl_kept (fun s => s.reg a) (fun s c hc => ?_) s
  have hne : a ≠ BAR_CH d c := (ne_of_mem_of_not_mem (barCh_mem hc) h).symm
  exact (reg_setFlag_other _ hne _ _).trans (reg_setFld_other s hne _ _)

theorem onlyRegs_dieArrive (s : State) (d : Nat) : onlyRegs s (s.dieArrive d) :=
  onlyRegs_trans (onlyRegs_showPend s d)
    (onlyRegs_foldl (fun s _ => onlyRegs_ite (onlyRegs_trans (onlyRegs_setFlag s _ _ _) (onlyRegs_setReg _ _ _)) (onlyRegs_refl s)) _ _)

theorem dieArrive_reg (s : State) {d a : Nat} (h : a ∉ barRegs d) : (s.dieArrive d).reg a = s.reg a := by
  refine (foldl_kept (fun s => s.reg a) (fun s c hc => ?_) _).trans (showPend_reg s h)
  have hc' : c ∈ List.range 16 := List.mem_range.2 (Nat.lt_succ_of_lt (List.mem_range.1 hc))
  split
  · exact (reg_setReg_other _ (ne_of_mem_of_not_mem List.mem_cons_self h).symm _).trans
      (reg_setFlag_other s (ne_of_mem_of_not_mem (barCh_mem hc') h).symm _ _)
  · rfl

/-- A register of a face is none of the die's channels. -/
theorem faceReg_notMem_barRegs {f r : Nat} (d : Nat) (hf : f < 64) (hr : r < 0x1000) : faceBase d f + r ∉ barRegs d := by
  intro h
  rcases List.mem_cons.1 h with h | h
  · unfold faceBase BAR_STAT at h
    omega
  · obtain ⟨c, -, hc⟩ := List.mem_map.1 h
    unfold faceBase BAR_CH at hc
    omega

end Sys2Proof.Laws
end

section
/-! What a claim does, and O5. -/

namespace Sys2Proof.Claims

open Sys2Proof Sys2Proof.Machine Sys2Proof.Laws

/-! ### one face claims alone -/

/-- The rotating pointer serves each of 64 requesters once. -/
theorem served_once {f : Nat} (hf : f < 64) (r : Nat) :
    ((List.range 64).map (fun i => (r + i) % 64)).filter (fun g => [f].contains g) = [f] := by
  have hinj : ((List.range 64).map (fun i => (r + i) % 64)).Nodup := by
    refine List.Nodup.map_on (fun i hi j hj h => ?_) List.nodup_range
    have := List.mem_range.1 hi
    have := List.mem_range.1 hj
    omega
  have hmem : f ∈ (List.range 64).map (fun i => (r + i) % 64) :=
    List.mem_map.2 ⟨(f + 64 - r % 64) % 64, List.mem_range.2 (by omega), by omega⟩
  have hone : (fun g => [f].contains g) = (fun g => g == f) := by
    funext g
    exact Bool.eq_iff_iff.2 (by simp)
  rw [hone, List.filter_beq, List.count_eq_one_of_mem hinj hmem, List.replicate_one]

theorem claimCycle_alone (s : State) (d : Nat) {f : Nat} (hf : f < 64) : s.claimCycle d [f] = s.faceClaim d f := by
  rw [State.claimCycle, served_once hf]
  rfl

/-! ### a claim -/

section
variable {s : State} {p : Slot} {d f ix : Nat}

theorem faceClaim_without (ha : s.eng.active = some p) (hc : s.mayClaim d f = true) (hw : wanted s p d f = none) :
    s.faceClaim d f = s := by
  unfold wanted at hw
  simp only [State.faceClaim, ha, hc, hw, Bool.not_true, Bool.false_eq_true, if_false]

/-- The face holds a descriptor that has passed the checks of its claim. -/
def admitted (s : State) (d f : Nat) (h : Held) : State :=
  (((s.setFace d f { s.face d f with held := (s.face d f).held ++ [h] }).noteQueue (64 * d + f) 0
    ((s.face d f).held ++ [h]).length).showFace d f).dieArrive d

theorem faceClaim_holds (ha : s.eng.active = some p) (hc : s.mayClaim d f = true) (hw : wanted s p d f = some ix) {h : Held}
    (hh : (claiming s p d f ix).checkClaim p d f ix = .holds h) : s.faceClaim d f = admitted (claiming s p d f ix) d f h := by
  have hlen (t : State) : ((t.setFace d f { t.face d f with held := (t.face d f).held ++ [h] }).face d f).held.length =
      ((t.face d f).held ++ [h]).length := by rw [face_setFace_same]
  unfold wanted at hw
  unfold State.faceClaim
  simp only [ha, hc, hw, Bool.not_true, Bool.false_eq_true, if_false]
  unfold claiming at hh
  simp only [hh]
  unfold admitted
  rw [← hlen]
  rfl

/-- A check of a claim that is passed. -/
theorem holds_of_passed {c : Prop} [Decidable c] {why : ClaimFail} {id : Nat} {r : Claimed} {h : Held}
    (hh : (if c then Claimed.fails why id else r) = .holds h) : r = .holds h := by
  split at hh
  · cases hh
  · exact hh

/-- A descriptor that passes is the claimed one, and waits. -/
theorem checkClaim_holds {h : Held} (hh : s.checkClaim p d f ix = .holds h) : h.idx = ix ∧ h.run = .waiting := by
  unfold State.checkClaim at hh
  dsimp only at hh
  have hh := holds_of_passed (holds_of_passed (holds_of_passed (holds_of_passed hh)))
  split at hh
  · cases hh
  · split at hh
    · cases hh
    · cases holds_of_passed (holds_of_passed hh)
      exact ⟨rfl, rfl⟩

/-! ### the window, and what the claim leaves -/

/-- What the window takes in, as the die's record. -/
def refilled (x : Die) : Die :=
  { x with
    window := x.window ++ (List.range (min (256 - x.window.length) (x.endIx - x.nextIx))).map (fun i => x.nextIx + i)
    nextIx := x.nextIx + min (256 - x.window.length) (x.endIx - x.nextIx) }

theorem refill_eq (s : State) (d : Nat) : s.refill d =
    ((s.setDie d (refilled (s.die d))).noteQueue (1024 + d) 0 (refilled (s.die d)).window.length).setFld (DIE_WORK_STAT d)
      DIE_WORK_STAT_WINDOW (refilled (s.die d)).window.length := rfl

/-- The reads of a claim. -/
def looked (s : State) (p : Slot) (ix : Nat) : State :=
  (s.memSeen (p.descAddr ix) 64).memSeen (p.layerAddr (dLayer (s.descAt p ix).1)) 128

theorem looked_memSide (s : State) (p : Slot) (ix : Nat) : MemSide s (looked s p ix) := (MemSide.memSeen s _ _).trans (.memSeen _ _ _)

/-- What is granted to a face. -/
def grantedTo (s : State) (p : Slot) (f ix : Nat) : Granted := ⟨ix, f, dBarout (s.descAt p ix).1, dBarch (s.descAt p ix).1⟩

/-- A die's record once `g` is granted out of the window. -/
def withGrant (x : Die) (g : Granted) : Die :=
  { x with window := x.window.filter (fun i => i != g.idx), granted := x.granted ++ [g] }

theorem claiming_eq (s : State) (p : Slot) (d f ix : Nat) : claiming s p d f ix =
    (((looked s p ix).rotNext (claimArb d) f 64).setDie d (withGrant ((looked s p ix).die d) (grantedTo s p f ix))).refill d := rfl

theorem claiming_eng (s : State) (p : Slot) (d f ix : Nat) : (claiming s p d f ix).eng = s.eng := by
  rw [claiming_eq, refill_eq, State.setFld_eng, State.noteQueue_eng, State.setDie_eng, State.setDie_eng]
  exact (looked_memSide s p ix).eng
theorem claiming_faces (s : State) (p : Slot) (d f ix : Nat) : (claiming s p d f ix).faces = s.faces := by
  rw [claiming_eq, refill_eq, State.setFld_faces, State.noteQueue_faces, State.setDie_faces, State.setDie_faces]
  exact (looked_memSide s p ix).faces
theorem claiming_rot (s : State) (p : Slot) (d f ix : Nat) : (claiming s p d f ix).rot (claimArb d) = (f + 1) % 64 := by
  rw [claiming_eq, refill_eq, State.rot, State.setFld_fab, State.noteQueue_fab, State.setDie_fab, State.setDie_fab]
  exact rot_rotNext (looked s p ix) _ _ _

theorem claiming_die (s : State) (p : Slot) (d f ix : Nat) :
    (claiming s p d f ix).die d = refilled (withGrant (s.die d) (grantedTo s p f ix)) := by
  have h : (looked s p ix).die d = s.die d := die_congr (looked_memSide s p ix).dies d
  rw [claiming_eq, refill_eq, State.die, State.setFld_dies, State.noteQueue_dies, ← State.die, die_setDie_same, die_setDie_same, h]

/-- Once held, a descriptor is shown: nothing but the face's record, the queue counters and registers differ. -/
theorem admitted_rest (s : State) (d f : Nat) (h : Held) : ∃ q, onlyRegs
    { s.setFace d f { s.face d f with held := (s.face d f).held ++ [h] } with queues := q } (admitted s d f h) :=
  ⟨_, onlyRegs_trans (onlyRegs_showFace _ d f) (onlyRegs_dieArrive _ d)⟩

theorem admitted_mem (s : State) (d f : Nat) (h : Held) : (admitted s d f h).mem = s.mem := by
  obtain ⟨q, ho⟩ := admitted_rest s d f h
  rw [onlyRegs_mem ho]
  rfl
theorem admitted_eng (s : State) (d f : Nat) (h : Held) : (admitted s d f h).eng = s.eng := by
  obtain ⟨q, ho⟩ := admitted_rest s d f h
  rw [onlyRegs_eng ho]
  rfl
theorem admitted_rot (s : State) (d f : Nat) (h : Held) (a : Nat) : (admitted s d f h).rot a = s.rot a := by
  obtain ⟨q, ho⟩ := admitted_rest s d f h
  rw [State.rot, onlyRegs_fab ho]
  rfl
theorem admitted_die (s : State) (d f : Nat) (h : Held) (e : Nat) : (admitted s d f h).die e = s.die e := by
  obtain ⟨q, ho⟩ := admitted_rest s d f h
  rw [State.die, onlyRegs_dies ho]
  rfl

theorem admitted_held (s : State) (d f : Nat) (h : Held) : ((admitted s d f h).face d f).held = (s.face d f).held ++ [h] := by
  obtain ⟨q, ho⟩ := admitted_rest s d f h
  rw [face_congr (onlyRegs_faces ho)]
  exact congrArg Face.held (face_setFace_same s d f _)

theorem admitted_claimed (s : State) (d : Nat) {f : Nat} (hf : f < 64) (h : Held) :
    (admitted s d f h).fld (FSQ_STAT d f) FSQ_STAT_CLAIMED = ((s.face d f).held.length + 1) % 8 := by
  have hh : ((s.setFace d f { s.face d f with held := (s.face d f).held ++ [h] }).face d f).held = (s.face d f).held ++ [h] :=
    congrArg Face.held (face_setFace_same s d f _)
  unfold admitted
  rw [fld_of_reg (dieArrive_reg _ (a := FSQ_STAT d f) (faceReg_notMem_barRegs d hf (by decide))), showFace_claimed, State.face,
    State.noteQueue_faces, ← State.face, hh, List.length_append]
  rfl

end

/-- Settles O5: a claim that passes its checks is the reads of its words, a grant out of the window, and the face's new record. -/
theorem aFaceClaimsTheOldestEligibleDescriptor : Obligations.AFaceClaimsTheOldestEligibleDescriptor := by
  unfold Obligations.AFaceClaimsTheOldestEligibleDescriptor
  intro s d f p hon ha
  have alone : Machine.exec (.faceClaim d ⟨f, []⟩) s = .next (queued s (s.faceClaim d.val f.val)) :=
    (congrArg (done s) (claimCycle_alone s d.val f.isLt)).trans (done_on hon _)
  refine ⟨fun hc hw => ?_, ?_, fun c => done_on hon _⟩
  · rw [alone, faceClaim_without ha hc hw]
    rfl
  · intro ix h hc hw u rest more hh
    obtain ⟨hix, hrun⟩ := checkClaim_holds hh
    have hface : (u.face d.val f.val).held = (s.face d.val f.val).held :=
      congrArg Face.held (face_congr (claiming_faces s p d.val f.val ix) d.val f.val)
    have hlen : (s.face d.val f.val).held.length < 4 := by
      simp only [State.mayClaim, Bool.and_eq_true, decide_eq_true_eq] at hc
      exact hc.1.2
    have hexec := alone.trans (congrArg (fun t => Host.Outcome.next (queued s t)) (faceClaim_holds ha hc hw hh))
    refine ⟨queued s (admitted u d.val f.val h), hexec, ?_, hix, hrun, ?_⟩
    · rw [queued_face, admitted_held, hface]
    · rw [queued_die, admitted_die, claiming_die, queued_rot, admitted_rot, claiming_rot, queued_fld, admitted_claimed u d.val f.isLt h,
        hface, queued_mem, admitted_mem, queued_eng, admitted_eng, claiming_eng]
      exact ⟨rfl, rfl, rfl, ⟨grantedTo s p f.val ix, rfl, rfl, rfl⟩, rfl, rfl, rfl, by omega⟩

end Sys2Proof.Claims
end

section
/-! SUPPORT. The end of a descriptor (R29, R31): what doorbell, trace, streams, optimizer, die channels and mailbox leave of the face's
work, said once (`SameWork`). -/

namespace Sys2Proof.Completion

open Sys2Proof Sys2Proof.Machine Sys2Proof.Laws

/-- The faces' records, the tallies on their way, the step's abort and the face's count of completed descriptors stand as before. -/
structure SameWork (d f : Nat) (s t : State) : Prop where
  faces : t.faces = s.faces
  tallies : t.eng.tallies = s.eng.tallies
  aborted : t.eng.aborted = s.eng.aborted
  lo : t.reg (FSQ_DONE_LO d f) = s.reg (FSQ_DONE_LO d f)
  hi : t.reg (FSQ_DONE_LO d f + 4) = s.reg (FSQ_DONE_LO d f + 4)

/-- `a` is neither word of the face's count. -/
abbrev offDone (d f a : Nat) : Prop := FSQ_DONE_LO d f ≠ a ∧ FSQ_DONE_LO d f + 4 ≠ a

theorem offDone_faceReg (d f g : Nat) {r : Nat} (hr : r < 0x1000) (h : r ≠ 0x10) (h4 : r ≠ 0x14) : offDone d f (faceBase d g + r) := by
  unfold offDone FSQ_DONE_LO faceBase dieBase
  omega
theorem offDone_bar4 {d f a : Nat} (hd : d < 16) (hf : f < 64) (h : bar4Base ≤ a) : offDone d f a := by
  unfold offDone FSQ_DONE_LO faceBase dieBase
  unfold bar4Base at h
  omega
theorem offDone_dieReg (d f : Nat) {o : Nat} (ho : o < 0x40000 ∨ 0x80000 ≤ o) (hf : f < 64) : offDone d f (dieBase d + o) := by
  unfold offDone FSQ_DONE_LO faceBase
  omega
theorem offDone_low {d f a : Nat} (h : a < 0x1000000) : offDone d f a := by
  unfold offDone FSQ_DONE_LO faceBase dieBase
  omega

theorem aside_faceReg {d f r : Nat} (hd : d < 16) (hf : f < 64) (hr : r < 0x1000) : aside (faceBase d f + r) := by
  unfold aside faceBase dieBase
  omega

namespace SameWork

variable {d f : Nat} {s t u : State}

theorem refl (s : State) : SameWork d f s s := ⟨rfl, rfl, rfl, rfl, rfl⟩
theorem trans (h : SameWork d f s t) (g : SameWork d f t u) : SameWork d f s u :=
  ⟨g.faces.trans h.faces, g.tallies.trans h.tallies, g.aborted.trans h.aborted, g.lo.trans h.lo, g.hi.trans h.hi⟩

theorem ite {p : Prop} [Decidable p] (h : p → SameWork d f s t) (g : ¬p → SameWork d f s u) :
    SameWork d f s (if p then t else u) := by
  split
  · exact h ‹_›
  · exact g ‹_›

theorem foldl {α : Type} {g : State → α → State} {l : List α} (hg : ∀ s, ∀ a ∈ l, SameWork d f s (g s a)) (s : State) :
    SameWork d f s (l.foldl g s) where
  faces := foldl_kept State.faces (fun s a ha => (hg s a ha).faces) s
  tallies := foldl_kept (fun s => s.eng.tallies) (fun s a ha => (hg s a ha).tallies) s
  aborted := foldl_kept (fun s => s.eng.aborted) (fun s a ha => (hg s a ha).aborted) s
  lo := foldl_kept (fun s => s.reg (FSQ_DONE_LO d f)) (fun s a ha => (hg s a ha).lo) s
  hi := foldl_kept (fun s => s.reg (FSQ_DONE_LO d f + 4)) (fun s a ha => (hg s a ha).hi) s

theorem setReg (s : State) {a : Nat} (h : offDone d f a) (v : Nat) : SameWork d f s (s.setReg a v) :=
  ⟨rfl, rfl, rfl, reg_setReg_other s h.1 v, reg_setReg_other s h.2 v⟩
theorem setFld (s : State) {a : Nat} (h : offDone d f a) (g : Fld) (v : Nat) : SameWork d f s (s.setFld a g v) := setReg s h _
theorem setFlag (s : State) {a : Nat} (h : offDone d f a) (g : Fld) (b : Bool) : SameWork d f s (s.setFlag a g b) := setReg s h _

theorem of_onlyRegs (h : onlyRegs s t) (hlo : t.reg (FSQ_DONE_LO d f) = s.reg (FSQ_DONE_LO d f))
    (hhi : t.reg (FSQ_DONE_LO d f + 4) = s.reg (FSQ_DONE_LO d f + 4)) : SameWork d f s t :=
  ⟨onlyRegs_faces h, by rw [onlyRegs_eng h], by rw [onlyRegs_eng h], hlo, hhi⟩

theorem of_memSide (hd : d < 16) (hf : f < 64) (h : MemSide s t) : SameWork d f s t :=
  ⟨h.faces, by rw [h.eng], by rw [h.eng], h.regs _ (aside_faceReg hd hf (by decide)),
    h.regs _ (aside_faceReg (r := 0x14) hd hf (by decide))⟩

/-- The host path's record. -/
theorem host (s : State) (h : HostIf) : SameWork d f s { s with hif := h } := ⟨rfl, rfl, rfl, rfl, rfl⟩
theorem emit (s : State) (o : Output) : SameWork d f s (s.emit o) := ⟨rfl, rfl, rfl, rfl, rfl⟩
theorem strm (s : State) (e g x : Nat) (v : Strm) : SameWork d f s (s.setStrm e g x v) := ⟨rfl, rfl, rfl, rfl, rfl⟩
/-- The ratios and the optimizer's bookkeeping of the step engine. -/
theorem ratios (s : State) (u : List (Nat × Nat × Nat)) (l k : List Nat) :
    SameWork d f s { s with eng := { s.eng with uw := u, optDone := l, optIdx := k } } := ⟨rfl, rfl, rfl, rfl, rfl⟩
theorem bumpSat (s : State) {a : Nat} (h : offDone d f a) (g : Fld) (n : Nat) : SameWork d f s (s.bumpSat a g n) := setFld s h g _

theorem face (h : SameWork d f s t) (e g : Nat) : t.face e g = s.face e g := face_congr h.faces e g
theorem pair (h : SameWork d f s t) : t.pair (FSQ_DONE_LO d f) = s.pair (FSQ_DONE_LO d f) := pair_of_reg h.lo h.hi

end SameWork

/-! ### doorbell, streams, mailbox and channels -/

section
variable {d f : Nat} (hd : d < 16) (hf : f < 64)
include hd hf

theorem fire_sameWork (s : State) (v : Nat) : SameWork d f s (s.fire v) := by
  rcases fire_cases s v with h | ⟨x, h⟩ <;> rw [h]
  · exact ⟨rfl, rfl, rfl, rfl, rfl⟩
  · exact .setReg s (offDone_bar4 hd hf (by unfold MSIX_PBA; omega)) x

theorem ring_sameWork (s : State) (j v : Nat) : SameWork d f s (s.ring j v) := by
  have hc : offDone d f (DB_COUNT j) := offDone_bar4 hd hf (by unfold DB_COUNT; omega)
  have hl : offDone d f (DB_LAST j) := offDone_bar4 hd hf (by unfold DB_LAST; omega)
  have h : SameWork d f s ((s.bumpSat (DB_COUNT j) DB_COUNT_COUNT 1).setReg (DB_LAST j) v) :=
    (SameWork.bumpSat s hc _ _).trans (.setReg _ hl _)
  unfold State.ring State.ringLocal
  dsimp only
  exact .ite (fun _ => .emit s _)
    (fun _ => .ite (fun _ => (h.trans (.host _ _)).trans (fire_sameWork hd hf _ _)) (fun _ => h))

theorem traceDesc_sameWork (s : State) (b : Bool) (e g ix l o : Nat) : SameWork d f s (s.traceDesc b e g ix l o) := by
  have h (t : State) (k p : Nat) : SameWork d f t (t.capture k p) := .of_memSide hd hf (.of_logged (Logged.capture t k p))
  have hn : SameWork d f s s.draw.2 := ⟨rfl, rfl, rfl, rfl, rfl⟩
  exact .ite (fun _ => hn.trans (h _ _ _)) (fun _ => h s _ _)

omit hd hf in
theorem dropLoads_sameWork (s : State) (g : Nat) : SameWork d f s (s.dropLoads d g) := by
  refine .foldl (fun s x hx => .ite (fun _ => .refl s) (fun _ => ?_)) s
  have hp : offDone d f (PF_STAT d g x) := by
    have := List.mem_range.1 hx
    unfold PF_STAT
    rw [Nat.add_assoc, Nat.add_assoc]
    exact offDone_faceReg d f g (by omega) (by omega) (by omega)
  exact (SameWork.setReg s hp 0).trans (.strm _ _ _ _ _)

omit hd hf in
theorem lLayerId_lt (b : List Byte) : lLayerId b < 4096 := bits_lt _ _ 12

theorem writeUw_sameWork (s : State) {id : Nat} (hid : id < 4096) : SameWork d f s (s.writeUw id) := by
  have seen (t : State) (a n : Nat) : SameWork d f t (t.memSeen a n) := .of_memSide hd hf (.memSeen t a n)
  have write (t : State) (a : Nat) (v : List Byte) (b : Bool) : SameWork d f t (t.memWrite a v b) :=
    .of_memSide hd hf (.memWrite t a v b)
  have hw : offDone d f (STEER_ENTRY_W3 id) := offDone_low (by unfold STEER_ENTRY_W3; omega)
  unfold State.writeUw
  split
  · exact .refl s
  · dsimp only
    exact ((((seen s _ _).trans (.ite (fun _ => write _ _ _ _) (fun _ => .refl _))).trans (write _ _ _ _)).trans (.setReg _ hw _)).trans (.ratios _ _ _ _)

theorem optDoneUw_sameWork (s : State) {id : Nat} (hid : id < 4096) : SameWork d f s (s.optDoneUw id) := by
  unfold State.optDoneUw
  split
  · exact .refl s
  · exact .ite (fun _ => writeUw_sameWork hd hf s hid) (fun _ => .refl s)

theorem d2hPush_sameWork (s : State) (e w : Nat) : SameWork d f s (s.d2hPush e w) := by
  have reg (r : Nat) : offDone d f (bar4Base + r) := offDone_bar4 hd hf (by omega)
  have stat : offDone d f (D2H_STAT e) := by unfold D2H_STAT; rw [Nat.add_assoc, Nat.add_assoc]; exact reg _
  have data : offDone d f (D2H_DATA e) := by unfold D2H_DATA; rw [Nat.add_assoc, Nat.add_assoc]; exact reg _
  have timing : offDone d f (H2D_STAT e) := by unfold H2D_STAT; rw [Nat.add_assoc, Nat.add_assoc]; exact reg _
  have collide (t : State) (g : Fld) : SameWork d f t (t.raise MBX_EVENT g) := by
    have h (a : Nat) (ha : a ∈ [FSQ_DONE_LO d f, FSQ_DONE_LO d f + 4]) : a ≠ MBX_EVENT ∧ a ∉ sumRegs MBX_EVENT := by
      have hs : aside a := by
        simp only [List.mem_cons, List.not_mem_nil, or_false] at ha
        rcases ha with rfl | rfl
        · exact aside_faceReg hd hf (by decide)
        · exact aside_faceReg (r := 0x14) hd hf (by decide)
      refine ⟨?_, fun hm => not_aside_sumRegs hm hs⟩
      simp only [List.mem_cons, List.not_mem_nil, or_false] at ha
      have := reg 0x104
      rcases ha with rfl | rfl
      · exact this.1
      · exact this.2
    exact .of_onlyRegs (onlyRegs_raiseMask t _ _) (raise_reg t g (h _ (by simp)).2 (h _ (by simp)).1)
      (raise_reg t g (h _ (by simp)).2 (h _ (by simp)).1)
  have put (t : State) : SameWork d f t (t.d2hPut e w) := by
    unfold State.d2hPut
    dsimp only
    have full := (SameWork.setReg t data w).trans (.setFlag _ stat D2H_STAT_FULL true)
    exact .ite (fun _ => .ite (fun _ => full) (fun _ => full.trans (fire_sameWork hd hf _ _)))
      (fun _ => .ite (fun _ => (SameWork.host t _).trans (.setFld _ stat _ _))
        (fun _ => ((SameWork.host t _).trans (.setFlag _ stat _ _)).trans (collide _ _)))
  unfold State.d2hPush
  exact .ite (fun _ => ((SameWork.host s _).trans (.setFld _ (reg 0x108) _ _)).trans (collide _ _))
    (fun _ => (SameWork.setFlag s timing _ _).trans (put _))

theorem dieQuiesceAnswer_sameWork (s : State) (e : Nat) : SameWork d f s (s.dieQuiesceAnswer e) :=
  .ite (fun _ => (SameWork.host s _).trans (.foldl (fun s _ _ => d2hPush_sameWork hd hf s _ _) _)) (fun _ => .refl s)

omit hd in
theorem dieArrive_sameWork (s : State) : SameWork d f s (s.dieArrive d) :=
  .of_onlyRegs (onlyRegs_dieArrive s d) (dieArrive_reg s (faceReg_notMem_barRegs d hf (by decide)))
    (dieArrive_reg s (faceReg_notMem_barRegs (r := 0x14) d hf (by decide)))

omit hd hf in
theorem showFace_sameWork (s : State) : SameWork d f s (s.showFace d f) := by
  have h {r : Nat} (h4 : r = 0x10 ∨ r = 0x14) : ∀ g, faceBase d f + r ≠ FSQ_STAT d g ∧ faceBase d f + r ≠ FSQ_CUR_IDX d g := fun g => by
    unfold FSQ_STAT FSQ_CUR_IDX faceBase
    omega
  exact .of_onlyRegs (onlyRegs_showFace s d f) (showFace_reg s f (h (.inl rfl))) (showFace_reg s f (h (r := 0x14) (.inr rfl)))

omit hd hf in
theorem showSigns_sameWork (s : State) : SameWork d f s (s.showSigns d f) :=
  .setFlag s (offDone_faceReg d f f (by decide) (by decide) (by decide)) _ _

end

/-- Once the step has aborted, and only then, a completion may end it (R200). -/
theorem abortSettle_of_not_aborted {s : State} (h : s.eng.aborted = false) : s.abortSettle = s := by
  rw [State.abortSettle, h]
  simp

/-! ### the report -/

/-- A descriptor's end is told: doorbell and trace. -/
def told (s : State) (d f : Nat) (h : Held) : State :=
  State.traceDesc (if dDbEn h.words then s.ring (dDoorbell h.words) (s.devId + h.idx % 2 ^ 20 * 2 ^ 12) else s) true d f h.idx
    (dLayer h.words) (dOpc h.words)

/-- The load streams of its gang end. -/
def unloaded (s : State) (d f : Nat) : State :=
  (List.range (gangSize (s.gangMap d) f)).foldl (fun s i => s.dropLoads d (f + i)) s

/-- An optimizer's descriptor is noted, and its layer's ratio with its last. -/
def optNoted (s : State) (h : Held) : State :=
  if dOpc h.words = 5 then
    ({ s with eng := { s.eng with optDone := setInsert (lLayerId h.layer) s.eng.optDone,
                                  optIdx := setInsert h.idx s.eng.optIdx } } : State).optDoneUw (lLayerId h.layer)
  else s

/-- What a descriptor's end does before the face gives it up. -/
def rung (s : State) (d f : Nat) (h : Held) : State := optNoted (unloaded (told s d f h) d f) h

/-- The face gives a descriptor up. -/
def givenUp (s : State) (d f ix : Nat) : State :=
  let s := ((s.setFace d f { s.face d f with gemm := none }).dropDesc d f ix).showSigns d f
  s.setFld (DIE_WORK_STAT d) DIE_WORK_STAT_DONE (s.fld (DIE_WORK_STAT d) DIE_WORK_STAT_DONE + 1)

theorem report_eq (s : State) (d f : Nat) (h : Held) : s.report d f h =
    (((((givenUp (rung s d f h) d f h.idx).bump (FSQ_DONE_LO d f) 1).dieArrive d).dieQuiesceAnswer d).abortSettle) := rfl

/-- Changes of the faces' and dies' records alone leave the tallies, the abort and the count. -/
theorem givenUp_rest {d f : Nat} (hf : f < 64) (s : State) (ix : Nat) :
    ((givenUp s d f ix).face d f).held = (s.face d f).held.filter (fun h => h.idx != ix) ∧
      (givenUp s d f ix).eng = s.eng ∧ (givenUp s d f ix).pair (FSQ_DONE_LO d f) = s.pair (FSQ_DONE_LO d f) := by
  have hdie : offDone d f (DIE_WORK_STAT d) := offDone_dieReg d f (.inl (by decide)) hf
  let x := s.setFace d f { s.face d f with gemm := none }
  let y := (x.setFace d f { x.face d f with held := (x.face d f).held.filter (fun h => h.idx != ix) }).setDie d
    { x.die d with granted := (x.die d).granted.filter (fun g => g.idx != ix) }
  have hw : SameWork d f y (givenUp s d f ix) :=
    ((showFace_sameWork y).trans (showSigns_sameWork _)).trans (.setFld _ hdie _ _)
  have he : onlyRegs y (givenUp s d f ix) :=
    onlyRegs_trans (onlyRegs_trans (onlyRegs_showFace y d f) (onlyRegs_setFlag _ _ _ _)) (onlyRegs_setFld _ _ _ _)
  have hy : (y.face d f).held = (s.face d f).held.filter (fun h => h.idx != ix) := by
    have h1 : y.face d f = _ := face_setFace_same x d f _
    have h2 : x.face d f = _ := face_setFace_same s d f _
    rw [h1, h2]
  have hey : y.eng = s.eng := rfl
  have hpy : y.pair (FSQ_DONE_LO d f) = s.pair (FSQ_DONE_LO d f) := rfl
  exact ⟨by rw [hw.face, hy], (onlyRegs_eng he).trans hey, hw.pair.trans hpy⟩

theorem pair_bump_same (s : State) (a n : Nat) : (s.bump a n).pair a = (s.pair a + n) % 2 ^ 64 :=
  pair_setPair_same s a (Nat.mod_lt _ (by decide))

section
variable {d f : Nat} (hd : d < 16) (hf : f < 64)
include hd hf

theorem told_sameWork (s : State) (h : Held) : SameWork d f s (told s d f h) := by
  have rings : SameWork d f s (if dDbEn h.words then s.ring (dDoorbell h.words) (s.devId + h.idx % 2 ^ 20 * 2 ^ 12) else s) :=
    .ite (fun _ => ring_sameWork hd hf s _ _) (fun _ => .refl s)
  exact rings.trans (traceDesc_sameWork hd hf _ _ _ _ _ _ _)

omit hd hf in
theorem unloaded_sameWork (s : State) : SameWork d f s (unloaded s d f) := .foldl (fun s _ _ => dropLoads_sameWork s _) s

theorem optNoted_sameWork (s : State) (h : Held) : SameWork d f s (optNoted s h) :=
  .ite (fun _ => (SameWork.ratios s _ _ _).trans (optDoneUw_sameWork hd hf _ (lLayerId_lt _))) (fun _ => .refl s)

theorem rung_sameWork (s : State) (h : Held) : SameWork d f s (rung s d f h) :=
  ((told_sameWork hd hf s h).trans (unloaded_sameWork _)).trans (optNoted_sameWork hd hf _ h)

/-- A report: the descriptor leaves its face, and the face's count of completed descriptors rises by 1. -/
theorem report_shows (s : State) (h : Held) (ha : s.eng.aborted = false) :
    (((s.report d f h).face d f).held = (s.face d f).held.filter (fun x => x.idx != h.idx)) ∧
      (s.report d f h).eng.tallies = s.eng.tallies ∧
      (s.report d f h).pair (FSQ_DONE_LO d f) = (s.pair (FSQ_DONE_LO d f) + 1) % 2 ^ 64 := by
  have hr := rung_sameWork hd hf s h
  obtain ⟨gh, ge, gp⟩ := givenUp_rest hf (rung s d f h) h.idx
  have hend := (dieArrive_sameWork hf ((givenUp (rung s d f h) d f h.idx).bump (FSQ_DONE_LO d f) 1)).trans
    (dieQuiesceAnswer_sameWork hd hf _ d)
  have hab := hend.aborted
  rw [State.bump_eng, ge, hr.aborted, ha] at hab
  rw [report_eq, abortSettle_of_not_aborted hab]
  refine ⟨?_, ?_, ?_⟩
  · rw [hend.face, face_congr (State.bump_faces _ _ _), gh, hr.face]
  · rw [hend.tallies, State.bump_eng, ge, hr.tallies]
  · rw [hend.pair, pair_bump_same, gp, hr.pair]

end

/-- The records of a gang's faces go to the die controller (R140): the face's work stands. -/
theorem sendRecs_shows {d f : Nat} (s : State) (l n : Nat) :
    ((s.sendRecs d l n).face d f).held = (s.face d f).held ∧ (s.sendRecs d l n).eng = s.eng ∧
      (s.sendRecs d l n).pair (FSQ_DONE_LO d f) = s.pair (FSQ_DONE_LO d f) := by
  have hp (s : State) (g : Nat) : offDone d f (AS_STAT d g) := offDone_faceReg d f g (by decide) (by decide) (by decide)
  have held (s : State) (g : Nat) :
      (((s.setFace d g { s.face d g with recs := [] }).setFld (AS_STAT d g) AS_STAT_OPEN 0).face d f).held = (s.face d f).held := by
    rw [face_congr (State.setFld_faces _ _ _ _)]
    by_cases hg : f = g
    · subst hg
      rw [face_setFace_same]
    · rw [face_setFace_other s (by omega)]
  have eng (s : State) (g : Nat) :
      ((s.setFace d g { s.face d g with recs := [] }).setFld (AS_STAT d g) AS_STAT_OPEN 0).eng = s.eng := State.setFld_eng _ _ _ _
  unfold State.sendRecs
  dsimp only
  refine ⟨?_, ?_, ?_⟩
  · exact foldl_kept (fun s => (s.face d f).held) (fun s g _ => held s g) s
  · rw [State.setDie_eng]
    exact foldl_kept State.eng (fun s g _ => eng s g) s
  · exact foldl_kept (fun s => s.pair (FSQ_DONE_LO d f)) (fun s g _ =>
      (SameWork.setFld (s.setFace d g { s.face d g with recs := [] }) (hp s g) _ _).pair) s

/-! ### the acts of a completion -/

theorem mapFirst_length {α : Type} (t : α → Bool) (g : α → α) (l : List α) : (mapFirst t g l).length = l.length := by
  induction l with
  | nil => rfl
  | cons x l ih =>
    unfold mapFirst
    split
    · rfl
    · exact congrArg (· + 1) ih

/-- A descriptor marked posted waits for its tally: the rest of its face's work stands. -/
def waitsForTally (s : State) (d f ix : Nat) : State := ((s.setRun d f ix .posted).showFace d f).showSigns d f

theorem waitsForTally_shows (s : State) (d f ix : Nat) :
    ((waitsForTally s d f ix).face d f).held = (s.face d f).held.map (fun x => if x.idx = ix then { x with run := .posted } else x) ∧
      (waitsForTally s d f ix).eng = s.eng := by
  have hw : onlyRegs (s.setRun d f ix .posted) (waitsForTally s d f ix) :=
    onlyRegs_trans (onlyRegs_showFace _ d f) (onlyRegs_setFlag _ _ _ _)
  refine ⟨?_, (onlyRegs_eng hw).trans (State.setFace_eng _ _ _ _)⟩
  rw [face_congr (onlyRegs_faces hw)]
  exact congrArg Face.held (face_setFace_same s d f _)

section
variable {s : State} {d f : Nat} {h : Held}

/-- The records of the gang's faces, gone to the die controller. -/
def recsSent (s : State) (d f : Nat) : State := s.sendRecs d f (gangSize (s.gangMap d) f)

theorem descComplete_posts (hr : s.runningHeld d f = some h) (hw : s.workDone d f = true) (hp : dPostEn h.words = true) :
    let t := waitsForTally (recsSent s d f) d f h.idx
    s.descComplete d f = { t with eng := { t.eng with tallies := t.eng.tallies ++ [⟨dPostDie h.words, dPostTally h.words, d, f, false⟩] } } := by
  unfold State.descComplete
  simp only [hr, hw, hp, Bool.not_true, Bool.false_eq_true, if_false, if_true]
  rfl

theorem descComplete_reports (hr : s.runningHeld d f = some h) (hw : s.workDone d f = true) (hp : dPostEn h.words = false) :
    s.descComplete d f = (recsSent s d f).report d f h := by
  unfold State.descComplete
  simp only [hr, hw, hp, Bool.not_true, Bool.false_eq_true, if_false]
  rfl

/-- An increment on its way to tally k of die d. -/
def due (d k : Nat) (m : TallyMsg) : Bool := m.dstDie == d && m.tally == k && !m.landed

/-- The oldest increment of a tally has landed. -/
def landed (s : State) (d k : Nat) : State :=
  { s with eng := { s.eng with tallies := mapFirst (due d k) (fun m => { m with landed := true }) s.eng.tallies } }

theorem landed_reg (s : State) (d k a : Nat) : (landed s d k).reg a = s.reg a := rfl
theorem landed_mem (s : State) (d k : Nat) : (landed s d k).mem = s.mem := rfl
theorem landed_out (s : State) (d k : Nat) : (landed s d k).out = s.out := rfl
theorem landed_length (s : State) (d k : Nat) : (landed s d k).eng.tallies.length = s.eng.tallies.length := mapFirst_length _ _ _

theorem tallyLand_of_due {k : Nat} (hm : s.eng.tallies.any (due d k) = true) :
    s.tallyLand d k = (landed s d k).setReg (DIE_TALLY d k) (s.reg (DIE_TALLY d k) + 1) := by
  unfold due at hm
  unfold State.tallyLand
  simp only [hm, Bool.not_true, Bool.false_eq_true, if_false]
  rfl

/-- The increments of a face that have landed and wait for its acknowledgement. -/
def acked (d f : Nat) (m : TallyMsg) : Bool := m.srcDie == d && m.face == f && m.landed

/-- The acknowledged increments of a face are gone. -/
def unacked (s : State) (d f : Nat) : State :=
  { s with eng := { s.eng with tallies := s.eng.tallies.filter (fun m => !acked d f m) } }

theorem unacked_pair (s : State) (d f a : Nat) : (unacked s d f).pair a = s.pair a := rfl
theorem unacked_aborted (s : State) (d f : Nat) : (unacked s d f).eng.aborted = s.eng.aborted := rfl
theorem notMem_unacked (s : State) {d f : Nat} {m : TallyMsg} (ha : acked d f m = true) : m ∉ (unacked s d f).eng.tallies := by
  intro hm
  have := (List.mem_filter.1 hm).2
  rw [ha] at this
  cases this

theorem tallyAck_of_landed {m : TallyMsg} (hp : (s.face d f).held.find? (fun h => h.run == .posted) = some h)
    (hm : m ∈ s.eng.tallies) (ha : acked d f m = true) :
    s.tallyAck d f = (unacked s d f).report d f h := by
  have hany : s.eng.tallies.any (acked d f) = true := List.any_eq_true.2 ⟨m, hm, ha⟩
  unfold acked at hany
  unfold State.tallyAck
  simp only [hp, hany, Bool.not_true, Bool.false_eq_true, if_false]
  rfl

end

theorem queued_regsKept {s t : State} {l : List Nat} (h : regsKept s t l) : regsKept s (queued s t) l := h
/-- The tallies are a record of their own. -/
theorem face_withTallies (t : State) (l : List TallyMsg) (d f : Nat) :
    State.face { t with eng := { t.eng with tallies := l } } d f = t.face d f := rfl

theorem idx_ne_of_mem_filter {l : List Held} {ix : Nat} {x : Held} (hx : x ∈ l.filter (fun x => x.idx != ix)) : x.idx ≠ ix := by
  simpa using (List.mem_filter.1 hx).2

section
variable (s : State) (d : DieIx) (f : FaceIx) (hon : s.boot.on = true)
include hon

theorem posting_completion {h : Held} (hr : s.runningHeld d.val f.val = some h) (hw : s.workDone d.val f.val = true)
    (hp : dPostEn h.words = true) : ∃ t, Machine.exec (.descComplete d f) s = .next t ∧
      t.eng.tallies = s.eng.tallies ++ [⟨dPostDie h.words, dPostTally h.words, d.val, f.val, false⟩] ∧
      (t.face d.val f.val).held = (s.face d.val f.val).held.map (fun x => if x.idx = h.idx then { x with run := .posted } else x) := by
  obtain ⟨gh, ge, -⟩ := sendRecs_shows (d := d.val) (f := f.val) s f.val (gangSize (s.gangMap d.val) f.val)
  obtain ⟨wh, we⟩ := waitsForTally_shows (recsSent s d.val f.val) d.val f.val h.idx
  refine ⟨queued s (s.descComplete d.val f.val), done_on hon _, ?_⟩
  rw [queued_eng, queued_face, descComplete_posts hr hw hp, face_withTallies, wh, we, recsSent, gh, ge]
  exact ⟨rfl, rfl⟩

theorem reporting_completion {h : Held} (hna : s.eng.aborted = false) (hr : s.runningHeld d.val f.val = some h)
    (hw : s.workDone d.val f.val = true) (hp : dPostEn h.words = false) : ∃ t, Machine.exec (.descComplete d f) s = .next t ∧
      (∀ x ∈ (t.face d.val f.val).held, x.idx ≠ h.idx) ∧
      t.pair (FSQ_DONE_LO d.val f.val) = (s.pair (FSQ_DONE_LO d.val f.val) + 1) % 2 ^ 64 := by
  obtain ⟨gh, ge, gp⟩ := sendRecs_shows (d := d.val) (f := f.val) s f.val (gangSize (s.gangMap d.val) f.val)
  have hab : (recsSent s d.val f.val).eng.aborted = false := by rw [recsSent, ge, hna]
  obtain ⟨rh, -, rp⟩ := report_shows d.isLt f.isLt (recsSent s d.val f.val) h hab
  refine ⟨queued s (s.descComplete d.val f.val), done_on hon _, ?_⟩
  rw [queued_face, queued_pair, descComplete_reports hr hw hp, rp, rh, recsSent, gp]
  exact ⟨fun x hx => idx_ne_of_mem_filter hx, rfl⟩

theorem increment_lands {k : Nat} (hk : k < 256) (hdue : s.eng.tallies.any (due d.val k) = true) :
    ∃ t, Machine.exec (.tallyIncrement d ⟨k, hk⟩) s = .next t ∧ t.reg (DIE_TALLY d.val k) = (s.reg (DIE_TALLY d.val k) + 1) % 2 ^ 32 ∧
        regsKept s t [DIE_TALLY d.val k] ∧ t.mem = s.mem ∧ t.out = s.out ∧ t.eng.tallies.length = s.eng.tallies.length := by
  refine ⟨queued s (s.tallyLand d.val k), done_on hon _, ?_⟩
  rw [queued_reg, queued_mem, queued_out, queued_eng]
  refine and_left_comm.1 ⟨queued_regsKept fun a ha => ?_, ?_⟩
  · rw [tallyLand_of_due hdue, reg_setReg_other _ (by simpa using ha), landed_reg]
  · rw [tallyLand_of_due hdue, State.setReg_mem, State.setReg_out, State.setReg_eng, reg_setReg_same]
    exact ⟨rfl, landed_mem s _ _, landed_out s _ _, landed_length s _ _⟩

theorem acknowledgement_reports {h : Held} {m : TallyMsg} (hna : s.eng.aborted = false)
    (hp : (s.face d.val f.val).held.find? (fun h => h.run == .posted) = some h) (hm : m ∈ s.eng.tallies)
    (ha : acked d.val f.val m = true) : ∃ t, Machine.exec (.tallyAck d f) s = .next t ∧
      (∀ x ∈ (t.face d.val f.val).held, x.idx ≠ h.idx) ∧ m ∉ t.eng.tallies ∧
      t.pair (FSQ_DONE_LO d.val f.val) = (s.pair (FSQ_DONE_LO d.val f.val) + 1) % 2 ^ 64 := by
  obtain ⟨rh, rt, rp⟩ := report_shows d.isLt f.isLt (unacked s d.val f.val) h ((unacked_aborted s d.val f.val).trans hna)
  refine ⟨queued s (s.tallyAck d.val f.val), done_on hon _, ?_⟩
  rw [queued_face, queued_eng, queued_pair, tallyAck_of_landed hp hm ha, rp, rh, rt, unacked_pair]
  exact ⟨fun x hx => idx_ne_of_mem_filter hx, notMem_unacked s ha, rfl⟩

end

/-- Settles O10: a completion posts or reports (`report_shows`), an increment is one register, an acknowledgement is a report. -/
theorem aDescriptorCompletesThroughItsTally : Obligations.ADescriptorCompletesThroughItsTally := by
  unfold Obligations.ADescriptorCompletesThroughItsTally
  intro s d f hon hna
  refine ⟨fun h hr hw => ⟨posting_completion s d f hon hr hw, reporting_completion s d f hon hna hr hw⟩, ?_, ?_⟩
  · rintro k ⟨m, hm, hd, ht, hl⟩
    exact increment_lands s d hon k.isLt (List.any_eq_true.2 ⟨m, hm, by simp [due, hd, ht, hl]⟩)
  · intro h m hp hm hd hf hl
    exact acknowledgement_reports s d f hon hna hp hm (by simp [acked, hd, hf, hl])

end Sys2Proof.Completion
end

section
/-! SUPPORT. What a control write of its own row does (R360, R364, R367, R368): where its register stands, and the write as one
register and the effect of its block. -/

namespace Sys2Proof.Control

open Sys2Proof Sys2Proof.Machine Sys2Proof.Laws

/-! ### where a register stands -/

/-- The row of the register at `a`. -/
def rowAt (a : Nat) : Option RegSpec := (regArea a).bind (fun x => x.2.find? (fun r => r.covers x.1))

/-- The bits of a row's fields whose access code is `c`. -/
def rowMask (c : Access) (r : RegSpec) : Nat := r.fields.foldl (fun m f => if f.acc = c then m + (2 ^ f.w - 1) * 2 ^ f.lo else m) 0

theorem accMask_of_row {a : Nat} {r : RegSpec} (h : rowAt a = some r) (c : Access) : accMask c a = rowMask c r := by
  unfold rowAt at h
  unfold accMask regFields rowMask
  cases hr : regArea a with
  | none => rw [hr] at h; cases h
  | some x =>
    rw [hr] at h
    change x.2.find? (fun r => r.covers x.1) = some r at h
    simp only [h]

theorem accMask_of_no_row {a : Nat} (h : rowAt a = none) (c : Access) : accMask c a = 0 := by
  unfold rowAt at h
  unfold accMask regFields
  cases hr : regArea a with
  | none => rfl
  | some x =>
    rw [hr] at h
    change x.2.find? (fun r => r.covers x.1) = none at h
    simp only [h, List.foldl_nil]

theorem pairOf_eq_row (a : Nat) : pairOf a = ((rowAt a).map RegSpec.pair).getD 0 := by
  unfold rowAt pairOf
  cases regArea a with
  | none => rfl
  | some x =>
    change _ = ((x.2.find? (fun r => r.covers x.1)).map RegSpec.pair).getD 0
    cases h : x.2.find? (fun r => r.covers x.1) with
    | none => simp only [h]; rfl
    | some r => simp only [h]; rfl

/-- An offset that a row covers lies in the row's extent. -/
theorem covers_lt {r : RegSpec} {o : Nat} (h : r.covers o = true) : o < r.off + r.stride * r.count + 1 := by
  unfold RegSpec.covers at h
  split_ifs at h with hs
  · have := beq_iff_eq.1 h
    omega
  · simp only [Bool.and_eq_true, decide_eq_true_eq, beq_iff_eq] at h
    obtain ⟨⟨hle, -⟩, hlt⟩ := h
    have := (Nat.div_lt_iff_lt_mul (Nat.pos_of_ne_zero hs)).1 hlt
    rw [Nat.mul_comm] at this
    omega

/-! ### the registers of the rows -/

theorem regArea_die {d o : Nat} (hd : d < 16) (ho : 0x40000 ≤ o ∧ o < 0x80000) :
    regArea (dieBase d + o) =
      if o % 0x1000 < 0x400 then some (o % 0x1000, faceRegs)
      else if o % 0x1000 < 0x800 then some (o % 0x1000 % 0x40, benchRegs)
      else if o % 0x1000 < 0xA00 then some (o % 0x1000 % 0x40, streamRegs) else none := by
  have hlt : ¬ bar4Base ≤ dieBase d + o := by unfold bar4Base dieBase; omega
  have hmod : (dieBase d + o) % 0x100000 = o := by unfold dieBase; omega
  have hdiv : (dieBase d + o) / 0x100000 = 16 + d := by unfold dieBase; omega
  unfold regArea
  simp only [if_neg hlt, hmod, hdiv]
  split
  iterate 7 · omega
  rw [if_pos (by omega), if_neg (by omega), if_neg (by omega), if_neg (by omega), if_neg (by omega), if_neg (by omega), if_pos ho.2]

theorem rowAt_fsqCtrl {d f : Nat} (hd : d < 16) (hf : f < 64) : rowAt (FSQ_CTRL d f) = faceRegs.find? (fun r => r.covers 0) := by
  have ha : FSQ_CTRL d f = dieBase d + (0x40000 + f * 0x1000) := by unfold FSQ_CTRL faceBase; omega
  have hm : (0x40000 + f * 0x1000) % 0x1000 = 0 := by omega
  rw [rowAt, ha, regArea_die hd (by omega), hm]
  rfl

theorem rowAt_benchCtrl {d f b : Nat} (hd : d < 16) (hf : f < 64) (hb : b < 16) :
    rowAt (BENCH_CTRL d f b) = benchRegs.find? (fun r => r.covers 0) := by
  have ha : BENCH_CTRL d f b = dieBase d + (0x40000 + f * 0x1000 + (0x400 + b * 0x40)) := by unfold BENCH_CTRL faceBase; omega
  have hm : (0x40000 + f * 0x1000 + (0x400 + b * 0x40)) % 0x1000 = 0x400 + b * 0x40 := by omega
  have hm' : (0x400 + b * 0x40) % 0x40 = 0 := by omega
  rw [rowAt, ha, regArea_die hd (by omega), hm, if_neg (by omega), if_pos (by omega), hm']
  rfl

theorem rw_fsqCtrl {d f : Nat} (hd : d < 16) (hf : f < 64) : accMask .rw (FSQ_CTRL d f) = 1 :=
  accMask_of_row (rowAt_fsqCtrl hd hf) .rw
theorem rw_benchCtrl {d f b : Nat} (hd : d < 16) (hf : f < 64) (hb : b < 16) : accMask .rw (BENCH_CTRL d f b) = 3 :=
  accMask_of_row (rowAt_benchCtrl hd hf hb) .rw

/-- A row of plain fields: no pair, no sequence register, no guarded word. -/
def plainRow (r : RegSpec) : Bool := r.pair == 0 && rowMask .sq r == 0 && rowMask .wg r == 0 && rowMask .rw r < 2 ^ 32

/-- Every row of the step block that reaches the steering entries is plain. -/
theorem steer_rows_plain : stepRegs.all (fun r => decide (r.off + r.stride * r.count + 1 ≤ 0x3FFFC) || plainRow r) = true := by decide

theorem regArea_step {o : Nat} (ho : o < 0x100000) : regArea (0x300000 + o) = some (o, stepRegs) := by
  have hlt : ¬ bar4Base ≤ 0x300000 + o := by unfold bar4Base; omega
  have hmod : (0x300000 + o) % 0x100000 = o := by omega
  have hdiv : (0x300000 + o) / 0x100000 = 3 := by omega
  unfold regArea
  simp only [if_neg hlt, hmod, hdiv]

theorem rowAt_steer {o : Nat} (hlo : 0x3FFFC ≤ o) (hhi : o < 0x100000) :
    rowAt (0x300000 + o) = none ∨ ∃ r, rowAt (0x300000 + o) = some r ∧ plainRow r = true := by
  rw [rowAt, regArea_step hhi]
  change stepRegs.find? (fun r => r.covers o) = none ∨ ∃ r, stepRegs.find? (fun r => r.covers o) = some r ∧ plainRow r = true
  cases h : stepRegs.find? (fun r => r.covers o) with
  | none => exact .inl rfl
  | some r =>
    have hc := covers_lt (List.find?_some (p := fun r : RegSpec => r.covers o) h)
    have hp := List.all_eq_true.1 steer_rows_plain r (List.mem_of_find?_eq_some h)
    rw [decide_eq_false (by omega), Bool.false_or] at hp
    exact .inr ⟨r, rfl, hp⟩

/-- From the steering entries on, the step block holds plain registers only. -/
theorem steer_plain {o : Nat} (hlo : 0x3FFFC ≤ o) (hhi : o < 0x100000) :
    isSQ (0x300000 + o) = false ∧ isWG (0x300000 + o) = false ∧ pairOf (0x300000 + o) = 0 ∧ accMask .rw (0x300000 + o) < 2 ^ 32 := by
  rw [isSQ, isWG, pairOf_eq_row]
  rcases rowAt_steer hlo hhi with h | ⟨r, h, hp⟩
  · rw [accMask_of_no_row h, accMask_of_no_row h, accMask_of_no_row h, h]
    exact ⟨rfl, rfl, rfl, by decide⟩
  · simp only [plainRow, Bool.and_eq_true, beq_iff_eq, decide_eq_true_eq] at hp
    obtain ⟨⟨⟨hpair, hsq⟩, hwg⟩, hrw⟩ := hp
    rw [accMask_of_row h, accMask_of_row h, accMask_of_row h, h, hsq, hwg]
    exact ⟨rfl, rfl, hpair, hrw⟩

/-! ### bits -/

theorem maskWrite_zero_mask {v : Nat} (h : v < 2 ^ 32) (x : Nat) : maskWrite 0 v x = v := by
  rw [maskWrite, Nat.xor_zero, Nat.and_zero, Nat.or_zero, show 0xFFFFFFFF = 2 ^ 32 - 1 from rfl, Nat.and_two_pow_sub_one_of_lt_two_pow h]
theorem maskWrite_full {x : Nat} (h : x < 2 ^ 32) (v : Nat) : maskWrite 0xFFFFFFFF v x = x := by
  rw [maskWrite, Nat.xor_self, Nat.and_zero, Nat.zero_or, show 0xFFFFFFFF = 2 ^ 32 - 1 from rfl, Nat.and_two_pow_sub_one_of_lt_two_pow h]

/-- A write of 0 to bit 0 alone. -/
theorem maskWrite_clear_low {v : Nat} (h : v < 2 ^ 32) : maskWrite 1 v 0 = setBits v 0 1 0 := by
  have hdiv : (v &&& 0xFFFFFFFE) / 2 = v / 2 := by
    rw [Nat.and_div_two, show 0xFFFFFFFE / 2 = 2 ^ 31 - 1 from rfl, Nat.and_two_pow_sub_one_of_lt_two_pow (by omega)]
  have hmod : (v &&& 0xFFFFFFFE) % 2 = 0 := by
    rw [Nat.and_mod_two_pow (n := 1), Nat.and_zero]
  have hm : maskWrite 1 v 0 = v &&& 0xFFFFFFFE := by
    rw [maskWrite, Nat.zero_and, Nat.or_zero]
    rfl
  rw [hm, setBits]
  omega

theorem maskWrite_lt {m v x : Nat} (hv : v < 2 ^ 32) (hx : x < 2 ^ 32) : maskWrite m v x < 2 ^ 32 :=
  Nat.or_lt_two_pow (Nat.lt_of_le_of_lt Nat.and_le_left hv) (Nat.lt_of_le_of_lt Nat.and_le_left hx)

/-- A bit of the mask is written. -/
theorem maskWrite_bit {m i : Nat} (v x : Nat) (hi : i < 32) (h : m.testBit i = true) : (maskWrite m v x).testBit i = x.testBit i := by
  have hall : (0xFFFFFFFF : Nat).testBit i = true := by
    rw [show 0xFFFFFFFF = 2 ^ 32 - 1 from rfl, Nat.testBit_two_pow_sub_one, decide_eq_true hi]
  rw [maskWrite, Nat.testBit_or, Nat.testBit_and, Nat.testBit_and, Nat.testBit_xor, h, hall]
  simp

theorem testBit_setBits_low (v : Nat) : (setBits v 0 1 0).testBit 0 = false := by
  rw [Nat.testBit_zero, setBits, decide_eq_false (by omega)]

/-! ### a write arrives -/

theorem onBus_arrives {s : State} {q : Requester} (h : arrives s q) (f : State → State) : s.onBus q f = f s := by
  unfold State.onBus
  rcases h with h | h <;> simp [h]

theorem fieldPut_arrives {s : State} {q : Requester} (h : arrives s q) {a : Nat} (hon : s.regOn a = true) (m v : Nat) :
    s.fieldPut q a m v = s.rwPut a m v := by
  rw [State.fieldPut, onBus_arrives h, hon]
  rfl

/-- A register that is written whole, alone, and without a guard. -/
def wholeReg (a : Nat) : Prop := a % 4 = 0 ∧ isSQ a = false ∧ isWG a = false ∧ isWG (a - 4) = false ∧ pairOf a = 0

theorem rowPut_arrives {s : State} {q : Requester} (h : arrives s q) {a : Nat} (hon : s.regOn a = true) (hw : wholeReg a) (v : Nat) :
    s.rowPut q a v = s.rwPut a 0xFFFFFFFF v := by
  obtain ⟨hal, hsq, hwg, hwg4, hp⟩ := hw
  rw [State.rowPut, onBus_arrives h, if_neg (not_not.2 hal), State.regPut, hon, hsq, hwg, hwg4, hp]
  simp

/-- A register of BAR0 outside the link dies that no running step guards. -/
structure OwnReg (s : State) (a : Nat) : Prop where
  bar0 : a < bar4Base
  noLink : ldOf a = none
  noDrop : s.running = false ∨ dropFlag a = none ∧ placeOf (PLC_ALIAS 0) 4 16 a = none

/-- Such a write is one register, and the effect of its block. -/
theorem rwPut_own {s : State} {a : Nat} (h : OwnReg s a) {m v : Nat} (hm : m &&& accMask .rw a ≠ 0)
    (ht : takenMask a (m &&& accMask .rw a) (maskWrite (m &&& accMask .rw a) (s.reg a) v) = m &&& accMask .rw a) :
    s.rwPut a m v = (s.setReg a (maskWrite (m &&& accMask .rw a) (s.reg a) v)).regEffect a (m &&& accMask .rw a) v := by
  have hdrop : (if s.running then dropFlag a else none) = none := by
    rcases h.noDrop with h | ⟨h, -⟩ <;> simp [h]
  have halias : ¬ (s.running = true ∧ (placeOf (PLC_ALIAS 0) 4 16 a).isSome = true) := by
    rcases h.noDrop with h | ⟨-, h⟩ <;> simp [h]
  have hbox : placeOf (H2F_DATA 0) 8 16 a = none := if_neg fun hp => absurd hp.1 (by
    have := h.bar0
    unfold H2F_DATA
    omega)
  have hdie : ¬ (bar4Base + 0x8000 ≤ a ∧ a < bar4Base + 0xC000) := fun hp => by
    have := h.bar0
    omega
  unfold State.rwPut
  simp only [hdrop, ht, hm, halias, hbox, hdie, h.noLink, or_self, if_false]

/-- A write that meets no RW bit changes nothing. -/
theorem rwPut_nothing {s : State} {a : Nat} (h : OwnReg s a) {m : Nat} (hm : m &&& accMask .rw a = 0) (hd : dieOf a = none) (v : Nat) :
    s.rwPut a m v = s := by
  have hdrop : (if s.running then dropFlag a else none) = none := by
    rcases h.noDrop with h | ⟨h, -⟩ <;> simp [h]
  have ht (x : Nat) : takenMask a 0 x = 0 := by rw [takenMask, hd]
  unfold State.rwPut
  simp only [hdrop, hm, ht, true_or, if_true]

/-! ### what the blocks do -/

/-- A register outside the dies takes every bit written to it. -/
theorem takenMask_of_no_die {a : Nat} (h : dieOf a = none) (m v : Nat) : takenMask a m v = m := by
  rw [takenMask, h]

theorem dieOf_die {d o : Nat} (hd : d < 16) (ho : o < 0x100000) : dieOf (dieBase d + o) = some (d, o) := by
  have h := dieOf_some (a := dieBase d + o) (by unfold dieBase; omega)
  rw [h]
  exact congrArg some (Prod.ext (by unfold dieBase; omega) (by unfold dieBase; omega))

theorem ownReg_die (s : State) {d o : Nat} (hd : d < 16) (ho : o < 0x100000) : OwnReg s (dieBase d + o) where
  bar0 := by unfold dieBase bar4Base; omega
  noLink := if_neg (by unfold dieBase; omega)
  noDrop := .inr ⟨by
    have : dropFlag (dieBase d + o) = none := by
      unfold dropFlag STEP_NUM STEP_COMMITS STEP_GMICRO_LO STEP_GMICRO_HI dieBase
      rw [if_neg (by omega), if_neg (by omega), if_neg (by omega), if_neg (by omega), if_neg (by omega)]
    exact this, if_neg (by unfold PLC_ALIAS dieBase; omega)⟩

/-- A die register's effect is its block's. -/
theorem regEffect_die (s : State) {d o : Nat} (hd : d < 16) (ho : o < 0x100000) (m v : Nat) :
    s.regEffect (dieBase d + o) m v = s.dieEffect d o m v := by
  have hlo : 0x1000000 ≤ dieBase d + o := by unfold dieBase; omega
  have hhi : dieBase d + o < 0x2000000 := by unfold dieBase; omega
  unfold State.regEffect STEP_CTRL TRC_CTRL TRC_MARK FR_CONS HM_CONS
  rw [if_neg (by omega), if_neg (by omega), if_neg (by omega), if_neg (by omega), if_neg (by omega), if_neg (by omega),
    if_neg (by omega), if_neg (by unfold bar4Base; omega), dieOf_die hd ho]

theorem dieEffect_fsqCtrl (s : State) (d : Nat) {f : Nat} (hf : f < 64) (v : Nat) : s.dieEffect d (0x40000 + f * 0x1000) 1 v = s := by
  have hg : gateUnit d (0x40000 + f * 0x1000) = none := by
    unfold gateUnit
    dsimp only
    rw [if_neg (by omega), if_neg (by omega), if_neg (by omega), if_neg (by omega), if_neg (by omega)]
  unfold State.dieEffect State.ungate
  rw [hg]
  dsimp only
  rw [if_neg (by omega), if_neg (by omega)]

/-- EN of a bench written 0 stops it. -/
theorem dieEffect_benchCtrl (s : State) (d : Nat) {f b : Nat} (hf : f < 64) (hb : b < 16) :
    s.dieEffect d (0x40000 + f * 0x1000 + (0x400 + b * 0x40)) 1 0 = s.benchStop d f b := by
  have hm : (0x40000 + f * 0x1000 + (0x400 + b * 0x40)) % 0x1000 = 0x400 + b * 0x40 := by omega
  have hu : s.ungate d (0x40000 + f * 0x1000 + (0x400 + b * 0x40)) 1 0 = s := by
    unfold State.ungate gateUnit
    dsimp only
    rw [hm, if_neg (by omega), if_neg (by omega), if_neg (by omega), if_neg (by omega), if_pos (by omega)]
    rfl
  have hf' : (0x40000 + f * 0x1000 + (0x400 + b * 0x40) - 0x40000) / 0x1000 = f := by omega
  have hb' : (0x400 + b * 0x40 - 0x400) / 0x40 = b := by
    rw [Nat.add_sub_cancel_left, Nat.mul_div_cancel _ (by decide)]
  unfold State.dieEffect
  rw [hu]
  dsimp only
  rw [if_neg (by omega), hm, if_pos (by omega), hf', hb']
  rfl

/-- A bench of a gang without a GEMM has nothing to give away. -/
theorem benchStop_idle {s : State} {d f : Nat} (h : (s.face d (gangLeader (s.gangMap d) f)).gemm = none) (b : Nat) :
    s.benchStop d f b = s := by
  unfold State.benchStop
  simp only [h]

/-! ### the writes -/

section
variable {s : State} {q : Requester} (hq : arrives s q)
include hq

theorem fsqCtrl_disabled {d f : Nat} (hd : d < 16) (hf : f < 64) (hon : s.regOn (FSQ_CTRL d f) = true) :
    s.fieldPut q (FSQ_CTRL d f) (2 ^ FSQ_CTRL_EN.lo) 0 = s.setReg (FSQ_CTRL d f) (setBits (s.reg (FSQ_CTRL d f)) 0 1 0) := by
  have hm : 2 ^ FSQ_CTRL_EN.lo &&& accMask .rw (FSQ_CTRL d f) = 1 := by rw [rw_fsqCtrl hd hf]; rfl
  have ha : FSQ_CTRL d f = dieBase d + (0x40000 + f * 0x1000) := by unfold FSQ_CTRL faceBase; omega
  have ht (m v : Nat) : takenMask (FSQ_CTRL d f) m v = m := by
    rw [ha, takenMask, dieOf_die hd (by omega)]
    dsimp only
    rw [if_neg (by omega), if_neg (by omega)]
  rw [fieldPut_arrives hq hon, rwPut_own (ha ▸ ownReg_die s hd (by omega)) (by rw [hm]; decide) (ht _ _), hm,
    maskWrite_clear_low (reg_lt s _), ha, regEffect_die _ hd (by omega), dieEffect_fsqCtrl _ d hf]

theorem benchCtrl_disabled {d f b : Nat} (hd : d < 16) (hf : f < 64) (hb : b < 16) (hon : s.regOn (BENCH_CTRL d f b) = true)
    (hg : (s.face d (gangLeader (s.gangMap d) f)).gemm = none) :
    s.fieldPut q (BENCH_CTRL d f b) (2 ^ BENCH_CTRL_EN.lo) 0 =
      s.setReg (BENCH_CTRL d f b) (setBits (s.reg (BENCH_CTRL d f b)) 0 1 0) := by
  have hm : 2 ^ BENCH_CTRL_EN.lo &&& accMask .rw (BENCH_CTRL d f b) = 1 := by rw [rw_benchCtrl hd hf hb]; rfl
  have ha : BENCH_CTRL d f b = dieBase d + (0x40000 + f * 0x1000 + (0x400 + b * 0x40)) := by unfold BENCH_CTRL faceBase; omega
  have hmod : (0x40000 + f * 0x1000 + (0x400 + b * 0x40)) % 0x1000 = 0x400 + b * 0x40 := by omega
  have ht (m v : Nat) : takenMask (BENCH_CTRL d f b) m v = m := by
    rw [ha, takenMask, dieOf_die hd (by omega)]
    dsimp only
    rw [hmod, if_neg (by omega), if_neg (by omega)]
  have hmap (v : Nat) : (s.setReg (BENCH_CTRL d f b) v).gangMap d = s.gangMap d := by
    have hne {r : Nat} (hr : r < 0x40000) : dieBase d + r ≠ BENCH_CTRL d f b := by rw [ha]; omega
    exact pair_of_reg (reg_setReg_other s (hne (r := 0x100) (by decide)) v) (reg_setReg_other s (hne (r := 0x104) (by decide)) v)
  have hidle (v : Nat) : (((s.setReg (BENCH_CTRL d f b) v).face d (gangLeader ((s.setReg (BENCH_CTRL d f b) v).gangMap d) f))).gemm =
      none := by
    rw [hmap, face_congr (State.setReg_faces _ _ _), hg]
  rw [fieldPut_arrives hq hon, rwPut_own (ha ▸ ownReg_die s hd (by omega)) (by rw [hm]; decide) (ht _ _), hm,
    maskWrite_clear_low (reg_lt s _)]
  conv_lhs => rw [ha, regEffect_die _ hd (by omega), dieEffect_benchCtrl _ d hf hb, ← ha]
  rw [benchStop_idle (hidle _)]

theorem stepCtrl_held (hon : s.regOn STEP_CTRL = true) :
    s.fieldPut q STEP_CTRL (2 ^ STEP_CTRL_EN.lo) 0 = (s.setReg STEP_CTRL (setBits (s.reg STEP_CTRL) 0 1 0)).updHold := by
  have hm : 2 ^ STEP_CTRL_EN.lo &&& accMask .rw STEP_CTRL = 1 := by decide
  have hown : OwnReg s STEP_CTRL := ⟨by decide, by decide, .inr ⟨by decide, by decide⟩⟩
  rw [fieldPut_arrives hq hon, rwPut_own hown (by rw [hm]; decide) (takenMask_of_no_die (by decide) _ _), hm,
    maskWrite_clear_low (reg_lt s _)]
  unfold State.regEffect
  rw [if_pos rfl]
  exact if_neg (by decide)

theorem traceCtrl_written (hon : s.regOn TRC_CTRL = true) (v : Nat) :
    s.rowPut q TRC_CTRL v = (s.setReg TRC_CTRL (maskWrite (accMask .rw TRC_CTRL) (s.reg TRC_CTRL) v)).traceSet := by
  have hm : 0xFFFFFFFF &&& accMask .rw TRC_CTRL = accMask .rw TRC_CTRL := by decide
  have hown : OwnReg s TRC_CTRL := ⟨by decide, by decide, .inr ⟨by decide, by decide⟩⟩
  rw [rowPut_arrives hq hon ⟨by decide, by decide, by decide, by decide, by decide⟩,
    rwPut_own hown (by decide) (takenMask_of_no_die (by decide) _ _), hm]
  rfl

theorem traceMark_written (hon : s.regOn TRC_MARK = true) (v : Nat) :
    s.rowPut q TRC_MARK v = (s.setReg TRC_MARK (maskWrite (accMask .rw TRC_MARK) (s.reg TRC_MARK) v)).capture 8 v := by
  have hm : 0xFFFFFFFF &&& accMask .rw TRC_MARK = accMask .rw TRC_MARK := by decide
  have hown : OwnReg s TRC_MARK := ⟨by decide, by decide, .inr ⟨by decide, by decide⟩⟩
  rw [rowPut_arrives hq hon ⟨by decide, by decide, by decide, by decide, by decide⟩,
    rwPut_own hown (by decide) (takenMask_of_no_die (by decide) _ _), hm]
  rfl

theorem hmCons_written (hon : s.regOn HM_CONS = true) {v : Nat} (hv : v < 2 ^ 32) :
    s.rowPut q HM_CONS v = (s.setReg HM_CONS v).ringDone HM_PROD HM_CONS 5 := by
  have hm : 0xFFFFFFFF &&& accMask .rw HM_CONS = 0xFFFFFFFF := by decide
  have hown : OwnReg s HM_CONS := ⟨by decide, by decide, .inr ⟨by decide, by decide⟩⟩
  rw [rowPut_arrives hq hon ⟨by decide, by decide, by decide, by decide, by decide⟩,
    rwPut_own hown (by decide) (takenMask_of_no_die (by decide) _ _), hm, maskWrite_full hv]
  rfl

theorem frCons_written (hon : s.regOn FR_CONS = true) {v : Nat} (hv : v < 2 ^ 32) :
    s.rowPut q FR_CONS v = (s.setReg FR_CONS v).ringDone FR_PROD FR_CONS 0 := by
  have hm : 0xFFFFFFFF &&& accMask .rw FR_CONS = 0xFFFFFFFF := by decide
  have hown : OwnReg s FR_CONS := ⟨by decide, by decide, .inr ⟨by decide, by decide⟩⟩
  rw [rowPut_arrives hq hon ⟨by decide, by decide, by decide, by decide, by decide⟩,
    rwPut_own hown (by decide) (takenMask_of_no_die (by decide) _ _), hm, maskWrite_full hv]
  rfl

/-- A write of a steering entry's word between steps is its RW bits. -/
theorem steerWord_written {o v : Nat} (hlo : 0x40000 ≤ o) (hhi : o < 0x60000) (hal : o % 4 = 0) (hv : v < 2 ^ 32)
    (hon : s.regOn (0x300000 + o) = true) (hrun : s.running = false) :
    let t := s.rowPut q (0x300000 + o) v
    onlyRegs s t ∧ t.out = s.out ∧ t.reg (0x300000 + o) = maskWrite (accMask .rw (0x300000 + o)) (s.reg (0x300000 + o)) v ∧
      regsKept s t [0x300000 + o] := by
  obtain ⟨hsq, hwg, hp, hrw⟩ := steer_plain (o := o) (by omega) (by omega)
  have hwg4 : isWG (0x300000 + o - 4) = false := by
    rw [Nat.add_sub_assoc (by omega)]
    exact (steer_plain (o := o - 4) (by omega) (by omega)).2.1
  have hm : 0xFFFFFFFF &&& accMask .rw (0x300000 + o) = accMask .rw (0x300000 + o) := by
    rw [Nat.and_comm, show 0xFFFFFFFF = 2 ^ 32 - 1 from rfl, Nat.and_two_pow_sub_one_of_lt_two_pow hrw]
  have hdie : dieOf (0x300000 + o) = none := if_neg (by omega)
  have hown : OwnReg s (0x300000 + o) := ⟨by unfold bar4Base; omega, if_neg (by omega), .inl hrun⟩
  dsimp only
  rw [rowPut_arrives hq hon ⟨by omega, hsq, hwg, hwg4, hp⟩]
  by_cases h0 : accMask .rw (0x300000 + o) = 0
  · rw [rwPut_nothing hown (hm.trans h0) hdie, h0, maskWrite_zero_mask (reg_lt s _)]
    exact ⟨rfl, rfl, rfl, regsKept_refl s _⟩
  · have heff (x : State) (m : Nat) : x.regEffect (0x300000 + o) m v = x := by
      unfold State.regEffect STEP_CTRL TRC_CTRL TRC_MARK FR_CONS HM_CONS
      rw [if_neg (by omega), if_neg (by omega), if_neg (by omega), if_neg (by omega), if_neg (by omega), if_neg (by omega),
        if_neg (by omega), if_neg (by unfold bar4Base; omega), hdie]
    rw [rwPut_own hown (by rwa [hm]) (takenMask_of_no_die hdie _ _), heff, hm, reg_setReg_same,
      Nat.mod_eq_of_lt (maskWrite_lt (reg_lt s _) hv)]
    exact ⟨onlyRegs_setReg s _ _, State.setReg_out _ _ _, rfl, regsKept_setReg s (List.mem_singleton_self _) _⟩

end

/-! ### effects -/

theorem updHold_shows (s : State) : onlyRegs s s.updHold ∧ s.updHold.out = s.out ∧ regsKept s s.updHold [STEP_STAT] ∧
    (s.running = true → s.updHold = s) ∧
    (s.running = false → s.flag STEP_CTRL STEP_CTRL_EN = false → s.updHold.flag STEP_STAT STEP_STAT_HOLD = true) := by
  unfold State.updHold
  cases hr : s.running with
  | true => exact ⟨rfl, rfl, regsKept_refl s _, fun _ => rfl, fun h => absurd h (by decide)⟩
  | false =>
    refine ⟨onlyRegs_setFlag s _ _ _, State.setFlag_out _ _ _ _, regsKept_setReg s (List.mem_singleton_self _) _, fun h => absurd h (by decide),
      fun _ he => ?_⟩
    rw [if_neg (by decide), he]
    exact flag_setFlag_same s STEP_STAT _ (by decide) rfl

/-- A ring's vector ends when its consumer has caught up. -/
theorem ringDone_shows (s : State) (prod cons : Nat) {n : Nat} (hn : n < 32) : onlyRegs s (s.ringDone prod cons n) ∧
    (s.ringDone prod cons n).out = s.out ∧ regsKept s (s.ringDone prod cons n) [MSIX_PBA 0] ∧
    (s.reg prod = s.reg cons → bit ((s.ringDone prod cons n).reg (MSIX_PBA 0)) n = false) := by
  unfold State.ringDone
  split
  next h =>
    have h0 : n / 32 = 0 := Nat.div_eq_of_lt hn
    unfold State.unpend
    rw [h0, Nat.mod_eq_of_lt hn]
    refine ⟨onlyRegs_setReg s _ _, State.setReg_out _ _ _, regsKept_setReg s (List.mem_singleton_self _) _, fun _ => ?_⟩
    rw [reg_setReg_same, bit_eq_testBit, Nat.testBit_mod_two_pow, Nat.testBit_and, Nat.testBit_xor, Nat.testBit_two_pow_self,
      show 0xFFFFFFFF = 2 ^ 32 - 1 from rfl, Nat.testBit_two_pow_sub_one, decide_eq_true hn]
    simp
  next h => exact ⟨rfl, rfl, regsKept_refl s _, fun he => absurd he h⟩

/-- What the trace domain's power changes: the records of the trace, and registers other than TRC_CTRL; LINK stays 0. -/
structure TraceOnly (s t : State) : Prop where
  mem : t.mem = s.mem
  ctrl : t.reg TRC_CTRL = s.reg TRC_CTRL
  link : s.flag TRC_STAT TRC_STAT_LINK = false → t.flag TRC_STAT TRC_STAT_LINK = false

namespace TraceOnly
variable {s t u : State}

theorem refl (s : State) : TraceOnly s s := ⟨rfl, rfl, id⟩
theorem trans (h : TraceOnly s t) (g : TraceOnly t u) : TraceOnly s u :=
  ⟨g.mem.trans h.mem, g.ctrl.trans h.ctrl, fun hl => g.link (h.link hl)⟩
/-- The records of the trace. -/
theorem obs (s : State) (o : Observe) : TraceOnly s { s with obs := o } := ⟨rfl, rfl, id⟩
theorem setReg (s : State) {a : Nat} (h : a ≠ TRC_CTRL) (h' : a ≠ TRC_STAT) (v : Nat) : TraceOnly s (s.setReg a v) :=
  ⟨State.setReg_mem s a v, reg_setReg_other s h.symm v, fun hl => (flag_of_reg (reg_setReg_other s h'.symm v) _).trans hl⟩
theorem setPd (s : State) (on : Bool) : TraceOnly s (s.setPd 2 on) := setReg s (by decide) (by decide) _
theorem bump (s : State) (n : Nat) : TraceOnly s (s.bump TRC_DROP_LO n) :=
  (setReg s (by decide) (by decide) _).trans (setReg _ (by decide) (by decide) _)
theorem fifo (s : State) (n : Nat) : TraceOnly s (s.setFld TRC_STAT TRC_STAT_FIFO n) :=
  ⟨State.setFld_mem s _ _ n, reg_setFld_other s (by decide) _ n, fun hl =>
    (flag_setFld_other s TRC_STAT n (by decide) (by decide)).trans hl⟩
theorem linkDown (s : State) : TraceOnly s (s.setFlag TRC_STAT TRC_STAT_LINK false) :=
  ⟨State.setFlag_mem s _ _ _, reg_setFlag_other s (by decide) _ _, fun _ => flag_setFlag_same s TRC_STAT _ (by decide) rfl⟩

end TraceOnly

theorem tracePower_only (s : State) : TraceOnly s s.tracePower := by
  unfold State.tracePower
  dsimp only
  split
  · split
    · exact .refl s
    · exact .setPd s true
  · split
    · exact ((((TraceOnly.obs s _).trans (.setPd _ false)).trans (.linkDown _)).trans (.fifo _ 0)).trans (.bump _ _)
    · exact .refl s

theorem traceSet_only (s : State) : TraceOnly s s.traceSet := by
  unfold State.traceSet
  refine TraceOnly.trans ?_ (tracePower_only _)
  split
  · exact .refl s
  · exact .linkDown s

theorem traceSet_link {s : State} (h : s.flag TRC_CTRL TRC_CTRL_PORT_EN = false) : s.traceSet.flag TRC_STAT TRC_STAT_LINK = false := by
  unfold State.traceSet
  rw [h]
  exact (tracePower_only _).link (flag_setFlag_same s TRC_STAT _ (by decide) rfl)

/-- A command that touches registers only completes in its own state. -/
theorem done_onlyRegs {s t : State} (hon : s.boot.on = true) (h : onlyRegs s t) : done s t = .next t := done_kept hon (onlyRegs_pending h)

/-- One register written, as a control write shows it. -/
theorem setReg_shows (s : State) (a : Nat) {v : Nat} (hv : v < 2 ^ 32) :
    onlyRegs s (s.setReg a v) ∧ (s.setReg a v).out = s.out ∧ (s.setReg a v).reg a = v ∧ regsKept s (s.setReg a v) [a] :=
  ⟨onlyRegs_setReg s a v, State.setReg_out s a v, (reg_setReg_same s a v).trans (Nat.mod_eq_of_lt hv),
    regsKept_setReg s (List.mem_singleton_self _) v⟩

/-- STEP_CTRL written, HOLD follows. -/
theorem stepHold_shows (s : State) {v : Nat} (hv : v < 2 ^ 32) (hen : v.testBit STEP_CTRL_EN.lo = false) :
    let t := (s.setReg STEP_CTRL v).updHold
    onlyRegs s t ∧ t.out = s.out ∧ t.reg STEP_CTRL = v ∧ regsKept s t [STEP_CTRL, STEP_STAT] ∧
      (s.running = false → t.flag STEP_STAT STEP_STAT_HOLD = true) ∧ (s.running = true → t.reg STEP_STAT = s.reg STEP_STAT) := by
  obtain ⟨ho, hout, hv', hk⟩ := setReg_shows s STEP_CTRL hv
  obtain ⟨uo, uout, uk, urun, uhold⟩ := updHold_shows (s.setReg STEP_CTRL v)
  have hstat : (s.setReg STEP_CTRL v).reg STEP_STAT = s.reg STEP_STAT := reg_setReg_other s (by decide) v
  have hrun : (s.setReg STEP_CTRL v).running = s.running := flag_of_reg hstat _
  rw [hrun] at urun uhold
  refine ⟨onlyRegs_trans ho uo, uout.trans hout, (uk _ (by decide)).trans hv', ?_, fun h => uhold h ?_, fun h => ?_⟩
  · exact regsKept_trans (regsKept_mono hk (by simp)) (regsKept_mono uk (by simp))
  · rw [flag_eq_testBit _ _ rfl, hv', hen]
  · rw [urun h, hstat]

/-- A consumer count written, its vector follows. -/
theorem ringCons_shows (s : State) (prod cons : Nat) {n v : Nat} (hn : n < 32) (hv : v < 2 ^ 32) (hpc : prod ≠ cons) (hc : cons ≠ MSIX_PBA 0) :
    let t := (s.setReg cons v).ringDone prod cons n
    onlyRegs s t ∧ t.out = s.out ∧ t.reg cons = v ∧ regsKept s t [cons, MSIX_PBA 0] ∧
      (v = s.reg prod → bit (t.reg (MSIX_PBA 0)) n = false) := by
  obtain ⟨ho, hout, hv', hk⟩ := setReg_shows s cons hv
  obtain ⟨uo, uout, uk, uend⟩ := ringDone_shows (s.setReg cons v) prod cons hn
  have hp : (s.setReg cons v).reg prod = s.reg prod := reg_setReg_other s hpc v
  refine ⟨onlyRegs_trans ho uo, uout.trans hout, (uk _ (by simpa using hc)).trans hv', ?_, fun h => uend ?_⟩
  · exact regsKept_trans (regsKept_mono hk (by simp)) (regsKept_mono uk (by simp))
  · rw [hp, hv', h]

/-- TRC_CTRL written: the trace follows, and LINK is 0 where PORT_EN is. -/
theorem trace_enabled {s : State} {q : Requester} (hon : s.boot.on = true) (hq : arrives s q) (ha : s.regOn TRC_CTRL = true) {v : Nat}
    (hv : v < 2 ^ 32) : ∃ t, done s (s.rowPut q TRC_CTRL v) = .next t ∧
      t.reg TRC_CTRL = maskWrite (accMask .rw TRC_CTRL) (s.reg TRC_CTRL) v ∧ t.mem = s.mem ∧
      (bit v TRC_CTRL_PORT_EN.lo = false → t.flag TRC_STAT TRC_STAT_LINK = false) := by
  obtain ⟨-, -, hreg, -⟩ := setReg_shows s TRC_CTRL (maskWrite_lt (m := accMask .rw TRC_CTRL) (reg_lt s TRC_CTRL) hv)
  have hset := traceSet_only (s.setReg TRC_CTRL (maskWrite (accMask .rw TRC_CTRL) (s.reg TRC_CTRL) v))
  refine ⟨_, done_on hon _, ?_⟩
  rw [queued_reg, queued_mem, traceCtrl_written hq ha, hset.ctrl, hset.mem]
  refine ⟨hreg, State.setReg_mem _ _ _, fun hp => traceSet_link (s := s.setReg TRC_CTRL _) ?_⟩
  rw [flag_eq_testBit _ _ rfl, hreg, maskWrite_bit _ _ (by decide) (by decide), ← bit_eq_testBit, hp]

/-- Settles O50: each row's write is its register and its block's effect. -/
theorem controlWritesSetTheirFields : Obligations.ControlWritesSetTheirFields := by
  unfold Obligations.ControlWritesSetTheirFields
  intro s q hon hq
  have clear (a : Nat) : setBits (s.reg a) 0 1 0 < 2 ^ 32 := setBits_lt 0 (reg_lt s a) (by decide)
  refine ⟨fun d f ha => ?_, fun d f b ha hg => ?_, fun ha => ?_, fun l w v ha hr => ?_, fun v ha => ?_, fun v ha => ?_, fun v ha => ?_,
    fun v ha => ?_⟩
  · have h := setReg_shows s (FSQ_CTRL d.val f.val) (clear (FSQ_CTRL d.val f.val))
    rw [← fsqCtrl_disabled hq d.isLt f.isLt ha] at h
    exact ⟨_, done_onlyRegs hon h.1, h⟩
  · have h := setReg_shows s (BENCH_CTRL d.val f.val b.val) (clear (BENCH_CTRL d.val f.val b.val))
    rw [← benchCtrl_disabled hq d.isLt f.isLt b.isLt ha hg] at h
    exact ⟨_, done_onlyRegs hon h.1, h⟩
  · have h := stepHold_shows s (clear STEP_CTRL) (testBit_setBits_low _)
    rw [← stepCtrl_held hq ha] at h
    exact ⟨_, done_onlyRegs hon h.1, h⟩
  · have ho : STEER_ENTRY_W0 l.val + 4 * w.val = 0x300000 + (0x40000 + l.val * 32 + 4 * w.val) := by
      unfold STEER_ENTRY_W0
      omega
    rw [ho] at ha ⊢
    have h := steerWord_written hq (o := 0x40000 + l.val * 32 + 4 * w.val) (by omega) (by omega) (by omega) v.isLt ha hr
    rw [← ho] at h ⊢
    exact ⟨_, done_onlyRegs hon h.1, h⟩
  · exact trace_enabled hon hq ha v.isLt
  · exact (congrArg (done s) (traceMark_written hq ha v.toNat)).trans (done_on hon _)
  · have h := ringCons_shows s HM_PROD HM_CONS (n := 5) (by decide) v.isLt (by decide) (by decide)
    rw [← hmCons_written hq ha v.isLt] at h
    exact ⟨_, done_onlyRegs hon h.1, h⟩
  · have h := ringCons_shows s FR_PROD FR_CONS (n := 0) (by decide) v.isLt (by decide) (by decide)
    rw [← frCons_written hq ha v.isLt] at h
    exact ⟨_, done_onlyRegs hon h.1, h⟩

end Sys2Proof.Control
end

section
/-! SUPPORT. A command of the Foreman taken, checked and answered (R22 to R25, R378): the way of its answer and of its reads. -/

namespace Sys2Proof.StepRun

open Sys2Proof Sys2Proof.Machine Sys2Proof.Laws

/-! ### answers -/

theorem onlyRegs_withHif {s t : State} (g : onlyRegs s t) (h : HostIf) : onlyRegs { s with hif := h } { t with hif := h } := by
  unfold onlyRegs at *
  rw [g]

theorem f2hPut_rest (s : State) (m w : Nat) : ∃ h, onlyRegs { s with hif := h } (s.f2hPut m w) := by
  unfold State.f2hPut
  dsimp only
  split
  · exact ⟨s.hif, onlyRegs_trans (onlyRegs_setReg s _ _) (f2hFull_onlyRegs _ _ _)⟩
  · split
    · exact ⟨_, onlyRegs_setFld _ _ _ _⟩
    · exact ⟨_, onlyRegs_trans (onlyRegs_setFlag _ _ _ _) (onlyRegs_raiseMask _ _ _)⟩

/-- A late answer is counted and discarded (R382). -/
theorem f2hPush_late_rest (s : State) (h : HostIf) :
    onlyRegs { s with hif := h } ((State.bumpSat { s with hif := h } MBX_LATE MBX_LATE_COUNT 1).raise MBX_EVENT MBX_EVENT_LATE) :=
  onlyRegs_trans (onlyRegs_setFld _ MBX_LATE _ _) (onlyRegs_raiseMask _ _ _)

/-- An answer touches registers and the mailboxes' own records. -/
theorem f2hPush_rest (s : State) (m w : Nat) : ∃ h, onlyRegs { s with hif := h } (s.f2hPush m w) := by
  unfold State.f2hPush
  split
  · exact ⟨_, f2hPush_late_rest s _⟩
  · obtain ⟨h, g⟩ := f2hPut_rest (s.setFlag (H2F_STAT m) H2F_STAT_TIMING false) m w
    exact ⟨h, onlyRegs_trans (onlyRegs_withHif (onlyRegs_setFlag s _ _ _) h) g⟩

theorem f2hPush_eng (s : State) (m w : Nat) : (s.f2hPush m w).eng = s.eng := by
  obtain ⟨h, ho⟩ := f2hPush_rest s m w
  rw [onlyRegs_eng ho]
theorem f2hPush_mem (s : State) (m w : Nat) : (s.f2hPush m w).mem = s.mem := by
  obtain ⟨h, ho⟩ := f2hPush_rest s m w
  rw [onlyRegs_mem ho]

/-- What the host's word leaves of mailbox m once it is taken: the word gone, and the answer side as it was. -/
structure Taken (s t : State) (m : Nat) : Prop where
  empty : t.flag (H2F_STAT m) H2F_STAT_FULL = false
  answer : t.flag (F2H_STAT m) F2H_STAT_FULL = s.flag (F2H_STAT m) F2H_STAT_FULL
  late : t.hif.late = s.hif.late

theorem Taken.answered {s t : State} {m v : Nat} (h : Taken s t m) (hm : m < 16) (hc : clearBox s m) (hv : v < 2 ^ 32) :
    answered (t.f2hPush m v) m v := by
  obtain ⟨hf, hl⟩ := hc
  have ha := answer_clear (s := t) (m := m) (w := v) (w0 := 0) (h.answer.trans hf) (by rw [h.late, hl])
  rw [State.answer] at ha
  rw [ha]
  exact answering_answered hm hv h.empty

theorem Taken.kept {s t u : State} {m : Nat} (h : Taken s t m) (hh : u.reg (H2F_STAT m) = t.reg (H2F_STAT m))
    (hf : u.reg (F2H_STAT m) = t.reg (F2H_STAT m)) (hl : u.hif.late = t.hif.late) : Taken s u m :=
  ⟨(flag_of_reg hh _).trans h.empty, (flag_of_reg hf _).trans h.answer, hl.trans h.late⟩

theorem aside_mailbox {m : Nat} (hm : m < 16) : aside (H2F_STAT m) ∧ aside (F2H_STAT m) := by
  unfold aside H2F_STAT F2H_STAT MSIX_PBA bar4Base
  omega

theorem Taken.memSide {s t u : State} {m : Nat} (h : Taken s t m) (hm : m < 16) (g : MemSide t u) : Taken s u m :=
  h.kept (g.regs _ (aside_mailbox hm).1) (g.regs _ (aside_mailbox hm).2) g.late

theorem taken_takeCmd (s : State) (m w : Nat) : Taken s (s.takeCmd m (.own w)) m where
  empty := takeCmd_empties s m w
  answer := flag_of_reg (takeCmd_regs s m w _ (by unfold F2H_STAT H2F_STAT MBX_PEND; simp; omega)) _
  late := by rw [onlyRegs_hif (takeCmd_onlyRegs s m w)]

/-- The block's read stays on memory's side. -/
theorem taken_took {m : Nat} (hm : m < 16) (s : State) (w : Nat) : Taken s (took s m w) m :=
  (taken_takeCmd s m w).memSide hm (.hostSeen _ _ _)

theorem took_eng (s : State) (m w : Nat) : (took s m w).eng = s.eng :=
  (MemSide.hostSeen (s.takeCmd m (.own w)) _ _).eng.trans (onlyRegs_eng (takeCmd_onlyRegs s m w))

/-! ### serving -/

section
variable {s : State} {m code w : Nat} (hc : s.cmdAt m = some (.own w)) (hcode : wCode w = code) (hfwd : wFwd w = false)
include hc hcode hfwd

/-- The host's word that waits is taken, for a command that reads its block itself. -/
theorem serve_word (blk : List Byte) (f : State → List Byte → CmdSrc → State) :
    s.serve m code false blk f = f (s.takeCmd m (.own w)) blk (.own w) := by
  unfold State.serve
  rw [hc]
  dsimp only
  rw [if_neg (by simp [CmdSrc.word, hcode, hfwd]), if_neg Bool.false_ne_true]

/-- The same for a command whose block is read at once. -/
theorem serve_ring (blk : List Byte) (f : State → List Byte → State) :
    s.serve m code true blk (fun t b _ => f t b) = (s.takeCmd m (.own w)).withBlk m (.own w) blk f := by
  unfold State.serve
  rw [hc]
  dsimp only
  rw [if_neg (by simp [CmdSrc.word, hcode, hfwd]), if_pos rfl]

theorem withBlk_there (hm : m < 16) (hb : blkThere s m w) (blk : List Byte) (f : State → List Byte → State) :
    (s.takeCmd m (.own w)).withBlk m (.own w) blk f = f (took s m w) blk := by
  rw [← serve_ring hc hcode hfwd, serve_waiting hm ⟨hc, hcode, hfwd, hb⟩]

end

theorem withBlk_noRing {s : State} {m w : Nat} (hm : m < 16) (h : s.flag (HIF_RING_HI m) HIF_RING_HI_V = false) (blk : List Byte)
    (f : State → List Byte → State) :
    (s.takeCmd m (.own w)).withBlk m (.own w) blk f = (s.takeCmd m (.own w)).f2hPush m (ansWord stBadRing 0) := by
  have hv := (flag_of_reg (takeCmd_regs s m w _ (ring_notMem hm).2) HIF_RING_HI_V).trans h
  unfold State.withBlk
  dsimp only
  rw [hv]
  exact if_pos rfl

/-! ### reads of a program -/

theorem runSeen_memSide (s : State) (blk : List Byte) : MemSide s (s.runSeen blk) := by
  unfold State.runSeen
  dsimp only
  exact .ite (fun _ => .refl s) (fun _ => .ite (fun _ => .memSeen s _ _) (fun _ => (MemSide.memSeen s _ _).trans (.memSeen _ _ _)))

/-! ### reads of lines that the channels answer -/

/-- A read without an end leaves memory, and which channels answer. -/
structure LineRead (s t : State) : Prop where
  mem : t.mem = s.mem
  chans : ∀ g, g < 512 → t.chanOk g = s.chanOk g

namespace LineRead
variable {s t u : State}

theorem refl (s : State) : LineRead s s := ⟨rfl, fun _ _ => rfl⟩
theorem trans (h : LineRead s t) (g : LineRead t u) : LineRead s u :=
  ⟨g.mem.trans h.mem, fun c hc => (g.chans c hc).trans (h.chans c hc)⟩
theorem foldl {α : Type} {f : State → α → State} {l : List α} (hf : ∀ s a, LineRead s (f s a)) (s : State) : LineRead s (l.foldl f s) where
  mem := foldl_kept State.mem (fun s a _ => (hf s a).mem) s
  chans := fun c hc => foldl_kept (fun s => s.chanOk c) (fun s a _ => (hf s a).chans c hc) s

/-- The records of DRAM and of poison. -/
theorem note (s : State) (d : Dram) (p : List Nat) : LineRead s { s with dram := d, poison := p } := ⟨rfl, fun _ _ => rfl⟩

/-- The counts of a controller's slices are not what its channels' state is read from. -/
theorem setReg (s : State) {a : Nat} (hs : ∀ d c, MC_STAT d c ≠ a) (hp : ∀ i, i < 4 → PKG_PD_STAT i ≠ a) (v : Nat) :
    LineRead s (s.setReg a v) where
  mem := State.setReg_mem s a v
  chans := fun g hg => by
    have hst (d c : Nat) : (s.setReg a v).reg (MC_STAT d c) = s.reg (MC_STAT d c) := reg_setReg_other s (hs d c) v
    have hpd {j : Nat} (hj : j / 32 < 4) : (s.setReg a v).pdOn j = s.pdOn j := pdOn_congr (reg_setReg_other s (hp _ hj) v)
    have hg' : stackOf g < 16 := Nat.div_lt_of_lt_mul (by omega)
    rw [State.chanOk, State.chanOk, State.chanReady, State.chanReady, State.tstate, State.tstate, hpd (by omega), hpd (by omega),
      fld_of_reg (hst _ _), fld_of_reg (hst _ _)]

theorem counted (s : State) (a : Nat) {r : Nat} (hr : r = 0x108 ∨ r = 0x110) :
    LineRead s (s.bump (dieBase (stackOf (gchan a)) + 0x10000 + ctlOf (gchan a) * 0x1000 + r) 1) := by
  have hs (x : Nat) (hx : x = 0 ∨ x = 4) (d c : Nat) :
      MC_STAT d c ≠ dieBase (stackOf (gchan a)) + 0x10000 + ctlOf (gchan a) * 0x1000 + r + x := by
    unfold MC_STAT dieBase
    omega
  have hp (x : Nat) (hx : x = 0 ∨ x = 4) (i : Nat) (hi : i < 4) :
      PKG_PD_STAT i ≠ dieBase (stackOf (gchan a)) + 0x10000 + ctlOf (gchan a) * 0x1000 + r + x := by
    unfold PKG_PD_STAT dieBase
    omega
  exact (setReg s (hs 0 (.inl rfl)) (hp 0 (.inl rfl)) _).trans (setReg _ (hs 4 (.inr rfl)) (hp 4 (.inr rfl)) _)

theorem burst (s : State) (a : Nat) : LineRead s (s.burst a) := by
  unfold State.burst
  dsimp only
  split
  · exact note s _ _
  · exact note s _ _
theorem setLine (s : State) (l : Nat) (c : Option CLine) : LineRead s (s.setLine l c) := note s _ _
theorem useTick (s : State) : LineRead s s.useTick.2 := note s _ _

theorem restoreBelow (s : State) (l : Nat) (c : CLine) : LineRead s (s.restoreBelow l c false) := by
  unfold State.restoreBelow
  split
  · exact refl s
  · exact note s _ _

theorem evictLine (s : State) (l : Nat) (c : CLine) : LineRead s (s.evictLine l c) := by
  unfold State.evictLine
  split
  next => exact (burst s _).trans ((note _ _ _).trans (setLine _ _ _))
  next h =>
    unfold State.dropLine
    rw [Bool.eq_false_iff.2 h]
    exact (restoreBelow s l c).trans (setLine _ _ _)

theorem makeWay (s : State) (l : Nat) : LineRead s (s.makeWay l) := by
  unfold State.makeWay
  split
  · exact evictLine s _ _
  · exact refl s

theorem loadLine256 (s : State) (l : Nat) (k : Bool) (u : Nat) : LineRead s (s.loadLine256 l k u) := by
  unfold State.loadLine256
  dsimp only
  split
  · exact (burst s _).trans (setLine _ _ _)
  · exact (burst s _).trans ((setLine _ _ _).trans (note _ _ _))

theorem fillLine (s : State) (l : Nat) : LineRead s (s.fillLine l false) := by
  unfold State.fillLine
  exact (makeWay s l).trans ((useTick _).trans (loadLine256 _ _ _ _))

theorem touchLine (s : State) (l hint : Nat) : LineRead s (s.touchLine l hint) := by
  unfold State.touchLine
  split
  · exact refl s
  · split
    · exact refl s
    · exact (useTick s).trans (setLine _ _ _)

/-- A NORMAL read of a line. -/
theorem dcLook (s : State) (a n : Nat) : LineRead s (s.dcLook 0 a n .none).2 := by
  unfold State.dcLook
  dsimp only
  split
  · exact (counted s a (.inl rfl)).trans (touchLine _ _ 0)
  · exact (counted s a (.inr rfl)).trans (fillLine _ _)

end LineRead

/-- A unit's read of DRAM that its channels answer. -/
theorem memSeen_lineRead {s : State} {a n : Nat} (h : s.served a n = true) (ha : regionOf a = .dram) : LineRead s (s.memSeen a n) := by
  unfold State.memSeen State.memSeenAs
  rw [h, ha]
  exact .foldl (f := fun s (p : Nat × Nat) => (s.dcLook 0 p.1 p.2 .none).2) (fun s p => .dcLook s p.1 p.2) s

theorem served_dram {s : State} {a n : Nat} (ha : regionOf a = .dram) :
    s.served a n = (decide (a + n ≤ 0x20000000000) && (blocksOf (2 ^ 32) a n).all (fun g => s.chanOk (g % 512))) := by
  unfold State.served
  rw [ha]

theorem mem_blocksOf {k a n b : Nat} : b ∈ blocksOf k a n ↔ n ≠ 0 ∧ a / k ≤ b ∧ b ≤ (a + n - 1) / k := by
  unfold blocksOf
  split
  next h => simp [h]
  next h =>
    have hle : a / k ≤ (a + n - 1) / k := Nat.div_le_div_right (by omega)
    simp only [List.mem_map, List.mem_range]
    constructor
    · rintro ⟨i, hi, rfl⟩
      omega
    · rintro ⟨-, h1, h2⟩
      exact ⟨b - a / k, by omega, by omega⟩

/-- The end of a range that is served is served. -/
theorem served_tail {s t : State} {a n k : Nat} (h : s.served a n = true) (ha : regionOf a = .dram) (hk : k < n)
    (hc : ∀ g, g < 512 → t.chanOk g = s.chanOk g) : t.served (a + k) (n - k) = true ∧ regionOf (a + k) = .dram := by
  rw [served_dram ha, Bool.and_eq_true, decide_eq_true_eq, List.all_eq_true] at h
  obtain ⟨hle, hall⟩ := h
  have hr : regionOf (a + k) = .dram := if_pos (by omega)
  refine ⟨?_, hr⟩
  rw [served_dram hr, Bool.and_eq_true, decide_eq_true_eq, List.all_eq_true]
  refine ⟨by omega, fun b hb => ?_⟩
  obtain ⟨hn, h1, h2⟩ := mem_blocksOf.1 hb
  rw [hc _ (Nat.mod_lt _ (by decide))]
  refine hall b (mem_blocksOf.2 ⟨by omega, ?_, ?_⟩)
  · omega
  · omega

/-! ### the check of a program -/

/-- A check that is passed. -/
theorem passed {c : Prop} [Decidable c] {st d : Nat} {r : RunCheck} {p : Slot}
    (h : (if c then RunCheck.bad st d else r) = .good p) : ¬ c ∧ r = .good p := by
  split at h
  · cases h
  · exact ⟨‹_›, h⟩

/-- What the checks of R23 have seen of a program that they pass. -/
theorem checkRun_good {s : State} {blk : List Byte} {p : Slot} (h : s.checkRun blk = .good p) :
    let a := blkNat blk 8 8
    let n := hTotal (s.memRead a 512).1
    ¬ (s.eng.active.isSome ∧ s.eng.next.isSome) ∧ ¬ (a % 4096 ≠ 0 ∨ 2 ^ 41 < a + 512) ∧ (s.memRead a 512).2 = false ∧
      headBad (s.memRead a 512).1 = false ∧ 512 < n ∧ a + n ≤ 2 ^ 41 ∧ (s.memRead (a + 0x10) (n - 0x10)).2 = false := by
  unfold State.checkRun at h
  dsimp only at h ⊢
  obtain ⟨hbusy, h⟩ := passed h
  obtain ⟨haddr, h⟩ := passed h
  obtain ⟨hread, h⟩ := passed h
  obtain ⟨hhead, h⟩ := passed h
  obtain ⟨hend, h⟩ := passed h
  obtain ⟨hbody, h⟩ := passed h
  obtain ⟨-, h⟩ := passed h
  obtain ⟨hcount, h⟩ := passed h
  obtain ⟨hoff, -⟩ := passed h
  refine ⟨hbusy, haddr, Bool.eq_false_iff.2 hread, Bool.eq_false_iff.2 hhead, ?_, Nat.not_lt.1 hend, Bool.eq_false_iff.2 hbody⟩
  simp only [offsetsBad, Bool.or_eq_true, decide_eq_true_eq, not_or, Nat.not_lt] at hoff
  obtain ⟨⟨⟨⟨-, hlay⟩, hph⟩, hdesc⟩, htot⟩ := hoff
  omega

/-- Every status of a check is a code of one byte. -/
def smallBad (r : RunCheck) : Prop := ∀ st d, r = .bad st d → st < 2 ^ 8

theorem smallBad_ite {c : Prop} [Decidable c] {st d : Nat} {r : RunCheck} (hs : st < 2 ^ 8) (hr : smallBad r) :
    smallBad (if c then .bad st d else r) := by
  split
  · intro x y h
    cases h
    exact hs
  · exact hr

/-- A status of the check is a code of R23. -/
theorem checkRun_bad (s : State) (blk : List Byte) : smallBad (s.checkRun blk) := by
  unfold State.checkRun
  dsimp only
  have last (p : Slot) : smallBad (.good p) := fun _ _ h => by cases h
  exact smallBad_ite (by decide) (smallBad_ite (by decide) (smallBad_ite (by decide) (smallBad_ite (by decide) (smallBad_ite (by decide)
    (smallBad_ite (by decide) (smallBad_ite (by decide) (smallBad_ite (by decide) (smallBad_ite (by decide) (smallBad_ite (by decide)
      (smallBad_ite (by decide) (last _)))))))))))

theorem served_of_read {s : State} {a n : Nat} (h : (s.memRead a n).2 = false) : s.served a n = true := by
  simp only [State.memRead, Bool.or_eq_false_iff, Bool.not_eq_false'] at h
  exact h.1.1

/-- The reads of a program that passes change no byte. -/
theorem runSeen_mem {s : State} {blk : List Byte} {p : Slot} (h : s.checkRun blk = .good p) : (s.runSeen blk).mem = s.mem := by
  obtain ⟨hbusy, haddr, hread, hhead, hn, hend, hbody⟩ := checkRun_good h
  unfold State.runSeen
  dsimp only
  generalize blkNat blk 8 8 = a at *
  generalize hh : hTotal (s.memRead a 512).1 = n at *
  obtain ⟨-, hfit⟩ := not_or.1 haddr
  have hdram : regionOf a = .dram := if_pos (by omega)
  have hdram' : regionOf (a + 0x10) = .dram := if_pos (by omega)
  have first := memSeen_lineRead (served_of_read hread) hdram
  obtain ⟨hserved, hr⟩ := served_tail (k := 496) (served_of_read hbody) hdram' (by omega) first.chans
  have ea : a + 0x10 + 496 = a + 512 := by omega
  have en : n - 0x10 - 496 = n - 512 := by omega
  rw [ea, en] at hserved
  rw [ea] at hr
  rw [if_neg (by rintro (h | h); exacts [hbusy h, haddr h]), hread, hhead, if_neg (by simp; omega)]
  exact (memSeen_lineRead hserved hr).mem.trans first.mem

/-! ### a program in its slot -/

/-- ACTIVE, with its step number and the steps left. -/
def numbered (s : State) (p : Slot) : State :=
  let t : State := { s with eng := { s.eng with active := some p } }
  (if p.first = 0xFFFFFFFF then t else t.setReg STEP_NUM p.first).setReg STEP_LEFT (if p.steps = 0 then 0xFFFFFFFF else p.left)

/-- What face f of die d shows of a gang map. -/
def gangFace (map d : Nat) (s : State) (f : Nat) : State :=
  (s.setFld (FSQ_STAT d f) FSQ_STAT_GSZ (Nat.log2 (gangSize map (gangLeader map f)))).setFlag (FSQ_STAT d f) FSQ_STAT_LEADER
    (gangLeader map f == f)

/-- A die's gang map, as its registers show it. -/
def gangShown (p : Slot) (s : State) (d : Nat) : State :=
  (List.range 64).foldl (gangFace (hGang p.hdr d) d) (s.setPair (DIE_GANG_MAP_LO d) (hGang p.hdr d))

theorem activate_eq (s : State) (p : Slot) : s.activate p = (List.range 16).foldl (gangShown p) (numbered s p) := rfl

theorem onlyRegs_numbered (s : State) (p : Slot) : onlyRegs { s with eng := { s.eng with active := some p } } (numbered s p) :=
  onlyRegs_trans (onlyRegs_ite (onlyRegs_refl _) (onlyRegs_setReg _ _ _)) (onlyRegs_setReg _ _ _)
theorem onlyRegs_gangFace (map d : Nat) (s : State) (f : Nat) : onlyRegs s (gangFace map d s f) :=
  onlyRegs_trans (onlyRegs_setFld s _ _ _) (onlyRegs_setFlag _ _ _ _)
theorem onlyRegs_gangShown (p : Slot) (s : State) (d : Nat) : onlyRegs s (gangShown p s d) :=
  onlyRegs_trans (onlyRegs_trans (onlyRegs_setReg s _ _) (onlyRegs_setReg _ _ _)) (onlyRegs_foldl (onlyRegs_gangFace _ d) _ _)
theorem onlyRegs_activate (s : State) (p : Slot) : onlyRegs { s with eng := { s.eng with active := some p } } (s.activate p) := by
  rw [activate_eq]
  exact onlyRegs_trans (onlyRegs_numbered s p) (onlyRegs_foldl (onlyRegs_gangShown p) _ _)

/-- The registers of the dies show a program's gang maps; no other does. -/
theorem gangShown_reg (p : Slot) (s : State) {d a : Nat} (hd : d < 16) (ha : a < 0x1000000 ∨ 0x2000000 ≤ a) :
    (gangShown p s d).reg a = s.reg a := by
  have hmap {r : Nat} (hr : r < 0x200) : a ≠ dieBase d + r := by unfold dieBase; omega
  refine (foldl_kept (fun s => s.reg a) (fun s f hf => ?_) _).trans
    ((reg_setReg_other _ (hmap (r := 0x104) (by decide)) _).trans (reg_setReg_other s (hmap (r := 0x100) (by decide)) _))
  have hf' := List.mem_range.1 hf
  have hne : a ≠ FSQ_STAT d f := by unfold FSQ_STAT faceBase dieBase; omega
  exact (reg_setFlag_other _ hne _ _).trans (reg_setFld_other s hne _ _)

theorem activate_reg (s : State) (p : Slot) {a : Nat} (ha : a < 0x1000000 ∨ 0x2000000 ≤ a) :
    (s.activate p).reg a = (numbered s p).reg a := by
  rw [activate_eq]
  exact foldl_kept (fun s => s.reg a) (fun s d hd => gangShown_reg p s (List.mem_range.1 hd) ha) _

theorem numbered_reg (s : State) (p : Slot) {a : Nat} (h1 : a ≠ STEP_NUM) (h2 : a ≠ STEP_LEFT) : (numbered s p).reg a = s.reg a := by
  refine (reg_setReg_other _ h2 _).trans ?_
  split
  · rfl
  · exact reg_setReg_other _ h1 _
theorem numbered_left (s : State) (p : Slot) :
    (numbered s p).reg STEP_LEFT = (if p.steps = 0 then 0xFFFFFFFF else p.left) % 2 ^ 32 := reg_setReg_same _ _ _

theorem onlyRegs_showSlots (s : State) : onlyRegs s s.showSlots := onlyRegs_trans (onlyRegs_setFlag s _ _ _) (onlyRegs_setFlag _ _ _ _)
theorem showSlots_reg (s : State) {a : Nat} (h : a ≠ STEP_STAT) : s.showSlots.reg a = s.reg a :=
  (reg_setFlag_other _ h _ _).trans (reg_setFlag_other s h _ _)

/-- A program in its slot: ACTIVE when none is, else NEXT. -/
def loaded (s : State) (p : Slot) : State :=
  State.showSlots (if s.eng.active.isNone then s.activate p else { s with eng := { s.eng with next := some p } })

theorem loaded_of_none {s : State} (h : s.eng.active = none) (p : Slot) : loaded s p = (s.activate p).showSlots := by
  rw [loaded, h]
  rfl
theorem loaded_of_some {s : State} (h : s.eng.active ≠ none) (p : Slot) :
    loaded s p = State.showSlots { s with eng := { s.eng with next := some p } } := by
  rw [loaded, if_neg (by simpa using h)]

theorem loaded_mem (s : State) (p : Slot) : (loaded s p).mem = s.mem := by
  refine (onlyRegs_mem (onlyRegs_showSlots _)).trans ?_
  split
  · exact (onlyRegs_mem (onlyRegs_activate s p)).trans rfl
  · rfl
theorem loaded_hif (s : State) (p : Slot) : (loaded s p).hif = s.hif := by
  refine (onlyRegs_hif (onlyRegs_showSlots _)).trans ?_
  split
  · exact (onlyRegs_hif (onlyRegs_activate s p)).trans rfl
  · rfl
theorem loaded_active {s : State} (h : s.eng.active = none) (p : Slot) : (loaded s p).eng = { s.eng with active := some p } := by
  rw [loaded_of_none h]
  exact (onlyRegs_eng (onlyRegs_showSlots _)).trans (onlyRegs_eng (onlyRegs_activate s p))
theorem loaded_next {s : State} (h : s.eng.active ≠ none) (p : Slot) : (loaded s p).eng = { s.eng with next := some p } := by
  rw [loaded_of_some h]
  exact onlyRegs_eng (onlyRegs_showSlots _)
theorem loaded_left {s : State} (h : s.eng.active = none) (p : Slot) :
    (loaded s p).reg STEP_LEFT = (if p.steps = 0 then 0xFFFFFFFF else p.left) % 2 ^ 32 := by
  rw [loaded_of_none h, showSlots_reg _ (by decide), activate_reg s p (.inl (by decide)), numbered_left]

/-- The mailboxes stand as before. -/
theorem loaded_reg (s : State) (p : Slot) {a : Nat} (h : bar4Base ≤ a) : (loaded s p).reg a = s.reg a := by
  unfold bar4Base at h
  refine (showSlots_reg _ (by unfold STEP_STAT; omega)).trans ?_
  split
  · exact (activate_reg s p (.inr (by omega))).trans (numbered_reg s p (by unfold STEP_NUM; omega) (by unfold STEP_LEFT; omega))
  · rfl

/-- Both slots empty. -/
theorem clearSlots_rest (s : State) : onlyRegs { s with eng := { s.eng with active := none, next := none } } s.clearSlots :=
  onlyRegs_showSlots _
theorem clearSlots_reg (s : State) {a : Nat} (h : a ≠ STEP_STAT) : s.clearSlots.reg a = s.reg a := showSlots_reg _ h

/-- A program that is checked, as its check ends. -/
theorem runCmd_bad {s : State} {blk : List Byte} {st detail : Nat} (h : s.checkRun blk = .bad st detail) (w : Nat) :
    s.runCmd (.own w) blk = (s.runSeen blk).f2hPush 0 (ansWord st detail) := by
  unfold State.runCmd
  simp only [h]
  rfl
theorem runCmd_good {s : State} {blk : List Byte} {p : Slot} (h : s.checkRun blk = .good p) (w : Nat) :
    s.runCmd (.own w) blk = (loaded (s.runSeen blk) p).f2hPush 0 (ansWord stAccepted 0) := by
  unfold State.runCmd
  simp only [h]
  rfl

theorem queued_answered {s t : State} {m a : Nat} (h : answered t m a) : answered (queued s t) m a := h

theorem ansWord_lt {st : Nat} (h : st < 2 ^ 8) (d : Nat) : ansWord st d < 2 ^ 32 := by
  unfold ansWord
  omega

theorem takeCmd_running (s : State) (w : Nat) : (s.takeCmd 0 (.own w)).running = s.running :=
  flag_of_reg (takeCmd_regs s 0 w STEP_STAT (by decide)) _

/-- A word kept with its block until the STEP_STOP is done. -/
def kept (s : State) (w : Nat) (blk : List Byte) : State :=
  { s with eng := { s.eng with stopWords := s.eng.stopWords ++ [(.own w, blk)] } }

theorem kept_mem (s : State) (w : Nat) (blk : List Byte) : (kept s w blk).mem = s.mem := rfl
theorem kept_eng (s : State) (w : Nat) (blk : List Byte) :
    (kept s w blk).eng = { s.eng with stopWords := s.eng.stopWords ++ [(.own w, blk)] } := rfl
theorem kept_answered {s : State} {m a : Nat} (h : answered s m a) (w : Nat) (blk : List Byte) : answered (kept s w blk) m a := h

theorem stopWord_own {w : Nat} (h : wFwd w = false) (s : State) (blk : List Byte) :
    s.stopWord (.own w) blk = kept (s.f2hPush 0 (ansWord stRunning 0)) w blk := by
  have hf : ¬ (CmdSrc.own w).isFwd = true := Bool.eq_false_iff.1 h
  exact congrArg (fun x => kept (s.f2hPush 0 x) w blk) (if_neg hf)

section
variable {s : State} {w : Nat} (hon : s.boot.on = true) (hc : s.cmdAt 0 = some (.own w)) (hfwd : wFwd w = false)
include hon hc hfwd

/-- STEP_RUN, taken while no STEP_STOP waits: its block is read. -/
theorem stepRun_reads (hstop : s.eng.stop = none) (hcode : wCode w = 0x10) (blk : List Byte) :
    Machine.exec (.stepRun blk) s =
      .next (queued s ((s.takeCmd 0 (.own w)).withBlk 0 (.own w) blk (fun t b => t.runCmd (.own w) b))) := by
  have hs : (s.takeCmd 0 (.own w)).eng.stop = none := by rw [onlyRegs_eng (takeCmd_onlyRegs s 0 w), hstop]
  refine (congrArg (done s) (serve_word hc hcode hfwd blk _)).trans ?_
  rw [hs, if_neg (by decide)]
  exact done_on hon _

/-- STEP_RUN while a STEP_STOP waits. -/
theorem stepRun_waits {x : CmdSrc} (hstop : s.eng.stop = some x) (hcode : wCode w = 0x10) (blk : List Byte) :
    Machine.exec (.stepRun blk) s = .next (queued s ((s.takeCmd 0 (.own w)).stopWord (.own w) blk)) := by
  have hs : (s.takeCmd 0 (.own w)).eng.stop = some x := by rw [onlyRegs_eng (takeCmd_onlyRegs s 0 w), hstop]
  refine (congrArg (done s) (serve_word hc hcode hfwd blk _)).trans ?_
  rw [hs, if_pos (by rfl)]
  exact done_on hon _

/-- STEP_STOP, taken while none waits. -/
theorem stepStop_taken (hstop : s.eng.stop = none) (hcode : wCode w = 0x11) :
    Machine.exec .stepStop s = .next (queued s (if s.running then
      { s.takeCmd 0 (.own w) with eng := { s.eng with stop := some (.own w) } } else (s.takeCmd 0 (.own w)).stopNow (.own w))) := by
  have he := onlyRegs_eng (takeCmd_onlyRegs s 0 w)
  have hs : (s.takeCmd 0 (.own w)).eng.stop = none := by rw [he, hstop]
  refine (congrArg (done s) (serve_word hc hcode hfwd [] _)).trans ?_
  dsimp only
  rw [hs, takeCmd_running, he, if_neg (by decide)]
  exact done_on hon _

end

/-- Settles O19: a word is taken, its block read, its program checked by reads alone, and its answer pushed. -/
theorem stepRunIsCheckedAndLoaded : Obligations.StepRunIsCheckedAndLoaded := by
  unfold Obligations.StepRunIsCheckedAndLoaded
  intro s w hon hc hfwd u
  have htake := taken_takeCmd s 0 w
  have heng := onlyRegs_eng (takeCmd_onlyRegs s 0 w)
  have hmem := onlyRegs_mem (takeCmd_onlyRegs s 0 w)
  refine ⟨fun blk st detail hstop hcode hb hbad => ?_, fun blk p hstop hcode hb hgood => ?_, fun hstop hcode hrun => ?_,
    fun blk hstop hcode hv => ?_, fun hstop hcode hrun => ?_, fun x blk hstop hcode => ?_⟩
  · have hseen := runSeen_memSide u blk
    have hexec := stepRun_reads hon hc hfwd hstop hcode blk
    rw [withBlk_there hc hcode hfwd (by decide) hb, runCmd_bad hbad] at hexec
    refine ⟨_, hexec, rfl, ?_, fun hcl => queued_answered ?_⟩
    · rw [queued_eng, f2hPush_eng, hseen.eng, took_eng]
    · exact ((taken_took (by decide) s w).memSide (by decide) hseen).answered (by decide) hcl (ansWord_lt (checkRun_bad u blk _ _ hbad) _)
  · have hseen := runSeen_memSide u blk
    have he : (u.runSeen blk).eng = s.eng := hseen.eng.trans (took_eng s 0 w)
    have htk : Taken s (loaded (u.runSeen blk) p) 0 := ((taken_took (by decide) s w).memSide (by decide) hseen).kept
      (loaded_reg _ p (by decide)) (loaded_reg _ p (by decide)) (by rw [loaded_hif])
    have hm : u.mem = s.mem := onlyAsked_mem (took_onlyAsked (by decide) ⟨hc, hcode, hfwd, hb⟩)
    have hexec := stepRun_reads hon hc hfwd hstop hcode blk
    rw [withBlk_there hc hcode hfwd (by decide) hb, runCmd_good hgood] at hexec
    refine ⟨loaded (u.runSeen blk) p, _, hexec, rfl, ?_, fun hcl => queued_answered (htk.answered (by decide) hcl (by decide)),
      fun ha => ⟨?_, ?_⟩, fun ha => ?_⟩
    · rw [queued_mem, f2hPush_mem, loaded_mem, runSeen_mem hgood, hm]
    · rw [queued_eng, f2hPush_eng, loaded_active (by rw [he, ha]), he]
    · rw [loaded_left (by rw [he, ha])]
    · rw [queued_eng, f2hPush_eng, loaded_next (by rw [he]; exact ha), he]
  · rw [stepStop_taken hon hc hfwd hstop hcode, hrun]
    rfl
  · have hexec := stepRun_reads hon hc hfwd hstop hcode blk
    rw [withBlk_noRing (by decide) hv] at hexec
    refine ⟨_, hexec, ?_, ?_, fun hcl => queued_answered (htake.answered (by decide) hcl (by decide))⟩
    · rw [queued_eng, f2hPush_eng, heng]
    · rw [queued_mem, f2hPush_mem, hmem]
  · have hexec := stepStop_taken hon hc hfwd hstop hcode
    rw [hrun, if_neg Bool.false_ne_true] at hexec
    have hclear := clearSlots_rest (s.takeCmd 0 (.own w))
    have htk : Taken s (s.takeCmd 0 (.own w)).clearSlots 0 := htake.kept (clearSlots_reg _ (by decide)) (clearSlots_reg _ (by decide))
      (by rw [onlyRegs_hif hclear])
    refine ⟨_, hexec, ?_, ?_, fun hcl => queued_answered (htk.answered (by decide) hcl (by decide))⟩
    · rw [queued_eng, State.stopNow, State.answer, f2hPush_eng, onlyRegs_eng hclear, heng]
    · rw [queued_mem, State.stopNow, State.answer, f2hPush_mem, onlyRegs_mem hclear, hmem]
  · have hexec := stepRun_waits hon hc hfwd hstop hcode blk
    rw [stopWord_own hfwd] at hexec
    refine ⟨_, hexec, ?_, ?_, fun hcl => queued_answered (kept_answered (htake.answered (by decide) hcl (by decide)) _ _)⟩
    · rw [queued_eng, kept_eng, f2hPush_eng, heng]
    · rw [queued_mem, kept_mem, f2hPush_mem, hmem]

end Sys2Proof.StepRun
end

section
/-! SUPPORT. Placement too stays on memory's side (`MemSide`; R245 to R264): tables, ledger, moves, fetches, placing and resolution, and
so a unit's read of an object. -/

namespace Sys2Proof.Laws

open Sys2Proof Sys2Proof.Machine

theorem not_aside_ld {k o : Nat} (hk : k < 4) (ho : o < 0x100000) : ¬ aside (ldBase k + o) := by
  unfold aside ldBase bar4Base
  omega
theorem keyLinkDie_lt (k : Nat) : keyLinkDie k < 4 := bits_lt _ _ 2
theorem not_aside_region {r : Nat} (h : r < 64) : ¬ aside (PLC_REGION_W3 r) :=
  not_aside_of_lt (by unfold PLC_REGION_W3; omega)

theorem regionRoom_lt {s : State} {r i : Nat} (h : s.regionRoom = some (r, i)) : r < 64 := by
  unfold State.regionRoom at h
  split at h
  · cases h
  next r' hf =>
    cases h
    exact List.mem_range.1 (List.mem_of_find?_eq_some hf)

namespace MemSide

variable {s t u : State}

/-- The reads and writes that placement itself needs. -/
theorem plc (s : State) (p : Placement) : MemSide s { s with plc := p } := note s _ _ _ _ _ _ _ _ _
theorem draw (s : State) : MemSide s s.draw.2 := note s _ _ _ _ _ _ _ _ _
theorem usePromo (s : State) (a : Arbiter) (r : LowReq) : MemSide s (s.usePromo a r) := note s _ _ _ _ _ _ _ _ _
theorem sendPlain (s : State) (p : Packet) : MemSide s (s.sendPlain p) := note s _ _ _ _ _ _ _ _ _
theorem tablePut (s : State) (a n v : Nat) : MemSide s (s.tablePut a n v) := memWrite s _ _ _
theorem setFm (s : State) (fr v : Nat) : MemSide s (s.setFm fr v) := tablePut s _ _ _
theorem resolveEnd (s : State) (oa : Nat) : MemSide s (s.resolveEnd oa) := fault s _ _ _ _

theorem zeroRange (s : State) (a n : Nat) : MemSide s (s.zeroRange a n) :=
  ite (fun _ => ended s _ _) (fun _ => (foldl (fun s _ _ => dcTake s _ _ _) s).trans (note _ _ _ _ _ _ _ _ _ _))

theorem setPlaced (s : State) (o n : Nat) : MemSide s (s.setPlaced o n) := ite (fun _ => tablePut s _ _ _) (fun _ => plc s _)
theorem freeCount (s : State) (n : Nat) : MemSide s (s.setFld PLC_FREE PLC_FREE_FRAMES n) := setFld s (by decide) _ n
theorem takeFrame (s : State) (fr k c : Nat) (p r : Bool) : MemSide s (s.takeFrame fr k c p r) := (setFm s _ _).trans (freeCount _ _)
theorem freeFrame (s : State) (fr : Nat) : MemSide s (s.freeFrame fr) :=
  ite (fun _ => (setFm s _ _).trans (freeCount _ _)) (fun _ => refl s)

/-! ### ledger -/

theorem setLedc (s : State) (k : Nat) (l : List (Nat × Bool)) : MemSide s (s.setLedc k l) := plc s _
theorem ledcMark (s : State) (k : Nat) : MemSide s (s.ledcMark k) := ite (fun _ => setLedc s _ _) (fun _ => refl s)
theorem ledcDrop (s : State) (k : Nat) : MemSide s (s.ledcDrop k) :=
  ite (fun _ => (setLedc s _ _).trans (setFld _ (not_aside_ld (keyLinkDie_lt k) (by decide)) _ _)) (fun _ => refl s)
theorem setLed (s : State) (a e : Nat) : MemSide s (s.setLed a e) := by
  have drop : MemSide s (if leKind (s.led a) = kEmpty ∨ (e ≠ 0 ∧ leKey e = leKey (s.led a)) then s else s.ledcDrop (leKey (s.led a))) :=
    ite (fun _ => refl s) (fun _ => ledcDrop s _)
  exact drop.trans ((ite (fun _ => refl _) (fun _ => ledcMark _ _)).trans (tablePut _ _ _ _))
theorem ledBump (s : State) {r : Nat} (hr : r < 0x100) (k : Nat) : MemSide s (s.bump (ldBase (keyLinkDie k) + r) 1) :=
  bump s (not_aside_ld (keyLinkDie_lt k) (by omega)) (not_aside_ld (o := r + 4) (keyLinkDie_lt k) (by omega)) 1

theorem walkBuckets (s : State) (k : Nat) : MemSide s (s.walkBuckets k) := by
  have one (s : State) (b : Nat) : MemSide s (if s.served (bucketAddr b) 128 then s.memSeen (bucketAddr b) 128 else s) :=
    ite (fun _ => memSeen s _ _) (fun _ => refl s)
  unfold State.walkBuckets
  dsimp only
  split
  · exact ite (fun _ => one s _) (fun _ => (one s _).trans (one _ _))
  · exact (one s _).trans (one _ _)

theorem ledcLook (s : State) (k : Nat) : MemSide s (s.ledcLook k) := by
  have walked : MemSide s ((s.bump (LEDC_MISS_LO (keyLinkDie k)) 1).walkBuckets k) := (ledBump s (by decide) k).trans (walkBuckets _ _)
  unfold State.ledcLook
  dsimp only
  split
  · exact (ledBump s (by decide) k).trans (setLedc _ _ _)
  · refine walked.trans (ite (fun _ => refl _) fun _ => ite (fun _ => ?_) (fun _ => ?_))
    · exact (setLedc _ _ _).trans (setFld _ (not_aside_ld (keyLinkDie_lt k) (by decide)) _ _)
    · exact (ite (fun _ => (ledBump _ (by decide) k).trans (usePromo _ _ _)) (fun _ => refl _)).trans (setLedc _ _ _)

theorem addLed {k e : Nat} (h : s.addLed k e = some t) : MemSide s t := by
  unfold State.addLed at h
  dsimp only at h
  split at h
  · cases h; exact setLed s _ _
  · split at h
    · cases h; exact setLed s _ _
    · split at h
      · cases h; exact (freeFrame s _).trans (setLed _ _ _)
      · cases h
theorem dropLed (s : State) (k : Nat) : MemSide s (s.dropLed k) := by
  unfold State.dropLed
  split
  · exact setLed s _ _
  · exact refl s

/-! ### regions and requests -/

theorem takeSlot (s : State) {r : Nat} (h : r < 64) (i : Nat) : MemSide s (s.takeSlot r i) :=
  (setFld s (not_aside_region h) _ _).trans (plc _ _)
theorem freeSlot (s : State) (h : Nat) : MemSide s (s.freeSlot h) := by
  unfold State.freeSlot
  split
  · exact refl s
  next r hr =>
    exact ite (fun _ => (setFld s (not_aside_region (List.mem_range.1 (List.mem_of_find?_eq_some hr))) _ _).trans (plc _ _)) (fun _ => refl s)
theorem request (s : State) (w : Where) (r : ObjReq) (n : Nat) : MemSide s (s.request w r n) := by
  unfold State.request
  split
  · exact send s _ _
  · exact send s _ _
  · exact send s _ _
  · exact resolveEnd s _

/-! ### moves, mirrors and poison -/

theorem countMoves (s : State) : MemSide s s.countMoves := setFld s (by decide) _ _
theorem addMove (s : State) (m : Move) : MemSide s (s.addMove m) := (plc s _).trans (countMoves _)
theorem dropMove (s : State) (k : Nat) : MemSide s (s.dropMove k) := (plc s _).trans (countMoves _)

theorem askPlace (s : State) (p x k : Nat) (r : Bool) : MemSide s (s.askPlace p x k r).2 := by
  unfold State.askPlace
  dsimp only
  have h := (draw s).trans (send s.draw.2 (ledPkt p opSpill (keyOa k) x []) .other)
  split
  · exact h
  · exact h
theorem of_askPlace {p x k : Nat} {r : Bool} {o : Option (Nat × Nat × Bool)} (h : s.askPlace p x k r = (o, t)) : MemSide s t := by
  have ha := askPlace s p x k r
  rwa [h] at ha
theorem askSpill (x : Nat) (l : List Nat) (k : Nat) (s : State) : MemSide s (State.askSpill x l k s).2 := by
  induction l generalizing s with
  | nil => exact refl s
  | cons p l ih =>
    unfold State.askSpill
    split
    next t ha => exact (of_askPlace ha).trans (ih t)
    next ha => exact of_askPlace ha

theorem tellHolder (s : State) (d k e : Nat) : MemSide s (s.tellHolder d k e) := send s _ _
theorem tellMirror (s : State) (k : Nat) : MemSide s (s.tellMirror k) := by
  unfold State.tellMirror
  split
  · exact ite (fun _ => tellHolder s _ _ _) (fun _ => refl s)
  · exact refl s
theorem mirrorTo (s : State) (d : Option Nat) (k o : Nat) (v : List Byte) (b : Bool) (w : Option Packet) :
    MemSide s (s.mirrorTo d k o v b w) := by
  unfold State.mirrorTo
  split
  · exact foldl (fun s _ _ => send s _ _) s
  · exact refl s
theorem addMirror (s : State) (k : Nat) : MemSide s (s.addMirror k) := by
  unfold State.addMirror
  refine ite (fun _ => refl s) (fun _ => ?_)
  split
  · exact refl s
  · split
    · exact refl s
    · split
      next ha => exact of_askPlace ha
      next ha => exact ((of_askPlace ha).trans (setLed _ _ _)).trans (tellMirror _ _)

theorem startMend (s : State) (k e : Nat) : MemSide s (s.startMend k e) := by
  unfold State.startMend
  refine ite (fun _ => refl s) (fun _ => ite (fun _ => refl s) (fun _ => ?_))
  split
  · exact (send s _ _).trans (plc _ _)
  · exact plc s _
theorem markPoison (s : State) (k : Nat) : MemSide s (s.markPoison k) := by
  unfold State.markPoison
  dsimp only
  split
  · exact ite (fun _ => plc s _) (fun _ => (plc s _).trans (setLed _ _ _))
  · exact plc s _
theorem framePoison (s : State) (fr : Nat) : MemSide s (s.framePoison fr) := by
  have marked : MemSide s ((((s.markPoison (fmKey (s.fm fr))).setFm fr (s.fm fr + 2 ^ 63)).setFld PLC_RETIRED PLC_RETIRED_FRAMES
      (((s.markPoison (fmKey (s.fm fr))).setFm fr (s.fm fr + 2 ^ 63)).fld PLC_RETIRED PLC_RETIRED_FRAMES + 1)).raise PLC_EVENT
        PLC_EVENT_POISON) :=
    (((markPoison s _).trans (setFm _ _ _)).trans (setFld _ (by decide) _ _)).trans (raise _ (by decide) _)
  unfold State.framePoison
  refine ite (fun _ => refl s) (fun _ => marked.trans (ite (fun _ => ?_) (fun _ => ite (fun _ => ?_) (fun _ => send _ _ _))))
  · exact (dropLed _ _).trans (send _ _ _)
  · split
    · exact startMend _ _ _
    · exact refl _

theorem sendGranule (s : State) (k a d f : Nat) : MemSide s (s.sendGranule k a d f) :=
  ((memSeen s _ _).trans (foldl (fun s _ _ => sendPlain s _) _)).trans (send _ _ _)
theorem hostStore (s : State) (d o : Nat) (v : List Byte) (b : Bool) : MemSide s (s.hostStore d o v b) :=
  ite (fun _ => memWrite s _ _ _) (fun _ => foldl (fun s _ _ => send s _ _) s)
theorem hostGranule (s : State) (d o a : Nat) : MemSide s (s.hostGranule d o a) :=
  (memSeen s _ _).trans (foldl (fun s _ _ => hostStore s _ _ _ _) _)

theorem startMove (s : State) (k : Nat) (w : MoveWhy) (d o : Nat) (h : Bool) : MemSide s (s.startMove k w d o h) := by
  unfold State.startMove
  refine ite (fun _ => refl s) (fun _ => ?_)
  split
  · exact refl s
  next a e _ =>
    refine ite (fun _ => refl s) (fun _ => ite (fun _ => framePoison s _) (fun _ => ?_))
    have marked := setLed s a (e - leKind e * 2 ^ 48 + kMoving * 2 ^ 48)
    dsimp only
    generalize s.setLed a (e - leKind e * 2 ^ 48 + kMoving * 2 ^ 48) = t at marked ⊢
    refine trans (trans (marked.trans ?_) (ite (fun _ => send _ _ _) (fun _ => refl _))) (addMove _ _)
    exact ite (fun _ => hostGranule _ _ _ _) (fun _ => sendGranule _ _ _ _ _)

/-- Where a frame that moves down goes: to the peer that took it, else to a host region with room (R257). -/
def movedTo (s : State) (k r : Nat) (ans : Option (Nat × Nat)) : State :=
  match ans with
  | some (p, a) => s.startMove k .evict p a false
  | none =>
    match (if orTmax r = 2 then s.regionRoom else none) with
    | some (rg, i) =>
      let t := s.startMove k .evict s.regionDev (s.regionBase rg + i * 65536) true
      if s.movesRun < t.movesRun then t.takeSlot rg i else t
    | none => s

theorem moved (s : State) (k r : Nat) (ans : Option (Nat × Nat)) : MemSide s (movedTo s k r ans) := by
  unfold movedTo
  split
  · exact startMove _ _ _ _ _ _
  · split
    next rg i hr =>
      have hlt : rg < 64 := by
        split_ifs at hr
        exact regionRoom_lt hr
      have started := startMove s k .evict s.regionDev (s.regionBase rg + i * 65536) true
      extract_lets t
      exact ite (fun _ => MemSide.trans started (takeSlot t hlt i)) (fun _ => started)
    · exact refl _

theorem moveDown (s : State) (fr : Nat) : MemSide s (s.moveDown fr) := by
  unfold State.moveDown
  extract_lets e k v r ext
  refine ite (fun _ => ?_) (fun _ => ite (fun _ => refl s) (fun _ => ite (fun _ => ite (fun _ => refl s) (fun _ => ?_)) (fun _ => ?_)))
  · exact (((freeFrame s fr).trans (dropLed _ _)).trans (bump _ (by decide) (by decide) 1)).trans (send _ _ _)
  · extract_lets
    generalize hx : State.askSpill _ _ _ s = x
    have asked : MemSide s x.2 := by
      rw [← hx]
      exact askSpill _ _ _ s
    obtain ⟨ans, u⟩ := x
    exact asked.trans (moved u k r ans)
  · split
    next ha => exact (of_askPlace ha).trans (startMove _ _ _ _ _ _)
    next ha => exact of_askPlace ha

theorem landWrite (s : State) (m : Move) (o : Option Nat) (w : HeldWrite) : MemSide s (s.landWrite m o w) :=
  ite (fun _ => (hostStore s _ _ _ _).trans (mirrorTo _ _ _ _ _ _ _)) fun _ =>
    ite (fun _ => (memWrite s _ _ _).trans (mirrorTo _ _ _ _ _ _ _)) (fun _ => foldl (fun s _ _ => send s _ _) s)

/-- The data of a pulled granule comes in. -/
theorem pulledIn (s : State) (m : Move) : MemSide s (match m.srcAddr with
    | some h => (s.memSeen h 65536).memWrite m.dstAddr (s.memRead h 65536).1 (s.memRead h 65536).2
    | none => s) := by
  split
  · exact (memSeen s _ _).trans (memWrite _ _ _ _)
  · exact refl s

/-- The entry of a move that has arrived. -/
def switched (s : State) (m : Move) : State :=
  match s.lookup m.key with
  | none => s
  | some (a, e) =>
    match m.why with
    | .pull =>
      let s := match m.srcAddr with
        | some h => (s.memSeen h 65536).memWrite m.dstAddr (s.memRead h 65536).1 (s.memRead h 65536).2
        | none => s
      let s := if m.host then s.freeSlot (leAddr e) else s.send (ledPkt (leDev e) opFree (keyOa m.key) 1 []) .other
      s.setLed a (leSet e kLocal s.devId (m.dstAddr / 65536))
    | .giveBack => s.setLed a 0
    | _ =>
      if m.host then s.setLed a (leSet e kHost m.dstDev (m.dstAddr / 65536))
      else (s.setLed a (leSet e kPeer m.dstDev (m.dstAddr / 65536))).tellMirror m.key

theorem switches (s : State) (m : Move) : MemSide s (switched s m) := by
  have out (a e : Nat) : MemSide s (if m.host then s.setLed a (leSet e kHost m.dstDev (m.dstAddr / 65536))
      else (s.setLed a (leSet e kPeer m.dstDev (m.dstAddr / 65536))).tellMirror m.key) :=
    ite (fun _ => setLed s _ _) (fun _ => (setLed s _ _).trans (tellMirror _ _))
  unfold switched
  split
  · exact refl s
  · split
    · have inn := pulledIn s m
      extract_lets t t'
      exact (MemSide.trans inn (ite (fun _ => freeSlot t _) (fun _ => send t _ _))).trans (setLed t' _ _)
    · exact setLed s _ _
    · exact out _ _

/-- What a switched move leaves: the source frame free, its count, the held writes landed. -/
def settled (s : State) (m : Move) (mirror : Option Nat) : State :=
  let s := match m.srcAddr with
    | some src => if src < 0x20000000000 then s.freeFrame (src / 65536) else s
    | none => s
  let s := if m.why = .evict ∨ m.why = .giveBack then s.bump PLC_EVICT_LO 1 else s
  m.writes.foldl (fun s w => s.landWrite m mirror w) s

theorem settles (s : State) (m : Move) (mirror : Option Nat) : MemSide s (settled s m mirror) := by
  have frees : MemSide s (match m.srcAddr with
      | some src => if src < 0x20000000000 then s.freeFrame (src / 65536) else s
      | none => s) := by
    split
    · exact ite (fun _ => freeFrame s _) (fun _ => refl s)
    · exact refl s
  unfold settled
  extract_lets t t'
  exact (MemSide.trans frees (ite (fun _ => bump t (by decide) (by decide) 1) (fun _ => refl t))).trans (foldl (fun s _ _ => landWrite s _ _ _) t')

theorem switchEntry_eq (s : State) (m : Move) :
    s.switchEntry m = settled (switched ((s.dropMove m.key).bump PLC_MOVE_LO 1) m) m (s.mirrorOf m.key) := rfl
theorem switchEntry (s : State) (m : Move) : MemSide s (s.switchEntry m) := by
  rw [switchEntry_eq]
  exact (((dropMove s _).trans (bump _ (by decide) (by decide) 1)).trans (switches _ _)).trans (settles _ _ _)

/-! ### fetches and placing -/

theorem startFetch (s : State) (k fr c d : Nat) (p q ak : Bool) (b : Nat) : MemSide s (s.startFetch k fr c d p q ak b) :=
  (plc s _).trans (foldl (fun s _ _ => send s _ _) _)
theorem takeReplica (s : State) (k d : Nat) (p : Bool) : MemSide s (s.takeReplica k d p) := by
  unfold State.takeReplica
  refine ite (fun _ => refl s) (fun _ => ?_)
  split
  · exact refl s
  · exact (takeFrame s _ _ _ _ _).trans (startFetch _ _ _ _ _ _ _ _ _)

theorem evictNow (s : State) (fr : Nat) : MemSide s (s.evictNow fr) := by
  unfold State.evictNow
  extract_lets t
  split
  · exact (moveDown s fr).trans (switchEntry _ _)
  · exact moveDown s fr
theorem makeRoom (s : State) (r : Nat) (face : Option Nat) : MemSide s (s.makeRoom r face) :=
  foldl (fun s _ _ => ite (fun _ => refl s) (fun _ => evictNow s _)) s

theorem freshen (s : State) (k : Nat) : MemSide s (s.freshen k) := by
  unfold State.freshen
  split
  · exact ite (fun _ => ite (fun _ => refl s) (fun _ => setFm s _ _)) (fun _ => refl s)
  · exact refl s

theorem unitAsks (s : State) (w : Where) (k o n : Nat) : MemSide s (s.unitAsks w k o n) := by
  have asked : MemSide s ((linePieces (keyOa k + o) n).foldl (fun s q => s.request w (.unit q.1) 0) s) :=
    foldl (fun s _ _ => request s _ _ _) s
  unfold State.unitAsks
  extract_lets t
  split
  · exact MemSide.trans asked (ite (fun _ => takeReplica t _ _ _) (fun _ => refl t))
  · exact asked

/-- A pull that starts: the frame taken, the entry MOVING, and the granule fetched where the device does not hold it (R258). -/
def pulling (s : State) (k a e fr : Nat) : State :=
  let host := leKind e == kHost
  let near := host && leDev e == s.devId
  let s := s.takeFrame fr k (leClass e) false false
  let s := s.setLed a (setBits e 48 3 kMoving)
  let src := if near then some (hwBase + leAddr e * 65536) else none
  let s := s.addMove ⟨k, .pull, src, s.devId, frameAddr fr, host, near, []⟩
  if near then s
  else if host then
    s.startFetch k fr (leClass e) (leDev e) false true true (leDev e * 2 ^ 48 + hwBase + leAddr e * 65536)
  else (s.tellHolder (leDev e) k (setBits e 48 3 kMoving)).startFetch k fr (leClass e) (leDev e) false true false (keyOa k)

theorem pulls (s : State) (k a e fr : Nat) : MemSide s (pulling s k a e fr) := by
  have taken := takeFrame s fr k (leClass e) false false
  unfold pulling
  extract_lets host near t t' src t''
  have added : MemSide t t'' := (setLed t _ _).trans (addMove t' _)
  exact (MemSide.trans taken added).trans (ite (fun _ => refl t'') fun _ =>
    ite (fun _ => startFetch t'' _ _ _ _ _ _ _ _) (fun _ => (tellHolder t'' _ _ _).trans (startFetch _ _ _ _ _ _ _ _ _)))

theorem pull (s : State) (k : Nat) (face : Option Nat) : MemSide s (s.pull k face) := by
  unfold State.pull
  extract_lets r
  split
  · exact refl s
  next a e _ =>
    refine ite (fun _ => refl s) (fun _ => ?_)
    split
    · exact refl s
    next fr _ => exact pulls s k a e fr

theorem tier0 (s : State) (r : Nat) (face : Option Nat) : MemSide s (s.tier0 r face).2 := by
  unfold State.tier0
  split
  · exact refl s
  · split
    · exact refl s
    · split
      · exact makeRoom s r face
      · exact refl s

/-- A placed granule is counted and mirrored. -/
def placed (t : State) (k r : Nat) : State := (t.setPlaced (keyObj k) (orPlaced r + 1)).addMirror k
theorem places (t : State) (k r : Nat) : MemSide t (placed t k r) := (setPlaced t _ _).trans (addMirror _ _)

theorem place {k : Nat} {face : Option Nat} (h : s.place k face = some t) : MemSide s t := by
  have fullOr (u : State) (e r : Nat) {f : State → State} (hf : ∀ t, MemSide t (f t))
      (hu : (match u.addLed k e with
        | none => some (u.raise PLC_EVENT PLC_EVENT_LEDGER_FULL)
        | some t => some (placed (f t) k r)) = some t) : MemSide u t := by
    split at hu
    · cases hu; exact raise u (by decide) _
    next t' ht => cases hu; exact ((addLed ht).trans (hf t')).trans (places _ k r)
  have noSpace (u : State) : MemSide u (u.raise PLC_EVENT PLC_EVENT_NO_SPACE) := raise u (by decide) _
  unfold State.place at h
  extract_lets r pin fin noSp full at h
  split at h
  · cases h
  · split at h
    · split at h
      · exact fullOr s _ r (fun t => takeSlot t (bits_lt _ _ 6) _) h
      · cases h; exact noSpace s
    · generalize hx : s.tier0 r face = x at h
      have tried : MemSide s x.2 := hx ▸ tier0 s r face
      obtain ⟨frame, u⟩ := x
      refine tried.trans ?_
      dsimp only at h
      split at h
      · exact fullOr u _ r (fun t => (takeFrame t _ _ _ _ _).trans (zeroRange _ _ _)) h
      · generalize hy : (if orTmin r ≤ 1 ∧ 1 ≤ orTmax r then State.askSpill _ _ _ u else (none, u)) = y at h
        have asked : MemSide u y.2 := by
          rw [← hy]
          split
          · exact askSpill _ _ _ u
          · exact refl u
        obtain ⟨ans, w⟩ := y
        refine asked.trans ?_
        dsimp only at h
        split at h
        · exact fullOr w _ r (fun t => refl t) h
        · split at h
          · cases h; exact noSpace w
          next rg i hr =>
            have hlt : rg < 64 := by
              split_ifs at hr
              exact regionRoom_lt hr
            exact fullOr w _ r (fun t => takeSlot t hlt _) h

theorem settle (s : State) (k : Nat) (face : Option Nat) : MemSide s (s.settle k face) := by
  unfold State.settle
  split
  · refine ite (fun _ => refl s) (fun _ => ?_)
    cases h : s.place k face with
    | none => exact refl s
    | some t => exact place h
  · exact freshen s k
  · exact refl s
theorem touch (s : State) (a n : Nat) (face : Option Nat) : MemSide s (s.touch a n face) := foldl (fun s _ _ => settle s _ _) s
theorem pullAll (s : State) (a n : Nat) (face : Option Nat) : MemSide s (s.pullAll a n face) := foldl (fun s _ _ => pull s _ _) s

/-- A unit's read of an object (R216, R250, R252). -/
theorem objSeenAs (s : State) (hint a n : Nat) (face : Option Nat) : MemSide s (s.objSeenAs hint a n face) := by
  have part (s : State) (p : Nat × Nat × Nat) : MemSide s (match s.whereIs p.1 with
      | .here a => s.memSeenAs hint (a + p.2.1) p.2.2
      | .ended => s.resolveEnd (keyOa p.1 + p.2.1)
      | .empty => s.resolveEnd (keyOa p.1 + p.2.1)
      | w => s.unitAsks w p.1 p.2.1 p.2.2) := by
    split
    · exact memSeenAs s _ _ _
    · exact resolveEnd s _
    · exact resolveEnd s _
    · exact unitAsks s _ _ _ _
  unfold State.objSeenAs
  extract_lets t t'
  have looked : MemSide s t := foldl (fun s _ _ => ledcLook s _) s
  have parts : MemSide (t.touch a n face) t' := foldl (fun s p _ => part s p) _
  exact ((looked.trans (touch t a n face)).trans parts).trans (pullAll t' a n face)
theorem objSeen (s : State) (a n : Nat) (face : Option Nat) : MemSide s (s.objSeen a n face) := objSeenAs s 0 a n face
/-- A unit's read through its face's rings. -/
theorem faceSeen (s : State) (d f a n : Nat) : MemSide s (s.faceSeen d f a n) := by
  unfold State.faceSeen
  refine ite (fun _ => objSeen s _ _ _) (fun _ => foldl (fun s p _ => ?_) s)
  split
  · exact refl s
  · exact objSeen s _ _ _

end MemSide

end Sys2Proof.Laws
end

section
/-! A descriptor starts (R28, R68, R184, R185, R308, R465), and O7. -/

namespace Sys2Proof.Laws

open Sys2Proof Sys2Proof.Machine

/-- The oldest ready descriptor of its kind starts, and its unit goes on from there. -/
theorem descStart_ready {s : State} {d f : Nat} {k : DescKind} {h : Held} (hr : readyIs s d f k h) (go : State → Held → State) :
    s.descStart d f k go = go (begun s d f h) h := by
  obtain ⟨hready, hkind⟩ := hr
  unfold State.descStart
  rw [hready]
  dsimp only
  rw [if_neg (not_not.2 hkind)]
  rfl

/-- The set of a face's queue counters starts again: nothing else differs. -/
theorem faceQueues_rest (s : State) (d f ix : Nat) : ∃ q, s.faceQueues d f ix = { s with queues := q } := by
  unfold State.faceQueues
  generalize List.range (gangSize (s.gangMap d) f) = l
  induction l generalizing s with
  | nil => exact ⟨s.queues, rfl⟩
  | cons i l ih => exact ih _

/-- Memory, the step engine and the faces' records stand. -/
structure Started (s t : State) : Prop where
  mem : t.mem = s.mem
  eng : t.eng = s.eng
  faces : t.faces = s.faces

theorem Started.trans {s t u : State} (h : Started s t) (g : Started t u) : Started s u :=
  ⟨g.mem.trans h.mem, g.eng.trans h.eng, g.faces.trans h.faces⟩
theorem Started.of_onlyRegs {s t : State} (h : onlyRegs s t) : Started s t := ⟨onlyRegs_mem h, onlyRegs_eng h, onlyRegs_faces h⟩

theorem started_faceQueues (s : State) (d f ix : Nat) : Started s (s.faceQueues d f ix) := by
  obtain ⟨q, hq⟩ := faceQueues_rest s d f ix
  rw [hq]
  exact ⟨rfl, rfl, rfl⟩

theorem started_traceDesc (s : State) (d f ix l o : Nat) : Started s (s.traceDesc false d f ix l o) := by
  have h (p : Nat) : Started s (s.capture 1 p) :=
    ⟨capture_mem s 1 p, (MemSide.of_logged (Logged.capture s 1 p)).eng, (MemSide.of_logged (Logged.capture s 1 p)).faces⟩
  exact h _

theorem started_begun (s : State) (d f : Nat) (h : Held) : Started (s.setRun d f h.idx .running) (begun s d f h) :=
  (((Started.of_onlyRegs (onlyRegs_showFace _ d f)).trans (started_faceQueues _ d f h.idx)).trans
    (started_traceDesc _ d f h.idx (dLayer h.words) (dOpc h.words))).trans (.of_onlyRegs (onlyRegs_setFld _ _ _ _))

theorem begun_mem (s : State) (d f : Nat) (h : Held) : (begun s d f h).mem = s.mem := (started_begun s d f h).mem
theorem begun_eng (s : State) (d f : Nat) (h : Held) : (begun s d f h).eng = s.eng := (started_begun s d f h).eng
theorem setRun_held (s : State) (d f ix : Nat) (r : Run) : ((s.setRun d f ix r).face d f).held =
    (s.face d f).held.map (fun x => if x.idx = ix then { x with run := r } else x) := congrArg Face.held (face_setFace_same s d f _)
theorem begun_held (s : State) (d f : Nat) (h : Held) : ((begun s d f h).face d f).held =
    (s.face d f).held.map (fun x => if x.idx = h.idx then { x with run := .running } else x) := by
  rw [face_congr (started_begun s d f h).faces, setRun_held]

/-- The registers of the step engine are not a start's. -/
theorem begun_step (s : State) (d f : Nat) (h : Held) {a : Nat} (ha : a < 0x1000000) (hf : a ∉ faultRegs) :
    (begun s d f h).reg a = s.reg a := by
  have hne (g r : Nat) : a ≠ faceBase d g + r := by unfold faceBase dieBase; omega
  let x := (s.setRun d f h.idx .running).showFace d f
  have hx : x.reg a = s.reg a := showFace_reg _ f fun g => ⟨hne g _, hne g _⟩
  obtain ⟨q, hq⟩ := faceQueues_rest x d f h.idx
  have hqr : (x.faceQueues d f h.idx).reg a = x.reg a := by
    rw [hq]
    rfl
  have htr (y : State) (p : Nat) : (y.capture 1 p).reg a = y.reg a := (Logged.capture y 1 p).reg hf
  exact ((reg_setFld_other _ (hne f _) _ _).trans (htr _ _)).trans (hqr.trans hx)

theorem begun_ringAddr (s : State) (d f : Nat) (h : Held) (oa : Nat) : (begun s d f h).ringAddr oa = s.ringAddr oa := by
  have hhdr : (begun s d f h).hdr = s.hdr := by rw [State.hdr, State.hdr, begun_eng]
  have hmicro : (begun s d f h).gmicro = s.gmicro := pair_of_reg (begun_step s d f h (by decide) (by decide))
    (begun_step s d f h (by decide) (by decide))
  rw [State.ringAddr, State.ringAddr, hhdr, hmicro]

end Sys2Proof.Laws

namespace Sys2Proof.Starting

open Sys2Proof Sys2Proof.Machine Sys2Proof.Laws

/-! ### the tiles of a GEMM -/

/-- The tiles of a GEMM may be dealt anew; all else of it stands. -/
def sameButQueue (g g' : Gemm) : Prop := { g' with queue := [] } = { g with queue := [] }

theorem sameButQueue_trans {a b c : Gemm} (h : sameButQueue a b) (g : sameButQueue b c) : sameButQueue a c := Eq.trans g h
theorem sameButQueue_setWaiting (g : Gemm) (n : Nat) (l : List Nat) : sameButQueue g (g.setWaiting n l) := rfl
theorem sameButQueue_foldl {α : Type} {f : Gemm → α → Gemm} (hf : ∀ g a, sameButQueue g (f g a)) (l : List α) (g : Gemm) :
    sameButQueue g (l.foldl f g) := by
  induction l generalizing g with
  | nil => rfl
  | cons a l ih => exact sameButQueue_trans (hf g a) (ih _)
theorem sameButQueue_dealTiles (live : List Nat) (i : Nat) (l : List Nat) (g : Gemm) : sameButQueue g (dealTiles live i l g) := by
  induction l generalizing i g with
  | nil => rfl
  | cons t l ih => exact sameButQueue_trans (sameButQueue_setWaiting g _ _) (ih _ _)
theorem sameButQueue_reissue (s : State) (d leader i : Nat) (g : Gemm) : sameButQueue g (s.reissue d leader i g) := by
  unfold State.reissue
  extract_lets live dead moved
  split
  · rfl
  · exact sameButQueue_trans (sameButQueue_foldl (fun g n => sameButQueue_setWaiting g n []) dead g) (sameButQueue_dealTiles _ _ _ _)

/-- Tiles dealt anew: the GEMM on the face stands but for its queue, and so do the descriptors held. -/
theorem reissueAll_shows {s : State} {d f : Nat} {g : Gemm} (hg : (s.face d f).gemm = some g) :
    ∃ g', ((s.reissueAll d f).face d f).gemm = some g' ∧ sameButQueue g g' ∧ ((s.reissueAll d f).face d f).held = (s.face d f).held := by
  unfold State.reissueAll
  rw [hg]
  dsimp only
  rw [face_setFace_same]
  exact ⟨_, rfl, sameButQueue_foldl (fun g i => sameButQueue_reissue s d f i g) _ g, rfl⟩

theorem gemmStart_passes {u : State} {d f : Nat} {h : Held}
    (hp : (u.faceSeen d f (u.ringAddr (dIn h.words)) 64).gemmStartFail d f h = none) :
    let v := u.faceSeen d f (u.ringAddr (dIn h.words)) 64
    u.gemmStart d f h = (v.setFace d f { v.face d f with gemm := some (v.gemmOf d f h) }).reissueAll d f := by
  unfold State.gemmStart
  extract_lets v
  rw [hp]

/-! ### attention -/

/-- A face with a ready descriptor holds none that waits for a bench. -/
theorem stalled_of_ready {s : State} {d f : Nat} {h : Held} (hr : s.readyHeld d f = some h) :
    (s.face d f).held.find? (fun h => h.run == .stalled) = none := by
  unfold State.readyHeld at hr
  extract_lets l at hr
  split at hr
  · cases hr
  next hw =>
    refine List.find?_eq_none.2 fun x hx hs => hw (List.any_eq_true.2 ⟨x, hx, ?_⟩)
    rw [beq_iff_eq.1 hs]
    decide

theorem attnStart_ready {s : State} {d f : Nat} {k : DescKind} {h : Held} (hr : readyIs s d f k h)
    (hb : (begun s d f h).attnBenches d f ≠ []) (go : State → AttnJob → Bool → Nat → Nat → State) :
    s.attnStart d f k go = (begun s d f h).attnRun d f h go := by
  have hbe : ¬ ((begun s d f h).attnBenches d f).isEmpty = true := by simpa using hb
  unfold State.attnStart
  rw [stalled_of_ready hr.1]
  exact (descStart_ready hr _).trans (if_neg hbe)

/-- A descriptor of its kind starts on a device that is on. -/
theorem starts {s : State} {d f : Nat} {k : DescKind} {h : Held} (hon : s.boot.on = true) (hr : readyIs s d f k h)
    (go : State → Held → State) : done s (s.descStart d f k go) = .next (queued s (go (begun s d f h) h)) := by
  rw [descStart_ready hr]
  exact done_on hon _
theorem attends {s : State} {d f : Nat} {k : DescKind} {h : Held} (hon : s.boot.on = true) (hr : readyIs s d f k h)
    (hb : (begun s d f h).attnBenches d f ≠ []) (go : State → AttnJob → Bool → Nat → Nat → State) :
    done s (s.attnStart d f k go) = .next (queued s ((begun s d f h).attnRun d f h go)) := by
  rw [attnStart_ready hr hb]
  exact done_on hon _

/-- A GEMM whose header passes stands on its face, and its descriptor runs. -/
theorem gemm_stands (s : State) (d f : Nat) (h : Held)
    (hp : ((begun s d f h).faceSeen d f (s.ringAddr (dIn h.words)) 64).gemmStartFail d f h = none) :
    ∃ g, (((begun s d f h).gemmStart d f h).face d f).gemm = some g ∧
      sameButQueue (((begun s d f h).faceSeen d f (s.ringAddr (dIn h.words)) 64).gemmOf d f h) g ∧
      (((begun s d f h).gemmStart d f h).face d f).held =
        (s.face d f).held.map (fun x => if x.idx = h.idx then { x with run := .running } else x) := by
  have seen := MemSide.faceSeen (begun s d f h) d f (s.ringAddr (dIn h.words)) 64
  rw [← begun_ringAddr s d f h] at hp seen ⊢
  rw [gemmStart_passes hp]
  generalize (begun s d f h).faceSeen d f ((begun s d f h).ringAddr (dIn h.words)) 64 = v at seen ⊢
  have hface : (v.setFace d f { v.face d f with gemm := some (v.gemmOf d f h) }).face d f =
      { v.face d f with gemm := some (v.gemmOf d f h) } := face_setFace_same v d f _
  obtain ⟨g, hg, hq, hheld⟩ := reissueAll_shows (g := v.gemmOf d f h) (congrArg Face.gemm hface)
  refine ⟨g, hg, hq, hheld.trans ?_⟩
  rw [hface, face_congr seen.faces, begun_held]

/-- Settles O7: a descriptor begins (`begun`), and its unit's effect follows. -/
theorem startingADescriptorRunsItsUnit : Obligations.StartingADescriptorRunsItsUnit := by
  unfold Obligations.StartingADescriptorRunsItsUnit
  intro s d f h hon u v
  refine ⟨fun hr => ?_, fun hr => starts hon hr _, fun hr hp => ?_, fun hr => starts hon hr _, fun hr => starts hon hr _,
    fun hr => starts hon hr _, fun hr => starts hon hr _, fun hr hb => attends hon hr hb _, fun hr hb => attends hon hr hb _,
    fun hr hb => attends hon hr hb _⟩
  · refine ⟨_, starts hon hr _, rfl, ?_⟩
    rw [queued_mem, queued_eng, queued_face]
    exact ⟨begun_mem s d.val f.val h, begun_eng s d.val f.val h, begun_held s d.val f.val h⟩
  · obtain ⟨g, hg, hq, hheld⟩ := gemm_stands s d.val f.val h hp
    refine ⟨_, g, starts hon hr _, ?_⟩
    rw [queued_face]
    exact ⟨hg, hq, hheld⟩

end Sys2Proof.Starting
end

section
/-! Column sums of a pass (R35, R37 to R42, R44, R45), and O11. -/

namespace Sys2Proof.Columns

open Sys2Proof Sys2Proof.Machine

/-! ### the top exponent of a tile (R39) -/

/-- The top exponent so far, with one more operand. -/
def topWith (w : Nat) (a : Int) (o : Opd) : Int := if o.spc = 0 ∧ o.u ≠ 0 then max a (o.t + w - 1) else a

theorem tileExp_eq (w : Nat) (rows : List (List Opd)) : tileExp w rows = rows.flatten.foldl (topWith w) (-512) :=
  List.foldl_flatten.symm

theorem le_topWith (w : Nat) (a : Int) (o : Opd) : a ≤ topWith w a o := by
  unfold topWith
  split
  · exact le_max_left _ _
  · exact le_refl a

theorem le_foldl_topWith (w : Nat) (l : List Opd) (a : Int) : a ≤ l.foldl (topWith w) a := by
  induction l generalizing a with
  | nil => exact le_refl a
  | cons o l ih => exact (le_topWith w a o).trans (ih _)

theorem operand_le_foldl_topWith {w : Nat} {l : List Opd} {o : Opd} (ho : o ∈ l) (hs : o.spc = 0) (hu : o.u ≠ 0) (a : Int) :
    o.t + w - 1 ≤ l.foldl (topWith w) a := by
  induction l generalizing a with
  | nil => cases ho
  | cons x l ih =>
    rcases List.mem_cons.1 ho with rfl | ho
    · have h : o.t + w - 1 ≤ topWith w a o := by
        rw [topWith, if_pos ⟨hs, hu⟩]
        exact le_max_right _ _
      exact h.trans (le_foldl_topWith w l _)
    · exact ih ho _

/-- No finite nonzero operand of a tile lies above the tile's exponent. -/
theorem operand_le_tileExp {w : Nat} {rows : List (List Opd)} {r : List Opd} {o : Opd} (hr : r ∈ rows) (ho : o ∈ r) (hs : o.spc = 0)
    (hu : o.u ≠ 0) : o.t + w - 1 ≤ tileExp w rows := by
  rw [tileExp_eq]
  exact operand_le_foldl_topWith (List.mem_flatten.2 ⟨r, hr, ho⟩) hs hu _

/-! ### the slices of a weight (R44) -/

/-- The slices of a significand, each in its place, make it up. -/
theorem sum_slices (u n : Nat) : ((List.range n).map (fun j => bits u (4 * j) 4 * 2 ^ (4 * j))).sum = u % 2 ^ (4 * n) := by
  induction n with
  | zero => simp [Nat.mod_one]
  | succ n ih =>
    have h := @Nat.mod_pow_succ u 16 n
    simp only [show 16 = 2 ^ 4 from rfl, ← pow_mul] at h
    rw [List.range_succ, List.map_append, List.sum_append, ih, h]
    simp [bits, Nat.mul_comm]

/-! ### one sett (R35, R37, R41) -/

/-- An offset below 63 is the distance of the exponents. -/
theorem offset_exact {top e : Int} (h : e ≤ top) (hlt : offset top e < 63) : (offset top e : Int) = top - e := by
  unfold offset at hlt ⊢
  omega

/-- A shift that drops no bit multiplies by its power of two. -/
theorem shl_exact {m : Nat} {k : Int} (h : k < 0 → m % 2 ^ (-k).toNat = 0) : (shl m k : ℚ) = m * (2 : ℚ) ^ k := by
  unfold shl
  split
  next hk =>
    obtain ⟨n, rfl⟩ := Int.eq_ofNat_of_zero_le hk
    simp
  next hk =>
    obtain ⟨n, hn⟩ := Int.eq_ofNat_of_zero_le (show 0 ≤ -k by omega)
    have hd := Nat.dvd_of_mod_eq_zero (h (by omega))
    rw [Nat.cast_div hd (by positivity), hn, show k = -(n : Int) by omega]
    simp [div_eq_mul_inv]

theorem shl_le (m : Nat) (k : Int) (n : Nat) (h : k ≤ n) : shl m k ≤ m * 2 ^ n := by
  unfold shl
  split
  · exact Nat.mul_le_mul_left _ (Nat.pow_le_pow_right (by decide) (by omega))
  · exact (Nat.div_le_self _ _).trans (Nat.le_mul_of_pos_right _ (by positivity))

/-- What is added for a product of opposite signs is negative. -/
def signed (neg : Bool) (v : Nat) : Int := if neg then -v else v

theorem abs_signed (neg : Bool) (v : Nat) : |signed neg v| = v := by
  cases neg <;> simp [signed]

theorem cast_signed (neg : Bool) (v : Nat) : (signed neg v : ℚ) = (if neg then -1 else 1) * v := by
  cases neg <;> simp [signed]

section

variable (wa jn j : Nat) (aexp wexp : Int) (a w : Opd)

/-- The product of an activation's significand with slice j of a weight's. -/
def sliceMag : Nat := a.u * bits w.u (4 * j) 4

/-- The shift of slice j's product into the window. -/
def sliceShift : Int :=
  44 - wa - offset aexp (a.t + wa - 1) - offset (wexp + 4 * (jn - 1 - j : Nat)) (w.t + 4 * jn - 1)

/-- What slice j adds to its column for one product, in window units. -/
def sliceAdd : Int := (settAdd wa aexp a (settOf jn j wexp w)).1

variable {wa jn j aexp wexp a w}

theorem settAdd_finite (ha : a.spc = 0) (hw : w.spc = 0) (hu : a.u ≠ 0) : settAdd wa aexp a (settOf jn j wexp w) =
    (signed (a.neg != w.neg) (if offset aexp (a.t + wa - 1) = 63 then 0 else shl (sliceMag j a w) (sliceShift wa jn j aexp wexp a w)),
     decide (sliceShift wa jn j aexp wexp a w < 0) &&
       sliceMag j a w % 2 ^ (-sliceShift wa jn j aexp wexp a w).toNat != 0) := by
  have h : ¬ (a.spc ≠ 0 ∨ (settOf jn j wexp w).wspc ≠ 0 ∨ a.u = 0) := by
    simp [settOf, ha, hw, hu]
  unfold settAdd
  rw [if_neg h]
  rfl

theorem settAdd_zero (hu : a.u = 0) (x : Sett) : settAdd wa aexp a x = (0, false) := by
  unfold settAdd
  rw [if_pos (.inr (.inr hu))]

theorem sliceMag_lt (hu : a.u < 2 ^ wa) : sliceMag j a w < 2 ^ (wa + 4) := by
  rw [sliceMag, pow_add]
  exact Nat.mul_lt_mul'' hu (Laws.bits_lt _ _ 4)

/-- A sett adds less than 2^48 window units. -/
theorem abs_sliceAdd_le (hwa : wa ≤ 16) (hsa : a.spc = 0) (hsw : w.spc = 0) (hu : a.u < 2 ^ wa) :
    |sliceAdd wa jn j aexp wexp a w| ≤ 2 ^ 48 := by
  have hmag : sliceMag j a w * 2 ^ (44 - wa) ≤ 2 ^ 48 := by
    calc sliceMag j a w * 2 ^ (44 - wa) ≤ 2 ^ (wa + 4) * 2 ^ (44 - wa) := Nat.mul_le_mul_right _ (sliceMag_lt hu).le
      _ = 2 ^ 48 := by rw [← pow_add]; congr 1; omega
  have hshl := (shl_le (sliceMag j a w) (sliceShift wa jn j aexp wexp a w) (44 - wa) (by unfold sliceShift; omega)).trans hmag
  by_cases h0 : a.u = 0
  · simp [sliceAdd, settAdd_zero h0]
  · rw [sliceAdd, settAdd_finite hsa hsw h0, abs_signed]
    split
    · norm_num
    · exact_mod_cast hshl

/-- A shift that loses no bit of a product that is not 0 keeps both offsets below their saturation. -/
theorem offsets_lt (hu : a.u < 2 ^ wa) (h0 : sliceMag j a w ≠ 0)
    (hk : sliceShift wa jn j aexp wexp a w < 0 → sliceMag j a w % 2 ^ (-sliceShift wa jn j aexp wexp a w).toNat = 0) :
    offset aexp (a.t + wa - 1) < 63 ∧ offset (wexp + 4 * (jn - 1 - j : Nat)) (w.t + 4 * jn - 1) < 63 := by
  have hlow : -(wa + 4 : Int) < sliceShift wa jn j aexp wexp a w := by
    by_contra hc
    have hpow : 2 ^ (wa + 4) ≤ 2 ^ (-sliceShift wa jn j aexp wexp a w).toNat := Nat.pow_le_pow_right (by decide) (by omega)
    have hmod := hk (by omega)
    rw [Nat.mod_eq_of_lt ((sliceMag_lt hu).trans_le hpow)] at hmod
    exact h0 hmod
  unfold sliceShift at hlow
  omega

/-- What a slice adds that loses no bits: its part of the product, exactly. -/
theorem sliceAdd_exact (hj : j < jn) (hsa : a.spc = 0) (hsw : w.spc = 0) (hu : a.u < 2 ^ wa)
    (hae : a.u ≠ 0 → a.t + wa - 1 ≤ aexp) (hwe : w.u ≠ 0 → w.t + (4 * jn : Nat) - 1 ≤ wexp)
    (hl : (settAdd wa aexp a (settOf jn j wexp w)).2 = false) :
    (sliceAdd wa jn j aexp wexp a w : ℚ) * 2 ^ (aexp + wexp - 46) =
      (if a.neg != w.neg then -1 else 1) * a.u * (bits w.u (4 * j) 4 * 2 ^ (4 * j) : Nat) * 2 ^ (a.t + w.t) := by
  by_cases h0 : a.u = 0
  · simp [sliceAdd, settAdd_zero h0, h0]
  rw [settAdd_finite hsa hsw h0] at hl
  have hk : sliceShift wa jn j aexp wexp a w < 0 → sliceMag j a w % 2 ^ (-sliceShift wa jn j aexp wexp a w).toNat = 0 := by
    simpa using hl
  rw [sliceAdd, settAdd_finite hsa hsw h0]
  by_cases hm : sliceMag j a w = 0
  · have hb : bits w.u (4 * j) 4 = 0 := (Nat.mul_eq_zero.1 hm).resolve_left h0
    simp [hm, hb, shl, signed]
  obtain ⟨hda, hdw⟩ := offsets_lt hu hm hk
  have hwu : w.u ≠ 0 := fun h => hm (by simp [sliceMag, bits, h])
  have hexp : sliceShift wa jn j aexp wexp a w + (aexp + wexp - 46) = (4 * j : Nat) + (a.t + w.t) := by
    have h1 := offset_exact (hae h0) hda
    have h2 := offset_exact (top := wexp + 4 * (jn - 1 - j : Nat)) (e := w.t + 4 * jn - 1) (by have := hwe hwu; omega) hdw
    unfold sliceShift
    omega
  have hval : (shl (sliceMag j a w) (sliceShift wa jn j aexp wexp a w) : ℚ) * 2 ^ (aexp + wexp - 46) =
      a.u * (bits w.u (4 * j) 4 * 2 ^ (4 * j) : Nat) * 2 ^ (a.t + w.t) := by
    rw [shl_exact hk, mul_assoc, ← zpow_add₀ two_ne_zero, hexp, zpow_add₀ two_ne_zero, zpow_natCast, sliceMag]
    push_cast
    ring
  rw [if_neg (by omega), cast_signed, mul_assoc, hval]
  ring

end

/-! ### a column (R42, R45) -/

theorem foldl_add_eq_sum {α : Type} (f : α → Int) (l : List α) : l.foldl (fun c x => c + f x) 0 = (l.map f).sum := by
  rw [List.sum_eq_foldl, List.foldl_map]

/-- Up to 32 products never saturate a column sum. -/
theorem sat56_column {l : List Int} (hl : l.length ≤ 32) (h : ∀ x ∈ l, |x| ≤ 2 ^ 48) : sat56 l.sum = l.sum := by
  have hup : l.sum ≤ l.length • (2 ^ 48) := List.sum_le_card_nsmul l _ fun x hx => (abs_le.1 (h x hx)).2
  have hlo : l.length • (-2 ^ 48) ≤ l.sum := List.card_nsmul_le_sum l _ fun x hx => (abs_le.1 (h x hx)).1
  rw [nsmul_eq_mul] at hup hlo
  unfold sat56
  rw [if_neg (by omega), if_neg (by omega)]

/-- Sums over two lists may be exchanged. -/
theorem sum_map_sum_comm {α β : Type} (f : α → β → ℚ) (l : List α) (m : List β) :
    (l.map (fun a => (m.map (f a)).sum)).sum = (m.map (fun b => (l.map (fun a => f a b)).sum)).sum := by
  simpa using Multiset.sum_map_sum_map (l : Multiset α) (m : Multiset β) (f := f)

section

variable {wa jn : Nat} {aexp wexp : Int} {prods : List (Opd × Opd)}

/-- With up to 32 finite products, a joined column is the plain sum over slices and products. -/
theorem joinSum_eq (hwa : wa ≤ 16) (hn : prods.length ≤ 32)
    (hp : ∀ p ∈ prods, p.1.spc = 0 ∧ p.1.u < 2 ^ wa ∧ p.2.spc = 0) :
    joinSum wa jn aexp wexp prods =
      ((List.range jn).map (fun j => (prods.map (fun p => sliceAdd wa jn j aexp wexp p.1 p.2)).sum)).sum := by
  unfold joinSum
  rw [foldl_add_eq_sum]
  refine congrArg List.sum (List.map_congr_left fun j _ => ?_)
  rw [foldl_add_eq_sum]
  refine sat56_column (by simpa using hn) fun x hx => ?_
  obtain ⟨p, hpm, rfl⟩ := List.mem_map.1 hx
  obtain ⟨hsa, hu, hsw⟩ := hp p hpm
  exact abs_sliceAdd_le hwa hsa hsw hu

theorem lostCount_zero (h : lostCount wa jn aexp wexp prods = 0) {p : Opd × Opd} (hp : p ∈ prods) {j : Nat} (hj : j < jn) :
    (settAdd wa aexp p.1 (settOf jn j wexp p.2)).2 = false := by
  unfold lostCount at h
  have hnone := List.filter_eq_nil_iff.1 (List.length_eq_zero_iff.1 h) p hp
  simp only [List.any_eq_true, not_exists, not_and, Bool.not_eq_true] at hnone
  exact hnone j (List.mem_range.2 hj)

end

/-- The slices of a product that loses no bits add up to the product. -/
theorem sum_sliceAdd {wa jn : Nat} {aexp wexp : Int} {a w : Opd} (hsa : a.spc = 0) (hsw : w.spc = 0) (hua : a.u < 2 ^ wa)
    (huw : w.u < 2 ^ (4 * jn)) (hae : a.u ≠ 0 → a.t + wa - 1 ≤ aexp) (hwe : w.u ≠ 0 → w.t + (4 * jn : Nat) - 1 ≤ wexp)
    (hl : ∀ j < jn, (settAdd wa aexp a (settOf jn j wexp w)).2 = false) :
    ((List.range jn).map (fun j => (sliceAdd wa jn j aexp wexp a w : ℚ) * 2 ^ (aexp + wexp - 46))).sum = prodRat a w := by
  have hparts : (((List.range jn).map (fun j => bits w.u (4 * j) 4 * 2 ^ (4 * j))).sum : ℚ) = w.u := by
    rw [sum_slices, Nat.mod_eq_of_lt huw]
  have hj : ∀ j ∈ List.range jn, (sliceAdd wa jn j aexp wexp a w : ℚ) * 2 ^ (aexp + wexp - 46) =
      (bits w.u (4 * j) 4 * 2 ^ (4 * j) : Nat) * ((if a.neg != w.neg then -1 else 1) * a.u * 2 ^ (a.t + w.t)) := fun j hj => by
    have hlt := List.mem_range.1 hj
    rw [sliceAdd_exact hlt hsa hsw hua hae hwe (hl j hlt)]
    ring
  rw [Nat.cast_list_sum, List.map_map] at hparts
  rw [List.map_congr_left hj, List.sum_map_mul_right]
  refine (congrArg (· * _) hparts).trans ?_
  rw [prodRat]
  ring

/-- Settles O11: a slice's share of a product that loses no bits is exact (`sliceAdd_exact`), no column of 32 saturates (`joinSum_eq`),
and the sums over slices and products exchange. -/
theorem columnSumsAreExactWithoutLostBits : Obligations.ColumnSumsAreExactWithoutLostBits := by
  unfold Obligations.ColumnSumsAreExactWithoutLostBits
  intro wa jn acts wts a w hwa _ ha hw hlen hfa hfw aexp wexp prods hlost
  have hp : ∀ p ∈ prods, p.1 ∈ a ∧ p.2 ∈ w := fun p hp => List.of_mem_zip hp
  have hn : prods.length ≤ 32 := by
    rw [List.length_zip]
    exact (Nat.min_le_left _ _).trans hlen
  have hprod : ∀ p ∈ prods, ((List.range jn).map (fun j => (sliceAdd wa jn j aexp wexp p.1 p.2 : ℚ) *
      2 ^ (aexp + wexp - 46))).sum = prodRat p.1 p.2 := fun p hpm => by
    obtain ⟨h1, h2⟩ := hp p hpm
    obtain ⟨hsa, hua⟩ := hfa p.1 h1
    obtain ⟨hsw, huw⟩ := hfw p.2 h2
    exact sum_sliceAdd hsa hsw hua huw (operand_le_tileExp ha h1 hsa) (operand_le_tileExp hw h2 hsw)
      fun j hj => lostCount_zero hlost hpm hj
  rw [joinSum_eq hwa hn fun p hpm => ⟨(hfa _ (hp p hpm).1).1, (hfa _ (hp p hpm).1).2, (hfw _ (hp p hpm).2).1⟩,
    ← List.map_congr_left hprod, ← sum_map_sum_comm]
  simp only [Int.cast_list_sum, List.map_map, Function.comp_def, List.sum_map_mul_right]

end Sys2Proof.Columns
end

section
/-! The tiles of a GEMM as they are dealt to benches (R68, R70), and O9. -/

namespace Sys2Proof.Tiles

open Sys2Proof Sys2Proof.Machine

/-- Bench n's tiles as a GEMM of `tiles` tiles is dealt to nb benches: every nb-th tile from n on. -/
def dealt (tiles nb n : Nat) : List Nat := (List.range (ceilDiv (tiles - n) nb)).map (fun j => n + j * nb)

theorem gemmOf_queue (s : State) (d f : Nat) (h : Held) : (s.gemmOf d f h).queue =
    (List.range (16 * gangSize (s.gangMap d) f)).map
      (fun n => (n, dealt (s.gemmOf d f h).tiles (16 * gangSize (s.gangMap d) f) n)) := rfl

theorem lt_ceilDiv {j m k : Nat} (hk : 0 < k) : j < ceilDiv m k ↔ j * k < m := by
  rw [ceilDiv, Nat.lt_iff_add_one_le, Nat.le_div_iff_mul_le hk, Nat.add_mul]
  omega

/-- A tile is bench n's when it is a tile and falls on n. -/
theorem mem_dealt {tiles nb n t : Nat} (hn : n < nb) : t ∈ dealt tiles nb n ↔ t < tiles ∧ t % nb = n := by
  have hnb : 0 < nb := Nat.zero_lt_of_lt hn
  simp only [dealt, List.mem_map, List.mem_range, lt_ceilDiv hnb]
  constructor
  · rintro ⟨j, hj, rfl⟩
    exact ⟨by omega, by rw [Nat.add_mul_mod_self_right, Nat.mod_eq_of_lt hn]⟩
  · rintro ⟨ht, rfl⟩
    have hdiv := Nat.mod_add_div' t nb
    exact ⟨t / nb, by omega, hdiv⟩

theorem dealt_rises {tiles nb n : Nat} (hnb : 0 < nb) : (dealt tiles nb n).Pairwise (· < ·) :=
  List.pairwise_map.2 (List.pairwise_lt_range.imp fun h => Nat.add_lt_add_left (Nat.mul_lt_mul_of_pos_right h hnb) n)

/-- What is listed for key n among the keys below nb. -/
theorem find_keyed {α : Type} (v : Nat → α) {n nb : Nat} (h : n < nb) :
    ((List.range nb).map (fun m => (m, v m))).find? (fun e => e.1 == n) = some (n, v n) := by
  have hfind : (List.range nb).find? (fun m => m == n) = some n :=
    List.find?_range_eq_some.2 ⟨beq_self_eq_true n, List.mem_range.2 h, fun m hm => by simp [hm.ne]⟩
  rw [List.find?_map]
  simp only [Function.comp_def, hfind, Option.map_some]

/-- The tiles that wait for a bench of the gang as the GEMM starts. -/
theorem gemmOf_waiting {s : State} {d f n : Nat} (h : Held) (hn : n < 16 * gangSize (s.gangMap d) f) :
    (s.gemmOf d f h).waiting n = dealt (s.gemmOf d f h).tiles (16 * gangSize (s.gangMap d) f) n := by
  rw [Gemm.waiting, gemmOf_queue, find_keyed _ hn]
  rfl

/-- Settles O9: the tiles that wait for bench n are every nb-th from n on. -/
theorem gemmTilesAreDealtOncePerBench : Obligations.GemmTilesAreDealtOncePerBench := by
  unfold Obligations.GemmTilesAreDealtOncePerBench
  intro s d f h n t _ hn g
  rw [gemmOf_waiting h hn]
  exact ⟨mem_dealt hn, dealt_rises (Nat.zero_lt_of_lt hn)⟩

end Sys2Proof.Tiles
end

section
/-! SUPPORT. The records of benches, and what their registers show (R51, R56, R68): which operations touch registers only, and which only
count. -/

namespace Sys2Proof.Laws

open Sys2Proof Sys2Proof.Machine

/-! ### records -/

theorem bench_setBench_same (s : State) (d f b : Nat) (x : Bench) : (s.setBench d f b x).bench d f b = x := mapGet_set_same _ _ _ _
theorem bench_congr {s t : State} (h : t.benches = s.benches) (d f b : Nat) : t.bench d f b = s.bench d f b := by
  rw [State.bench, State.bench, h]
theorem queued_bench (s t : State) (d f b : Nat) : (queued s t).bench d f b = t.bench d f b := rfl
theorem queued_flag (s t : State) (a : Nat) (f : Fld) : (queued s t).flag a f = t.flag a f := rfl
theorem MemSide.benches {s t : State} (h : MemSide s t) : t.benches = s.benches := by rw [h.rest]
theorem MemSide.facesSeen (s : State) (d f : Nat) (l : List (Nat × Nat)) : MemSide s (s.facesSeen d f l) :=
  .foldl (fun s _ _ => .faceSeen s d f _ _) s

/-! ### registers that show a bench -/

theorem onlyRegs_showBench (s : State) (d f b : Nat) : onlyRegs s (s.showBench d f b) :=
  onlyRegs_trans (onlyRegs_trans (onlyRegs_trans (onlyRegs_trans (onlyRegs_setFld s _ _ _) (onlyRegs_setFlag _ _ _ _))
    (onlyRegs_setFlag _ _ _ _)) (onlyRegs_setFld _ _ _ _)) (onlyRegs_setFlag _ _ _ _)
theorem showBench_regs (s : State) (d f b : Nat) : regsKept s (s.showBench d f b) [BENCH_STAT d f b] := by
  have kept (t : State) (v : Nat) : regsKept t (t.setReg (BENCH_STAT d f b) v) [BENCH_STAT d f b] :=
    regsKept_setReg t List.mem_cons_self v
  exact regsKept_trans (regsKept_trans (regsKept_trans (regsKept_trans (kept s _) (kept _ _)) (kept _ _)) (kept _ _)) (kept _ _)
theorem onlyRegs_showPass (s : State) (d f b w : Nat) : onlyRegs s (s.showPass d f b w) :=
  onlyRegs_trans (onlyRegs_setReg s _ _) (onlyRegs_setReg _ _ _)
theorem onlyRegs_showShadow (s : State) (d f : Nat) : onlyRegs s (s.showShadow d f) := onlyRegs_setFlag s _ _ _
theorem showShadow_regs (s : State) (d f : Nat) : regsKept s (s.showShadow d f) [AS_STAT d f] :=
  regsKept_setReg s List.mem_cons_self _

theorem onlyRegs_showBench_showShadow (s : State) (d f b : Nat) : onlyRegs s ((s.showBench d f b).showShadow d f) :=
  onlyRegs_trans (onlyRegs_showBench s d f b) (onlyRegs_showShadow _ d f)

/-! ### counting -/

/-- Memory and the benches stand, and of the registers all but those listed. -/
structure Counted (l : List Nat) (s t : State) : Prop where
  mem : t.mem = s.mem
  benches : t.benches = s.benches
  regs : regsKept s t l

namespace Counted

variable {l : List Nat} {s t u : State}

theorem refl (s : State) : Counted l s s := ⟨rfl, rfl, regsKept_refl s l⟩
theorem trans (h : Counted l s t) (g : Counted l t u) : Counted l s u :=
  ⟨g.mem.trans h.mem, g.benches.trans h.benches, regsKept_trans h.regs g.regs⟩
theorem ite {p : Prop} [Decidable p] (h : p → Counted l s t) (g : ¬p → Counted l s u) : Counted l s (if p then t else u) := by
  split
  · exact h ‹_›
  · exact g ‹_›
theorem of_onlyRegs (h : onlyRegs s t) (hr : regsKept s t l) : Counted l s t := ⟨onlyRegs_mem h, onlyRegs_benches h, hr⟩
theorem setReg (s : State) {a : Nat} (h : a ∈ l) (v : Nat) : Counted l s (s.setReg a v) :=
  .of_onlyRegs (onlyRegs_setReg s a v) (regsKept_setReg s h v)
theorem bump (s : State) {a : Nat} (h : a ∈ l) (h4 : a + 4 ∈ l) (n : Nat) : Counted l s (s.bump a n) :=
  (setReg s h _).trans (setReg _ h4 _)
theorem wake (s : State) (n : Nat) : Counted l s (s.wake n) := ⟨rfl, rfl, regsKept_refl s l⟩
theorem setFace (s : State) (d f : Nat) (x : Face) : Counted l s (s.setFace d f x) := ⟨rfl, rfl, regsKept_refl s l⟩
theorem noteQueue (s : State) (g i o : Nat) : Counted l s (s.noteQueue g i o) := ⟨rfl, rfl, regsKept_refl s l⟩

/-- The assay record of a face. -/
theorem faceRec {d f : Nat} (h : [AS_STAT d f, AS_ELEMS_LO d f, AS_ELEMS_LO d f + 4] ⊆ l) (s : State) (r : AssayRec) :
    Counted l s (s.faceRec d f r) := by
  simp only [List.cons_subset, List.nil_subset, and_true] at h
  obtain ⟨hs, hlo, hhi⟩ := h
  exact .ite (fun _ => refl s) fun _ =>
    ((((setFace s d f _).trans (setReg _ hs _)).trans (noteQueue _ _ _ _)).trans (bump _ hlo hhi _)).trans (wake _ _)

/-- The counters of a pass (R51, R56). -/
theorem countPass {d f b : Nat} (h : [BENCH_PASS_LO d f b, BENCH_PASS_LO d f b + 4, BENCH_FENCE_LO d f b, BENCH_FENCE_LO d f b + 4,
    BENCH_FENCE_CYC_LO d f b, BENCH_FENCE_CYC_LO d f b + 4] ⊆ l) (s : State) (x : Bench) (i r : Nat) :
    Counted l s (s.countPass d f b x i r) := by
  simp only [List.cons_subset, List.nil_subset, and_true] at h
  obtain ⟨hp, hp4, hf, hf4, hc, hc4⟩ := h
  have passed := (bump s hp hp4 1).trans (wake _ ((64 * d + f) * 16 + b))
  exact .ite (fun _ => (passed.trans (bump _ hf hf4 _)).trans (bump _ hc hc4 _)) (fun _ => passed)

end Counted

end Sys2Proof.Laws
end

section
/-! Passes enter and leave a bench (R41, R47, R51, R59, R63, R70), and O12. -/

namespace Sys2Proof.Passes

open Sys2Proof Sys2Proof.Machine Sys2Proof.Laws

/-! ### PASS_ACCEPT -/

/-- The stages of the bench are full: the pass's tiles are read, and an uncorrectable word of them is reported. -/
def filled (s : State) (d f : Nat) (g : Gemm) (t kp word : Nat) : State :=
  (s.facesSeen d f (s.passReads d f g t kp)).draw.2.stageFault d f word

theorem passAccept_takes {s : State} {d f b t k : Nat} {g g' : Gemm} (hg : (s.face d (gangLeader (s.gangMap d) f)).gemm = some g)
    (hn : s.nextPass d f b g = some (t, k, g')) (ht : s.takes d f b = true) (hl : (s.bench d f b).passes.length < 2)
    (hr : ∀ r ∈ s.passReads d f g' t k, s.awaits d f r = false) (word : Nat) :
    s.passAccept d f b word = s.takePass d f b g' t k word := by
  have hstored : ¬ (s.passReads d f g' t k).any (s.awaits d f) = true := by simpa using hr
  unfold State.passAccept
  rw [hg]
  dsimp only
  rw [if_neg (by simp [ht, hl]), hn]
  exact if_neg hstored

theorem stageFault_sound {word : Nat} (h : wordUe word = false) (s : State) (d f : Nat) : s.stageFault d f word = s := by
  unfold State.stageFault
  rw [h]
  rfl

/-- K-pass k of tile t as a bench takes it; `n` numbers it. -/
def taken (v : State) (d f b : Nat) (g : Gemm) (t k n : Nat) : Pass :=
  v.passOf d f g t k (v.fld (BENCH_CUR d f b) BENCH_CUR_PTAG + 1) n

/-- A pass that is taken stands last on its bench, whose tile stays until its last K-pass. -/
theorem takePass_shows (s : State) (d f b : Nat) (g : Gemm) (t k word : Nat) :
    let v := filled s d f g t k word
    let p := taken v d f b g t k (s.facesSeen d f (s.passReads d f g t k)).freeN
    let l := gangLeader (s.gangMap d) f
    ∃ x, s.takePass d f b g t k word =
        (((v.setFace d l { v.face d l with gemm := some g }).setBench d f b x).showPass d f b p.instr).showBench d f b ∧
      x.passes = (v.bench d f b).passes ++ [{ p with bad := p.bad || wordUe word || wordPoison word }] ∧
      x.tile = if k + 1 == g.kcnt / 32 then none else some t :=
  ⟨_, rfl, rfl, rfl⟩

/-- What a bench shows after a pass was put on it. -/
theorem shown_onBench (s : State) (d f b l : Nat) (y : Face) (x : Bench) (i : Nat) :
    let u := (((s.setFace d l y).setBench d f b x).showPass d f b i).showBench d f b
    u.bench d f b = x ∧ u.face d l = y ∧ u.mem = s.mem := by
  have h := onlyRegs_trans (onlyRegs_showPass ((s.setFace d l y).setBench d f b x) d f b i) (onlyRegs_showBench _ d f b)
  exact ⟨(bench_congr (onlyRegs_benches h) d f b).trans (bench_setBench_same _ d f b x),
    (face_congr (onlyRegs_faces h) d l).trans (face_setFace_same s d l y), (onlyRegs_mem h).trans rfl⟩

/-- What a pass taken leaves on its bench, its GEMM and memory. -/
theorem takePass_leaves {s v : State} {d f b : Nat} {g : Gemm} {t k word : Nat} (hv : filled s d f g t k word = v) :
    let p := taken v d f b g t k (s.facesSeen d f (s.passReads d f g t k)).freeN
    let u := s.takePass d f b g t k word
    (u.bench d f b).passes = (v.bench d f b).passes ++ [{ p with bad := p.bad || wordUe word || wordPoison word }] ∧
      (u.bench d f b).tile = (if k + 1 = g.kcnt / 32 then none else some t) ∧
      (u.face d (gangLeader (s.gangMap d) f)).gemm = some g ∧ u.mem = v.mem := by
  obtain ⟨x, he, hp, htile⟩ := takePass_shows s d f b g t k word
  rw [hv] at he hp
  intro p u
  obtain ⟨hbench, hface, hmem⟩ := shown_onBench v d f b (gangLeader (s.gangMap d) f)
    { v.face d (gangLeader (s.gangMap d) f) with gemm := some g } x p.instr
  rw [← he] at hbench hface hmem
  have hb : u.bench d f b = x := hbench
  rw [hb, hp, htile]
  exact ⟨rfl, by simp only [beq_iff_eq], congrArg Face.gemm hface, hmem⟩

/-- A sound word leaves nothing between the reads and the pass. -/
theorem passAccept_shows {s : State} {d f b t k word : Nat} {g g' : Gemm}
    (hg : (s.face d (gangLeader (s.gangMap d) f)).gemm = some g) (hn : s.nextPass d f b g = some (t, k, g'))
    (ht : s.takes d f b = true) (hl : (s.bench d f b).passes.length < 2) (hw : wordUe word = false)
    (hr : ∀ r ∈ s.passReads d f g' t k, s.awaits d f r = false) :
    let v := s.facesSeen d f (s.passReads d f g' t k)
    let p := taken v.draw.2 d f b g' t k v.draw.1
    let u := s.passAccept d f b word
    (u.bench d f b).passes = (s.bench d f b).passes ++ [{ p with bad := p.bad || wordPoison word }] ∧
      (u.bench d f b).tile = (if k + 1 = g'.kcnt / 32 then none else some t) ∧
      (u.face d (gangLeader (s.gangMap d) f)).gemm = some g' ∧ u.mem = v.mem := by
  have hfilled : filled s d f g' t k word = (s.facesSeen d f (s.passReads d f g' t k)).draw.2 := stageFault_sound hw _ d f
  obtain ⟨hpasses, htile, hgemm, hmem⟩ := takePass_leaves (b := b) hfilled
  have hx : (s.facesSeen d f (s.passReads d f g' t k)).draw.2.bench d f b = s.bench d f b :=
    bench_congr (MemSide.facesSeen s d f _).benches d f b
  intro v p u
  rw [show u = s.takePass d f b g' t k word from passAccept_takes hg hn ht hl hr word, hpasses, hx, hw, Bool.or_false]
  exact ⟨rfl, htile, hgemm, hmem⟩

/-! ### SIDE_LANE_START -/

/-- The side lane changes a pass of the bench and counts its outliers. -/
theorem sideStart_starts {s : State} {d f b : Nat} {p : Pass}
    (h : (s.bench d f b).passes.find? (fun p => bit p.instr 15 && p.lane.isNone) = some p) (c : Nat) :
    ∃ x, s.sideStart d f b c = (s.setBench d f b x).bump (BENCH_SIDE_LO d f b) (p.outl.map List.length).sum ∧
      x.passes.length = (s.bench d f b).passes.length := by
  have hn : p.outl.foldl (fun n l => n + l.length) 0 = (p.outl.map List.length).sum := by
    rw [List.sum_eq_foldl, List.foldl_map]
  unfold State.sideStart
  extract_lets x
  rw [h]
  dsimp only
  rw [hn]
  exact ⟨_, rfl, Completion.mapFirst_length _ _ _⟩

theorem pair_setBench (s : State) (d f b : Nat) (x : Bench) (a : Nat) : (s.setBench d f b x).pair a = s.pair a := rfl
theorem reg_setBench (s : State) (d f b : Nat) (x : Bench) (a : Nat) : (s.setBench d f b x).reg a = s.reg a := rfl

theorem sideStart_shows {s : State} {d f b : Nat} {p : Pass}
    (h : (s.bench d f b).passes.find? (fun p => bit p.instr 15 && p.lane.isNone) = some p) (c : Nat) :
    let u := s.sideStart d f b c
    u.pair (BENCH_SIDE_LO d f b) = (s.pair (BENCH_SIDE_LO d f b) + (p.outl.map (fun l => l.length)).sum) % 2 ^ 64 ∧
      (u.bench d f b).passes.length = (s.bench d f b).passes.length ∧
      regsKept s u [BENCH_SIDE_LO d f b, BENCH_SIDE_LO d f b + 4] := by
  obtain ⟨x, he, hlen⟩ := sideStart_starts h c
  intro u
  have hu : u = _ := he
  rw [hu, Completion.pair_bump_same, pair_setBench, bench_congr (State.bump_benches _ _ _), bench_setBench_same]
  refine ⟨rfl, hlen, fun a ha => ?_⟩
  rw [regsKept_bump _ (by simp) (by simp) _ a ha, reg_setBench]

/-! ### PASS_WAVE0 -/

/-- A row without outliers has no correction to wait for. -/
theorem row_none_fates (r : RowRun) (duty j : Nat) : (r.row duty j 0).fates = r.fates ++ [none] := rfl

theorem rows_none_fates {α : Type} (duty j : Nat) (l : List α) (r : RowRun) (h : ∀ x ∈ r.fates, x = none) :
    ∀ x ∈ (l.foldl (fun r _ => r.row duty j 0) r).fates, x = none := by
  induction l generalizing r with
  | nil => exact h
  | cons a l ih =>
    refine ih _ fun x hx => ?_
    rw [row_none_fates, List.mem_append, List.mem_singleton] at hx
    exact hx.elim (h x) id

/-- The run of a pass through its rows, from its bench's timing on. -/
def rowRun (s : State) (x : Bench) (p : Pass) (c : Nat) : RowRun :=
  p.outl.foldl (fun r l => r.row s.duty (joinOf (fmtAt (bits p.instr 6 4))) (if bit p.instr 15 then l.length else 0))
    ⟨x.afterFence s.duty p.instr c, max x.laneAt (p.lane.getD 0), x.comps, x.frees, x.port, 0, []⟩

theorem rowRun_fates (s : State) (x : Bench) {p : Pass} (h : bit p.instr 15 = false) (c r : Nat) :
    (rowRun s x p c).fates.getD r none = none := by
  have hall : ∀ y ∈ (rowRun s x p c).fates, y = none := by
    unfold rowRun
    rw [h]
    exact rows_none_fates _ _ _ _ (by simp)
  rcases lt_or_ge r (rowRun s x p c).fates.length with hr | hr
  · rw [List.getD_eq_getElem _ _ hr]
    exact hall _ (List.getElem_mem hr)
  · exact List.getD_eq_default _ _ hr

/-- A row of accumulators with the pass's sums added, rounded to nearest even (R59). -/
def addedRow (first : Bool) (acc sums : List (List Nat)) (r : Nat) : List Nat :=
  let v := sums.getD r []
  ((if first then v.map (fun _ => 0) else acc.getD r []).zip v).map (fun e => d6Add .ne e.1 e.2)

theorem foldl_append_map {α β γ : Type} (f : α → β) (l : List α) (a : List β) (c : γ) :
    l.foldl (fun (x : List β × γ) r => (x.1 ++ [f r], x.2)) (a, c) = (a ++ l.map f, c) := by
  induction l generalizing a with
  | nil => simp
  | cons r l ih => rw [List.foldl_cons, ih]; simp

theorem map_zip_range {α β γ : Type} (f : α → β → γ) (a : List α) (b : List β) :
    ((a.zip b).zip (List.range b.length)).map (fun e => f e.1.1 e.1.2) = (a.zip b).map (fun e => f e.1 e.2) := by
  have hfst : ((a.zip b).zip (List.range b.length)).map Prod.fst = a.zip b := List.map_fst_zip (by simp)
  calc ((a.zip b).zip (List.range b.length)).map (fun e => f e.1.1 e.1.2)
      = (((a.zip b).zip (List.range b.length)).map Prod.fst).map (fun e => f e.1 e.2) := by rw [List.map_map]; rfl
    _ = _ := by rw [hfst]

/-- Rows without corrections, rounded to nearest even: each accumulator gets its sum, and nothing is late. -/
theorem drainRows_plain (s : State) {g : Gemm} (hg : bit g.w0 12 = false) (p : Pass) (acc sums : List (List Nat))
    {fates : List (Option Bool)} (hf : ∀ r, fates.getD r none = none) :
    s.drainRows g p acc sums fates = ((List.range (g.rows p.tile)).map (addedRow (bit p.instr 13) acc sums), []) := by
  unfold State.drainRows
  simp only [hf, hg, Bool.false_eq_true, if_false, reduceCtorEq, decide_false, Bool.false_and, map_zip_range (d6Add .ne)]
  exact foldl_append_map (addedRow (bit p.instr 13) acc sums) _ [] []

/-- The sums of a pass and its truncations. -/
abbrev sumsOf (p : Pass) : List (List Nat) × Nat :=
  passSums (actWidth (fmtAt (bits p.instr 2 4))) (joinOf (fmtAt (bits p.instr 6 4))) (bit p.instr 16) p.acts p.wts

/-- The counters of a pass, before its truncations. -/
def timed (s : State) (d f b c : Nat) (x : Bench) (p : Pass) : State :=
  (s.countPass d f b x p.instr c).bump (BENCH_SSTALL_LO d f b) (rowRun s x p c).stall
/-- The counters of a pass, and the assay record's count of its truncations. -/
def tallied (s : State) (d f b c : Nat) (x : Bench) (g : Gemm) (p : Pass) : State :=
  ((timed s d f b c x p).bump (BENCH_TRUNC_LO d f b) (sumsOf p).2).faceRec d f { layer := lLayerId g.layer, trunc := (sumsOf p).2 }

theorem passFault_none (s : State) (d f b : Nat) : s.passFault d f b .none = s := rfl

/-- A pass that is not its tile's last, sound and without a fault: it counts, and its bench drains it. -/
theorem passRun_plain (s : State) (d f b c : Nat) (x : Bench) (g : Gemm) {p : Pass} (hlast : bit p.instr 14 = false)
    (hbad : p.bad = false) (rest : List Pass) :
    let out := (tallied s d f b c x g p).drainRows g p x.acc (sumsOf p).1 (rowRun s x p c).fates
    ∃ y, s.passRun d f b c .none x g p rest = (((tallied s d f b c x g p).setBench d f b y).showBench d f b).showShadow d f ∧
      y.passes = rest ∧ y.late = x.late ++ out.2 ∧ y.acc = overRows x.acc out.1 ∧ y.live = p.setts := by
  unfold State.passRun
  simp only [hlast, hbad, passFault_none, Bool.false_eq_true, if_false]
  exact ⟨_, rfl, rfl, rfl, rfl, rfl⟩

/-- Registers that a pass's counters, its face's record and what shows them may change, beside the count of truncations. -/
def passRegs (d f b : Nat) : List Nat :=
  [BENCH_PASS_LO d f b, BENCH_PASS_LO d f b + 4, BENCH_FENCE_LO d f b, BENCH_FENCE_LO d f b + 4, BENCH_FENCE_CYC_LO d f b,
    BENCH_FENCE_CYC_LO d f b + 4, BENCH_SSTALL_LO d f b, BENCH_SSTALL_LO d f b + 4, BENCH_STAT d f b, AS_STAT d f, AS_ELEMS_LO d f,
    AS_ELEMS_LO d f + 4]

theorem trunc_notMem (d f b : Nat) : BENCH_TRUNC_LO d f b ∉ passRegs d f b ∧ BENCH_TRUNC_LO d f b + 4 ∉ passRegs d f b := by
  simp only [passRegs, List.mem_cons, List.not_mem_nil, or_false, BENCH_TRUNC_LO, BENCH_PASS_LO, BENCH_FENCE_LO, BENCH_FENCE_CYC_LO,
    BENCH_SSTALL_LO, BENCH_STAT, AS_STAT, AS_ELEMS_LO]
  constructor <;> omega

theorem pair_trunc {s t : State} {d f b : Nat} (h : regsKept s t (passRegs d f b)) :
    t.pair (BENCH_TRUNC_LO d f b) = s.pair (BENCH_TRUNC_LO d f b) :=
  pair_of_reg (h _ (trunc_notMem d f b).1) (h _ (trunc_notMem d f b).2)

theorem timed_counted (s : State) (d f b c : Nat) (x : Bench) (p : Pass) : Counted (passRegs d f b) s (timed s d f b c x p) :=
  (Counted.countPass (by simp [passRegs]) s x _ _).trans (.bump _ (by simp [passRegs]) (by simp [passRegs]) _)

theorem tallied_trunc (s : State) (d f b c : Nat) (x : Bench) (g : Gemm) (p : Pass) :
    (tallied s d f b c x g p).pair (BENCH_TRUNC_LO d f b) = (s.pair (BENCH_TRUNC_LO d f b) + (sumsOf p).2) % 2 ^ 64 := by
  have hrec := Counted.faceRec (d := d) (f := f) (l := passRegs d f b) (by simp [passRegs])
    ((timed s d f b c x p).bump (BENCH_TRUNC_LO d f b) (sumsOf p).2) { layer := lLayerId g.layer, trunc := (sumsOf p).2 }
  rw [tallied, pair_trunc hrec.regs, Completion.pair_bump_same, pair_trunc (timed_counted s d f b c x p).regs]

theorem tallied_mem (s : State) (d f b c : Nat) (x : Bench) (g : Gemm) (p : Pass) : (tallied s d f b c x g p).mem = s.mem := by
  have hrec := Counted.faceRec (d := d) (f := f) (List.Subset.refl _)
    ((timed s d f b c x p).bump (BENCH_TRUNC_LO d f b) (sumsOf p).2) { layer := lLayerId g.layer, trunc := (sumsOf p).2 }
  exact hrec.mem.trans ((State.bump_mem _ _ _).trans (timed_counted s d f b c x p).mem)

/-- What a plain pass that is not its tile's last leaves of its bench. -/
theorem passRun_shows (s : State) (d f b c : Nat) (x : Bench) {g : Gemm} {p : Pass} (rest : List Pass) (hlast : bit p.instr 14 = false)
    (hout : bit p.instr 15 = false) (hbad : p.bad = false) (hsr : bit g.w0 12 = false) :
    let u := s.passRun d f b c .none x g p rest
    (u.bench d f b).passes = rest ∧ (u.bench d f b).late = x.late ∧
      (u.bench d f b).acc = overRows x.acc ((List.range (g.rows p.tile)).map (addedRow (bit p.instr 13) x.acc (sumsOf p).1)) ∧
      (u.bench d f b).live = p.setts ∧
      u.pair (BENCH_TRUNC_LO d f b) = (s.pair (BENCH_TRUNC_LO d f b) + (sumsOf p).2) % 2 ^ 64 ∧ u.mem = s.mem := by
  obtain ⟨y, he, hpasses, hlate, hacc, hlive⟩ := passRun_plain s d f b c x g hlast hbad rest
  rw [drainRows_plain _ hsr p _ _ (rowRun_fates s x hout c)] at hlate hacc
  let t := (tallied s d f b c x g p).setBench d f b y
  have hshow := onlyRegs_showBench_showShadow t d f b
  have hbench : ((t.showBench d f b).showShadow d f).bench d f b = y :=
    (bench_congr (onlyRegs_benches hshow) d f b).trans (bench_setBench_same _ d f b y)
  have hregs : regsKept t ((t.showBench d f b).showShadow d f) (passRegs d f b) :=
    regsKept_trans (regsKept_mono (showBench_regs t d f b) (by simp [passRegs]))
      (regsKept_mono (showShadow_regs _ d f) (by simp [passRegs]))
  intro u
  have hu : u = (t.showBench d f b).showShadow d f := he
  rw [hu, hbench, pair_trunc hregs, onlyRegs_mem hshow, pair_setBench, State.setBench_mem]
  exact ⟨hpasses, hlate.trans (List.append_nil _), hacc, hlive, tallied_trunc s d f b c x g p, tallied_mem s d f b c x g p⟩

/-- The oldest pass runs when no shadow unit holds its tile's first and no side lane owes it its outliers. -/
theorem passWave0_runs {s : State} {d f b : Nat} {g : Gemm} {p : Pass} {rest : List Pass}
    (hg : (s.face d (gangLeader (s.gangMap d) f)).gemm = some g) (hp : (s.bench d f b).passes = p :: rest)
    (hout : bit p.instr 15 = false) (hsh : bit p.instr 13 = true → (s.bench d f b).shadow = []) (c : Nat) (err : PassErr) :
    s.passWave0 d f b c err = s.passRun d f b c err (s.bench d f b) g p rest := by
  have hgo : ¬ ((bit p.instr 13 && !(s.bench d f b).shadow.isEmpty) || (bit p.instr 15 && p.lane.isNone)) = true := by
    simpa [hout] using hsh
  unfold State.passWave0
  dsimp only
  rw [hg, hp]
  exact if_neg hgo

/-- Settles O12: each command is its operation, and the record it leaves on its bench is read off. -/
theorem passesEnterAndLeaveABench : Obligations.PassesEnterAndLeaveABench := by
  unfold Obligations.PassesEnterAndLeaveABench
  intro s d f b g hon leader x hg
  refine ⟨fun t k g' word hn ht hl hw hr => ?_, fun p c hp => ?_, fun p rest c hp hlast hout hbad hsr hsh => ?_⟩
  · refine ⟨_, done_on hon _, ?_⟩
    rw [queued_bench, queued_face, queued_mem]
    exact passAccept_shows hg hn ht hl hw hr
  · refine ⟨_, done_on hon _, ?_⟩
    rw [queued_pair, queued_bench]
    exact sideStart_shows hp c
  · have he := passWave0_runs hg hp hout hsh c .none
    refine ⟨_, (congrArg (done s) he).trans (done_on hon _), ?_⟩
    rw [queued_bench, queued_pair, queued_mem]
    exact passRun_shows s d f b c x rest hlast hout hbad hsr

end Sys2Proof.Passes
end

section
/-! SUPPORT. A unit's writes of objects and of its face's rings stay on memory's side too (`MemSide`; R216, R217, R230, R252, R262,
R264). -/

namespace Sys2Proof.Laws

open Sys2Proof Sys2Proof.Machine

namespace MemSide

theorem clearPoison (s : State) (k : Nat) : MemSide s (s.clearPoison k) := by
  unfold State.clearPoison
  extract_lets p t
  split
  · exact (plc s _).trans (ite (fun _ => setLed t _ _) (fun _ => refl t))
  · exact plc s _
theorem noteWrite (s : State) (k o n : Nat) : MemSide s (s.noteWrite k o n) := by
  unfold State.noteWrite
  split
  · exact ite (fun _ => refl s) fun _ => ite (fun _ => plc s _) fun _ =>
      (clearPoison s k).trans (ite (fun _ => refl _) (fun _ => send _ _ _))
  · exact refl s
theorem mirrorWrite (s : State) (k o : Nat) (v : List Byte) (b : Bool) (w : Option Packet) : MemSide s (s.mirrorWrite k o v b w) :=
  mirrorTo s _ _ _ _ _ _
theorem writeAt (s : State) (w : Where) (a : Nat) (v : List Byte) (b : Bool) : MemSide s (s.writeAt w a v b) :=
  foldl (fun s _ _ => request s _ _ _) s

/-- One part of an object is written where it is. -/
theorem objWrite1 (s : State) (k o : Nat) (v : List Byte) (b : Bool) (face : Option Nat) (hint : Nat) (who : Option Packet) :
    MemSide s (s.objWrite1 k o v b face hint who) := by
  have noted (t : State) : MemSide t ((if b then t else t.noteWrite k o v.length).mirrorWrite k o v b who) :=
    (ite (fun _ => refl t) (fun _ => noteWrite t _ _ _)).trans (mirrorWrite _ _ _ _ _ _)
  have owned (t : State) (w : Where) : MemSide t (match w with
      | .hostAt _ _ => (if b then t else t.noteWrite k o v.length).mirrorWrite k o v b who
      | _ => t) := by
    split
    · exact noted t
    · exact refl t
  have pulled (t : State) {p : Prop} [Decidable p] : MemSide t (if p then t.pull k face else t) :=
    ite (fun _ => pull t _ _) (fun _ => refl t)
  unfold State.objWrite1
  extract_lets r v' mine t cls own
  have settled : MemSide s t := (ite (fun _ => refl s) (fun _ => ledcLook s _)).trans (settle _ _ _)
  refine settled.trans (ite (fun _ => resolveEnd t _) (fun _ => ?_))
  split
  · exact plc t _
  · split
    · exact ite (fun _ => ended t _ _) (fun _ => ((localPut t _ _ _ _).trans (noted _)).trans (pulled _))
    · exact resolveEnd t _
    · exact resolveEnd t _
    · exact ((writeAt t _ _ _ _).trans (owned _ _)).trans (pulled _)

theorem objWriteFrom (s : State) (a : Nat) (v : List Byte) (b : Bool) (face : Option Nat) : MemSide s (s.objWriteFrom a v b face) := by
  have parts (l : List (Nat × Nat × Nat)) (x : State × List Byte) : MemSide x.1 (l.foldl (fun (acc : State × List Byte) p =>
      (acc.1.objWrite1 p.1 p.2.1 (acc.2.take p.2.2) b face 0 none, acc.2.drop p.2.2)) x).1 := by
    induction l generalizing x with
    | nil => exact refl _
    | cons p l ih =>
      exact MemSide.trans (objWrite1 x.1 _ _ _ _ _ _ _) (ih (x.1.objWrite1 p.1 p.2.1 (x.2.take p.2.2) b face 0 none, x.2.drop p.2.2))
  exact parts _ (s, v)

/-- Bytes put into a ring of the face store. -/
theorem ringPut (s : State) (d f w p : Nat) (v : List Byte) (b : Bool) : MemSide s (s.ringPut d f w p v b) :=
  (memPut s _ _ _).trans (ite (fun _ => refl _) (fun _ => memPut _ _ _ _))

/-- What a unit has produced is poisoned where it is. -/
theorem facePoison (s : State) (d f a n : Nat) : MemSide s (s.facePoison d f a n) := by
  refine foldl (fun s p _ => ?_) s
  split
  · exact ringPut s _ _ _ _ _ _
  · exact objWriteFrom s _ _ _ _

end MemSide

end Sys2Proof.Laws
end

section
/-! Late corrections, parked rows and shadow units (R65, R66, R71, R146), and O13. -/

namespace Sys2Proof.LateRows

open Sys2Proof Sys2Proof.Machine Sys2Proof.Laws

/-! ### faults of a bench's stores -/

theorem benchEvent_aside {d f b : Nat} (hd : d < 16) (hf : f < 64) (hb : b < 16) : aside (BENCH_EVENT d f b) := by
  unfold BENCH_EVENT
  rw [Nat.add_assoc, Nat.add_assoc]
  exact Completion.aside_faceReg hd hf (by omega)

/-- A fault reported of a store's word leaves the benches. -/
theorem passFault_benches (s : State) (d f b word : Nat) : (s.passFault d f b (.store word)).benches = s.benches := by
  unfold State.passFault
  dsimp only
  split
  · exact (MemSide.fault _ _ _ _ _).benches.trans (raise_benches s _ _)
  · rfl

/-- An uncorrectable word shows in the bench's events (R71). -/
theorem passFault_storeUe {d f b word : Nat} (hd : d < 16) (hf : f < 64) (hb : b < 16) (h : wordUe word = true) (s : State) :
    (s.passFault d f b (.store word)).flag (BENCH_EVENT d f b) BENCH_EVENT_STORE_UE = true := by
  have ha := benchEvent_aside hd hf hb
  unfold State.passFault
  dsimp only
  rw [if_pos h]
  exact (flag_of_reg ((MemSide.fault _ _ _ _ _).regs _ ha) _).trans
    (raise_flag_self s _ (fun hm => not_aside_sumRegs hm ha) (by decide) (by decide) rfl)

theorem tilePoison_benches (s : State) (d f : Nat) (g : Gemm) (t : Nat) (skip : List Nat) :
    (s.tilePoison d f g t skip).benches = s.benches := by
  unfold State.tilePoison
  refine foldl_kept State.benches (fun s r _ => ?_) s
  dsimp only
  split
  · split
    · rfl
    · exact (MemSide.facePoison s _ _ _ _).benches
  · exact (MemSide.facePoison s _ _ _ _).benches

/-- A spoiled tile marks the bench's parked rows, poisons the rows written, and reports the word. -/
theorem spoilTile_eq (s : State) (d f b : Nat) (g : Gemm) (t word : Nat) : ∃ y l, s.spoilTile d f b g t word =
    ((s.setBench d f b y).tilePoison d f g t l).passFault d f b (.store word) ∧ y.late = (s.bench d f b).late := ⟨_, _, rfl, rfl⟩

theorem spoilTile_late (s : State) (d f b : Nat) (g : Gemm) (t word : Nat) :
    ((s.spoilTile d f b g t word).bench d f b).late = (s.bench d f b).late := by
  obtain ⟨y, l, he, hy⟩ := spoilTile_eq s d f b g t word
  rw [he, bench_congr (passFault_benches _ d f b word), bench_congr (tilePoison_benches _ d f g t l), bench_setBench_same, hy]

/-! ### LATE_ADD -/

/-- The late correction is the parked row's. -/
def parkedFor (l : LateRow) (p : ParkRow) : Bool := p.tile == l.tile && p.row == l.row

/-- The bench with its oldest late correction added, to the parked row or to the row's accumulators (R65). -/
def lateAdded (x : Bench) (l : LateRow) (rest : List LateRow) (spoils : Bool) : Bench :=
  let y : Bench := { x with late := rest, back := min x.back rest.length }
  match x.park.find? (parkedFor l) with
  | some p =>
    let p := { p with vals := addRows p.vals l.vals }
    if rest.any (fun e => e.tile == l.tile && e.row == l.row) then
      { y with park := x.park.map (fun q => if parkedFor l q then p else q) }
    else { y with park := x.park.filter (fun q => !parkedFor l q) ++ [p] }
  | none =>
    let row := x.acc.getD l.row []
    { y with acc := x.acc.set l.row (overRow row (addRows row l.vals)), accBad := x.accBad || spoils }

/-- What the word that the add read leaves: nothing, or its fault, and with a parked row its tile poisoned (R71). -/
def lateReported (s : State) (d f b : Nat) (parked : Option ParkRow) (t word : Nat) : State :=
  if !wordSpoils word then s
  else match parked, (s.face d (gangLeader (s.gangMap d) f)).gemm with
    | some _, some g => s.spoilTile d f b g t word
    | _, _ => s.passFault d f b (.store word)

theorem lateAdd_eq {s : State} {d f b : Nat} {l : LateRow} {rest : List LateRow} (h : (s.bench d f b).late = l :: rest) (word : Nat) :
    s.lateAdd d f b word =
      (lateReported (s.setBench d f b (lateAdded (s.bench d f b) l rest (wordSpoils word))) d f b
        ((s.bench d f b).park.find? (parkedFor l)) l.tile word).showBench d f b := by
  unfold State.lateAdd
  extract_lets x
  rw [show x.late = l :: rest from h]
  rfl

theorem lateAdded_late (x : Bench) (l : LateRow) (rest : List LateRow) (sp : Bool) : (lateAdded x l rest sp).late = rest := by
  unfold lateAdded
  dsimp only
  split
  · split
    · rfl
    · rfl
  · rfl

theorem lateAdded_unparked {x : Bench} {l : LateRow} (h : x.park.find? (parkedFor l) = none) (rest : List LateRow) (sp : Bool) :
    (lateAdded x l rest sp).park = x.park ∧ (lateAdded x l rest sp).acc =
      x.acc.set l.row (overRow (x.acc.getD l.row []) (addRows (x.acc.getD l.row []) l.vals)) := by
  unfold lateAdded
  rw [h]
  exact ⟨rfl, rfl⟩

theorem lateAdded_parked {x : Bench} {l : LateRow} {p : ParkRow} (h : x.park.find? (parkedFor l) = some p) (rest : List LateRow)
    (sp : Bool) : { p with vals := addRows p.vals l.vals } ∈ (lateAdded x l rest sp).park ∧ (lateAdded x l rest sp).acc = x.acc := by
  unfold lateAdded
  rw [h]
  dsimp only
  split
  · exact ⟨List.mem_map.2 ⟨p, List.mem_of_find?_eq_some h, if_pos (List.find?_some h)⟩, rfl⟩
  · exact ⟨List.mem_append_right _ List.mem_cons_self, rfl⟩

section

variable {s : State} {d f b t word : Nat} {parked : Option ParkRow}

theorem lateReported_sound (h : wordSpoils word = false) : lateReported s d f b parked t word = s := by
  unfold lateReported
  rw [h]
  rfl

theorem lateReported_late : ((lateReported s d f b parked t word).bench d f b).late = (s.bench d f b).late := by
  unfold lateReported
  split
  · rfl
  · split
    · exact spoilTile_late s d f b _ t word
    · rw [bench_congr (passFault_benches s d f b word)]

theorem lateReported_unparked : (lateReported s d f b none t word).bench d f b = s.bench d f b := by
  unfold lateReported
  split
  · rfl
  · exact bench_congr (passFault_benches s d f b word) d f b

theorem lateReported_storeUe (hd : d < 16) (hf : f < 64) (hb : b < 16) (h : wordUe word = true) :
    (lateReported s d f b parked t word).flag (BENCH_EVENT d f b) BENCH_EVENT_STORE_UE = true := by
  have hs : wordSpoils word = true := by simp [wordSpoils, h]
  unfold lateReported
  rw [hs, if_neg (by decide)]
  split
  · exact passFault_storeUe hd hf hb h _
  · exact passFault_storeUe hd hf hb h s

end

theorem benchEvent_ne_benchStat (d f b : Nat) : BENCH_EVENT d f b ∉ [BENCH_STAT d f b] := by
  rw [List.mem_singleton]
  unfold BENCH_EVENT BENCH_STAT
  omega

/-- What an added correction leaves on its bench. -/
theorem lateAdd_shows {s : State} {d f b : Nat} (hd : d < 16) (hf : f < 64) (hb : b < 16) {l : LateRow} {rest : List LateRow}
    (h : (s.bench d f b).late = l :: rest) (word : Nat) :
    let x := s.bench d f b
    let u := s.lateAdd d f b word
    (u.bench d f b).late = rest ∧
      (wordUe word = true → u.flag (BENCH_EVENT d f b) BENCH_EVENT_STORE_UE = true) ∧
      (wordSpoils word = false → u.mem = s.mem) ∧
      (x.park.find? (parkedFor l) = none → (u.bench d f b).park = x.park ∧
        (u.bench d f b).acc = x.acc.set l.row (overRow (x.acc.getD l.row []) (addRows (x.acc.getD l.row []) l.vals))) ∧
      (∀ p, x.park.find? (parkedFor l) = some p → wordSpoils word = false →
        { p with vals := addRows p.vals l.vals } ∈ (u.bench d f b).park ∧ (u.bench d f b).acc = x.acc) := by
  rw [lateAdd_eq h word]
  intro x u
  let y := lateAdded x l rest (wordSpoils word)
  let v := lateReported (s.setBench d f b y) d f b (x.park.find? (parkedFor l)) l.tile word
  have hu : u = v.showBench d f b := rfl
  have hbench : u.bench d f b = v.bench d f b := by rw [hu, bench_congr (onlyRegs_benches (onlyRegs_showBench v d f b))]
  have hy : (s.setBench d f b y).bench d f b = y := bench_setBench_same s d f b y
  rw [hbench]
  refine ⟨?_, fun hw => ?_, fun hw => ?_, fun hn => ?_, fun p hp hw => ?_⟩
  · exact lateReported_late.trans ((congrArg Bench.late hy).trans (lateAdded_late x l rest _))
  · rw [hu, flag_of_reg (showBench_regs v d f b _ (benchEvent_ne_benchStat d f b))]
    exact lateReported_storeUe hd hf hb hw
  · rw [hu, onlyRegs_mem (onlyRegs_showBench v d f b), show v = _ from lateReported_sound hw, State.setBench_mem]
  · have hv : v.bench d f b = y := by
      rw [show v = lateReported (s.setBench d f b y) d f b none l.tile word by rw [← hn], lateReported_unparked, hy]
    rw [hv]
    exact lateAdded_unparked hn rest _
  · rw [show v = _ from lateReported_sound hw, hy]
    exact lateAdded_parked hp rest _

/-! ### PARK_RELEASE -/

/-- The first parked row with no late correction left. -/
def settledRow (x : Bench) : Option ParkRow := x.park.find? (fun p => !x.late.any (fun l => l.tile == p.tile && l.row == p.row))

theorem parkRelease_releases {s : State} {d f b word : Nat} {g : Gemm} {p : ParkRow}
    (hg : (s.face d (gangLeader (s.gangMap d) f)).gemm = some g) (hp : settledRow (s.bench d f b) = some p)
    (hw : wordSpoils word = false) : s.parkRelease d f b word =
      ((s.setBench d f b { s.bench d f b with
        park := (s.bench d f b).park.filter (fun q => !(q.tile == p.tile && q.row == p.row)) }).rowOut d f g p.tile p.row p.vals p.tok
          p.wch p.bad).showBench d f b := by
  unfold settledRow at hp
  unfold State.parkRelease
  dsimp only
  rw [hg, hp]
  dsimp only
  rw [hw, Bool.or_false, if_neg Bool.false_ne_true]

theorem settledRow_none {x : Bench} (h : ∀ p ∈ x.park, ∃ l ∈ x.late, l.tile = p.tile ∧ l.row = p.row) : settledRow x = none := by
  refine List.find?_eq_none.2 fun p hp => ?_
  obtain ⟨l, hl, ht, hr⟩ := h p hp
  have hany : x.late.any (fun l => l.tile == p.tile && l.row == p.row) = true := List.any_eq_true.2 ⟨l, hl, by simp [ht, hr]⟩
  simp [hany]

theorem parkRelease_idle {s : State} {d f b : Nat} (h : settledRow (s.bench d f b) = none) (word : Nat) :
    s.parkRelease d f b word = s := by
  unfold settledRow at h
  unfold State.parkRelease
  dsimp only
  rw [h]
  split
  · next hx => cases hx
  · rfl

/-! ### SHADOW_UNIT -/

/-- The units that a bench owes. -/
def owed (s : State) (d f b : Nat) : List (Nat × (Nat × Nat)) := (s.bench d f b).shadow

theorem owed_congr {s t : State} (h : t.benches = s.benches) (d f b : Nat) : owed t d f b = owed s d f b :=
  congrArg Bench.shadow (bench_congr h d f b)
theorem owed_setBench (s : State) (d f b : Nat) (x : Bench) : owed (s.setBench d f b x) d f b = x.shadow :=
  congrArg Bench.shadow (bench_setBench_same s d f b x)

/-- A pass made ready counts, changes its bench's stages and timing, and shows. -/
theorem readyPass_eq (s : State) (d f b ready word : Nat) (wts : List (List Opd)) : ∃ y w, s.readyPass d f b ready word wts =
    ((s.countPass d f b (s.bench d f b) word ready).setBench d f b y).showPass d f b w ∧ y.shadow = owed s d f b := ⟨_, _, rfl, rfl⟩

theorem readyPass_owed (s : State) (d f b ready word : Nat) (wts : List (List Opd)) :
    owed (s.readyPass d f b ready word wts) d f b = owed s d f b := by
  obtain ⟨y, w, he, hy⟩ := readyPass_eq s d f b ready word wts
  rw [he, owed_congr (onlyRegs_benches (onlyRegs_showPass _ d f b w)), owed_setBench, hy]

theorem readyPasses_owed (d f b : Nat) (words : List Nat) (wts : List (List Opd)) (s : State) (ready : Nat) :
    owed (s.readyPasses d f b ready words wts) d f b = owed s d f b := by
  unfold State.readyPasses
  induction words generalizing s ready with
  | nil => rfl
  | cons w l ih => exact (ih _ _).trans (readyPass_owed s d f b ready w wts)

theorem unitPasses_owed (s : State) (d f b w0 kp : Nat) (cols : List SettCol) :
    owed (s.unitPasses d f b w0 kp cols) d f b = owed s d f b := readyPasses_owed d f b _ _ s 0

theorem unitRun_owed (s : State) (d f b : Nat) (g : Gemm) (fc kp : Nat) (c1 c2 : List ActRow × List SettCol) :
    owed (s.unitRun d f b g fc kp c1 c2) d f b = owed s d f b := by
  have recs (t : State) (r : AssayRec) : owed (t.faceRec d f r) d f b = owed t d f b :=
    owed_congr (Counted.faceRec (d := d) (f := f) (List.Subset.refl _) t r).benches d f b
  have bump (t : State) (a n : Nat) : owed (t.bump a n) d f b = owed t d f b := owed_congr (State.bump_benches t a n) d f b
  have raised (t : State) {p : Bool} : owed (if p then t.raise (AS_EVENT d f) AS_EVENT_SHADOW_NF else t) d f b = owed t d f b := by
    split
    · exact owed_congr (raise_benches t _ _) d f b
    · rfl
  exact (recs _ _).trans <| (bump _ _ _).trans <| (raised _).trans <| (bump _ _ _).trans <| (bump _ _ _).trans <|
    (unitPasses_owed _ d f b _ _ _).trans (unitPasses_owed s d f b _ _ _)

/-- The oldest unit is taken off the list, then run, dropped, or passed over with the unit off (R144, R146). -/
theorem shadowUnit_takes {s : State} {d f b : Nat} {g : Gemm} {y : Nat × (Nat × Nat)} {rest : List (Nat × (Nat × Nat))}
    (hg : (s.face d (gangLeader (s.gangMap d) f)).gemm = some g) (h : (s.bench d f b).shadow = y :: rest) :
    let v := s.setBench d f b { s.bench d f b with shadow := rest }
    ∃ w, s.shadowUnit d f b = (w.showBench d f b).showShadow d f ∧ owed w d f b = owed v d f b ∧
      (v.faceShadow d f = false → w = v) := by
  have dropped (u : State) : owed (u.raise (AS_EVENT d f) AS_EVENT_SHADOW_DROP) d f b = owed u d f b :=
    owed_congr (raise_benches u _ _) d f b
  have seen (u : State) (l : List (Nat × Nat)) : owed (u.facesSeen d f l) d f b = owed u d f b :=
    owed_congr (MemSide.facesSeen u d f l).benches d f b
  obtain ⟨t, i, m⟩ := y
  intro v
  unfold State.shadowUnit
  extract_lets x
  rw [hg, show x.shadow = (t, (i, m)) :: rest from h]
  refine ⟨_, rfl, ?_, fun hoff => ?_⟩
  · split
    · rfl
    · split
      · exact dropped v
      · extract_lets
        split
        · exact (dropped _).trans (seen v _)
        · exact (unitRun_owed _ d f b _ _ _ _ _).trans (seen v _)
  · exact if_pos (by rw [show State.faceShadow _ d f = false from hoff]; rfl)

/-- The oldest unit is taken off the list; with the unit off no memory changes. -/
theorem shadowUnit_shows {s : State} {d f b : Nat} {g : Gemm} {y : Nat × (Nat × Nat)} {rest : List (Nat × (Nat × Nat))}
    (hg : (s.face d (gangLeader (s.gangMap d) f)).gemm = some g) (h : (s.bench d f b).shadow = y :: rest) :
    owed (s.shadowUnit d f b) d f b = rest ∧ (s.faceShadow d f = false → (s.shadowUnit d f b).mem = s.mem) := by
  obtain ⟨w, he, hw, hoff⟩ := shadowUnit_takes hg h
  have hshow := onlyRegs_showBench_showShadow w d f b
  rw [he]
  refine ⟨?_, fun hs => ?_⟩
  · rw [owed_congr (onlyRegs_benches hshow), hw, owed_setBench]
  · rw [onlyRegs_mem hshow, hoff hs, State.setBench_mem]

/-- Settles O13: the bench after a correction is `lateAdded`, a settled row leaves through `rowOut`, and a unit taken is off the list. -/
theorem lateCorrectionsReachTheirRows : Obligations.LateCorrectionsReachTheirRows := by
  unfold Obligations.LateCorrectionsReachTheirRows
  intro s d f b hon x
  refine ⟨fun l rest word hl => ?_, fun g hg => ⟨fun p word hp hw => ?_, fun hall word => ?_, fun y rest hy => ?_⟩⟩
  · refine ⟨_, done_on hon _, ?_⟩
    rw [queued_bench, queued_flag, queued_mem]
    exact lateAdd_shows d.isLt f.isLt b.isLt hl word
  · exact (congrArg (done s) (parkRelease_releases hg hp hw)).trans (done_on hon _)
  · exact (congrArg (done s) (parkRelease_idle (settledRow_none hall) word)).trans (done_self s)
  · refine ⟨_, done_on hon _, ?_⟩
    rw [queued_bench, queued_mem]
    exact shadowUnit_shows hg hy

end Sys2Proof.LateRows
end

section
/-! SUPPORT. Codes of a floating-point format (R76 to R79): the significand and the binade a magnitude code stands for, the value the
two make, and the code that a value rounds to (R90, R468). -/

namespace Sys2Proof.Laws

open Sys2Proof Sys2Proof.Machine

/-! ### the place of a code -/

/-- How far the exponent of a magnitude code lies above the least: 0 for a subnormal code and for the first normal ones. -/
def binadeOf (L : FpLay) (mag : Nat) : Nat := mag / 2 ^ L.mb - 1

/-- The significand of a magnitude code, with the leading bit of a normal number. -/
def codeSig (L : FpLay) (mag : Nat) : Nat := if mag / 2 ^ L.mb = 0 then mag % 2 ^ L.mb else mag % 2 ^ L.mb + 2 ^ L.mb

/-- The exponent of the last place of a significand, k binades above the least. -/
def ulpAt (L : FpLay) (k : Nat) : Int := 1 - (L.bias : Int) - L.mb + k

/-- The binade that m × 2^e falls in. -/
def binadeTo (L : FpLay) (m : Nat) (e : Int) : Nat := ((Nat.log2 m : Int) + e - (1 - L.bias)).toNat

/-- The number a magnitude code stands for. -/
def magRat (L : FpLay) (mag : Nat) : ℚ := (codeSig L mag : ℚ) * 2 ^ ulpAt L (binadeOf L mag)

theorem fpDecode_eq {L : FpLay} {c : Nat} (h : c % 2 ^ (L.eb + L.mb) ≤ L.maxC) : fpDecode L c =
    .fin (bit c (L.eb + L.mb)) (codeSig L (c % 2 ^ (L.eb + L.mb))) (ulpAt L (binadeOf L (c % 2 ^ (L.eb + L.mb)))) := by
  unfold fpDecode codeSig ulpAt binadeOf
  extract_lets neg mag x m
  rw [if_neg (Nat.not_lt.2 h)]
  split
  next h0 =>
    have h0' : c % 2 ^ (L.eb + L.mb) / 2 ^ L.mb = 0 := h0
    rw [h0', Nat.zero_sub, Nat.cast_zero, add_zero]
  next h0 =>
    have hx : ((x - 1 : Nat) : Int) = x - 1 := Nat.cast_pred (Nat.pos_of_ne_zero h0)
    rw [show ((c % 2 ^ (L.eb + L.mb) / 2 ^ L.mb - 1 : Nat) : Int) = x - 1 from hx]
    congr 1
    ring

theorem isFin_fpDecode {L : FpLay} {c : Nat} (h : (fpDecode L c).isFin = true) : c % 2 ^ (L.eb + L.mb) ≤ L.maxC := by
  by_contra hc
  unfold fpDecode at h
  extract_lets neg mag x m at h
  rw [if_pos (Nat.not_le.1 hc)] at h
  split at h <;> exact absurd h Bool.false_ne_true

/-- A code is its sign over its magnitude code. -/
theorem sign_add_mag {c n : Nat} (h : c < 2 ^ (n + 1)) : b2n (bit c n) * 2 ^ n + c % 2 ^ n = c := by
  have hq : c / 2 ^ n < 2 := Nat.div_lt_of_lt_mul (by rwa [pow_succ] at h)
  have hb : b2n (bit c n) = c / 2 ^ n := by
    rw [bit]
    generalize c / 2 ^ n = q at hq
    interval_cases q <;> rfl
  rw [hb, Nat.div_add_mod']

theorem fpDecode_signed {L : FpLay} (neg : Bool) {mag : Nat} (hL : L.maxC < 2 ^ (L.eb + L.mb)) (h : mag ≤ L.maxC) :
    fpDecode L (b2n neg * 2 ^ (L.eb + L.mb) + mag) = .fin neg (codeSig L mag) (ulpAt L (binadeOf L mag)) := by
  have hlt := h.trans_lt hL
  have hmod : (b2n neg * 2 ^ (L.eb + L.mb) + mag) % 2 ^ (L.eb + L.mb) = mag := by
    rw [Nat.mul_add_mod', Nat.mod_eq_of_lt hlt]
  have hbit : bit (b2n neg * 2 ^ (L.eb + L.mb) + mag) (L.eb + L.mb) = neg := by
    rw [bit, Nat.add_comm, Nat.add_mul_div_right _ _ (Nat.two_pow_pos _), Nat.div_eq_of_lt hlt]
    cases neg <;> rfl
  rw [fpDecode_eq (hmod.trans_le h), hmod, hbit]

/-- A magnitude code is its binade over its significand. -/
theorem binadeOf_add_codeSig (L : FpLay) (mag : Nat) : binadeOf L mag * 2 ^ L.mb + codeSig L mag = mag := by
  have hdiv := Nat.div_add_mod' mag (2 ^ L.mb)
  unfold binadeOf codeSig
  split
  next h0 => simpa [h0] using hdiv
  next h0 =>
    obtain ⟨n, hn⟩ := Nat.exists_eq_succ_of_ne_zero h0
    rw [hn, Nat.succ_mul] at hdiv
    rw [hn, Nat.succ_sub_one]
    omega

theorem codeSig_lt (L : FpLay) (mag : Nat) : codeSig L mag < 2 ^ (L.mb + 1) := by
  have := Nat.mod_lt mag (Nat.two_pow_pos L.mb)
  unfold codeSig
  rw [pow_succ]
  split <;> omega

theorem le_codeSig {L : FpLay} {mag : Nat} (h : binadeOf L mag ≠ 0) : 2 ^ L.mb ≤ codeSig L mag := by
  unfold binadeOf at h
  rw [codeSig, if_neg (by omega)]
  exact Nat.le_add_left _ _

/-- Significands up to the next binade's first one make codes of the value they name (the grid goes on across binades). -/
theorem magRat_code {L : FpLay} {k q : Nat} (hq : q ≤ 2 ^ (L.mb + 1)) (hk : k ≠ 0 → 2 ^ L.mb ≤ q) :
    magRat L (k * 2 ^ L.mb + q) = (q : ℚ) * 2 ^ ulpAt L k := by
  have hpos := Nat.two_pow_pos L.mb
  rw [pow_succ] at hq
  have hdiv : (k * 2 ^ L.mb + q) / 2 ^ L.mb = k + q / 2 ^ L.mb := by
    rw [Nat.add_comm, Nat.add_mul_div_right _ _ hpos, Nat.add_comm]
  have hmod : (k * 2 ^ L.mb + q) % 2 ^ L.mb = q % 2 ^ L.mb := Nat.mul_add_mod' _ _ _
  unfold magRat codeSig binadeOf
  rw [hdiv, hmod]
  rcases Nat.lt_or_ge q (2 ^ L.mb) with hlt | hge
  · obtain rfl : k = 0 := by
      by_contra h0
      have := hk h0
      omega
    simp [Nat.div_eq_of_lt hlt, Nat.mod_eq_of_lt hlt]
  · rcases hq.eq_or_lt with rfl | hlt
    · have hq2 : 2 ^ L.mb * 2 / 2 ^ L.mb = 2 := Nat.mul_div_cancel_left _ hpos
      rw [hq2, Nat.mul_mod_right, if_neg (by omega), show k + 2 - 1 = k + 1 by omega, ulpAt, ulpAt, Nat.cast_succ, ← add_assoc,
        zpow_add_one₀ two_ne_zero]
      push_cast
      ring
    · have hq1 : q / 2 ^ L.mb = 1 := Nat.div_eq_of_lt_le (by omega) (by omega)
      have hs : q % 2 ^ L.mb + 2 ^ L.mb = q := by
        have := Nat.div_add_mod' q (2 ^ L.mb)
        rw [hq1] at this
        omega
      rw [hq1, if_neg (by omega), Nat.add_sub_cancel, hs]

/-- Magnitude code 0 is the only one of value 0. -/
theorem codeSig_eq_zero {L : FpLay} {mag : Nat} : codeSig L mag = 0 ↔ mag = 0 := by
  constructor
  · intro h
    have hb : binadeOf L mag = 0 := by
      by_contra hb
      exact absurd (h ▸ le_codeSig hb) (Nat.not_le.2 (Nat.two_pow_pos _))
    rw [← binadeOf_add_codeSig L mag, h, hb, Nat.zero_mul]
  · rintro rfl
    simp [codeSig]

theorem magRat_zero (L : FpLay) : magRat L 0 = 0 := by
  rw [magRat, codeSig_eq_zero.2 rfl, Nat.cast_zero, zero_mul]

/-! ### rounding to units (R90) -/

/-- A number in whole units rounds to itself in every mode. -/
theorem roundUnits_self (r : Rnd) (neg : Bool) (m : Nat) (e : Int) : roundUnits r neg m e e = m := by
  unfold roundUnits
  rw [if_pos le_rfl, sub_self]
  cases r <;> simp

/-- Rounding a quotient to nearest, no multiple of the divisor is nearer (R90). -/
theorem nearest_multiple (m D : Nat) (hD : 0 < D) (k : Int) :
    |(((if D < 2 * (m % D) ∨ (2 * (m % D) = D ∧ m / D % 2 = 1) then m / D + 1 else m / D : Nat) : Int) * D - m)| ≤ |k * D - m| := by
  have hm : ((m / D : Nat) : Int) * D + (m % D : Nat) = m := by exact_mod_cast Nat.div_add_mod' m D
  have hlt := Nat.mod_lt m hD
  have hk : k * D ≤ (m / D : Nat) * D ∨ ((m / D : Nat) + 1) * (D : Int) ≤ k * D := by
    rcases le_or_gt k ((m / D : Nat) : Int) with h | h
    · exact .inl (mul_le_mul_of_nonneg_right h (by omega))
    · exact .inr (mul_le_mul_of_nonneg_right h (by omega))
  rw [add_mul, one_mul] at hk
  have hdist : ((m % D : Nat) : Int) ≤ |k * D - m| ∨ (D : Int) - (m % D : Nat) ≤ |k * D - m| :=
    hk.imp (fun h => le_abs.2 (.inr (by omega))) fun h => le_abs.2 (.inl (by omega))
  split
  · rw [Nat.cast_add, Nat.cast_one, add_mul, one_mul, abs_of_nonneg (by omega)]
    omega
  · rw [abs_of_nonpos (by omega)]
    omega

/-- No whole number of units is nearer to a number than the one it rounds to (R90). -/
theorem roundUnits_nearest (neg : Bool) (m : Nat) (e u : Int) (k : Int) :
    |(roundUnits .ne neg m e u : ℚ) * 2 ^ u - m * 2 ^ e| ≤ |(k : ℚ) * 2 ^ u - m * 2 ^ e| := by
  unfold roundUnits
  split
  next h =>
    have he : ((e - u).toNat : Int) + u = e := by omega
    rw [Nat.cast_mul, Nat.cast_pow, Nat.cast_ofNat, mul_assoc, ← zpow_natCast, ← zpow_add₀ two_ne_zero, he, sub_self, abs_zero]
    exact abs_nonneg _
  next h =>
    have hu : (2 : ℚ) ^ u = ((2 ^ (u - e).toNat : Nat) : ℚ) * 2 ^ e := by
      rw [Nat.cast_pow, Nat.cast_ofNat, ← zpow_natCast, ← zpow_add₀ two_ne_zero]
      congr 1
      omega
    have hn := nearest_multiple m (2 ^ (u - e).toNat) (Nat.two_pow_pos _) k
    rw [hu, ← mul_assoc, ← mul_assoc, ← sub_mul, ← sub_mul, abs_mul, abs_mul]
    exact mul_le_mul_of_nonneg_right (by exact_mod_cast hn) (abs_nonneg _)

section

variable {m A : Nat} {e u : Int} (neg : Bool)

/-- Rounding to nearest does not pass a whole number of units above. -/
theorem roundUnits_le (h : (m : ℚ) * 2 ^ e ≤ A * 2 ^ u) : roundUnits .ne neg m e u ≤ A := by
  by_contra hc
  have hn := roundUnits_nearest neg m e u A
  have hq : ((A : ℚ) + 1) * 2 ^ u ≤ roundUnits .ne neg m e u * 2 ^ u :=
    mul_le_mul_of_nonneg_right (by exact_mod_cast Nat.not_le.1 hc) (by positivity)
  have hu : (0 : ℚ) < 2 ^ u := by positivity
  rw [Int.cast_natCast, abs_of_nonneg (sub_nonneg.2 h), abs_of_nonneg (by linarith)] at hn
  linarith

/-- Rounding to nearest does not pass a whole number of units below. -/
theorem le_roundUnits (h : (A : ℚ) * 2 ^ u ≤ m * 2 ^ e) : A ≤ roundUnits .ne neg m e u := by
  by_contra hc
  have hn := roundUnits_nearest neg m e u A
  have hq : ((roundUnits .ne neg m e u : ℚ) + 1) * 2 ^ u ≤ A * 2 ^ u :=
    mul_le_mul_of_nonneg_right (by exact_mod_cast Nat.not_le.1 hc) (by positivity)
  have hu : (0 : ℚ) < 2 ^ u := by positivity
  rw [Int.cast_natCast, abs_of_nonpos (sub_nonpos.2 h), abs_of_nonpos (by linarith)] at hn
  linarith

end

/-! ### the code a value rounds to -/

theorem fpMagCode_eq (L : FpLay) (r : Rnd) (neg : Bool) (m : Nat) (e : Int) : fpMagCode L r neg m e =
    binadeTo L m e * 2 ^ L.mb + roundUnits r neg m e (ulpAt L (binadeTo L m e)) := by
  unfold fpMagCode binadeTo ulpAt
  extract_lets emin top ex
  have hk : ((Nat.log2 m : Int) + e - (1 - L.bias)).toNat = (ex - emin).toNat := by omega
  have hu : 1 - (L.bias : Int) - L.mb + ((ex - emin).toNat : Int) = ex - L.mb := by omega
  rw [hk, hu]

/-- The value of a magnitude code falls in the code's own binade. -/
theorem binadeTo_codeSig {L : FpLay} {mag : Nat} (h : codeSig L mag ≠ 0) :
    binadeTo L (codeSig L mag) (ulpAt L (binadeOf L mag)) = binadeOf L mag := by
  have hle : Nat.log2 (codeSig L mag) ≤ L.mb := Nat.lt_succ_iff.1 ((Nat.log2_lt h).2 (codeSig_lt L mag))
  have hge : binadeOf L mag ≠ 0 → L.mb ≤ Nat.log2 (codeSig L mag) := fun hb => (Nat.le_log2 h).2 (le_codeSig hb)
  unfold binadeTo ulpAt
  omega

/-- The value of a magnitude code rounds to the code, in every mode. -/
theorem fpMagCode_codeSig {L : FpLay} (r : Rnd) (neg : Bool) {mag : Nat} (h : codeSig L mag ≠ 0) :
    fpMagCode L r neg (codeSig L mag) (ulpAt L (binadeOf L mag)) = mag := by
  rw [fpMagCode_eq, binadeTo_codeSig h, roundUnits_self, binadeOf_add_codeSig]

section

variable {L : FpLay} {m : Nat} {e : Int}

/-- A number lies below the end of its binade. -/
theorem lt_binade_end : (m : ℚ) * 2 ^ e < (2 ^ (L.mb + 1) : Nat) * 2 ^ ulpAt L (binadeTo L m e) := by
  have hlt : (m : ℚ) < 2 ^ ((Nat.log2 m + 1 : Nat) : Int) := by
    rw [zpow_natCast]
    exact_mod_cast Nat.lt_log2_self
  calc (m : ℚ) * 2 ^ e < 2 ^ ((Nat.log2 m + 1 : Nat) : Int) * 2 ^ e := mul_lt_mul_of_pos_right hlt (by positivity)
    _ = 2 ^ (((Nat.log2 m + 1 : Nat) : Int) + e) := (zpow_add₀ two_ne_zero _ _).symm
    _ ≤ 2 ^ (((L.mb + 1 : Nat) : Int) + ulpAt L (binadeTo L m e)) :=
      zpow_le_zpow_right₀ one_le_two (by unfold ulpAt binadeTo; omega)
    _ = _ := by rw [zpow_add₀ two_ne_zero, zpow_natCast, Nat.cast_pow, Nat.cast_ofNat]

/-- A number above the least binade reaches the start of its own. -/
theorem binade_start_le (hm : m ≠ 0) (hk : binadeTo L m e ≠ 0) :
    ((2 ^ L.mb : Nat) : ℚ) * 2 ^ ulpAt L (binadeTo L m e) ≤ m * 2 ^ e := by
  have hle : (2 : ℚ) ^ (Nat.log2 m : Int) ≤ m := by
    rw [zpow_natCast]
    exact_mod_cast Nat.log2_self_le hm
  calc ((2 ^ L.mb : Nat) : ℚ) * 2 ^ ulpAt L (binadeTo L m e) = 2 ^ ((L.mb : Int) + ulpAt L (binadeTo L m e)) := by
        rw [zpow_add₀ two_ne_zero, zpow_natCast, Nat.cast_pow, Nat.cast_ofNat]
    _ = 2 ^ ((Nat.log2 m : Int) + e) := by
      congr 1
      unfold binadeTo at hk
      unfold ulpAt binadeTo
      omega
    _ = 2 ^ (Nat.log2 m : Int) * 2 ^ e := zpow_add₀ two_ne_zero _ _
    _ ≤ m * 2 ^ e := mul_le_mul_of_nonneg_right hle (by positivity)

/-- The code a number rounds to stands for the number's nearest whole count of its binade's units. -/
theorem magRat_fpMagCode (neg : Bool) (hm : m ≠ 0) : magRat L (fpMagCode L .ne neg m e) =
    (roundUnits .ne neg m e (ulpAt L (binadeTo L m e)) : ℚ) * 2 ^ ulpAt L (binadeTo L m e) := by
  rw [fpMagCode_eq]
  exact magRat_code (roundUnits_le neg lt_binade_end.le) fun hk => le_roundUnits neg (binade_start_le hm hk)

/-- A code of a binade not below the number's is a whole count of the number's units. -/
theorem magRat_eq_units {mag k : Nat} (h : k ≤ binadeOf L mag) :
    magRat L mag = (codeSig L mag * 2 ^ (binadeOf L mag - k) : Nat) * 2 ^ ulpAt L k := by
  rw [magRat, Nat.cast_mul, Nat.cast_pow, Nat.cast_ofNat, mul_assoc, ← zpow_natCast, ← zpow_add₀ two_ne_zero]
  congr 2
  unfold ulpAt
  omega

/-- A code of a lower binade stays below the start of the number's. -/
theorem magRat_lt_start {mag k : Nat} (h : binadeOf L mag < k) : magRat L mag < (2 ^ L.mb : Nat) * 2 ^ ulpAt L k := by
  have hs : (codeSig L mag : ℚ) < 2 ^ ((L.mb + 1 : Nat) : Int) := by
    rw [zpow_natCast]
    exact_mod_cast codeSig_lt L mag
  calc magRat L mag < 2 ^ ((L.mb + 1 : Nat) : Int) * 2 ^ ulpAt L (binadeOf L mag) := mul_lt_mul_of_pos_right hs (by positivity)
    _ = 2 ^ (((L.mb + 1 : Nat) : Int) + ulpAt L (binadeOf L mag)) := (zpow_add₀ two_ne_zero _ _).symm
    _ ≤ 2 ^ ((L.mb : Int) + ulpAt L k) := zpow_le_zpow_right₀ one_le_two (by unfold ulpAt; omega)
    _ = _ := by rw [zpow_add₀ two_ne_zero, zpow_natCast, Nat.cast_pow, Nat.cast_ofNat]

/-- No code of the format, of either sign, is nearer to a positive number than the code it rounds to: a code of a lower binade is no
nearer than the start of the number's own, and every other is a whole count of its units. -/
theorem magRat_fpMagCode_nearest (neg : Bool) (hm : m ≠ 0) (mag : Nat) {t : ℚ} (ht : t = magRat L mag ∨ t = -magRat L mag) :
    |magRat L (fpMagCode L .ne neg m e) - m * 2 ^ e| ≤ |t - m * 2 ^ e| := by
  have hn := roundUnits_nearest neg m e (ulpAt L (binadeTo L m e))
  rw [magRat_fpMagCode neg hm]
  rcases Nat.lt_or_ge (binadeOf L mag) (binadeTo L m e) with hlt | hge
  · have hstart := binade_start_le (L := L) (e := e) hm (Nat.ne_zero_of_lt hlt)
    have h0 : 0 ≤ magRat L mag := by unfold magRat; positivity
    have ht' : t ≤ (2 ^ L.mb : Nat) * 2 ^ ulpAt L (binadeTo L m e) := by
      have := magRat_lt_start hlt
      rcases ht with rfl | rfl <;> linarith
    refine (hn (2 ^ L.mb : Nat)).trans ?_
    rw [Int.cast_natCast, abs_of_nonpos (by linarith), abs_of_nonpos (by linarith)]
    linarith
  · rw [magRat_eq_units hge] at ht
    rcases ht with rfl | rfl
    · exact_mod_cast hn (codeSig L mag * 2 ^ (binadeOf L mag - binadeTo L m e) : Nat)
    · simpa using hn (-(codeSig L mag * 2 ^ (binadeOf L mag - binadeTo L m e) : Nat))

end

/-! ### conversion of finite numbers (R92) -/

section

variable {L : FpLay} {zm neg : Bool} {r : Rnd} {m : Nat} {e : Int}

theorem fpConvert_zero (L : FpLay) (zm : Bool) (r : Rnd) (neg : Bool) (e : Int) :
    fpConvert L zm r (.fin neg 0 e) = (if zm then b2n neg * 2 ^ (L.eb + L.mb) else 0, {}) := rfl

theorem fpConvert_underflows (hm : m ≠ 0) (hc : fpMagCode L r neg m e = 0) :
    fpConvert L zm r (.fin neg m e) = (if zm then b2n neg * 2 ^ (L.eb + L.mb) else 0, { und := 1 }) :=
  (if_neg hm).trans (if_pos hc)

theorem fpConvert_fits (hm : m ≠ 0) (hc : fpMagCode L r neg m e ≠ 0) (hle : fpMagCode L r neg m e ≤ L.maxC) :
    fpConvert L zm r (.fin neg m e) = (b2n neg * 2 ^ (L.eb + L.mb) + fpMagCode L r neg m e, {}) :=
  (if_neg hm).trans ((if_neg hc).trans (if_neg (Nat.not_lt.2 hle)))

theorem fpConvert_saturates (hm : m ≠ 0) (hlt : L.maxC < fpMagCode L r neg m e) :
    (fpConvert L zm r (.fin neg m e)).2.sat = 1 := by
  simp only [fpConvert, if_neg hm, if_neg (Nat.ne_zero_of_lt hlt), if_pos hlt]
  split <;> rfl

/-- A conversion that does not saturate has a code within the format. -/
theorem fpMagCode_le_of_sat (hm : m ≠ 0) (h : (fpConvert L zm r (.fin neg m e)).2.sat = 0) : fpMagCode L r neg m e ≤ L.maxC := by
  by_contra hc
  rw [fpConvert_saturates hm (Nat.not_le.1 hc)] at h
  exact absurd h (by decide)

end

/-! ### numbers with a sign -/

/-- The sign of a number as a factor. -/
def signRat (neg : Bool) : ℚ := if neg then -1 else 1

theorem rat_fin (neg : Bool) (m : Nat) (e : Int) : FV.rat (.fin neg m e) = signRat neg * (m * 2 ^ e) := mul_assoc _ _ _

theorem abs_signRat_mul_sub (neg : Bool) (x y : ℚ) : |signRat neg * x - y| = |x - signRat neg * y| := by
  cases neg
  · simp [signRat]
  · rw [signRat, if_pos rfl, ← abs_neg]
    congr 1
    ring

theorem signRat_mul_self (neg : Bool) (x : ℚ) : signRat neg * (signRat neg * x) = x := by
  cases neg <;> simp [signRat]

theorem signRat_mul_signRat (n n' : Bool) (x : ℚ) : signRat n * (signRat n' * x) = x ∨ signRat n * (signRat n' * x) = -x := by
  cases n <;> cases n' <;> simp [signRat]

theorem rat_fpDecode_signed {L : FpLay} (neg : Bool) {mag : Nat} (hL : L.maxC < 2 ^ (L.eb + L.mb)) (h : mag ≤ L.maxC) :
    FV.rat (fpDecode L (b2n neg * 2 ^ (L.eb + L.mb) + mag)) = signRat neg * magRat L mag := by
  rw [fpDecode_signed neg hL h, rat_fin, magRat]

/-- Both zeros stand for 0. -/
theorem rat_fpDecode_zero {L : FpLay} (zm neg : Bool) (hL : L.maxC < 2 ^ (L.eb + L.mb)) :
    FV.rat (fpDecode L (if zm then b2n neg * 2 ^ (L.eb + L.mb) else 0)) = 0 := by
  have h (n : Bool) : FV.rat (fpDecode L (b2n n * 2 ^ (L.eb + L.mb) + 0)) = 0 := by
    rw [rat_fpDecode_signed n hL (Nat.zero_le _), magRat_zero, mul_zero]
  cases zm
  · simpa [b2n] using h false
  · exact h neg

/-! ### the element formats (R76 to R80) -/

/-- A floating-point format's codes hold a sign over its magnitude codes. -/
theorem lay_fits {f : Fmt} {L : FpLay} (h : f.lay = some L) : f.width = L.eb + L.mb + 1 ∧ L.maxC < 2 ^ (L.eb + L.mb) := by
  cases f <;> cases h <;> decide

end Sys2Proof.Laws
end

section
/-! A finite element code is the code of its value (R76 to R80, R92, R94), and O14. -/

namespace Sys2Proof.Elements

open Sys2Proof Sys2Proof.Machine Sys2Proof.Laws

/-- The value of a finite floating-point code converts to the code, but for a negative zero in native mode. -/
theorem fpConvert_fpDecode {L : FpLay} {zm : Bool} {c : Nat} (r : Rnd) (hc : c < 2 ^ (L.eb + L.mb + 1))
    (hfin : (fpDecode L c).isFin = true) (hz : zm = true ∨ ∀ e, fpDecode L c ≠ .fin true 0 e) :
    fpConvert L zm r (fpDecode L c) = (c, {}) := by
  have hle := isFin_fpDecode hfin
  have hsum := sign_add_mag hc
  rw [fpDecode_eq hle] at hz ⊢
  by_cases h0 : c % 2 ^ (L.eb + L.mb) = 0
  · have hsig : codeSig L (c % 2 ^ (L.eb + L.mb)) = 0 := by rw [h0, codeSig_eq_zero]
    rw [h0, Nat.add_zero] at hsum
    rw [hsig] at hz ⊢
    rw [fpConvert_zero]
    rcases hz with rfl | hpos
    · rw [if_pos rfl, hsum]
    · have hbit : bit c (L.eb + L.mb) = false := Bool.eq_false_iff.2 fun hb => hpos _ (by rw [hb])
      have hc0 : c = 0 := by rw [← hsum, hbit, b2n, if_neg Bool.false_ne_true, Nat.zero_mul]
      rw [hbit, hc0, b2n, if_neg Bool.false_ne_true, Nat.zero_mul, ite_self]
  · have hsig : codeSig L (c % 2 ^ (L.eb + L.mb)) ≠ 0 := mt codeSig_eq_zero.1 h0
    have hcode := fpMagCode_codeSig r (bit c (L.eb + L.mb)) hsig
    rw [fpConvert_fits hsig (hcode.trans_ne h0) (hcode.trans_le hle), hcode, hsum]

/-- The largest magnitude an integer format holds on each side of 0. -/
def intLimit (w : Nat) (sgn neg : Bool) : Nat :=
  if neg then (if sgn then 2 ^ (w - 1) else 0) else (if sgn then 2 ^ (w - 1) - 1 else 2 ^ w - 1)

/-- A whole number within the limits converts to its two's complement image. -/
theorem intConvert_whole {w m : Nat} {sgn neg : Bool} (h : m ≤ intLimit w sgn neg) :
    intConvert w sgn (.fin neg m 0) = (if neg then (2 ^ w - m) % 2 ^ w else m, {}) := by
  have hlim : ¬ intLimit w sgn neg < roundUnits .ne neg m 0 0 := Nat.not_lt.2 ((roundUnits_self ..).trans_le h)
  refine (if_neg hlim).trans ?_
  rw [roundUnits_self, if_neg (fun h0 : m = 0 ∧ m ≠ 0 => h0.2 h0.1)]

section

variable {w v : Nat} {sgn : Bool}

theorem intConvert_neg (hw : 0 < w) (hv : v < 2 ^ w) (hge : 2 ^ (w - 1) ≤ v) :
    intConvert w true (.fin true (2 ^ w - v) 0) = (v, {}) := by
  have hpow : 2 ^ w = 2 * 2 ^ (w - 1) := by rw [← pow_succ', Nat.sub_add_cancel hw]
  have hlim : 2 ^ w - v ≤ intLimit w true true := show 2 ^ w - v ≤ 2 ^ (w - 1) by omega
  rw [intConvert_whole hlim, if_pos rfl, Nat.sub_sub_self hv.le, Nat.mod_eq_of_lt hv]

theorem intConvert_nonneg (hv : v < 2 ^ w) (hlt : sgn = true → v < 2 ^ (w - 1)) : intConvert w sgn (.fin false v 0) = (v, {}) := by
  have hlim : v ≤ intLimit w sgn false := by
    cases sgn
    · exact Nat.le_sub_one_of_lt hv
    · exact Nat.le_sub_one_of_lt (hlt rfl)
  rw [intConvert_whole hlim, if_neg Bool.false_ne_true]

end

/-- The value of an integer code: no negative zero among them. -/
theorem fmtDecode_int {f : Fmt} (hf : f.lay = none) (sgn : Bool) {c : Nat} (hc : c < 2 ^ f.width) :
    (sgn = true ∧ 2 ^ (f.width - 1) ≤ c ∧ fmtDecode f sgn c = .fin true (2 ^ f.width - c) 0) ∨
    ((sgn = true → c < 2 ^ (f.width - 1)) ∧ fmtDecode f sgn c = .fin false c 0) := by
  rw [fmtDecode, hf]
  dsimp only
  rw [Nat.mod_eq_of_lt hc]
  split
  next h =>
    rw [Bool.and_eq_true, decide_eq_true_eq] at h
    exact .inl ⟨h.1, h.2, rfl⟩
  next h =>
    rw [Bool.and_eq_true, decide_eq_true_eq, not_and, Nat.not_le] at h
    exact .inr ⟨h, rfl⟩

theorem intConvert_fmtDecode {f : Fmt} (hf : f.lay = none) (sgn : Bool) {c : Nat} (hc : c < 2 ^ f.width) :
    intConvert f.width sgn (fmtDecode f sgn c) = (c, {}) := by
  have hw : 0 < f.width := by cases f <;> decide
  obtain ⟨rfl, hge, hv⟩ | ⟨hlt, hv⟩ := fmtDecode_int hf sgn hc
  · rw [hv, intConvert_neg hw hc hge]
  · rw [hv, intConvert_nonneg hc hlt]

theorem fmtDecode_int_ne_negZero {f : Fmt} (hf : f.lay = none) (sgn : Bool) {c : Nat} (hc : c < 2 ^ f.width) (e : Int) :
    fmtDecode f sgn c ≠ .fin true 0 e := by
  intro h
  obtain ⟨-, -, hv⟩ | ⟨-, hv⟩ := fmtDecode_int hf sgn hc
  · rw [hv, FV.fin.injEq] at h
    omega
  · rw [hv, FV.fin.injEq] at h
    exact Bool.false_ne_true h.1

/-! ### formats of either kind -/

section

variable {f : Fmt} {L : FpLay} {sgn zm : Bool} {r : Rnd} {v : FV} {c : Nat}

theorem fmtDecode_fp (hf : f.lay = some L) : fmtDecode f sgn c = fpDecode L c := by
  rw [fmtDecode, hf]

theorem fmtConvert_fp (hf : f.lay = some L) : fmtConvert f sgn zm r v = fpConvert L zm r v := by
  rw [fmtConvert, hf]

theorem fmtConvert_int (hf : f.lay = none) : fmtConvert f sgn zm r v = intConvert f.width sgn v := by
  rw [fmtConvert, hf]

end

/-- Settles O14: the value of a floating-point code falls in the code's own binade, where rounding leaves its significand as it is
(`fpConvert_fpDecode`), and an integer code lies within its format's limits (`intConvert_fmtDecode`). -/
theorem elementCodesSurviveDecodeAndConvert : Obligations.ElementCodesSurviveDecodeAndConvert := by
  unfold Obligations.ElementCodesSurviveDecodeAndConvert
  intro f sgn zm r c hc hfin
  cases hf : f.lay with
  | none =>
    rw [fmtConvert_int hf, intConvert_fmtDecode hf sgn hc]
    exact ⟨fun _ => rfl, fun _ ⟨e, hz⟩ => absurd hz (fmtDecode_int_ne_negZero hf sgn hc e)⟩
  | some L =>
    rw [fmtDecode_fp hf] at hfin ⊢
    rw [fmtConvert_fp hf]
    refine ⟨fun hz => fpConvert_fpDecode r ((lay_fits hf).1 ▸ hc) hfin hz, fun hzm ⟨e, hz⟩ => ?_⟩
    rw [hz, hzm]
    exact fpConvert_zero L false r true e

end Sys2Proof.Elements
end

section
/-! A conversion to nearest gives a nearest code (R90, R92, R468), and O15. -/

namespace Sys2Proof.Elements

open Sys2Proof Sys2Proof.Machine Sys2Proof.Laws

/-- The code that a conversion within the format gives stands for the value of the number's magnitude code, with its sign. -/
theorem rat_fpConvert {L : FpLay} {zm neg : Bool} {m : Nat} {e : Int} (hL : L.maxC < 2 ^ (L.eb + L.mb)) (hm : m ≠ 0)
    (hle : fpMagCode L .ne neg m e ≤ L.maxC) :
    FV.rat (fpDecode L (fpConvert L zm .ne (.fin neg m e)).1) = signRat neg * magRat L (fpMagCode L .ne neg m e) := by
  by_cases h0 : fpMagCode L .ne neg m e = 0
  · rw [fpConvert_underflows hm h0, rat_fpDecode_zero zm neg hL, h0, magRat_zero, mul_zero]
  · rw [fpConvert_fits hm h0 hle, rat_fpDecode_signed neg hL hle]

/-- Settles O15: a zero converts to a zero, and any other number to a code that no code is nearer than (`magRat_fpMagCode_nearest`). -/
theorem nearestEvenGivesANearestCode : Obligations.NearestEvenGivesANearestCode := by
  unfold Obligations.NearestEvenGivesANearestCode
  intro L f zm neg m e c hf hsat _ hfin
  obtain ⟨-, hL⟩ := lay_fits hf
  by_cases hm : m = 0
  · rw [hm, fpConvert_zero, rat_fpDecode_zero zm neg hL, rat_fin, Nat.cast_zero, zero_mul, mul_zero, sub_self, abs_zero]
    exact abs_nonneg _
  · rw [rat_fpConvert hL hm (fpMagCode_le_of_sat hm hsat), fpDecode_eq (isFin_fpDecode hfin), rat_fin, rat_fin,
      abs_signRat_mul_sub, signRat_mul_self, ← abs_signRat_mul_sub]
    exact magRat_fpMagCode_nearest neg hm _ (signRat_mul_signRat _ _ _)

end Sys2Proof.Elements
end

section
/-! SUPPORT. What storing a unit's results leaves as it was, said once (`StoreSide`): a result goes into a store ring of its face, into
an object, or as a contribution to a Crucible, which may close its part (R192, R217, R295 to R329). -/

namespace Sys2Proof.Laws

open Sys2Proof Sys2Proof.Machine

/-! ### registers of the Crucibles and of the directory -/

theorem not_aside_cru {C r : Nat} (hC : C < 128) (hr : r < 0x2000) : ¬ aside (dieBase (C / 8) + 0x20000 + C % 8 * 0x2000 + r) := by
  rw [Nat.add_assoc, Nat.add_assoc]
  exact not_aside_of_die (by omega) (by omega)
theorem not_aside_cruJob {C e r : Nat} (hC : C < 128) (he : e < 256) (hr : r < 0x1010) :
    ¬ aside (dieBase (C / 8) + 0x20000 + C % 8 * 0x2000 + r + e * 16) := by
  rw [Nat.add_assoc _ r]
  exact not_aside_cru hC (by omega)
theorem not_aside_dir {j r : Nat} (hj : j < 4096) (hr : r < 0x40040) : ¬ aside (0x500000 + r + j * 64) :=
  not_aside_of_lt (by omega)

theorem cruOf_lt (s : State) (job i : Nat) : s.cruOf job i < 128 := Nat.mod_lt _ (by decide)
theorem witnessOf_lt {C : Nat} (h : C < 128) : witnessOf C < 128 := by
  have hx : C % 8 ^^^ 4 < 2 ^ 3 := Nat.xor_lt_two_pow (Nat.mod_lt _ (by decide)) (by decide)
  unfold witnessOf
  omega
theorem ptJob_lt (w : Nat) : ptJob w < 4096 := bits_lt _ _ 12

/-- A part's number in its Crucible's job table. -/
theorem partAt_lt {s : State} {job C e w : Nat} (h : s.partAt job C = some (e, w)) : e < 256 := by
  unfold State.partAt State.parts at h
  obtain ⟨p, hp, hep⟩ := Option.map_eq_some_iff.1 h
  obtain ⟨r, -, hr⟩ := List.mem_filterMap.1 (List.mem_of_find?_eq_some hp)
  extract_lets o at hr
  split_ifs at hr
  cases hr
  cases hep
  omega

/-! ### the frame -/

/-- What storing results leaves: beside memory's side nothing but the records of the streams, of the Crucibles, of what waits for a
die's merge and of which clocks run differs. -/
structure StoreSide (s t : State) : Prop where
  rest : t = { s with regs := t.regs, mem := t.mem, poison := t.poison, out := t.out, freeN := t.freeN,
                      hif := { s.hif with nextTag := t.hif.nextTag }, dies := t.dies, strms := t.strms, cru := t.cru,
                      dram := t.dram, plc := t.plc, fab := t.fab, obs := t.obs, pwr := t.pwr, queues := t.queues }
  regs : ∀ a, aside a → t.reg a = s.reg a

theorem MemSide.store {s t : State} (h : MemSide s t) : StoreSide s t := ⟨by rw [h.rest], h.regs⟩

namespace StoreSide

variable {s t u : State}

theorem refl (s : State) : StoreSide s s := ⟨rfl, fun _ _ => rfl⟩
theorem trans (h : StoreSide s t) (g : StoreSide t u) : StoreSide s u where
  rest := by rw [g.rest, h.rest]
  regs := fun a ha => (g.regs a ha).trans (h.regs a ha)

theorem ite {p : Prop} [Decidable p] (h : p → StoreSide s t) (g : ¬p → StoreSide s u) : StoreSide s (if p then t else u) := by
  split
  · exact h ‹_›
  · exact g ‹_›

theorem foldl {α : Type} {f : State → α → State} {l : List α} (hf : ∀ s, ∀ a ∈ l, StoreSide s (f s a)) (s : State) :
    StoreSide s (l.foldl f s) := by
  induction l generalizing s with
  | nil => exact refl s
  | cons a l ih =>
    exact (hf s a List.mem_cons_self).trans (ih (fun s b hb => hf s b (List.mem_cons_of_mem _ hb)) _)

/-- A fold that carries more than the state. -/
theorem foldlFst {α β : Type} {f : State × β → α → State × β} (hf : ∀ x a, StoreSide x.1 (f x a).1) (l : List α)
    (x : State × β) : StoreSide x.1 (l.foldl f x).1 := by
  induction l generalizing x with
  | nil => exact refl x.1
  | cons a l ih => exact (hf x a).trans (ih _)

theorem faces (h : StoreSide s t) : t.faces = s.faces := by rw [h.rest]

/-- Records that storing keeps. -/
theorem note (s : State) (n : Nat) (ds : List (Nat × Die)) (st : List (Nat × Strm)) (c : Cru) (m : Dram) (f : Fabric) (p : Power)
    (q : List (Nat × QGroup)) :
    StoreSide s { s with freeN := n, dies := ds, strms := st, cru := c, dram := m, fab := f, pwr := p, queues := q } :=
  ⟨rfl, fun _ _ => rfl⟩
theorem cru (s : State) (c : Cru) : StoreSide s { s with cru := c } := note s _ _ _ _ _ _ _ _

theorem setReg (s : State) {a : Nat} (ha : ¬ aside a) (v : Nat) : StoreSide s (s.setReg a v) := (MemSide.setReg s ha v).store
theorem setFld (s : State) {a : Nat} (ha : ¬ aside a) (f : Fld) (v : Nat) : StoreSide s (s.setFld a f v) := setReg s ha _
theorem setFlag (s : State) {a : Nat} (ha : ¬ aside a) (f : Fld) (b : Bool) : StoreSide s (s.setFlag a f b) := setReg s ha _
theorem bumpSat (s : State) {a : Nat} (ha : ¬ aside a) (f : Fld) (n : Nat) : StoreSide s (s.bumpSat a f n) := setReg s ha _
theorem bump (s : State) {a : Nat} (ha : ¬ aside a) (h4 : ¬ aside (a + 4)) (n : Nat) : StoreSide s (s.bump a n) :=
  (MemSide.bump s ha h4 n).store
theorem raise (s : State) {a : Nat} (ha : ¬ aside a) (f : Fld) : StoreSide s (s.raise a f) := (MemSide.raise s ha f).store
theorem fault (s : State) (c k o d : Nat) : StoreSide s (s.fault c k o d) := (MemSide.fault s c k o d).store
theorem sendPlain (s : State) (p : Packet) : StoreSide s (s.sendPlain p) := (MemSide.sendPlain s p).store
theorem objSeen (s : State) (a n : Nat) (face : Option Nat) : StoreSide s (s.objSeen a n face) := (MemSide.objSeen s a n face).store
theorem objWrite (s : State) (a : Nat) (v : List Byte) (b : Bool) : StoreSide s (s.objWrite a v b) :=
  (MemSide.objWriteFrom s a v b none).store

/-! ### the cap that waits for open jobs (R235) -/

theorem setMcAll (s : State) {d : Nat} (hd : d < 16) {r : Nat → Nat → Nat} {o : Nat} (ho : o < 0x1000)
    (hr : ∀ c, r d c = dieBase d + 0x10000 + c * 0x1000 + o) (f : Fld) (v : Nat) : StoreSide s (s.setMcAll d r f v) := by
  refine foldl (fun s c hc => setFld s ?_ f v) s
  have := List.mem_range.1 hc
  rw [hr, Nat.add_assoc, Nat.add_assoc]
  exact not_aside_of_die hd (by omega)
theorem setCap (s : State) {d : Nat} (hd : d < 16) (on : Bool) : StoreSide s (s.setCap d on) :=
  (setMcAll s hd (by decide) (fun _ => rfl) _ _).trans (note _ _ _ _ _ _ _ _ _)
theorem setGrace (s : State) {d : Nat} (hd : d < 16) (l : List Nat) (n : Nat) : StoreSide s (s.setGrace d l n) :=
  ((setMcAll s hd (by decide) (fun _ => rfl) _ _).trans (setMcAll _ hd (by decide) (fun _ => rfl) _ _)).trans (note _ _ _ _ _ _ _ _ _)
theorem graceCheck (s : State) {d : Nat} (hd : d < 16) : StoreSide s (s.graceCheck d) :=
  ite (fun _ => refl s) fun _ => ite (fun _ => (setGrace s hd _ _).trans (setCap _ hd _)) (fun _ => note s _ _ _ _ _ _ _ _)

/-! ### blocks (R300, R314) -/

section
variable {C : Nat} (hC : C < 128)
include hC

theorem showStaged (s : State) : StoreSide s (s.showStaged C) := setFld s (not_aside_cru hC (by decide)) _ _
theorem stageDrop (s : State) (wit : Bool) (job : Nat) : StoreSide s (s.stageDrop C wit job) := (cru s _).trans (showStaged hC _)
theorem event (s : State) (f : Fld) : StoreSide s (s.raise (CRU_EVENT (C / 8) (C % 8)) f) := raise s (not_aside_cru hC (by decide)) f
theorem blkErr (s : State) (bad : Bool) : StoreSide s (s.blkErr C bad) := ite (fun _ => event hC s _) (fun _ => refl s)

end

theorem blkSeen (s : State) (C : Nat) (wit : Bool) (job b : Nat) : StoreSide s (s.blkSeen C wit job b) :=
  ite (fun _ => refl s) fun _ => (objSeen s _ _ _).trans (ite (fun _ => objSeen _ _ _ _) (fun _ => refl _))
theorem stageOut (s : State) (k : Nat) (e : Staged) : StoreSide s (s.stageOut k e) :=
  (objWrite s _ _ _).trans ((objWrite _ _ _ _).trans (note _ _ _ _ _ _ _ _ _))
theorem blkPut (s : State) {C : Nat} (hC : C < 128) (wit : Bool) (job b : Nat) (sums : List Nat) (word : Nat) :
    StoreSide s (s.blkPut C wit job b sums word) := by
  unfold State.blkPut
  extract_lets k held full t n
  have evicted : StoreSide s t := by
    refine ite (fun _ => ?_) (fun _ => refl s)
    split
    · exact stageOut s _ _
    · exact refl s
  exact ((evicted.trans (cru t _)).trans (showStaged hC _)).trans (note _ _ _ _ _ _ _ _ _)

/-! ### parts (R315, R320, R329) -/

theorem jobReset (s : State) {job : Nat} (hj : job < 4096) (step : Nat) : StoreSide s (s.jobReset job step) :=
  ((((setReg s (not_aside_dir hj (by decide)) _).trans (setReg _ (not_aside_dir hj (by decide)) _)).trans
    (setReg _ (not_aside_dir hj (by decide)) _)).trans (setReg _ (not_aside_dir hj (by decide)) _)).trans (cru _ _)

section
variable {C : Nat} (hC : C < 128)
include hC

theorem cruShow (s : State) : StoreSide s (s.cruShow C) :=
  ((setFld s (not_aside_cru hC (by decide)) _ _).trans (setFld _ (not_aside_of_lt (by decide)) _ _)).trans (graceCheck _ (by omega))
theorem setPart (s : State) {e : Nat} (he : e < 256) (st job step : Nat) : StoreSide s (s.setPart C e st job step) :=
  (setReg s (not_aside_cruJob hC he (by decide)) _).trans (cruShow hC _)

theorem cutPart (s : State) {e : Nat} (he : e < 256) (w : Nat) : StoreSide s (s.cutPart C e w) := by
  unfold State.cutPart
  extract_lets job mine t t' t''
  have recorded : StoreSide s t := by
    refine foldl (fun s x _ => ?_) s
    split
    · exact objWrite s _ _ _
    · exact refl s
  have cut : StoreSide t t'' :=
    ((stageDrop hC t false job).trans (setPart hC _ he _ _ _)).trans (raise t' (not_aside_of_lt (by decide)) _)
  exact (recorded.trans cut).trans (ite (fun _ => setFld t'' (not_aside_dir (ptJob_lt w) (by decide)) _ _) (fun _ => refl t''))

theorem openPart {job : Nat} (hj : job < 4096) {step : Nat} (h : s.openPart job C step = some t) : StoreSide s t := by
  have witnessed (s : State) (l : List Nat) : StoreSide s (match s.witExp (s.pol job) with
      | none => s
      | some w => (l.filter (sampled w step)).foldl (fun s b => s.objWrite (s.recAt true job b) (List.replicate 8 0) false) s) := by
    split
    · exact refl s
    · exact foldl (fun s _ _ => objWrite s _ _ _) s
  unfold State.openPart at h
  split at h
  · cases h
  extract_lets old used slot t1 t2 t3 area t4 blocks t5 t6 at h
  have hold : ∀ e w, old = some (e, w) → e < 256 := fun e w ho => partAt_lt ho
  have hslot : ∀ e, slot = some e → e < 256 := fun e hs => by
    cases ho : old with
    | none =>
      simp only [slot, ho] at hs
      exact List.mem_range.1 (List.mem_of_find?_eq_some hs)
    | some p =>
      simp only [slot, ho] at hs
      cases hs
      exact hold _ _ ho
  clear_value old slot
  cases slot with
  | none => cases h
  | some e =>
    have he := hslot e rfl
    cases h
    have recut : StoreSide s t1 := by
      cases old with
      | none => exact refl s
      | some p => exact ite (fun _ => cutPart hC s (hold _ _ rfl) _) (fun _ => refl s)
    have dropped : StoreSide t1 t3 := (ite (fun _ => jobReset t1 hj _) (fun _ => refl t1)).trans
      ((stageDrop hC t2 _ _).trans (stageDrop (witnessOf_lt hC) _ _ _))
    have cleared : StoreSide t3 t6 :=
      ((objWrite t3 _ _ _).trans (foldl (fun s _ _ => objWrite s _ _ _) t4)).trans (witnessed t5 _)
    exact (((((recut.trans dropped).trans cleared).trans (setReg t6 (not_aside_cruJob hC he (by decide)) _)).trans
      (setReg _ (not_aside_cruJob hC he (by decide)) _)).trans (setReg _ (not_aside_cruJob hC he (by decide)) _)).trans
        (setPart hC _ he _ _ _)

end

/-! ### closing a part (R318, R319, R321 to R323) -/

theorem countSent (s : State) (k : Nat) : StoreSide s (s.countSent k) := cru s _

theorem forwardCnt (s : State) (d job step : Nat) (c : ConvCnt) : StoreSide s (s.forwardCnt d job step c) := by
  unfold State.forwardCnt
  split
  · exact refl s
  · exact note s _ _ _ _ _ _ _ _

section
variable {C : Nat} (hC : C < 128)
include hC

theorem forwardBlk (s : State) (job step b : Nat) (e : Staged) (bad : Bool) : StoreSide s (s.forwardBlk job C step b e bad) := by
  unfold State.forwardBlk
  extract_lets fmt next slot shard zero amax agA a t1 q need idle exceeds scale esc enc data t2 samp ext p t3 t4 t5 t6 t7
  have read : StoreSide s t1 := objSeen s _ _ _
  have counted : StoreSide t1 t2 := ite (fun _ => refl t1) (fun _ => forwardCnt t1 _ _ _ _)
  have sent : StoreSide t2 t4 := (sendPlain t2 _).trans (ite (fun _ => sendPlain t3 _) (fun _ => refl t3))
  have shown : StoreSide t4 t7 := ((countSent t4 _).trans
    (bump t5 (not_aside_cru hC (by decide)) (not_aside_cru hC (r := 0x2c) (by decide)) 1)).trans
      (ite (fun _ => event hC t6 _) (fun _ => refl t6))
  exact ite (fun _ => refl s) fun _ => (((read.trans counted).trans sent).trans shown).trans
    (ite (fun _ => refl t7) (fun _ => objWrite t7 _ _ _))

variable {job : Nat} (hj : job < 4096)
include hj

theorem closeBlk (s : State) (step : Nat) (zm failed : Bool) (b : Nat) : StoreSide s (s.closeBlk job C step zm failed b) := by
  have count (s : State) {r : Nat} (hr : r < 0x40040) {p : Prop} [Decidable p] (f : Fld) :
      StoreSide s (if p then s.bumpSat (0x500000 + r + job * 64) f 1 else s) :=
    ite (fun _ => bumpSat s (not_aside_dir hj hr) f 1) (fun _ => refl s)
  have flagged (s : State) : StoreSide s (s.setFlag (DIR_W12 job) DIR_W12_NF true) := setFlag s (not_aside_dir hj (by decide)) _ _
  unfold State.closeBlk
  extract_lets r t1 e t2 t3 t4 t5 t6 n nf
  have read : StoreSide s t2 := (blkSeen s _ _ _ _).trans (blkErr hC t1 _)
  have counted : StoreSide t2 t5 := ((count t2 (by decide) _).trans (count t3 (by decide) _)).trans (count t4 (by decide) _)
  have kept : StoreSide s t6 := (read.trans counted).trans (objWrite t5 _ _ _)
  refine kept.trans (ite (fun _ => forwardBlk hC t6 _ _ _ _ _) (fun _ => ?_))
  split
  · exact (objWrite t6 _ _ _).trans (flagged _)
  · exact (objWrite t6 _ _ _).trans (ite (fun _ => flagged _) (fun _ => refl _))

omit hj in
theorem compareBlks (s : State) : StoreSide s (s.compareBlks job C).1 := by
  have look (s : State) {D : Nat} (hD : D < 128) (wit : Bool) (b : Nat) (bad : Bool) :
      StoreSide s ((s.blkSeen D wit job b).blkErr D bad) := (blkSeen s _ _ _ _).trans (blkErr hD _ _)
  unfold State.compareBlks
  split
  · exact refl s
  · refine foldlFst (fun x b => ?_) _ (s, [])
    extract_lets ra a t rv v t'
    have mine : StoreSide x.1 t := look x.1 hC false b ra.2
    have both : StoreSide x.1 t' := mine.trans (look t (witnessOf_lt hC) true b rv.2)
    split
    · exact mine
    · split
      · exact both.trans (event hC t' _)
      · exact both
      · exact both.trans (event hC t' _)

omit hC in
theorem jobClose (s : State) : StoreSide s (s.jobClose job) := by
  unfold State.jobClose
  extract_lets step sts t1 t2
  refine ite (fun _ => refl s) fun _ => trans (setFld s (not_aside_dir hj (by decide)) _ _) <|
    trans (ite (fun _ => raise t1 (not_aside_of_lt (by decide)) _) (fun _ => refl t1)) <| ite (fun _ => refl t2) fun _ =>
      foldl (fun s _ _ => (MemSide.send s _ _).store) t2

theorem closePart (s : State) {e : Nat} (he : e < 256) (w : Nat) (forced : Bool) : StoreSide s (s.closePart job C e w forced) := by
  unfold State.closePart
  extract_lets step cmp t1 failed zm blocks t2 t3 t4 t5 t6 t7
  have closed : StoreSide s t3 := ((compareBlks hC s).trans (foldl (fun s _ _ => closeBlk hC hj s _ _ _ _) t1)).trans
    (setReg t2 (not_aside_cruJob hC he (by decide)) _)
  have parted : StoreSide t3 t5 := (stageDrop hC t3 _ _).trans (setPart hC t4 he _ _ _)
  have told : StoreSide t5 t7 := trans
    (ite (fun _ => refl t5) (fun _ => ((setFlag t5 (not_aside_dir hj (by decide)) _ _).trans
      (raise _ (not_aside_of_lt (by decide)) _)).trans (fault _ _ _ _ _)))
    (ite (fun _ => fault t6 _ _ _ _) (fun _ => refl t6))
  exact ((closed.trans parted).trans told).trans (jobClose hj t7)

theorem partCheck (s : State) : StoreSide s (s.partCheck job C) := by
  unfold State.partCheck
  split
  · exact refl s
  next e w h =>
    have he := partAt_lt h
    exact ite (fun _ => refl s) fun _ => ite (fun _ => (objSeen s _ _ _).trans (closePart hC hj _ he w true)) fun _ =>
      (setReg s (not_aside_cruJob hC he (by decide)) _).trans (ite (fun _ => closePart hC hj _ he w false) (fun _ => refl _))

end

/-! ### arrivals (R311 to R313) -/

section
variable {C : Nat} (hC : C < 128)
include hC

theorem cruDiscard (s : State) (f : Fld) (info : Option (Nat × Nat × Nat)) : StoreSide s (s.cruDiscard C f info) := by
  have counted := (bump s (not_aside_cru hC (by decide)) (not_aside_cru hC (r := 0x24) (by decide)) 1).trans (event hC _ f)
  unfold State.cruDiscard
  extract_lets t
  split
  · exact counted
  · exact counted.trans (setReg t (not_aside_cru hC (by decide)) _)

theorem cruAdd (s : State) (wit : Bool) (p : Packet) : StoreSide s (s.cruAdd C wit p) := by
  have wake (s : State) : StoreSide s (s.wake (18432 + C)) := note s _ _ _ _ _ _ _ _
  -- unfolded as a constant, so that the kernel need not evaluate `applyAcc` to compare the two sides
  generalize hF : @State.cruAdd = F
  delta State.cruAdd at hF
  subst hF
  beta_reduce
  extract_lets +onlyGivenNames job slot b ev t1 r t2 t3 e put
  have read : StoreSide s t3 := trans ((ite (fun _ => event hC s _) (fun _ => refl s)).trans (wake _))
    ((blkSeen t1 _ _ _ _).trans (blkErr hC t2 _))
  refine read.trans ?_
  split
  · exact (blkPut t3 hC _ _ _ _ _).trans (cruDiscard hC _ _ _)
  · exact (blkPut t3 hC _ _ _ _ _).trans (cruDiscard hC _ _ _)
  · exact cruDiscard hC t3 _ _
  · extract_lets fk c t4 t5 t6 t7
    have put : StoreSide t3 t5 := trans (ite (fun _ => refl t3) (fun _ => cru t3 _)) (blkPut t4 hC _ _ _ _ _)
    have counted : StoreSide t5 t6 := bump t5 (not_aside_cru hC (by decide)) (not_aside_cru hC (r := 0x1c) (by decide)) 1
    have added : StoreSide t6 t7 :=
      ite (fun _ => bump t6 (not_aside_cru hC (by decide)) (not_aside_cru hC (r := 0x14) (by decide)) 256) (fun _ => refl t6)
    exact ((put.trans counted).trans added).trans (ite (fun _ => event hC t7 _) (fun _ => refl t7))

theorem cruArrive (s : State) (p : Packet) : StoreSide s (s.cruArrive C p) := by
  unfold State.cruArrive
  extract_lets job slot copy own D part late stale isOpen
  have hown : own < 128 := by
    simp only [own]
    split
    · exact cruOf_lt s _ _
    · exact hC
  have hD : D < 128 := by
    simp only [D]
    split
    · exact witnessOf_lt hown
    · exact hown
  have discard (s : State) (f : Fld) (i : Option (Nat × Nat × Nat)) : StoreSide s (s.cruDiscard D f i) := cruDiscard hD s f i
  refine ite (fun _ => discard s _ _) fun _ => ite (fun _ => discard s _ _) fun _ => ite (fun _ => discard s _ _) fun _ =>
    ite (fun _ => discard s _ _) fun _ => ?_
  split
  · exact discard s _ _
  next t ht =>
    have hj : job < 4096 := bits_lt _ _ 12
    have entered : StoreSide s t := by
      split at ht
      · cases ht
        exact refl s
      · exact openPart hown hj ht
    refine entered.trans (ite (fun _ => discard t _ _) fun _ => ?_)
    extract_lets a v t'
    exact (trans (ite (fun _ => refl t) (fun _ => objWrite t _ _ _)) (cruAdd hD t' _ _)).trans (partCheck hown hj _)

end

/-! ### the packers (R304 to R307) -/

theorem sendBlk (s : State) (d : Nat) (layer : List Byte) (job b : Nat) (elems : List (Nat × Nat)) (bad : Bool) :
    StoreSide s (s.sendBlk d layer job b elems bad) := by
  have sent (s : State) (shard : Nat) (p : Packet) {q : Prop} [Decidable q] :
      StoreSide s (if q then s.cruArrive (s.cruOf job shard) p else s.sendPlain p) :=
    ite (fun _ => cruArrive (cruOf_lt s _ _) s p) (fun _ => sendPlain s p)
  unfold State.sendBlk
  refine ite (fun _ => refl s) (fun _ => ?_)
  extract_lets pol wide fine fmt f n vals zero pick scale enc data cnt r x t1 samp shard slot copy dst p out t2 t3
  have recorded : StoreSide s t1 := ite (fun _ => refl s) (fun _ => note s _ _ _ _ _ _ _ _)
  have first : StoreSide t1 t3 := (countSent t1 _).trans (sent t2 shard _)
  exact (recorded.trans first).trans (ite (fun _ => sent t3 shard _) (fun _ => refl t3))

theorem packAdd (s : State) (d : Nat) (layer : List Byte) (b off : Nat) (vals : List Nat) (bad : Bool) :
    StoreSide s (s.packAdd d layer b off vals bad) :=
  ite (fun _ => (cru s _).trans (sendBlk _ _ _ _ _ _ _)) (fun _ => (cru s _).trans (note _ _ _ _ _ _ _ _ _))

theorem packRun (d : Nat) (layer : List Byte) (n fuel k : Nat) (vals : List Nat) (bad : Bool) (s : State) :
    StoreSide s (s.packRun d layer n fuel k vals bad) := by
  induction fuel generalizing k vals s with
  | zero => exact refl s
  | succ fuel ih => exact ite (fun _ => refl s) (fun _ => (packAdd s _ _ _ _ _ _).trans (ih _ _ _))

/-! ### a unit's stores (R189, R217) -/

theorem faceStore (s : State) (d f oa : Nat) (v : List Byte) (bad : Bool) : StoreSide s (s.faceStore d f oa v bad) := by
  -- what a segment is does not matter here: as a variable it keeps the kernel from evaluating it
  obtain ⟨seg, hseg⟩ : ∃ g, streamSeg = g := ⟨_, rfl⟩
  unfold State.faceStore
  rw [hseg]
  refine ite (fun _ => (MemSide.objWriteFrom s _ _ _ _).store) (fun _ => foldl (fun s p _ => ?_) s)
  split
  · extract_lets b w t r
    have put : StoreSide s t := (MemSide.ringPut s _ _ _ _ _ _).store
    split
    · exact put.trans (note t _ _ _ _ _ _ _ _)
    · exact put
  · exact (MemSide.objWriteFrom s _ _ _ _).store

theorem codeStore (s : State) (d f : Nat) (b : List Byte) (oa : Nat) (v : List Byte) (bad : Bool) :
    StoreSide s (s.codeStore d f b oa v bad) := by
  have seen (p : Bool) : StoreSide s (if p then s.faceSeen d f oa v.length else s).draw.2 :=
    trans (ite (fun _ => (MemSide.faceSeen s _ _ _ _).store) (fun _ => refl s)) (MemSide.draw _).store
  exact ite (fun _ => faceStore s _ _ _ _ _) fun _ => (seen _).trans
    (ite (fun _ => packRun _ _ _ _ _ _ _ _) (fun _ => faceStore _ _ _ _ _ _))

end StoreSide
end Sys2Proof.Laws
end

section
/-! Rows of the planisher and its sign halves (R106, R108, R112, R122, R123), and O16. -/

namespace Sys2Proof.Planisher

open Sys2Proof Sys2Proof.Machine Sys2Proof.Laws

/-! ### clocks -/

theorem reg_congr {s t : State} (h : t.regs = s.regs) (a : Nat) : t.reg a = s.reg a := by rw [State.reg, State.reg, h]
theorem wake_reg (s : State) (n a : Nat) : (s.wake n).reg a = s.reg a := reg_congr rfl a
theorem wake_face (s : State) (n d f : Nat) : (s.wake n).face d f = s.face d f := face_congr rfl d f

/-! ### the row at the head, and the count of rows -/

/-- The rows that wait at the planisher of face f of die d, and the count of rows it has planished, stand as before. -/
structure RowKept (d f : Nat) (s t : State) : Prop where
  rows : (t.face d f).rows = (s.face d f).rows
  count : t.pair (PL_ROWS_LO d f) = s.pair (PL_ROWS_LO d f)

namespace RowKept

variable {d f : Nat} {s t u : State}

theorem refl (s : State) : RowKept d f s s := ⟨rfl, rfl⟩
theorem trans (h : RowKept d f s t) (g : RowKept d f t u) : RowKept d f s u := ⟨g.rows.trans h.rows, g.count.trans h.count⟩
theorem ite {p : Prop} [Decidable p] (h : p → RowKept d f s t) (g : ¬p → RowKept d f s u) : RowKept d f s (if p then t else u) := by
  split
  · exact h ‹_›
  · exact g ‹_›

theorem of_store (hd : d < 16) (hf : f < 64) (h : StoreSide s t) : RowKept d f s t where
  rows := congrArg Face.rows (face_congr h.faces d f)
  count := pair_of_reg (h.regs _ (Completion.aside_faceReg hd hf (by decide)))
    (h.regs _ (Completion.aside_faceReg (r := 0x214) hd hf (by decide)))

/-- A pair of the same face behind the count of rows. -/
theorem bump (s : State) {r : Nat} (hr : 0x218 ≤ r) (n : Nat) : RowKept d f s (s.bump (faceBase d f + r) n) where
  rows := congrArg Face.rows (face_congr (State.bump_faces s _ n) d f)
  count := by
    have h : regsKept s (s.bump (faceBase d f + r) n) [faceBase d f + r, faceBase d f + r + 4] :=
      regsKept_bump s List.mem_cons_self (List.mem_cons_of_mem _ List.mem_cons_self) n
    have hne : ∀ q ≤ 0x214, faceBase d f + q ∉ [faceBase d f + r, faceBase d f + r + 4] := by
      intro q hq hm
      simp only [List.mem_cons, List.not_mem_nil, or_false] at hm
      omega
    exact pair_of_reg (h _ (hne 0x210 (by decide))) (h _ (hne 0x214 (by decide)))

theorem faceRec (s : State) (r : AssayRec) : RowKept d f s (s.faceRec d f r) where
  rows := by
    unfold State.faceRec
    extract_lets x recs t t'
    split
    · rfl
    · rw [wake_face, face_congr (State.bump_faces t' _ _), face_congr (State.noteQueue_faces _ _ _ _),
        face_congr (State.setFld_faces t _ _ _), show t.face d f = { x with recs := recs } from face_setFace_same s d f _]
  count := by
    have h := (Counted.faceRec (d := d) (f := f) (List.Subset.refl _) s r).regs
    have hne : ∀ q ≤ 0x214, faceBase d f + q ∉ [AS_STAT d f, AS_ELEMS_LO d f, AS_ELEMS_LO d f + 4] := by
      intro q hq hm
      simp only [AS_STAT, AS_ELEMS_LO, List.mem_cons, List.not_mem_nil, or_false] at hm
      omega
    exact pair_of_reg (h _ (hne 0x210 (by decide))) (h _ (hne 0x214 (by decide)))

theorem storeStat (s : State) (layer n : Nat) (c : ConvCnt) (raw scaled : List FV) :
    RowKept d f s (s.storeStat d f layer n c raw scaled) := faceRec s _

theorem codeStore (hd : d < 16) (hf : f < 64) (s : State) (b : List Byte) (oa : Nat) (v : List Byte) (bad : Bool) :
    RowKept d f s (s.codeStore d f b oa v bad) := of_store hd hf (.codeStore s d f b oa v bad)

theorem shRow (hd : d < 16) (hf : f < 64) (s : State) (b : List Byte) (fine m : Nat) (vals : List Nat) (bad withheld : Bool) :
    RowKept d f s (s.shRow d f b fine m vals bad withheld) := by
  unfold State.shRow
  split
  · exact refl s
  · exact (codeStore hd hf s _ _ _ _).trans (ite (fun _ => refl _) (fun _ => storeStat _ _ _ _ _ _))

end RowKept

/-! ### the row leaves -/

theorem setFace_setFld_reg (s : State) (d f a b v : Nat) (x : Face) (g : Fld) :
    ((s.setFace d f x).setFld a g v).reg b = (s.setFld a g v).reg b := reg_congr rfl b

theorem plPop_face (s : State) (d f : Nat) : (s.plPop d f).face d f = { s.face d f with rows := (s.face d f).rows.drop 1 } := by
  unfold State.plPop
  rw [wake_face]
  exact (face_congr (State.setFld_faces _ _ _ _) d f).trans (face_setFace_same s d f _)
theorem plPop_reg (s : State) (d f a : Nat) : (s.plPop d f).reg a =
    (s.setFld (PL_STAT d f) PL_STAT_ROWBUF (min 2 ((s.face d f).rows.drop 1).length)).reg a := by
  unfold State.plPop
  rw [wake_reg]
  exact setFace_setFld_reg s d f _ a _ _ _

/-- ROWBUF shows how many rows wait, up to 2. -/
theorem plPop_rowbuf (s : State) (d f : Nat) :
    (s.plPop d f).fld (PL_STAT d f) PL_STAT_ROWBUF = min 2 ((s.face d f).rows.drop 1).length :=
  calc (s.plPop d f).fld (PL_STAT d f) PL_STAT_ROWBUF
      = (s.setFld (PL_STAT d f) PL_STAT_ROWBUF (min 2 ((s.face d f).rows.drop 1).length)).fld (PL_STAT d f) PL_STAT_ROWBUF :=
        fld_of_reg (plPop_reg s d f _) _
    _ = min 2 ((s.face d f).rows.drop 1).length := by
        rw [fld_setFld_same _ _ _ _ (by decide), Nat.mod_eq_of_lt (lt_of_le_of_lt (min_le_left _ _) (by decide))]

theorem rowEvents_faces (s : State) (d f : Nat) (poison ue : Bool) : (s.rowEvents d f poison ue).faces = s.faces := by
  have hp : (if poison then s.raise (PL_EVENT d f) PL_EVENT_POISON_IN else s).faces = s.faces := by
    split
    · exact raise_faces s _ _
    · rfl
  unfold State.rowEvents
  extract_lets t
  split
  · exact (MemSide.fault _ _ _ _ _).faces.trans ((raise_faces t _ _).trans hp)
  · exact hp

section
variable {d f : Nat} (hd : d < 16) (hf : f < 64)
include hd hf

theorem plEvent_notMem_sumRegs : PL_EVENT d f ∉ sumRegs (PL_EVENT d f) :=
  fun h => not_aside_sumRegs h (Completion.aside_faceReg hd hf (by decide))

omit hd hf in
/-- The events of a row touch no register of a face but PL_EVENT. -/
theorem rowEvents_reg (s : State) (poison ue : Bool) {a : Nat} (ha : aside a) (hne : a ≠ PL_EVENT d f) :
    (s.rowEvents d f poison ue).reg a = s.reg a := by
  have raised (s : State) (g : Fld) : (s.raise (PL_EVENT d f) g).reg a = s.reg a :=
    raise_reg s g (fun h => not_aside_sumRegs h ha) hne
  unfold State.rowEvents
  extract_lets t
  have hp : t.reg a = s.reg a := by
    simp only [t]
    split
    · exact raised s _
    · rfl
  split
  · exact ((MemSide.fault _ _ _ _ _).regs a ha).trans ((raised t _).trans hp)
  · exact hp

/-- Poisoned input raises POISON_IN, and an uncorrectable word ROW_UE (R122, R123). -/
theorem rowEvents_flags (s : State) (poison ue : Bool) :
    (poison = true → (s.rowEvents d f poison ue).flag (PL_EVENT d f) PL_EVENT_POISON_IN = true) ∧
      (ue = true → (s.rowEvents d f poison ue).flag (PL_EVENT d f) PL_EVENT_ROW_UE = true) := by
  have hsum := plEvent_notMem_sumRegs hd hf
  have hfault (s : State) (c k o n : Nat) (g : Fld) : (s.fault c k o n).flag (PL_EVENT d f) g = s.flag (PL_EVENT d f) g :=
    flag_of_reg ((MemSide.fault s c k o n).regs _ (Completion.aside_faceReg hd hf (by decide))) g
  unfold State.rowEvents
  extract_lets t
  refine ⟨fun hp => ?_, fun hu => ?_⟩
  · have ht : t.flag (PL_EVENT d f) PL_EVENT_POISON_IN = true := by
      simp only [t, hp, if_true]
      exact raise_flag_self s _ hsum (by decide) (by decide) rfl
    split
    · rw [hfault, State.raise, raiseMask_flag t _ hsum (by decide) (by decide) (by decide) rfl, ht, Bool.true_or]
    · exact ht
  · rw [if_pos hu, hfault]
    exact raise_flag_self t _ hsum (by decide) (by decide) rfl

end

/-- What a row that leaves shows, whatever becomes of it. -/
theorem leaving_shows {s : State} {d f : Nat} (hd : d < 16) (hf : f < 64) (poison ue : Bool) {r : PlRow} {rest : List PlRow}
    (h : (s.face d f).rows = r :: rest) :
    let u := (s.plPop d f).rowEvents d f poison ue
    (u.face d f).rows = rest ∧ u.fld (PL_STAT d f) PL_STAT_ROWBUF = min 2 rest.length ∧
      u.pair (PL_ROWS_LO d f) = s.pair (PL_ROWS_LO d f) := by
  have kept {q : Nat} (hq : q < 0x1000) (hne : q ≠ 0x20c) :
      ((s.plPop d f).rowEvents d f poison ue).reg (faceBase d f + q) = (s.plPop d f).reg (faceBase d f + q) :=
    rowEvents_reg _ _ _ (Completion.aside_faceReg hd hf hq) (by unfold PL_EVENT; omega)
  have popped {q : Nat} (hne : q ≠ 0x208) : (s.plPop d f).reg (faceBase d f + q) = s.reg (faceBase d f + q) :=
    (plPop_reg s d f _).trans (reg_setFld_other s (by unfold PL_STAT; omega) _ _)
  refine ⟨?_, ?_, ?_⟩
  · rw [face_congr (rowEvents_faces _ d f poison ue), plPop_face, h]
    rfl
  · refine (fld_of_reg (kept (q := 0x208) (by decide) (by decide)) _).trans ?_
    have hb := plPop_rowbuf s d f
    rwa [h] at hb
  · exact pair_of_reg ((kept (q := 0x210) (by decide) (by decide)).trans (popped (by decide)))
      ((kept (q := 0x214) (by decide) (by decide)).trans (popped (by decide)))

/-! ### PLANISH_ROW -/

/-- A row planished leaves the planisher and counts. -/
theorem planishOne_shows {s : State} {d f : Nat} (hd : d < 16) (hf : f < 64) {r : PlRow} {rest : List PlRow}
    (hr : (s.face d f).rows = r :: rest) (h : Held) (word : Nat) :
    let t := s.planishOne d f h r word
    (t.face d f).rows = rest ∧ t.pair (PL_ROWS_LO d f) = (s.pair (PL_ROWS_LO d f) + 1) % 2 ^ 64 := by
  obtain ⟨hrows, -, hcount⟩ := leaving_shows hd hf r.poison (wordUe word) hr
  have store := @RowKept.codeStore d f hd hf
  unfold State.planishOne
  extract_lets ue b fine hw kp rot y ocap o w oa waiting bad cap t1 t2 t3 t4 t5 t6 t
  have stored : RowKept d f t1 t5 := (((store t1 _ _ _ _).trans (store t2 _ _ _ _)).trans
    (RowKept.ite (fun _ => .refl t3) (fun _ => store t3 _ _ _ _))).trans (.shRow hd hf t4 _ _ _ _ _ _)
  have counted : RowKept d f (t5.bump (PL_ROWS_LO d f) 1) t :=
    ((RowKept.bump _ (by decide) o.outl).trans (.bump _ (by decide) o.ovf)).trans
      (.ite (fun _ => .faceRec t6 _) (fun _ => (RowKept.storeStat t6 _ _ _ _ _).trans (.faceRec _ _)))
  refine ⟨?_, ?_⟩
  · rw [counted.rows, face_congr (State.bump_faces t5 _ 1), stored.rows]
    exact hrows
  · rw [counted.count, Completion.pair_bump_same, stored.count]
    exact congrArg (fun n => (n + 1) % 2 ^ 64) hcount

/-! ### the two commands -/

section
variable {s : State} {d : DieIx} {f : FaceIx} {h : Held} {r : PlRow} {rest : List PlRow} (hon : s.boot.on = true)
  (hrun : s.runningHeld d.val f.val = some h) (hrows : (s.face d.val f.val).rows = r :: rest) (hready : s.rowReady d.val f.val h = true)
include hon hrun hrows hready

theorem exec_planishRow (hu : r.use = .planish) (word : Nat) :
    Machine.exec (.planishRow d f word) s = .next (queued s (s.planishOne d.val f.val h r word)) := by
  rw [show Machine.exec (.planishRow d f word) s = execPlanishRow d f word s from rfl]
  unfold execPlanishRow
  dsimp only
  rw [hrun, hrows]
  dsimp only
  rw [if_pos (by simp [hu, hready])]
  exact done_on hon _

theorem exec_rotateRow (hu : r.use ≠ .planish) (word : Nat) :
    Machine.exec (.rotateRow d f word) s = .next (queued s (s.rotateOne d.val f.val h r word)) := by
  rw [show Machine.exec (.rotateRow d f word) s = execRotateRow d f word s from rfl]
  unfold execRotateRow
  dsimp only
  rw [hrun, hrows]
  dsimp only
  rw [if_pos (by simp [hu, hready])]
  exact done_on hon _

end

/-! ### the sign halves (R108) -/

/-- A half is being filled. -/
def filling (y : SignHalf) : Bool := y.layer.isSome && !y.ready

/-- The second half takes the signs: it is idle, and the first is not or is not empty where the second is. -/
def takesSecond (s : State) (d f : Nat) : Bool :=
  s.halfIdle d f (s.face d f).signs1 &&
    (!s.halfIdle d f (s.face d f).signs0 || ((s.face d f).signs1.layer.isNone && (s.face d f).signs0.layer.isSome))

/-- The first need of a held descriptor that neither half serves. -/
def unserved (s : State) (d f : Nat) : Option (Nat × Nat) :=
  ((s.face d f).held.filterMap s.signNeed).find? (fun k => !(s.face d f).signs0.serves k && !(s.face d f).signs1.serves k)

/-- The face with the need given to an idle half. -/
def needTaken (s : State) (d f : Nat) (k : Nat × Nat) : Face :=
  if takesSecond s d f then { s.face d f with signs1 := ⟨some k.1, k.2, false⟩ }
  else if s.halfIdle d f (s.face d f).signs0 then { s.face d f with signs0 := ⟨some k.1, k.2, false⟩ }
  else s.face d f

/-- The face with the half that is being filled full. -/
def fillEnded (x : Face) : Face :=
  if filling x.signs0 then { x with signs0 := { x.signs0 with ready := true } }
  else if filling x.signs1 then { x with signs1 := { x.signs1 with ready := true } }
  else x

/-- Nothing but the record of the faces, where face f of die d is `x`, and the register that shows its signs differs. -/
structure FaceShown (s : State) (d f : Nat) (x : Face) (t : State) : Prop where
  rest : onlyRegs s { t with faces := s.faces }
  face : t.face d f = x

theorem faceShown_setFlag (s : State) (d f : Nat) (x : Face) (a : Nat) (g : Fld) (b : Bool) :
    FaceShown s d f x (queued s ((s.setFace d f x).setFlag a g b)) where
  rest := rfl
  face := (queued_face s _ d f).trans ((face_congr (State.setFlag_faces _ a g b) d f).trans (face_setFace_same s d f x))
theorem faceShown_self (s : State) (d f a : Nat) (g : Fld) (b : Bool) : FaceShown s d f (s.face d f) (queued s (s.setFlag a g b)) where
  rest := rfl
  face := (queued_face s _ d f).trans (face_congr (State.setFlag_faces _ a g b) d f)

theorem signFill_idle {s : State} {d f : Nat} (h : unserved s d f = none) : s.signFill d f = s := by
  unfold unserved at h
  unfold State.signFill
  extract_lets x
  rw [h]

theorem signFill_takes {s : State} {d f : Nat} {k : Nat × Nat} (h : unserved s d f = some k) :
    FaceShown s d f (needTaken s d f k) (queued s (s.signFill d f)) := by
  unfold unserved at h
  unfold State.signFill needTaken takesSecond
  extract_lets x
  rw [h]
  dsimp only
  split_ifs
  · exact faceShown_setFlag s d f _ _ _ _
  · exact faceShown_setFlag s d f _ _ _ _
  · exact faceShown_self s d f _ _ _

theorem signDone_fills (s : State) (d f : Nat) : FaceShown s d f (fillEnded (s.face d f)) (queued s (s.signDone d f)) := by
  unfold State.signDone fillEnded filling
  dsimp only
  split_ifs
  · exact faceShown_setFlag s d f _ _ _ _
  · exact faceShown_setFlag s d f _ _ _ _
  · exact faceShown_self s d f _ _ _

/-- Taking a need leaves what the face holds and its rows, and changes at most the half that takes it. -/
theorem needTaken_shows (s : State) (d f : Nat) (k : Nat × Nat) :
    let x := s.face d f
    let y := needTaken s d f k
    y.held = x.held ∧ y.rows = x.rows ∧
      (takesSecond s d f = true → y.signs1 = ⟨some k.1, k.2, false⟩ ∧ y.signs0 = x.signs0) ∧
      (takesSecond s d f = false → s.halfIdle d f x.signs0 = true → y.signs0 = ⟨some k.1, k.2, false⟩ ∧ y.signs1 = x.signs1) ∧
      (takesSecond s d f = false → s.halfIdle d f x.signs0 = false → y.signs0 = x.signs0 ∧ y.signs1 = x.signs1) := by
  unfold needTaken
  split_ifs with h1 h0
  · simp [h1]
  · simp [h1, h0]
  · simp [h1, h0]

/-- The end of a fill leaves what the face holds and its rows, and makes at most one half ready, the first before the second. -/
theorem fillEnded_shows (x : Face) :
    let y := fillEnded x
    y.held = x.held ∧ y.rows = x.rows ∧
      (filling x.signs0 = true → y.signs0 = { x.signs0 with ready := true } ∧ y.signs1 = x.signs1) ∧
      (filling x.signs0 = false → filling x.signs1 = true → y.signs1 = { x.signs1 with ready := true } ∧ y.signs0 = x.signs0) ∧
      (filling x.signs0 = false → filling x.signs1 = false → y.signs0 = x.signs0 ∧ y.signs1 = x.signs1) := by
  unfold fillEnded
  split_ifs with h0 h1
  · simp [h0]
  · simp [h0, h1]
  · simp [h0, h1]

/-- Settles O16: a row leaves by `leaving_shows`, a planished one counts by `planishOne_shows`, any other is handed on (`rotateOne`);
the halves follow `needTaken` and `fillEnded`. -/
theorem planisherRowsAndSigns : Obligations.PlanisherRowsAndSigns := by
  unfold Obligations.PlanisherRowsAndSigns
  intro s d f hon x
  refine ⟨fun h r rest word hrun hrows hready => ?_, ⟨fun hnone => ?_, fun k hk => ?_⟩, ?_⟩
  · intro ue bad u sg goes
    obtain ⟨hleft, hbuf, -⟩ := leaving_shows d.isLt f.isLt r.poison ue hrows
    obtain ⟨hpoison, hue⟩ := rowEvents_flags d.isLt f.isLt (s.plPop d.val f.val) r.poison ue
    have handed {use : RowUse} (hu : r.use = use) (hne : use ≠ .planish) :
        goes (s.rotateOne d.val f.val h { r with use := use } word) :=
      hu ▸ exec_rotateRow hon hrun hrows hready (hu ▸ hne) word
    refine ⟨hleft, hbuf, hpoison, hue, fun hu => ?_, fun hu => handed hu (by decide), fun hu => handed hu (by decide),
      fun hu => handed hu (by decide), fun hu => handed hu (by decide)⟩
    obtain ⟨hrest, hcount⟩ := planishOne_shows d.isLt f.isLt hrows h word
    exact ⟨_, exec_planishRow hon hrun hrows hready hu word, rfl, hrest, hcount⟩
  · exact (congrArg (done s) (signFill_idle hnone)).trans (done_self s)
  · have shown := signFill_takes hk
    refine ⟨_, done_on hon _, shown.rest, ?_⟩
    rw [shown.face]
    exact needTaken_shows s d.val f.val k
  · have shown := signDone_fills s d.val f.val
    refine ⟨_, done_on hon _, shown.rest, ?_⟩
    rw [shown.face]
    exact fillEnded_shows x

end Sys2Proof.Planisher
end

section
/-! Fields in runs of little-endian bytes and in packed words (R8, R149, R340), and O18. -/

namespace Sys2Proof.Summaries

open Sys2Proof Sys2Proof.Machine Sys2Proof.Laws

/-! ### bytes in order -/

theorem leNat_leBytes (n v : Nat) : leNat (leBytes n v) = v % 2 ^ (8 * n) := by
  induction n generalizing v with
  | zero => exact (Nat.mod_one v).symm
  | succ n ih =>
    rw [leBytes, leNat, ih, BitVec.toNat_ofNat, show 8 * (n + 1) = 8 + 8 * n by omega, pow_add, Nat.mod_mul]
    rfl

/-- Numbers laid out one after the other, each given as its width in bytes and its value. -/
def laidOut (l : List (Nat × Nat)) : List Byte := l.flatMap (fun e => leBytes e.1 e.2)

theorem laidOut_length (l : List (Nat × Nat)) : (laidOut l).length = (l.map Prod.fst).sum := by
  rw [laidOut, List.length_flatMap]
  exact congrArg List.sum (List.map_congr_left fun e _ => leBytes_length e.1 e.2)

/-- A number laid out reads back from its place: the offset is the sum of the widths before it. -/
theorem blkNat_laidOut {l : List (Nat × Nat)} (i : Nat) {n v off : Nat} (hi : l[i]? = some (n, v))
    (ho : ((l.take i).map Prod.fst).sum = off) (hv : v < 2 ^ (8 * n)) : blkNat (laidOut l) off n = v := by
  obtain ⟨hlt, hget⟩ := List.getElem?_eq_some_iff.1 hi
  have hsplit : laidOut l = laidOut (l.take i) ++ (leBytes n v ++ laidOut (l.drop (i + 1))) := by
    conv_lhs => rw [← List.take_append_drop i l, List.drop_eq_getElem_cons hlt, hget]
    rw [laidOut, List.flatMap_append, List.flatMap_cons]
    rfl
  rw [blkNat, hsplit, List.drop_left' ((laidOut_length _).trans ho), List.take_left' (leBytes_length n v), leNat_leBytes,
    Nat.mod_eq_of_lt hv]

/-! ### fields of a packed word -/

theorem b2n_lt_two (b : Bool) : b2n b < 2 := by cases b <;> decide

theorem bit_eq_of_b2n {v i : Nat} {b : Bool} (h : v / 2 ^ i % 2 = b2n b) : bit v i = b := by
  rw [bit, h]
  cases b <;> rfl

/-- The first word of a summary (R149). -/
def headWord (layer src : Nat) (flag poison aborted : Bool) : Nat :=
  layer % 4096 + src % 4096 * 2 ^ 12 + b2n flag * 2 ^ 24 + b2n poison * 2 ^ 25 + b2n aborted * 2 ^ 26

theorem headWord_fields (layer src : Nat) (flag poison aborted : Bool) :
    let w := headWord layer src flag poison aborted
    bits w 0 12 = layer % 2 ^ 12 ∧ bits w 12 12 = src % 2 ^ 12 ∧ bit w 24 = flag ∧ bit w 25 = poison ∧ bit w 26 = aborted ∧
      w < 2 ^ 32 := by
  have hf := b2n_lt_two flag
  have hp := b2n_lt_two poison
  have ha := b2n_lt_two aborted
  unfold headWord bits
  refine ⟨?_, ?_, bit_eq_of_b2n ?_, bit_eq_of_b2n ?_, bit_eq_of_b2n ?_, ?_⟩
  all_goals omega

/-! ### a summary -/

/-- The numbers of a summary in the order of R149. -/
def summaryFields (r : AssayRec) (src : Nat) (aborted : Bool) : List (Nat × Nat) :=
  [(4, headWord r.layer src r.flag r.poison aborted), (4, r.step), (6, r.elems), (6, r.sat), (6, r.und), (6, r.nan), (6, r.inf),
    (6, r.outl), (6, r.ovf), (2, r.shN), (4, r.shErr), (4, r.amax), (4, r.aclip)]

theorem summaryBytes_eq (r : AssayRec) (src : Nat) (aborted : Bool) :
    summaryBytes r src aborted = laidOut (summaryFields r src aborted) := by
  simp [summaryBytes, laidOut, summaryFields, headWord]

theorem summaryBytes_length (r : AssayRec) (src : Nat) (aborted : Bool) : (summaryBytes r src aborted).length = 64 := by
  rw [summaryBytes_eq, laidOut_length]
  rfl

/-- The first word of a summary reads back whole. -/
theorem summary_head (r : AssayRec) (src : Nat) (aborted : Bool) :
    blkNat (summaryBytes r src aborted) 0 4 = headWord r.layer src r.flag r.poison aborted := by
  rw [summaryBytes_eq]
  obtain ⟨-, -, -, -, -, hlt⟩ := headWord_fields r.layer src r.flag r.poison aborted
  exact blkNat_laidOut 0 rfl rfl hlt

/-- Every number of a summary that fits its width reads back. -/
theorem summaryRec_summaryBytes {r : AssayRec} (src : Nat) (aborted : Bool) (hl : r.layer < 2 ^ 12)
    (hfit : ∀ e ∈ (summaryFields r src aborted).tail, e.2 < 2 ^ (8 * e.1)) :
    summaryRec (summaryBytes r src aborted) = { r with hist := [], trunc := 0 } := by
  have field (off i : Nat) {n v : Nat} (hi : (summaryFields r src aborted)[i + 1]? = some (n, v))
      (ho : (((summaryFields r src aborted).take (i + 1)).map Prod.fst).sum = off) : blkNat (summaryBytes r src aborted) off n = v := by
    rw [summaryBytes_eq]
    exact blkNat_laidOut (i + 1) hi ho (hfit _ (List.mem_of_getElem? hi))
  obtain ⟨hlayer, -, hflag, hpoison, -, -⟩ := headWord_fields r.layer src r.flag r.poison aborted
  rw [summaryRec, summary_head, hlayer, hflag, hpoison, Nat.mod_eq_of_lt hl,
    field 4 0 rfl rfl, field 8 1 rfl rfl, field 0xE 2 rfl rfl, field 0x14 3 rfl rfl, field 0x1A 4 rfl rfl, field 0x20 5 rfl rfl,
    field 0x26 6 rfl rfl, field 0x2C 7 rfl rfl, field 0x32 8 rfl rfl, field 0x34 9 rfl rfl, field 0x38 10 rfl rfl, field 0x3C 11 rfl rfl]

/-! ### a barrier message -/

/-- The first word of a barrier message (R340). -/
def barWord (ch : Nat) (val notice : Bool) (epoch : Nat) : Nat :=
  ch + b2n val * 16 + b2n notice * 32 + epoch % 2 ^ 32 * 2 ^ 16

theorem barWord_fields {ch : Nat} (hc : ch < 16) (val notice : Bool) (epoch : Nat) :
    let w := barWord ch val notice epoch
    bits w 0 4 = ch ∧ bit w 4 = val ∧ bit w 5 = notice ∧ bits w 16 32 = epoch % 2 ^ 32 := by
  have hv := b2n_lt_two val
  have hn := b2n_lt_two notice
  unfold barWord bits
  refine ⟨?_, bit_eq_of_b2n ?_, bit_eq_of_b2n ?_, ?_⟩
  all_goals omega

/-- The halves of a word of two 16-bit numbers. -/
theorem bits_halves {lo hi : Nat} (hl : lo < 2 ^ 16) (hh : hi < 2 ^ 16) :
    bits (lo + hi * 2 ^ 16) 0 16 = lo ∧ bits (lo + hi * 2 ^ 16) 16 16 = hi := by
  unfold bits
  omega

/-- A barrier message whose numbers fit reads back from its packet (R340). -/
theorem barMsg_barPkt (dst : Nat) {m : BarMsg} (hc : m.ch < 16) (he : m.epoch < 2 ^ 32) (hg : m.group < 2 ^ 16) (hf : m.fanin < 2 ^ 16) :
    barMsg { barPkt dst m with src := m.src } = m := by
  obtain ⟨hch, hval, hnotice, hepoch⟩ := barWord_fields hc m.val m.notice m.epoch
  obtain ⟨hgroup, hfanin⟩ := bits_halves hg hf
  calc barMsg { barPkt dst m with src := m.src }
      = ⟨m.src, bits (barWord m.ch m.val m.notice m.epoch) 0 4, bit (barWord m.ch m.val m.notice m.epoch) 4,
          bit (barWord m.ch m.val m.notice m.epoch) 5, bits (barWord m.ch m.val m.notice m.epoch) 16 32,
          bits (m.group + m.fanin * 2 ^ 16) 0 16, bits (m.group + m.fanin * 2 ^ 16) 16 16⟩ := rfl
    _ = m := by rw [hch, hval, hnotice, hepoch, Nat.mod_eq_of_lt he, hgroup, hfanin]

/-- Settles O18: a summary is its numbers laid out (`summaryBytes_eq`), a barrier message its packed words (`barMsg_barPkt`). -/
theorem summariesAndBarriersKeepEveryField : Obligations.SummariesAndBarriersKeepEveryField := by
  unfold Obligations.SummariesAndBarriersKeepEveryField
  refine ⟨fun r src ab hl hsrc hstep helems hsat hund hnan hinf houtl hovf hshN hshErr hamax haclip => ?_, ?_⟩
  · obtain ⟨-, hs, -, -, ha, -⟩ := headWord_fields r.layer src r.flag r.poison ab
    refine ⟨summaryBytes_length r src ab, summaryRec_summaryBytes src ab hl ?_, ?_, ?_⟩
    · simpa [summaryFields] using ⟨hstep, helems, hsat, hund, hnan, hinf, houtl, hovf, hshN, hshErr, hamax, haclip⟩
    · rw [summary_head, hs, Nat.mod_eq_of_lt hsrc]
    · rw [sumAborted, summary_head, ha]
  · rintro dst src m hc he hg hf rfl
    exact barMsg_barPkt dst hc he hg hf

end Sys2Proof.Summaries
end

section
/-! The steering procedure over a list of candidates (R154), and O27. -/

namespace Sys2Proof.Deciding

open Sys2Proof Sys2Proof.Machine

/-! ### the order of the requests -/

theorem candInsert_perm (c : Cand) (l : List Cand) : (candInsert c l).Perm (c :: l) := by
  induction l with
  | nil => exact .refl _
  | cons x l ih =>
    rw [candInsert]
    split
    · exact .refl _
    · exact (ih.cons x).trans (.swap c x l)

theorem foldl_candInsert_perm (l o : List Cand) : (l.foldl (fun o c => candInsert c o) o).Perm (l ++ o) := by
  induction l generalizing o with
  | nil => exact .refl _
  | cons c l ih => exact (ih _).trans (((candInsert_perm c o).append_left l).trans List.perm_middle)

/-- Ordering the requests loses none. -/
theorem candOrder_perm (l : List Cand) : (candOrder l).Perm l := by
  simpa [candOrder] using foldl_candInsert_perm l []

/-! ### one candidate -/

/-- A candidate lies between its floor and FN3 (R133). -/
def inBounds (c : Cand) : Prop := c.floor ≤ c.fine ∧ c.fine ≤ 3

/-- A request that finds no budget left (R154). -/
def leftPending (step : Nat) (c : Cand) : Cand := if c.pend then c else { c with pend := true, pstep := step }

theorem leftPending_keeps (step : Nat) (c : Cand) :
    (leftPending step c).id = c.id ∧ (leftPending step c).fine = c.fine ∧ (leftPending step c).floor = c.floor := by
  unfold leftPending
  split
  · exact ⟨rfl, rfl, rfl⟩
  · exact ⟨rfl, rfl, rfl⟩

/-- A layer that does not ask keeps its id and floor; its fineness stands or falls, and not below the floor. -/
theorem demoteOne_keeps (step steps : Nat) (c : Cand) :
    (demoteOne step steps c).id = c.id ∧ (demoteOne step steps c).floor = c.floor ∧ (demoteOne step steps c).fine ≤ c.fine ∧
      (c.floor ≤ c.fine → c.floor ≤ (demoteOne step steps c).fine) := by
  unfold demoteOne
  split
  next h =>
    obtain ⟨-, -, habove⟩ := h
    exact ⟨rfl, rfl, Nat.sub_le _ _, fun _ => Nat.le_sub_one_of_lt habove⟩
  next => exact ⟨rfl, rfl, le_refl _, id⟩

/-- A layer that is not in the set of requests. -/
def rested (step steps : Nat) (c : Cand) : Cand := demoteOne step steps { c with pend := false }

theorem rested_inBounds (step steps : Nat) {c : Cand} (h : inBounds c) : inBounds (rested step steps c) := by
  obtain ⟨hlo, hhi⟩ := h
  obtain ⟨-, hfloor, hle, hge⟩ := demoteOne_keeps step steps { c with pend := false }
  exact ⟨hfloor.trans_le (hge hlo), hle.trans hhi⟩

/-! ### the requests -/

theorem promoteAll_ids (step n : Nat) (l : List Cand) : (promoteAll step n l).map Cand.id = l.map Cand.id := by
  induction l generalizing n with
  | nil => cases n <;> rfl
  | cons c l ih =>
    cases n with
    | zero => exact congrArg₂ List.cons (leftPending_keeps step c).1 (ih 0)
    | succ n => exact congrArg (c.id :: ·) (ih n)

/-- The budget bounds the sum of the rises. -/
theorem promoteAll_sum (step n : Nat) (l : List Cand) : ((promoteAll step n l).map Cand.fine).sum ≤ (l.map Cand.fine).sum + n := by
  induction l generalizing n with
  | nil => cases n <;> exact Nat.zero_le _
  | cons c l ih =>
    cases n with
    | zero =>
      obtain ⟨-, hfine, -⟩ := leftPending_keeps step c
      have hsum : ((promoteAll step 0 (c :: l)).map Cand.fine).sum =
          (leftPending step c).fine + ((promoteAll step 0 l).map Cand.fine).sum := rfl
      have := ih 0
      rw [hsum, hfine, List.map_cons, List.sum_cons]
      omega
    | succ n =>
      have hsum : ((promoteAll step (n + 1) (c :: l)).map Cand.fine).sum = c.fine + 1 + ((promoteAll step n l).map Cand.fine).sum := rfl
      have := ih n
      rw [hsum, List.map_cons, List.sum_cons]
      omega

theorem promoteAll_inBounds (step n : Nat) {l : List Cand} (h : ∀ c ∈ l, inBounds c ∧ c.fine ≠ 3) :
    ∀ c ∈ promoteAll step n l, inBounds c := by
  induction l generalizing n with
  | nil => cases n <;> exact fun c hc => absurd hc List.not_mem_nil
  | cons x l ih =>
    obtain ⟨⟨hlo, hhi⟩, hne⟩ := h x List.mem_cons_self
    have hl : ∀ c ∈ l, inBounds c ∧ c.fine ≠ 3 := fun c hc => h c (List.mem_cons_of_mem _ hc)
    cases n with
    | zero =>
      obtain ⟨-, hfine, hfloor⟩ := leftPending_keeps step x
      refine List.forall_mem_cons.2 ⟨?_, ih 0 hl⟩
      exact ⟨by rw [← leftPending, hfine, hfloor]; exact hlo, hfine.trans_le hhi⟩
    | succ n => exact List.forall_mem_cons.2 ⟨⟨Nat.le_succ_of_le hlo, Nat.lt_of_le_of_ne hhi hne⟩, ih n hl⟩

/-! ### the decision -/

/-- The set req of R154. -/
def asksRise (c : Cand) : Bool := c.asks && c.fine != 3
/-- The layers after a decision that is neither frozen nor a storm. -/
def moved (budget steps step : Nat) (l : List Cand) : List Cand :=
  promoteAll step budget (candOrder (l.filter asksRise)) ++ (l.filter (fun c => !asksRise c)).map (rested step steps)

/-- A decision holds every layer as it was, and promotes none, or moves the layers within the budget. -/
theorem decideAll_cases (freeze : Bool) (frac budget steps step : Nat) (l : List Cand) :
    let d := decideAll freeze frac budget steps step l
    (d.cands = l ∧ d.promoted = 0) ∨
      (d.cands = moved budget steps step l ∧ freeze = false ∧ d.storm = false ∧
        d.promoted = min budget (l.filter asksRise).length) := by
  generalize hd : decideAll freeze frac budget steps step l = d
  unfold decideAll at hd
  extract_lets req rest up down at hd
  split_ifs at hd with hf hs <;> subst hd
  · exact .inl ⟨rfl, rfl⟩
  · exact .inl ⟨rfl, rfl⟩
  · exact .inr ⟨rfl, Bool.eq_false_iff.2 hf, rfl, rfl⟩

/-- The requests and the others are all the layers. -/
theorem split_perm (l : List Cand) : (candOrder (l.filter asksRise) ++ l.filter (fun c => !asksRise c)).Perm l :=
  ((candOrder_perm _).append_right _).trans (List.filter_append_perm asksRise l)

section
variable (budget steps step : Nat)

theorem moved_inBounds {l : List Cand} (h : ∀ c ∈ l, inBounds c) : ∀ c ∈ moved budget steps step l, inBounds c := by
  refine List.forall_mem_append.2 ⟨promoteAll_inBounds step budget fun c hc => ?_, fun c hc => ?_⟩
  · obtain ⟨hm, hr⟩ := List.mem_filter.1 ((candOrder_perm _).mem_iff.1 hc)
    rw [asksRise, Bool.and_eq_true, bne_iff_ne] at hr
    exact ⟨h c hm, hr.2⟩
  · obtain ⟨x, hx, rfl⟩ := List.mem_map.1 hc
    exact rested_inBounds step steps (h x (List.mem_of_mem_filter hx))

theorem moved_sum (l : List Cand) : ((moved budget steps step l).map Cand.fine).sum ≤ (l.map Cand.fine).sum + budget := by
  have hup := promoteAll_sum step budget (candOrder (l.filter asksRise))
  have hdown (r : List Cand) : ((r.map (rested step steps)).map Cand.fine).sum ≤ (r.map Cand.fine).sum := by
    rw [List.map_map]
    exact List.sum_le_sum fun c _ => (demoteOne_keeps step steps { c with pend := false }).2.2.1
  have hall := ((split_perm l).map Cand.fine).sum_eq
  rw [List.map_append, List.sum_append] at hall
  rw [moved, List.map_append, List.sum_append]
  have := hdown (l.filter (fun c => !asksRise c))
  omega

theorem moved_ids (l : List Cand) : ((moved budget steps step l).map Cand.id).Perm (l.map Cand.id) := by
  have hdown (r : List Cand) : (r.map (rested step steps)).map Cand.id = r.map Cand.id := by
    rw [List.map_map]
    exact List.map_congr_left fun c _ => (demoteOne_keeps step steps { c with pend := false }).1
  rw [moved, List.map_append, promoteAll_ids, hdown, ← List.map_append]
  exact (split_perm l).map Cand.id

end

/-- Layers of one id are counted in the list of ids. -/
theorem length_filter_id (l : List Cand) (i : Nat) : (l.filter (fun c => c.id == i)).length = (l.map Cand.id).count i := by
  rw [← List.countP_eq_length_filter, List.count, List.countP_map]
  rfl

/-- Settles O27: a decision keeps the list or moves it (`decideAll_cases`), and a move keeps bounds, budget and ids. -/
theorem steeringKeepsItsBoundsAndBudget : Obligations.SteeringKeepsItsBoundsAndBudget := by
  unfold Obligations.SteeringKeepsItsBoundsAndBudget
  intro freeze frac budget steps step l h d
  rcases decideAll_cases freeze frac budget steps step l with ⟨hcands, hnone⟩ | ⟨hcands, hfreeze, hstorm, hpromoted⟩
  · rw [show d.cands = l from hcands, show d.promoted = 0 from hnone]
    exact ⟨h, Nat.zero_le _, Nat.le_add_right _ _, fun _ => rfl, fun _ => rfl⟩
  · rw [show d.cands = moved budget steps step l from hcands, show d.promoted = _ from hpromoted, hfreeze,
      show d.storm = false from hstorm]
    refine ⟨moved_inBounds budget steps step h, Nat.min_le_left _ _, moved_sum budget steps step l, fun i => ?_, by simp⟩
    rw [length_filter_id, length_filter_id, (moved_ids budget steps step l).count_eq]

end Sys2Proof.Deciding
end

section
/-! Working copies start (R158, R159, R161, R194), and O8. -/

namespace Sys2Proof.Copies

open Sys2Proof Sys2Proof.Machine Sys2Proof.Laws

/-! ### a layer's steering entry (R158) -/

theorem steerOpenW0_odd (b : List Byte) : (steerOpenW0 b).testBit 0 = true := by
  have h : steerOpenW0 b % 2 = 1 := by
    unfold steerOpenW0
    omega
  rw [Nat.testBit_zero, h, decide_eq_true rfl]

/-- An opened entry is VALID. -/
theorem steerOpen_valid (s : State) (b : List Byte) : (s.steerOpen b).steerValid (lLayerId b) = true := by
  unfold State.steerOpen
  extract_lets id t
  split
  next h => exact h
  next =>
    rw [State.steerValid, flag_eq_testBit _ _ rfl, reg_setReg_same, Nat.testBit_mod_two_pow]
    exact steerOpenW0_odd b

/-- PUBLISH leaves the entry VALID: the SLOT it clears is another field (R161). -/
theorem publish_valid (s : State) (d f : Nat) (h : Held) : (s.publish d f h).steerValid (lLayerId h.layer) = true :=
  (flag_setFlag_other _ _ false (by decide) (by decide)).trans (steerOpen_valid _ h.layer)

/-- Settles O8: a descriptor begins (`Starting.starts`), and its unit's effect follows; PUBLISH opens the entry (`publish_valid`). -/
theorem workingCopyDescriptorsAct : Obligations.WorkingCopyDescriptorsAct := by
  unfold Obligations.WorkingCopyDescriptorsAct
  intro s d f h hon u
  exact ⟨fun hr => Starting.starts hon hr _, fun hr => Starting.starts hon hr _, fun hr => Starting.starts hon hr _,
    fun hr => ⟨_, Starting.starts hon hr _, publish_valid u d.val f.val h⟩⟩

end Sys2Proof.Copies
end

section
/-! Records and summaries that are merged and acknowledged (R140, R142, R150, R151), and O17. -/

namespace Sys2Proof.Merging

open Sys2Proof Sys2Proof.Machine Sys2Proof.Laws

/-- The oldest waiting record of a die leaves the queue and is merged. -/
theorem mergeNext_of_cons {s : State} {d : Nat} {r : AssayRec} {rest : List AssayRec} (h : (s.die d).merge = r :: rest) :
    s.mergeNext d = (s.setDie d { s.die d with merge := rest }).mergeDie d r := by
  rw [State.mergeNext, h]

/-- The acknowledgement of a summary (R151). -/
def acknowledged (p : Packet) (s : State) : State :=
  s.sendPlain { type := 8, ord := true, src := 0, dst := p.src, args := 2, tag := p.tag }

/-- A summary of a step whose decision has not been applied. -/
theorem sumArrive_in_time {s : State} {p : Packet} (h : s.reg STEER_LAST_STEP = 0xFFFFFFFF ∨ s.reg STEER_LAST_STEP < sumStep p.data) :
    s.sumArrive p = acknowledged p (if p.poison then s else s.mergeHome p.data) := by
  have hlate : (s.reg STEER_LAST_STEP != 0xFFFFFFFF && decide (sumStep p.data ≤ s.reg STEER_LAST_STEP)) = false := by
    rcases h with h | h
    · rw [h]
      rfl
    · rw [decide_eq_false (Nat.not_le.2 h), Bool.and_false]
  unfold State.sumArrive acknowledged
  simp only [hlate, Bool.false_eq_true, if_false]

/-- A summary of a step whose decision has been applied. -/
theorem sumArrive_late {s : State} {p : Packet} (hset : s.reg STEER_LAST_STEP ≠ 0xFFFFFFFF)
    (hle : sumStep p.data ≤ s.reg STEER_LAST_STEP) :
    s.sumArrive p = acknowledged p (s.raise STEER_EVENT STEER_EVENT_SUM_LATE) := by
  have hlate : (s.reg STEER_LAST_STEP != 0xFFFFFFFF && decide (sumStep p.data ≤ s.reg STEER_LAST_STEP)) = true := by
    rw [bne_iff_ne.2 hset, decide_eq_true hle, Bool.and_self]
  unfold State.sumArrive acknowledged
  simp only [hlate, if_true]

/-- A packet of its subtype is taken on a device that is on. -/
theorem ctl_taken {s : State} {p : Packet} {sub : Nat} (hon : s.boot.on = true) (hp : ctlSub p sub = true) (t : State) :
    done s (if ctlSub p sub then t else s) = .next (queued s t) := by
  rw [if_pos hp]
  exact done_on hon t

/-- Settles O17: a record leaves its queue (`mergeNext_of_cons`), a summary is in time or late, and an acknowledgement takes its tag. -/
theorem assayRecordsAndSummariesMerge : Obligations.AssayRecordsAndSummariesMerge := by
  unfold Obligations.AssayRecordsAndSummariesMerge
  intro s hon
  refine ⟨fun d r rest hm => ?_, fun p hp => ⟨fun h => ?_, fun hset hle => ?_⟩, fun p hp => ?_⟩
  · rw [← mergeNext_of_cons hm]
    exact done_on hon _
  · exact (ctl_taken hon hp _).trans (by rw [sumArrive_in_time h]; rfl)
  · exact (ctl_taken hon hp _).trans (by rw [sumArrive_late hset hle]; rfl)
  · exact ⟨_, ctl_taken hon hp (s.sumSettled p.tag), rfl, rfl, rfl, mapGet_set_same (fun _ => none) p.tag none s.fab.tags⟩

end Sys2Proof.Merging
end

section
/-! SUPPORT. A read of memory leaves the registers of the step engine's block as they were (R216 to R225, R358, R436). -/

namespace Sys2Proof.Laws

open Sys2Proof Sys2Proof.Machine

/-! ### registers of the step engine's block -/

/-- A register of the STEP block that recording a fault does not change (R204, R166, R354). -/
abbrev engineReg (a : Nat) : Prop := 0x300000 ≤ a ∧ a < 0x400000 ∧ a ∉ faultRegs

theorem not_engineReg_of_lt {a : Nat} (h : a < 0x300000) : ¬ engineReg a := fun ⟨hlo, _, _⟩ => Nat.not_lt.2 hlo h
theorem not_engineReg_die {d o : Nat} : ¬ engineReg (dieBase d + o) := by
  rintro ⟨-, hhi, -⟩
  unfold dieBase at hhi
  omega
theorem not_engineReg_ctl (a r : Nat) : ¬ engineReg (dieBase (stackOf (gchan a)) + 0x10000 + ctlOf (gchan a) * 0x1000 + r) := by
  rw [Nat.add_assoc, Nat.add_assoc]
  exact not_engineReg_die

/-- The summaries above an event register are not in the block. -/
theorem not_engineReg_sumRegs {a b : Nat} (h : b ∈ sumRegs a) : ¬ engineReg b := by
  unfold sumRegs at h
  simp only [List.mem_append, List.mem_singleton] at h
  rcases h with (rfl | h) | h
  · exact not_engineReg_of_lt (by decide)
  · split at h
    next d _ _ =>
      simp only [List.mem_cons, List.not_mem_nil, or_false] at h
      rcases h with rfl | rfl | rfl
      · exact not_engineReg_die
      · exact not_engineReg_die
      · exact not_engineReg_die
    next => cases h
  · obtain ⟨i, -, rfl⟩ := List.mem_map.1 h
    rintro ⟨-, hhi, -⟩
    unfold MSIX_PBA bar4Base at hhi
    omega

/-! ### the frame -/

/-- The registers of the block stand. -/
def EngineKept (s t : State) : Prop := ∀ a, engineReg a → t.reg a = s.reg a

namespace EngineKept

variable {s t u : State}

theorem refl (s : State) : EngineKept s s := fun _ _ => rfl
theorem trans (h : EngineKept s t) (g : EngineKept t u) : EngineKept s u := fun a ha => (g a ha).trans (h a ha)
theorem ite {p : Prop} [Decidable p] (h : p → EngineKept s t) (g : ¬p → EngineKept s u) : EngineKept s (if p then t else u) := by
  split
  · exact h ‹_›
  · exact g ‹_›
theorem foldl {α : Type} {f : State → α → State} (hf : ∀ s a, EngineKept s (f s a)) (l : List α) (s : State) :
    EngineKept s (l.foldl f s) := fun a ha => foldl_kept (fun s => s.reg a) (fun s x _ => hf s x a ha) s

/-- An operation on records only. -/
theorem of_regs (h : t.regs = s.regs) : EngineKept s t := fun a _ => by rw [State.reg, State.reg, h]
theorem setReg (s : State) {a : Nat} (ha : ¬ engineReg a) (v : Nat) : EngineKept s (s.setReg a v) :=
  fun b hb => reg_setReg_other s (fun h : b = a => ha (h ▸ hb)) v
theorem bump (s : State) {a : Nat} (ha : ¬ engineReg a) (h4 : ¬ engineReg (a + 4)) (n : Nat) : EngineKept s (s.bump a n) :=
  (setReg s ha _).trans (setReg _ h4 _)
theorem raise (s : State) {a : Nat} (ha : ¬ engineReg a) (f : Fld) : EngineKept s (s.raise a f) :=
  fun _ hb => raise_reg s f (fun h => not_engineReg_sumRegs h hb) (fun h => ha (h ▸ hb))
theorem fault (s : State) (c k o d : Nat) : EngineKept s (s.fault c k o d) :=
  fun _ ha => (fault_logged (s := s) (cls := c) (code := k) (srcOff := o) (detail := d)).reg ha.2.2
theorem ended (s : State) (a c : Nat) : EngineKept s (s.ended a c) :=
  (ite (fun _ => raise s (not_engineReg_ctl a _) _) (fun _ => refl s)).trans (fault _ _ _ _ _)

/-! ### lines of the die cache -/

theorem burst (s : State) (a : Nat) : EngineKept s (s.burst a) := ite (fun _ => of_regs rfl) (fun _ => of_regs rfl)
theorem dropLine (s : State) (l : Nat) (c : CLine) : EngineKept s (s.dropLine l c) :=
  (ite (fun _ => refl s) (fun _ => of_regs rfl) : EngineKept s (s.restoreBelow l c c.dirty)).trans (of_regs rfl)
theorem evictLine (s : State) (l : Nat) (c : CLine) : EngineKept s (s.evictLine l c) :=
  ite (fun _ => (burst s _).trans (of_regs rfl)) (fun _ => dropLine s l c)
theorem makeWay (s : State) (l : Nat) : EngineKept s (s.makeWay l) := by
  unfold State.makeWay
  split
  · exact evictLine s _ _
  · exact refl s
theorem counted (s : State) (a r : Nat) :
    EngineKept s (s.bump (dieBase (stackOf (gchan a)) + 0x10000 + ctlOf (gchan a) * 0x1000 + r) 1) :=
  bump s (not_engineReg_ctl a r) (not_engineReg_ctl a (r + 4)) 1
theorem loadLine256 (s : State) (l : Nat) (k : Bool) (u : Nat) : EngineKept s (s.loadLine256 l k u) :=
  ite (fun _ => (burst s _).trans (of_regs rfl)) (fun _ => (burst s _).trans (of_regs rfl))
theorem fillLine (s : State) (l : Nat) (k : Bool) : EngineKept s (s.fillLine l k) :=
  (makeWay s l).trans <| (ite (fun _ => raise _ (not_engineReg_ctl (l * 256) _) _) (fun _ => refl _)).trans <|
    (of_regs rfl : EngineKept _ (State.useTick _).2).trans (loadLine256 _ _ _ _)
theorem touchLine (s : State) (l hint : Nat) : EngineKept s (s.touchLine l hint) := by
  unfold State.touchLine
  split
  · exact refl s
  · exact ite (fun _ => refl s) (fun _ => of_regs rfl)

/-! ### reads -/

/-- A read of a line without an error in it. -/
theorem dcLook (s : State) (hint a n : Nat) : EngineKept s (s.dcLook hint a n .none).2 := by
  unfold State.dcLook
  dsimp only
  split
  · refine (counted s a 0x108).trans (ite (fun _ => ?_) (fun _ => touchLine _ _ _))
    split
    · exact dropLine _ _ _
    · exact refl _
  · exact (counted s a 0x110).trans (ite (fun _ => burst _ _) (fun _ => fillLine _ _ _))

theorem hostRead1 (s : State) (o n : Nat) : EngineKept s (s.hostRead1 o n) := by
  have asks : EngineKept s { s.emit (.hostRead s.hif.nextTag (s.hostAddr o) n) with
    hif := { s.hif with nextTag := (s.hif.nextTag + 1) % 16384 } } := of_regs rfl
  have count (t : State) : EngineKept t (t.bump HIF_RD_BYTES_LO n) :=
    bump t (not_engineReg_of_lt (by decide)) (not_engineReg_of_lt (by decide)) n
  have event (t : State) (f : Fld) : EngineKept t (t.raise HIF_EVENT f) := raise t (not_engineReg_of_lt (by decide)) f
  unfold State.hostRead1
  dsimp only
  split
  · exact asks.trans (count _)
  · exact (asks.trans (count _)).trans (event _ _)
  · exact (asks.trans (event _ _)).trans (ended _ _ _)
  · exact (asks.trans (event _ _)).trans (ended _ _ _)

theorem memSeen (s : State) (a n : Nat) : EngineKept s (s.memSeen a n) :=
  ite (fun _ => ended s _ _) fun _ => ite (fun _ => foldl (fun s _ => dcLook s _ _ _) _ s) fun _ =>
    ite (fun _ => ite (fun _ => ended s _ _) (fun _ => foldl (fun s _ => hostRead1 s _ _) _ s)) (fun _ => refl s)

end EngineKept

end Sys2Proof.Laws
end

section
/-! The steering decision of a COMMIT phase (R153, R154, R157), and O26. -/

namespace Sys2Proof.Deciding

open Sys2Proof Sys2Proof.Machine Sys2Proof.Laws

/-! ### what comes before the decision is held -/

/-- The step engine's records and the number of the step stand. -/
structure SameStep (s t : State) : Prop where
  eng : t.eng = s.eng
  num : t.stepNum = s.stepNum

namespace SameStep

variable {s t u : State}

theorem refl (s : State) : SameStep s s := ⟨rfl, rfl⟩
theorem trans (h : SameStep s t) (g : SameStep t u) : SameStep s u := ⟨g.eng.trans h.eng, g.num.trans h.num⟩
theorem ite {p : Prop} [Decidable p] (h : p → SameStep s t) (g : ¬p → SameStep s u) : SameStep s (if p then t else u) := by
  split
  · exact h ‹_›
  · exact g ‹_›
theorem foldl {α : Type} {f : State → α → State} (hf : ∀ s a, SameStep s (f s a)) (l : List α) (s : State) :
    SameStep s (l.foldl f s) where
  eng := foldl_kept State.eng (fun s a _ => (hf s a).eng) s
  num := foldl_kept State.stepNum (fun s a _ => (hf s a).num) s

theorem memSeen (s : State) (a n : Nat) : SameStep s (s.memSeen a n) where
  eng := (MemSide.memSeen s a n).eng
  num := EngineKept.memSeen s a n STEP_NUM (by decide)
theorem raise (s : State) (f : Fld) : SameStep s (s.raise STEER_EVENT f) where
  eng := raise_eng s STEER_EVENT f
  num := raise_reg s f (by decide) (by decide)
theorem setReg (s : State) {a : Nat} (h : STEP_NUM ≠ a) (v : Nat) : SameStep s (s.setReg a v) where
  eng := State.setReg_eng s a v
  num := reg_setReg_other s h v

end SameStep

/-! ### the decision -/

/-- The decision of the step counts as made. -/
def counted (s : State) : State := { s with eng := { s.eng with decided := true } }
/-- What the registers show of a decision: n layers eligible, and the count word w (R166). -/
def shown (s : State) (n w : Nat) : State :=
  ((s.setFld STEER_STAT STEER_STAT_ELIGIBLE n).setFlag STEER_STAT STEER_STAT_HELD true).setReg STEER_LASTCNT w
/-- The changes are held under the number of the step (R157). -/
def holding (s : State) (l : List SteerChange) : State :=
  { s with eng := { s.eng with changes := l, lastDecided := some s.stepNum } }

theorem shown_sameStep (s : State) (n w : Nat) : SameStep s (shown s n w) :=
  ((SameStep.setReg s (by decide) _).trans (.setReg _ (by decide) _)).trans (.setReg _ (by decide) _)

theorem shown_held (s : State) (n w : Nat) : (shown s n w).flag STEER_STAT STEER_STAT_HELD = true :=
  (flag_of_reg (reg_setReg_other _ (by decide) w) _).trans (flag_setFlag_same _ STEER_STAT true (by decide) rfl)

/-- With steering off the decision is only counted. -/
theorem steerDecide_off {s : State} (h : s.flag STEER_CTRL STEER_CTRL_EN = false) : s.steerDecide = counted s := by
  unfold State.steerDecide
  extract_lets homed eng t on
  have hon : on = false := by
    change (s.flag STEER_CTRL STEER_CTRL_EN && _) = false
    rw [h, Bool.false_and]
  rw [hon]
  rfl

/-- With steering on, the decision is counted, shown and held; all before it leaves the step as it is. -/
theorem steerDecide_on {s : State} (h : s.flag STEER_CTRL STEER_CTRL_EN = true) (hp : s.parStop = []) :
    ∃ y n w l, SameStep (counted s) y ∧ s.steerDecide = holding (shown y n w) l := by
  unfold State.steerDecide
  extract_lets homed eng t on locked cands short seen d finest shorted stormed opened held
  have hon : on = true := by
    change (s.flag STEER_CTRL STEER_CTRL_EN && !([STEER_CTRL, STEER_THR, STEER_DEMOTE, STEER_BUDGET].any (s.parStop.contains ·))) = true
    rw [h, hp]
    rfl
  have hseen : SameStep (counted s) seen := .foldl (fun s b => .memSeen s _ _) homed _
  have hfinest : SameStep seen finest := .ite (fun _ => .raise _ _) (fun _ => .refl _)
  have hshorted : SameStep finest shorted := .ite (fun _ => .raise _ _) (fun _ => .refl _)
  have hstormed : SameStep shorted stormed := .ite (fun _ => (SameStep.setReg _ (by decide) _).trans (.raise _ _)) (fun _ => .refl _)
  have hstep : SameStep (counted s) stormed := ((hseen.trans hfinest).trans hshorted).trans hstormed
  -- as variables, what was decided is not evaluated by the kernel
  clear_value held opened stormed shorted finest d seen short cands locked
  rw [hon]
  exact ⟨stormed, _, _, _, hstep, rfl⟩

/-- A held decision: it counts as made, its changes carry the step's number, and HELD shows it. -/
theorem holding_shows {s y : State} (h : SameStep (counted s) y) (n w : Nat) (l : List SteerChange) :
    (holding (shown y n w) l).eng.decided = true ∧ (holding (shown y n w) l).eng.lastDecided = some s.stepNum ∧
      (holding (shown y n w) l).flag STEER_STAT STEER_STAT_HELD = true := by
  have hstep := h.trans (shown_sameStep y n w)
  exact ⟨congrArg StepEng.decided hstep.eng, congrArg some hstep.num, shown_held y n w⟩

/-- Settles O26: a decision made already changes nothing, and one that is due is counted (`steerDecide_off`) or held (`steerDecide_on`). -/
theorem steeringDecisionIsMadeOnceInCommit : Obligations.SteeringDecisionIsMadeOnceInCommit := by
  unfold Obligations.SteeringDecisionIsMadeOnceInCommit
  intro s hon hcommit habort hopts
  refine ⟨fun hmade => ?_, fun hdue hpar => ?_⟩
  · have hidle : Machine.exec .steeringDecision s = done s s :=
      congrArg (done s) (if_neg (by rw [hmade]; simp))
    rw [hidle, done_self]
  · have hdecides : Machine.exec .steeringDecision s = .next (queued s s.steerDecide) :=
      (congrArg (done s) (if_pos (by rw [hcommit, hdue, habort, hopts]; rfl))).trans (done_on hon _)
    refine ⟨_, hdecides, ?_⟩
    rw [queued_eng, queued_flag]
    cases hen : s.flag STEER_CTRL STEER_CTRL_EN with
    | false =>
      rw [steerDecide_off hen]
      exact ⟨rfl, fun _ => rfl, nofun⟩
    | true =>
      obtain ⟨y, n, w, l, hstep, heq⟩ := steerDecide_on hen hpar
      obtain ⟨hmade, hnum, hheld⟩ := holding_shows hstep n w l
      rw [heq]
      exact ⟨hmade, nofun, fun _ => ⟨hnum, hheld⟩⟩

end Sys2Proof.Deciding
end

section
/-! Writes of the step engine's registers by the host and the controllers, during a step and between steps (R204), and O49. -/

namespace Sys2Proof.StepWrites

open Sys2Proof Sys2Proof.Machine Sys2Proof.Laws Sys2Proof.Control

/-! ### the way of a write -/

/-- A write of one requester alone is that requester's access. -/
theorem writeAll_alone (s : State) (q : Requester) (v : Nat) (l : List Nat) (f : State → Requester → Nat → State) :
    s.writeAll ⟨q, []⟩ v l f = f s q v := by
  cases q <;> rfl

/-- An offset in the register file of BAR0. -/
theorem bar0Put_file (s : State) (q : Requester) {a : Nat} (ha : a < 0x4000000) (v : Nat) : s.bar0Put q a v = s.regPut q a v := if_pos ha

theorem peerWindow_file (q : Requester) {a : Nat} (ha : a < 0x4000000) : peerWindow q .bar0 a = false := by
  simp [peerWindow, Nat.not_le.2 ha]

/-- A 32-bit access of BAR0 at an aligned offset of the register file. -/
theorem barPut_word {s : State} {q : Requester} (h : arrives s q) {a : Nat} (ha : a < 0x4000000) (hal : a % 4 = 0) (v : Nat) :
    s.barPut q .bar0 a 4 v = s.regPut q a (v % 2 ^ 32) := by
  rw [State.barPut, peerWindow_file q ha, onBus_arrives h]
  simp [hal, bar0Put_file s q ha]

/-- A 64-bit access of BAR0 at an aligned offset is the access of its two words in order. -/
theorem barPut_pair {s : State} {q : Requester} (h : arrives s q) {a : Nat} (ha : a + 4 < 0x4000000) (hal : a % 8 = 0)
    (hon : s.regOn a = true) (v : Nat) :
    s.barPut q .bar0 a 8 v = (s.regPut q a (v % 2 ^ 32)).regPut q (a + 4) (v / 2 ^ 32 % 2 ^ 32) := by
  rw [State.barPut, peerWindow_file q (by omega), onBus_arrives h]
  simp [hal, spaceReg, hon, bar0Put_file _ q ha, bar0Put_file s q (a := a) (by omega)]

/-! ### a write of a register that a running step guards -/

/-- A register of the step engine that is written whole, whose write a running step drops under `f` of STEP_EVENT (R204). -/
structure Guarded (a : Nat) (f : Fld) : Prop where
  bar0 : a < 0x1000000
  rw : accMask .rw a = 0xFFFFFFFF
  drop : dropFlag a = some (STEP_EVENT, f)
  noEffect : ∀ (s : State) (m v : Nat), s.regEffect a m v = s

/-- During a step the write is dropped, and its flag raised. -/
theorem rwPut_dropped {s : State} {a : Nat} {f : Fld} (h : Guarded a f) (hrun : s.running = true) (m v : Nat) :
    s.rwPut a m v = s.raise STEP_EVENT f := by
  unfold State.rwPut
  simp only [hrun, if_true, h.drop]

/-- Between steps the register takes the word. -/
theorem rwPut_taken {s : State} {a : Nat} {f : Fld} (h : Guarded a f) (hrun : s.running = false) {v : Nat} (hv : v < 2 ^ 32) :
    s.rwPut a 0xFFFFFFFF v = s.setReg a v := by
  have hm : 0xFFFFFFFF &&& accMask .rw a = 0xFFFFFFFF := by rw [h.rw]; rfl
  have hdie : dieOf a = none := if_neg (by have := h.bar0; omega)
  have hown : OwnReg s a := ⟨by have := h.bar0; unfold bar4Base; omega, if_neg (by have := h.bar0; omega), .inl hrun⟩
  rw [rwPut_own hown (by rw [hm]; decide) (takenMask_of_no_die hdie _ _), hm, maskWrite_full hv, h.noEffect]

theorem guarded_stepNum : Guarded STEP_NUM STEP_EVENT_WRITE_DROP := ⟨by decide, by decide, by decide, fun _ _ _ => rfl⟩
theorem guarded_stepCommits : Guarded STEP_COMMITS STEP_EVENT_WRITE_DROP := ⟨by decide, by decide, by decide, fun _ _ _ => rfl⟩
theorem guarded_gmicroLo : Guarded STEP_GMICRO_LO STEP_EVENT_WRITE_DROP := ⟨by decide, by decide, by decide, fun _ _ _ => rfl⟩
theorem guarded_gmicroHi : Guarded (STEP_GMICRO_LO + 4) STEP_EVENT_WRITE_DROP := ⟨by decide, by decide, by decide, fun _ _ _ => rfl⟩

/-- The flag of a dropped write shows, and the registers other than STEP_EVENT and the summaries stand. -/
theorem dropped_shows (s : State) {f : Fld} (h8 : 8 ≤ f.lo) (hl : f.lo < 32) (hw : f.w = 1) {a : Nat}
    (ha : a ∉ STEP_EVENT :: sumRegs STEP_EVENT) :
    (s.raise STEP_EVENT f).reg a = s.reg a ∧ (s.raise STEP_EVENT f).flag STEP_EVENT f = true :=
  ⟨raise_reg s f (fun h => ha (List.mem_cons_of_mem _ h)) (fun h => ha (h ▸ List.mem_cons_self)),
    raise_flag_self s f (by decide) h8 hl hw⟩

/-! ### STEP_NUM and STEP_COMMITS -/

/-- A guarded register that is no pair, and whose block is PD3's. -/
structure SingleWord (a : Nat) : Prop where
  guarded : Guarded a STEP_EVENT_WRITE_DROP
  pd : regPd a = 3
  whole : wholeReg a
  apart : a ∉ STEP_EVENT :: sumRegs STEP_EVENT

theorem regPut_single {s : State} {a : Nat} (h : SingleWord a) (hpd : s.pdOn 3 = true) (q : Requester) (v : Nat) :
    s.regPut q a v = s.rwPut a 0xFFFFFFFF v := by
  obtain ⟨-, hsq, hwg, hwg4, hp⟩ := h.whole
  rw [State.regPut, State.regOn, h.pd, hpd, hsq, hwg, hwg4, hp]
  simp

theorem single_stepNum : SingleWord STEP_NUM := ⟨guarded_stepNum, by decide, by unfold wholeReg; decide, by decide⟩
theorem single_stepCommits : SingleWord STEP_COMMITS := ⟨guarded_stepCommits, by decide, by unfold wholeReg; decide, by decide⟩

theorem singleWord_written {s : State} {a : Nat} (h : SingleWord a) (hon : s.boot.on = true) {q : Requester} (hq : arrives s q)
    (hpd : s.pdOn 3 = true) (v : DWord) :
    ∃ t, Machine.exec (.registerWrite ⟨q, []⟩ .bar0 a 4 v) s = .next t ∧
      (s.running = true → t.reg a = s.reg a ∧ t.flag STEP_EVENT STEP_EVENT_WRITE_DROP = true) ∧
      (s.running = false → t.reg a = v.toNat % 2 ^ 32 ∧ regsKept s t [a]) := by
  have hput : s.writeAll ⟨q, []⟩ v.toNat (accessRegs .bar0 a 4) (fun s r x => s.barPut r .bar0 a 4 x) =
      s.rwPut a 0xFFFFFFFF (v.toNat % 2 ^ 32) := by
    rw [writeAll_alone, barPut_word hq (by have := h.guarded.bar0; omega) h.whole.1, regPut_single h hpd]
  refine ⟨_, (congrArg (done s) hput).trans (done_on hon _), fun hrun => ?_, fun hrun => ?_⟩
  · rw [queued_reg, queued_flag, rwPut_dropped h.guarded hrun]
    exact dropped_shows s (by decide) (by decide) rfl h.apart
  · rw [queued_reg, rwPut_taken h.guarded hrun (Nat.mod_lt _ (by decide)), reg_setReg_same, Nat.mod_mod]
    exact ⟨rfl, regsKept_setReg s (List.mem_singleton_self a) _⟩

/-! ### STEP_GMICRO -/

/-- The low word of a pair waits in the requester's shadow (R373). -/
def shadowed (s : State) (q : Requester) (v : Nat) : State :=
  { s with hif := { s.hif with wrSh := mapSet (fun _ => 0) (reqNo q) v s.hif.wrSh } }

theorem regPut_gmicroLo {s : State} (hpd : s.pdOn 3 = true) (q : Requester) (v : Nat) : s.regPut q STEP_GMICRO_LO v = shadowed s q v := by
  have hon : s.regOn STEP_GMICRO_LO = true := hpd
  have hsq : isSQ STEP_GMICRO_LO = false := by decide
  have hwg : isWG STEP_GMICRO_LO = false := by decide
  have hwg4 : isWG (STEP_GMICRO_LO - 4) = false := by decide
  have hp : pairOf STEP_GMICRO_LO = 1 := by decide
  rw [State.regPut, hon, hsq, hwg, hwg4, hp]
  simp [shadowed]

theorem regPut_gmicroHi {s : State} (hpd : s.pdOn 3 = true) (q : Requester) (w v : Nat) :
    (shadowed s q w).regPut q (STEP_GMICRO_LO + 4) v =
      if s.running then (shadowed s q w).rwPut (STEP_GMICRO_LO + 4) 0xFFFFFFFF v
      else ((shadowed s q w).rwPut STEP_GMICRO_LO 0xFFFFFFFF w).rwPut (STEP_GMICRO_LO + 4) 0xFFFFFFFF v := by
  have hon : (shadowed s q w).regOn (STEP_GMICRO_LO + 4) = true := hpd
  have hsq : isSQ (STEP_GMICRO_LO + 4) = false := by decide
  have hwg : isWG (STEP_GMICRO_LO + 4) = false := by decide
  have hwg4 : isWG (STEP_GMICRO_LO + 4 - 4) = false := by decide
  have hp : pairOf (STEP_GMICRO_LO + 4) = 2 := by decide
  have hlo : mapGet (fun _ => 0) (reqNo q) (shadowed s q w).hif.wrSh = w := mapGet_set_same _ _ _ _
  have hrun : (shadowed s q w).running = s.running := rfl
  rw [State.regPut, hon, hsq, hwg, hwg4, hp, hlo, hrun, guarded_gmicroHi.drop]
  simp

theorem gmicro_written {s : State} (hon : s.boot.on = true) {q : Requester} (hq : arrives s q) (hpd : s.pdOn 3 = true) (v : DWord) :
    ∃ t, Machine.exec (.registerWrite ⟨q, []⟩ .bar0 STEP_GMICRO_LO 8 v) s = .next t ∧
      (s.running = true → t.pair STEP_GMICRO_LO = s.pair STEP_GMICRO_LO ∧ t.flag STEP_EVENT STEP_EVENT_WRITE_DROP = true) ∧
      (s.running = false → t.pair STEP_GMICRO_LO = v.toNat ∧ regsKept s t [STEP_GMICRO_LO, STEP_GMICRO_HI]) := by
  have hput : s.writeAll ⟨q, []⟩ v.toNat (accessRegs .bar0 STEP_GMICRO_LO 8) (fun s r x => s.barPut r .bar0 STEP_GMICRO_LO 8 x) =
      if s.running then (shadowed s q (v.toNat % 2 ^ 32)).rwPut (STEP_GMICRO_LO + 4) 0xFFFFFFFF (v.toNat / 2 ^ 32 % 2 ^ 32)
      else ((shadowed s q (v.toNat % 2 ^ 32)).rwPut STEP_GMICRO_LO 0xFFFFFFFF (v.toNat % 2 ^ 32)).rwPut (STEP_GMICRO_LO + 4) 0xFFFFFFFF
        (v.toNat / 2 ^ 32 % 2 ^ 32) := by
    have hreg : s.regOn STEP_GMICRO_LO = true := hpd
    rw [writeAll_alone, barPut_pair hq (by decide) (by decide) hreg, regPut_gmicroLo hpd]
    exact regPut_gmicroHi hpd q _ _
  refine ⟨_, (congrArg (done s) hput).trans (done_on hon _), fun hrun => ?_, fun hrun => ?_⟩
  · have hrun' : (shadowed s q (v.toNat % 2 ^ 32)).running = true := hrun
    rw [queued_pair, queued_flag, if_pos hrun, rwPut_dropped guarded_gmicroHi hrun']
    have h (a : Nat) (ha : a ∉ STEP_EVENT :: sumRegs STEP_EVENT) :=
      dropped_shows (shadowed s q (v.toNat % 2 ^ 32)) (f := STEP_EVENT_WRITE_DROP) (by decide) (by decide) rfl ha
    exact ⟨pair_of_reg (h STEP_GMICRO_LO (by decide)).1 (h (STEP_GMICRO_LO + 4) (by decide)).1, (h STEP_GMICRO_LO (by decide)).2⟩
  · have hlo : ∀ n, n % 2 ^ 32 < 2 ^ 32 := fun n => Nat.mod_lt _ (by decide)
    have hrun' : (shadowed s q (v.toNat % 2 ^ 32)).running = false := hrun
    have hrun'' : ((shadowed s q (v.toNat % 2 ^ 32)).setReg STEP_GMICRO_LO (v.toNat % 2 ^ 32)).running = false :=
      (flag_of_reg (reg_setReg_other _ (by decide) _) _).trans hrun'
    have hpair : ((shadowed s q (v.toNat % 2 ^ 32)).setReg STEP_GMICRO_LO (v.toNat % 2 ^ 32)).setReg (STEP_GMICRO_LO + 4)
        (v.toNat / 2 ^ 32 % 2 ^ 32) = (shadowed s q (v.toNat % 2 ^ 32)).setPair STEP_GMICRO_LO v.toNat := rfl
    rw [queued_pair, if_neg (by rw [hrun]; decide), rwPut_taken guarded_gmicroLo hrun' (hlo _), rwPut_taken guarded_gmicroHi hrun'' (hlo _),
      hpair, pair_setPair_same _ _ v.isLt]
    exact ⟨rfl, regsKept_setPair (shadowed s q _) (l := [STEP_GMICRO_LO, STEP_GMICRO_HI]) (by simp) (by decide) _⟩

/-! ### SPR_KEY -/

theorem regPut_keySecond {s : State} (hpd : s.pdOn 3 = true) (q : Requester) (j : Fin 4) (v : Nat) :
    s.regPut q (SPR_KEY j.val + 4) v = s.guardSecond q (SPR_KEY j.val) v := by
  have hrow : ∀ j : Fin 4, regPd (SPR_KEY j.val + 4) = 3 ∧ isSQ (SPR_KEY j.val + 4) = false ∧ isWG (SPR_KEY j.val + 4) = false ∧
      isWG (SPR_KEY j.val) = true := by decide
  obtain ⟨hreg, hsq, hwg, hkey⟩ := hrow j
  rw [State.regPut, State.regOn, hreg, hpd, hsq, hwg]
  simp [hkey]

theorem keyTaken (s : State) (j : Fin 4) (x : Nat) :
    s.guardTaken (SPR_KEY j.val) x = if s.running then s.raise STEP_EVENT STEP_EVENT_KEY_DROP else s.setReg (SPR_KEY j.val) x := by
  have hrow : ∀ j : Fin 4, SPR_KEY j.val ≠ AON_RST_CTRL ∧ (placeOf (SPR_KEY 0) 8 4 (SPR_KEY j.val)).isSome = true := by decide
  obtain ⟨hne, hplace⟩ := hrow j
  rw [State.guardTaken, if_neg hne, hplace, Bool.true_and]

/-- The complement completes the pair: the half is no longer open, and the word is taken or dropped (R180, R204). -/
theorem guardSecond_completes {s : State} {q : Requester} {a x v : Nat} (ho : s.openOthers (reqNo q) a = [])
    (hh : s.half (reqNo q) = some (a, x)) (hv : v = 0xFFFFFFFF - x) :
    s.guardSecond q a v = (s.setHalf (reqNo q) none).guardTaken a x := by
  rw [State.guardSecond, ho, hh]
  simp [hv]

theorem half_setHalf_same (s : State) (n : Nat) (h : Option (Nat × Nat)) : (s.setHalf n h).half n = h := mapGet_set_same _ _ _ _

theorem key_written {s : State} (hon : s.boot.on = true) {q : Requester} (hq : arrives s q) (hpd : s.pdOn 3 = true) (j : Fin 4) (x v : Word)
    (ho : s.openOthers (reqNo q) (SPR_KEY j.val) = []) (hh : s.half (reqNo q) = some (SPR_KEY j.val, x.toNat))
    (hv : v.toNat = 0xFFFFFFFF - x.toNat) :
    ∃ t, Machine.exec (.sprKeyWrite q j v) s = .next t ∧ t.half (reqNo q) = none ∧
      (s.running = true → t.reg (SPR_KEY j.val) = s.reg (SPR_KEY j.val) ∧ t.flag STEP_EVENT STEP_EVENT_KEY_DROP = true) ∧
      (s.running = false → t.reg (SPR_KEY j.val) = x.toNat) := by
  have hal : ∀ j : Fin 4, (SPR_KEY j.val + 4) % 4 = 0 ∧ SPR_KEY j.val ∉ STEP_EVENT :: sumRegs STEP_EVENT := by decide
  have hput : s.rowPut q (SPR_KEY j.val + 4) v.toNat =
      if s.running then (s.setHalf (reqNo q) none).raise STEP_EVENT STEP_EVENT_KEY_DROP
      else (s.setHalf (reqNo q) none).setReg (SPR_KEY j.val) x.toNat := by
    rw [State.rowPut, onBus_arrives hq, if_neg (not_not.2 (hal j).1), regPut_keySecond hpd, guardSecond_completes ho hh hv, keyTaken]
    rfl
  have hhalf {t : State} (h : t.hif = (s.setHalf (reqNo q) none).hif) : t.half (reqNo q) = none := by
    rw [State.half, h]
    exact half_setHalf_same s (reqNo q) none
  refine ⟨_, (congrArg (done s) hput).trans (done_on hon _), ?_, fun hrun => ?_, fun hrun => ?_⟩
  · cases s.running with
    | true => exact hhalf (raise_hif _ STEP_EVENT _)
    | false => exact hhalf (State.setReg_hif _ (SPR_KEY j.val) x.toNat)
  · rw [queued_reg, queued_flag, if_pos hrun]
    exact dropped_shows (s.setHalf (reqNo q) none) (by decide) (by decide) rfl (hal j).2
  · rw [queued_reg, if_neg (by rw [hrun]; decide), reg_setReg_same, Nat.mod_eq_of_lt x.isLt]

/-- Settles O49: each write reaches its register (`rwPut_taken`, `keyTaken`) or, during a step, only its flag (`dropped_shows`). -/
theorem writesOfStepStateAreDroppedDuringAStep : Obligations.WritesOfStepStateAreDroppedDuringAStep := by
  unfold Obligations.WritesOfStepStateAreDroppedDuringAStep
  intro s q hon hq hpd
  refine ⟨fun a v ha => ?_, fun v => gmicro_written hon hq hpd v, fun j x v ho hh hv => key_written hon hq hpd j x v ho hh hv⟩
  rcases ha with rfl | rfl
  · exact singleWord_written single_stepNum hon hq hpd v
  · exact singleWord_written single_stepCommits hon hq hpd v

end Sys2Proof.StepWrites
end

section
/-! SUPPORT. What leaves the step engine as it was, said once (`StepSide`): its record, and the whole register block that STEP_STAT stands
in (R204, R354).  Recording a fault is of that kind unless the fault is DEVICE-FATAL (R441). -/

namespace Sys2Proof.Laws

open Sys2Proof Sys2Proof.Machine

/-- A register of the step engine's block. -/
abbrev stepReg (a : Nat) : Prop := 0x300000 ≤ a ∧ a < 0x400000

theorem not_stepReg_die (d o : Nat) : ¬ stepReg (dieBase d + o) := by
  unfold stepReg dieBase
  omega
theorem not_stepReg_bar4 (r : Nat) : ¬ stepReg (bar4Base + r) := by
  unfold stepReg bar4Base
  omega
theorem not_stepReg_pba (i : Nat) : ¬ stepReg (MSIX_PBA i) := by
  unfold MSIX_PBA
  rw [Nat.add_assoc]
  exact not_stepReg_bar4 _

/-- The summaries above an event register are not in the block. -/
theorem not_stepReg_sumRegs {a b : Nat} (h : b ∈ sumRegs a) : ¬ stepReg b := by
  unfold sumRegs at h
  simp only [List.mem_append, List.mem_singleton] at h
  rcases h with (rfl | h) | h
  · decide
  · split at h
    next d _ _ =>
      simp only [List.mem_cons, List.not_mem_nil, or_false] at h
      rcases h with rfl | rfl | rfl
      · exact not_stepReg_die d _
      · exact not_stepReg_die d _
      · exact not_stepReg_die d _
    next => cases h
  · obtain ⟨i, -, rfl⟩ := List.mem_map.1 h
    exact not_stepReg_pba i

theorem chan_congr {s t : State} (h : t.eng = s.eng) (c : Nat) : t.chan c = s.chan c := by rw [State.chan, State.chan, h]

/-- The step engine's record and its registers stand. -/
structure StepSide (s t : State) : Prop where
  eng : t.eng = s.eng
  regs : ∀ a, stepReg a → t.reg a = s.reg a

namespace StepSide

variable {s t u : State}

theorem refl (s : State) : StepSide s s := ⟨rfl, fun _ _ => rfl⟩
theorem trans (h : StepSide s t) (g : StepSide t u) : StepSide s u :=
  ⟨g.eng.trans h.eng, fun a ha => (g.regs a ha).trans (h.regs a ha)⟩
theorem ite {p : Prop} [Decidable p] (h : p → StepSide s t) (g : ¬p → StepSide s u) : StepSide s (if p then t else u) := by
  split
  · exact h ‹_›
  · exact g ‹_›
theorem foldl {α : Type} {f : State → α → State} {l : List α} (hf : ∀ s, ∀ a ∈ l, StepSide s (f s a)) (s : State) :
    StepSide s (l.foldl f s) where
  eng := foldl_kept State.eng (fun s a ha => (hf s a ha).eng) s
  regs := fun b hb => foldl_kept (fun s => s.reg b) (fun s a ha => (hf s a ha).regs b hb) s

/-- A change of other records. -/
theorem note (he : t.eng = s.eng) (hr : t.regs = s.regs) : StepSide s t := ⟨he, fun a _ => by rw [State.reg, State.reg, hr]⟩

theorem setReg (s : State) {a : Nat} (ha : ¬ stepReg a) (v : Nat) : StepSide s (s.setReg a v) :=
  ⟨State.setReg_eng s a v, fun _ hb => reg_setReg_other s (ne_of_mem_of_not_mem (s := {x | stepReg x}) hb ha) v⟩
theorem setFld (s : State) {a : Nat} (ha : ¬ stepReg a) (f : Fld) (v : Nat) : StepSide s (s.setFld a f v) := setReg s ha _
theorem setFlag (s : State) {a : Nat} (ha : ¬ stepReg a) (f : Fld) (b : Bool) : StepSide s (s.setFlag a f b) := setReg s ha _
theorem bumpSat (s : State) {a : Nat} (ha : ¬ stepReg a) (f : Fld) (n : Nat) : StepSide s (s.bumpSat a f n) := setReg s ha _
theorem orReg (s : State) {a : Nat} (ha : ¬ stepReg a) (m : Nat) : StepSide s (s.orReg a m) := setReg s ha _
theorem bump (s : State) {a : Nat} (ha : ¬ stepReg a) (h4 : ¬ stepReg (a + 4)) (n : Nat) : StepSide s (s.bump a n) :=
  (setReg s ha _).trans (setReg _ h4 _)

/-- Registers only, and none of the block. -/
theorem of_onlyRegs (h : onlyRegs s t) (hr : ∀ a, stepReg a → t.reg a = s.reg a) : StepSide s t := ⟨onlyRegs_eng h, hr⟩

theorem fire (s : State) (v : Nat) : StepSide s (s.fire v) := by
  rcases fire_cases s v with h | ⟨x, h⟩ <;> rw [h]
  · exact note rfl rfl
  · exact setReg s (not_stepReg_pba _) x
theorem raise (s : State) {a : Nat} (ha : ¬ stepReg a) (f : Fld) : StepSide s (s.raise a f) :=
  of_onlyRegs (onlyRegs_raiseMask s a _) fun _ hb => raise_reg s f (fun h => not_stepReg_sumRegs h hb) (fun h => ha (h ▸ hb))

/-! ### faults and the trace (R429, R436, R438) -/

theorem hostPut (s : State) (off : Nat) (v : List Byte) : StepSide s (s.hostPut off v) :=
  ite (fun _ => (bump s (a := HIF_WR_BYTES_LO) (by decide) (by decide) _).trans (note rfl rfl)) (fun _ => refl s)
theorem faultRing (s : State) (r : FaultRec) : StepSide s (s.faultRing r) := by
  have put (off prod : Nat) : StepSide s ((s.hostPut off r.bytes).setReg FR_PROD prod) :=
    (hostPut s off r.bytes).trans (setReg _ (by decide) _)
  unfold State.faultRing
  dsimp only
  exact ite (fun _ => refl s) fun _ => ite (fun _ => bumpSat s (by decide) _ _) fun _ =>
    ite (fun _ => (put _ _).trans (fire _ _)) (fun _ => put _ _)
theorem usePromos (s : State) (r : LowReq) : StepSide s (s.usePromos r) := note rfl rfl
theorem capture (s : State) (k p : Nat) : StepSide s (s.capture k p) := by
  unfold State.capture
  split
  · exact refl s
  · refine ite (fun _ => ite (fun _ => ?_) (fun _ => ?_)) (fun _ => refl s)
    · exact (bump s (a := TRC_DROP_LO) (by decide) (by decide) 1).trans (note rfl rfl)
    · refine trans (trans ?_ (setFld _ (a := TRC_STAT) (by decide) _ _)) (usePromos _ _)
      exact note rfl rfl
theorem send (s : State) (p : Packet) (u : TagUse) : StepSide s (s.send p u) := note rfl rfl
theorem deliver (s : State) (r : FaultRec) : StepSide s (s.deliver r) := by
  have summed : StepSide s ((s.logRec r).orReg PKG_FAULT_SUM (2 ^ r.cls)) :=
    (note rfl rfl : StepSide s (s.logRec r)).trans (orReg _ (by decide) _)
  unfold State.deliver
  dsimp only
  refine summed.trans (ite (fun _ => bumpSat _ (by decide) _ _) (fun _ => ?_))
  refine trans (trans ?_ (faultRing _ r)) (capture _ _ _)
  exact note rfl rfl
/-- A fault that does not end the device leaves the step engine to its unit. -/
theorem fault (s : State) {c : Nat} (hc : c ≠ 4) (k o d : Nat) : StepSide s (s.fault c k o d) := by
  rw [fault_eq]
  dsimp only
  rw [if_neg hc]
  refine trans (trans ?_ (deliver _ _)) (ite (fun _ => send _ _ _) (fun _ => refl _))
  exact note rfl rfl

/-! ### what the engine's state shows -/

section
variable (h : StepSide s t)
include h

theorem flag {a : Nat} (ha : stepReg a) (f : Fld) : t.flag a f = s.flag a f := flag_of_reg (h.regs a ha) f
theorem fld {a : Nat} (ha : stepReg a) (f : Fld) : t.fld a f = s.fld a f := fld_of_reg (h.regs a ha) f
theorem running : t.running = s.running := h.flag (by decide) _
theorem stepNum : t.stepNum = s.stepNum := h.regs STEP_NUM (by decide)
theorem micro : t.micro = s.micro := h.fld (by decide) _
theorem gmicro : t.gmicro = s.gmicro := pair_of_reg (h.regs STEP_GMICRO_LO (by decide)) (h.regs (STEP_GMICRO_LO + 4) (by decide))
theorem chan (c : Nat) : t.chan c = s.chan c := chan_congr h.eng c
theorem hdr : t.hdr = s.hdr := by rw [State.hdr, State.hdr, h.eng]

end

end StepSide

end Sys2Proof.Laws
end

section
/-! SUPPORT. What opens as a step or a phase starts: a channel on which no BAR packet is held (R338, R341), the tallies of the faces (R29),
and the channels of the dies (R331). -/

namespace Sys2Proof.Laws

open Sys2Proof Sys2Proof.Machine

/-! ### channels -/

theorem chan_setChan_same (s : State) (c : Nat) (x : Chan) : (s.setChan c x).chan c = x := mapGet_set_same _ _ _ _
theorem chan_setChan_other (s : State) {c k : Nat} (h : k ≠ c) (x : Chan) : (s.setChan c x).chan k = s.chan k := mapGet_set_other _ h _ _

/-- Channel c is open for the epoch e, and no BAR packet has come. -/
def opened (s : State) (c e : Nat) : State :=
  ((s.setChan c { epoch := some e }).setFlag BAR_PSTAT ⟨c, 1⟩ false).setFlag BAR_PSTAT ⟨16 + c, 1⟩ false

theorem newEpoch_unheld {s : State} {c : Nat} (h : (s.chan c).held = []) (e : Nat) : s.newEpoch c e = opened s c e := by
  unfold State.newEpoch
  rw [h]
  rfl

theorem opened_reg (s : State) (c e : Nat) {a : Nat} (h : a ≠ BAR_PSTAT) : (opened s c e).reg a = s.reg a :=
  (reg_setFlag_other _ h _ _).trans (reg_setFlag_other _ h _ _)
theorem opened_chan_same (s : State) (c e : Nat) : (opened s c e).chan c = { epoch := some e } := chan_setChan_same s c _
theorem opened_chan_other (s : State) {c k : Nat} (h : k ≠ c) (e : Nat) : (opened s c e).chan k = s.chan k := chan_setChan_other s h _
theorem opened_mem (s : State) (c e : Nat) : (opened s c e).mem = s.mem := rfl
theorem opened_eng (s : State) (c e : Nat) :
    (opened s c e).eng = { s.eng with chans := mapSet (fun _ => {}) c { epoch := some e } s.eng.chans } := by
  rw [opened, State.setFlag_eng, State.setFlag_eng]
  rfl
theorem opened_mode (s : State) (c e : Nat) : (opened s c e).eng.mode = s.eng.mode := rfl

/-- A channel below 15 opens without a change to what is shown of channel 15. -/
theorem opened_flag15 (s : State) {c : Nat} (h : c < 15) (e : Nat) :
    (opened s c e).flag BAR_PSTAT ⟨15, 1⟩ = s.flag BAR_PSTAT ⟨15, 1⟩ :=
  (flag_setFlag_other (f := ⟨16 + c, 1⟩) _ BAR_PSTAT false (by simp only; omega) (by simp only; omega)).trans
    (flag_setFlag_other (f := ⟨c, 1⟩) _ BAR_PSTAT false (by simp only; omega) (by simp only; omega))

/-- Channels with no BAR packet held open one after another. -/
theorem foldl_newEpoch_unheld (e : Nat) (l : List Nat) (s : State) (h : ∀ c ∈ l, (s.chan c).held = []) :
    l.foldl (fun s c => s.newEpoch c e) s = l.foldl (fun s c => opened s c e) s := by
  induction l generalizing s with
  | nil => rfl
  | cons c l ih =>
    rw [List.foldl_cons, List.foldl_cons, newEpoch_unheld (h c List.mem_cons_self)]
    refine ih _ fun k hk => ?_
    by_cases hkc : k = c
    · rw [hkc, opened_chan_same]
    · rw [opened_chan_other s hkc, h k (List.mem_cons_of_mem _ hk)]

/-! ### tallies -/

theorem mapGet_filter_key {α : Type} (d : Nat → α) (p : Nat × α → Bool) {k : Nat} (l : List (Nat × α))
    (h : ∀ v, p (k, v) = true) :
    mapGet d k (l.filter p) = mapGet d k l := by
  induction l with
  | nil => rfl
  | cons e l ih =>
    obtain ⟨j, v⟩ := e
    by_cases hj : j = k
    · subst hj
      rw [List.filter_cons_of_pos (h v), mapGet_cons, mapGet_cons, if_pos rfl, if_pos rfl]
    · rw [mapGet_cons, if_neg hj, List.filter_cons]
      split
      · rw [mapGet_cons, if_neg hj, ih]
      · exact ih

/-- The tallies stand in the registers of the dies. -/
theorem clearTallies_reg (s : State) {a : Nat} (h : a < 0x1000000) : s.clearTallies.reg a = s.reg a :=
  congrArg BitVec.toNat (mapGet_filter_key regReset _ s.regs (fun v => by simp; omega))

theorem not_stepReg_barCh (d c : Nat) : ¬ stepReg (BAR_CH d c) := by
  unfold BAR_CH
  rw [Nat.add_assoc]
  exact not_stepReg_die d _

namespace StepSide

theorem setDie (s : State) (d : Nat) (x : Die) : StepSide s (s.setDie d x) := note rfl rfl
theorem resetQueue (s : State) (g t : Nat) (l : List (Nat × Nat)) : StepSide s (s.resetQueue g t l) := note rfl rfl
theorem clearTallies (s : State) : StepSide s s.clearTallies := ⟨rfl, fun _ ha => clearTallies_reg s (by omega)⟩

/-! ### dies -/

theorem dieArrive (s : State) (d : Nat) : StepSide s (s.dieArrive d) :=
  of_onlyRegs (onlyRegs_dieArrive s d) fun a ha => dieArrive_reg s fun h => by
    rcases List.mem_cons.1 h with rfl | h
    · exact not_stepReg_die d _ ha
    · obtain ⟨c, -, rfl⟩ := List.mem_map.1 h
      exact not_stepReg_barCh d c ha

/-- A die opens its list of a phase. -/
theorem dieOpen (s : State) (p : Slot) (i d : Nat) : StepSide s (s.dieOpen p i d) := by
  unfold State.dieOpen
  extract_lets first n w x t1 t2 t3 t4 t5
  have listed : StepSide s t2 := (setDie s _ _).trans (resetQueue t1 _ _ _)
  have counted : StepSide t2 t3 := setReg t2 (not_stepReg_die d 0x108) _
  have unarrived : StepSide t3 t4 := setReg t3 (not_stepReg_die d 0x80004) _
  have cleared : StepSide t4 t5 := foldl (fun s c _ => setReg s (not_stepReg_barCh d c) _) t4
  exact (((listed.trans counted).trans unarrived).trans cleared).trans (dieArrive t5 d)

end StepSide

/-! ### a phase -/

/-- BAR_EPOCH of phase i of microstep mu (R338). -/
def epochOf (s : State) (i mu : Nat) : Nat := s.stepNum % 2 ^ 16 * 2 ^ 16 + mu * 2 ^ 8 + i * 4

/-- The engine does something else. -/
def inMode (s : State) (m : Mode) : State := { s with eng := { s.eng with mode := m } }
theorem inMode_reg (s : State) (m : Mode) (a : Nat) : (inMode s m).reg a = s.reg a := rfl
theorem inMode_chan (s : State) (m : Mode) (c : Nat) : (inMode s m).chan c = s.chan c := rfl
theorem inMode_mode (s : State) (m : Mode) : (inMode s m).eng.mode = m := rfl

/-- What the registers show of a phase that starts, before its channels open (R169, R338). -/
def phased (s : State) (i mu : Nat) : State :=
  (inMode (s.setPhase i mu) .phase).setReg BAR_EPOCH (epochOf s i mu)

theorem phaseStart_eq (s : State) (p : Slot) (i mu : Nat) : s.phaseStart p i mu = (List.range 16).foldl (fun t d => t.dieOpen p i d)
    ((List.range 15).foldl (fun t c => t.newEpoch c (epochOf s i mu)) (phased s i mu)) := rfl

theorem setPhase_eng (s : State) (i mu : Nat) : (s.setPhase i mu).eng = s.eng :=
  (State.setFld_eng _ _ _ _).trans (State.setFld_eng s _ _ _)
theorem setPhase_mem (s : State) (i mu : Nat) : (s.setPhase i mu).mem = s.mem :=
  (State.setFld_mem _ _ _ _).trans (State.setFld_mem s _ _ _)
theorem setPhase_reg (s : State) (i mu : Nat) {a : Nat} (h : a ≠ STEP_STAT) : (s.setPhase i mu).reg a = s.reg a :=
  (reg_setFld_other (s.setFld STEP_STAT STEP_STAT_PHASE i) h _ _).trans (reg_setFld_other s h _ _)
theorem phased_reg (s : State) (i mu : Nat) {a : Nat} (h : a ≠ STEP_STAT) (h' : a ≠ BAR_EPOCH) : (phased s i mu).reg a = s.reg a :=
  (reg_setReg_other _ h' _).trans ((inMode_reg _ _ _).trans (setPhase_reg s i mu h))
theorem phased_mode (s : State) (i mu : Nat) : (phased s i mu).eng.mode = .phase :=
  (congrArg StepEng.mode (State.setReg_eng _ _ _)).trans (inMode_mode _ _)
theorem phased_chan (s : State) (i mu c : Nat) : (phased s i mu).chan c = s.chan c := by
  rw [phased, chan_congr (State.setReg_eng _ _ _), inMode_chan, chan_congr (setPhase_eng s i mu)]
theorem phased_stat (s : State) (i mu : Nat) :
    (phased s i mu).reg STEP_STAT = (s.setPhase i mu).reg STEP_STAT :=
  (reg_setReg_other _ (by decide) _).trans (inMode_reg _ _ _)

/-- PHASE and MICRO of STEP_STAT are set, and its other fields stand. -/
theorem setPhase_flag (s : State) (i mu : Nat) {f : Fld} (hf : f.lo + f.w ≤ 3 ∨ 17 ≤ f.lo) :
    (s.setPhase i mu).flag STEP_STAT f = s.flag STEP_STAT f :=
  (flag_setFld_other _ STEP_STAT mu (by decide) (by simp only; omega)).trans
    (flag_setFld_other s STEP_STAT i (by decide) (by simp only; omega))
theorem setPhase_phase (s : State) {i : Nat} (hi : i < 64) (mu : Nat) : (s.setPhase i mu).fld STEP_STAT STEP_STAT_PHASE = i :=
  (fld_setFld_other _ STEP_STAT mu (by decide) (by decide)).trans
    ((fld_setFld_same s STEP_STAT _ i (by decide)).trans (Nat.mod_eq_of_lt hi))
theorem setPhase_micro (s : State) (i : Nat) {mu : Nat} (hmu : mu < 256) : (s.setPhase i mu).fld STEP_STAT STEP_STAT_MICRO = mu :=
  (fld_setFld_same _ STEP_STAT _ mu (by decide)).trans (Nat.mod_eq_of_lt hmu)

/-- What phase i of microstep mu shows, started in the state s. -/
structure PhaseRuns (s t : State) (i mu : Nat) : Prop where
  mode : t.eng.mode = .phase
  epoch : t.reg BAR_EPOCH = epochOf s i mu
  phase : t.fld STEP_STAT STEP_STAT_PHASE = i
  micro : t.micro = mu
  flags : ∀ f : Fld, f.lo + f.w ≤ 3 ∨ 17 ≤ f.lo → t.flag STEP_STAT f = s.flag STEP_STAT f
  chan15 : t.chan 15 = s.chan 15
  closed15 : t.flag BAR_PSTAT ⟨15, 1⟩ = s.flag BAR_PSTAT ⟨15, 1⟩

/-- A phase starts on channels for which no BAR packet is held. -/
theorem phaseStart_runs {s : State} (p : Slot) {i mu : Nat} (hi : i < 64) (hmu : mu < 256) (h : ∀ c, c < 15 → (s.chan c).held = []) :
    PhaseRuns s (s.phaseStart p i mu) i mu := by
  have he : epochOf s i mu < 2 ^ 32 := by
    unfold epochOf
    omega
  have hopen : (List.range 15).foldl (fun t c => t.newEpoch c (epochOf s i mu)) (phased s i mu) =
      (List.range 15).foldl (fun t c => opened t c (epochOf s i mu)) (phased s i mu) :=
    foldl_newEpoch_unheld _ _ _ fun c hc => by rw [phased_chan, h c (List.mem_range.1 hc)]
  have hreg {a : Nat} (ha : a ≠ BAR_PSTAT) :
      ((List.range 15).foldl (fun t c => opened t c (epochOf s i mu)) (phased s i mu)).reg a = (phased s i mu).reg a :=
    foldl_kept (fun t => t.reg a) (fun t c _ => opened_reg t c _ ha) _
  have hmode : ((List.range 15).foldl (fun t c => opened t c (epochOf s i mu)) (phased s i mu)).eng.mode = .phase :=
    (foldl_kept (fun t => t.eng.mode) (fun t c _ => opened_mode t c _) _).trans (phased_mode s i mu)
  have dies := StepSide.foldl (l := List.range 16) (fun t d _ => .dieOpen t p i d)
    ((List.range 15).foldl (fun t c => opened t c (epochOf s i mu)) (phased s i mu))
  rw [phaseStart_eq, hopen]
  have hstat := (dies.regs STEP_STAT (by decide)).trans ((hreg (by decide)).trans (phased_stat s i mu))
  exact {
    mode := by rw [dies.eng, hmode]
    epoch := (dies.regs BAR_EPOCH (by decide)).trans <| (hreg (by decide)).trans <| (reg_setReg_same _ _ _).trans (Nat.mod_eq_of_lt he)
    phase := (fld_of_reg hstat _).trans (setPhase_phase s hi mu)
    micro := (fld_of_reg hstat _).trans (setPhase_micro s i hmu)
    flags := fun f hf => (flag_of_reg hstat f).trans (setPhase_flag s i mu hf)
    chan15 := (dies.chan 15).trans <|
      (foldl_kept (fun t => t.chan 15) (fun t c hc => opened_chan_other t (Nat.ne_of_gt (List.mem_range.1 hc)) _) _).trans
        (phased_chan s i mu 15)
    closed15 := (dies.flag (by decide) _).trans <|
      (foldl_kept (fun t => t.flag BAR_PSTAT ⟨15, 1⟩) (fun t c hc => opened_flag15 t (List.mem_range.1 hc) _) _).trans <|
        flag_of_reg (phased_reg s i mu (by decide) (by decide)) _ }

end Sys2Proof.Laws
end

section
/-! The start of a step (R169, R196, R337), and O20. -/

namespace Sys2Proof.Stepping

open Sys2Proof Sys2Proof.Machine Sys2Proof.Laws

/-! ### what comes before the step runs -/

/-- The directory is checked, the packers and the tallies are empty. -/
def prepared (s : State) : State := s.checkDirectory.packStart.clearTallies

theorem checkDirectory_side (s : State) : StepSide s s.checkDirectory := by
  unfold State.checkDirectory
  extract_lets bad x t1 t2
  have noted : StepSide s t1 := .note rfl rfl
  have checked : StepSide t1 t2 := .setFlag t1 (a := CRU_GSTAT) (by decide) _ _
  refine .ite (fun _ => .refl s) fun _ => (noted.trans checked).trans (.foldl (fun s j _ => ?_) t2)
  exact (StepSide.setReg s (a := CRU_DIR_BAD) (by decide) _).trans (.raise _ (by decide) _)

theorem checkDirectory_mem (s : State) : s.checkDirectory.mem = s.mem := by
  unfold State.checkDirectory
  extract_lets bad x t1 t2
  split
  · rfl
  · exact (foldl_kept State.mem (fun s j _ => (raise_mem _ _ _).trans (State.setReg_mem s _ _)) t2).trans (State.setFlag_mem t1 _ _ _)

theorem packStart_side (s : State) : StepSide s s.packStart := .note rfl rfl
theorem prepared_side (s : State) : StepSide s (prepared s) :=
  ((checkDirectory_side s).trans (packStart_side _)).trans (.clearTallies _)
theorem prepared_mem (s : State) : (prepared s).mem = s.mem := checkDirectory_mem s

/-! ### the step runs -/

/-- The engine's record as a step starts: nothing decided, nothing aborted, the first batch awaited. -/
def freshEngine (s : State) : StepEng :=
  { s.eng with g0 := s.gmicro, aborted := false, cause := none, lossNf := false, decided := false, changes := [], headers := [],
               optDone := [], optIdx := [], uw := [], halt := false, mode := .fill }

/-- STEP_STAT as a step starts: RUNNING and FIN, no hold, phase 0 of microstep 0. -/
def running (s : State) : State :=
  (((s.setFlag STEP_STAT STEP_STAT_RUNNING true).setFlag STEP_STAT STEP_STAT_FIN true).setFlag STEP_STAT STEP_STAT_HOLD false).setPhase 0 0

/-- The work of every die is active. -/
def diesActive (s : State) : State := (List.range 16).foldl (fun s d => s.setFlag (DIE_WORK_STAT d) DIE_WORK_STAT_ACTIVE true) s

/-- A step runs, and no channel is open yet. -/
def launched (s : State) : State := diesActive (running { s with eng := freshEngine s })

theorem stepBegin_eq (s : State) : s.stepBegin =
    ((launched (prepared s)).newEpoch 15 ((launched (prepared s)).stepNum % 2 ^ 16 * 2 ^ 16)).linkQueues := rfl

theorem running_eng (s : State) : (running s).eng = s.eng := by
  rw [running, setPhase_eng, State.setFlag_eng, State.setFlag_eng, State.setFlag_eng]
theorem running_mem (s : State) : (running s).mem = s.mem := by
  rw [running, setPhase_mem, State.setFlag_mem, State.setFlag_mem, State.setFlag_mem]
theorem running_reg (s : State) {a : Nat} (h : a ≠ STEP_STAT) : (running s).reg a = s.reg a := by
  rw [running, setPhase_reg _ _ _ h, reg_setFlag_other _ h, reg_setFlag_other _ h, reg_setFlag_other _ h]
theorem running_runs (s : State) : (running s).running = true := by
  rw [running, State.running, setPhase_flag _ _ _ (by decide), flag_setFlag_other _ _ _ (by decide) (by decide),
    flag_setFlag_other _ _ _ (by decide) (by decide), flag_setFlag_same _ _ _ (by decide) rfl]
theorem running_fin (s : State) : (running s).flag STEP_STAT STEP_STAT_FIN = true := by
  rw [running, setPhase_flag _ _ _ (by decide), flag_setFlag_other _ _ _ (by decide) (by decide),
    flag_setFlag_same _ _ _ (by decide) rfl]

theorem diesActive_side (s : State) : StepSide s (diesActive s) := .foldl (fun s d _ => .setFlag s (not_stepReg_die d _) _ _) s
theorem diesActive_mem (s : State) : (diesActive s).mem = s.mem := foldl_kept State.mem (fun s _ _ => State.setFlag_mem s _ _ _) s

/-- What the engine and its registers are once a step runs. -/
structure Launched (s t : State) : Prop where
  eng : t.eng = freshEngine s
  runs : t.running = true
  fin : t.flag STEP_STAT STEP_STAT_FIN = true
  num : t.stepNum = s.stepNum
  mem : t.mem = s.mem

theorem launched_shows (s : State) : Launched s (launched s) := by
  have side := diesActive_side (running { s with eng := freshEngine s })
  exact {
    eng := side.eng.trans (running_eng _)
    runs := side.running.trans (running_runs _)
    fin := (side.flag (by decide) _).trans (running_fin _)
    num := side.stepNum.trans (running_reg _ (a := STEP_NUM) (by decide))
    mem := (diesActive_mem _).trans (running_mem _) }

theorem linkQueues_side (s : State) : StepSide s s.linkQueues := .foldl (fun s _ _ => .resetQueue s _ _ _) s
theorem linkQueues_mem (s : State) : s.linkQueues.mem = s.mem := foldl_kept State.mem (fun s _ _ => resetQueue_mem s _ _ _) s

/-- A step that starts: channel 15 is open for its epoch, and the first batch is awaited. -/
theorem stepBegin_shows {s : State} (h : (s.chan 15).held = []) :
    let t := s.stepBegin
    t.running = true ∧ t.flag STEP_STAT STEP_STAT_FIN = true ∧ t.eng.mode = .fill ∧ t.eng.aborted = false ∧
      t.eng.active = s.eng.active ∧ t.mem = s.mem ∧ t.chan 15 = { epoch := some (s.stepNum % 2 ^ 16 * 2 ^ 16) } := by
  have side := prepared_side s
  have hl := launched_shows (prepared s)
  have hheld : ((launched (prepared s)).chan 15).held = [] := by
    have hc : (launched (prepared s)).chan 15 = (prepared s).chan 15 := by rw [State.chan, hl.eng]; rfl
    rw [hc, side.chan, h]
  have links := linkQueues_side (opened (launched (prepared s)) 15 (s.stepNum % 2 ^ 16 * 2 ^ 16))
  have hstat := (links.regs STEP_STAT (by decide)).trans (opened_reg (launched (prepared s)) 15 _ (by decide))
  dsimp only
  rw [stepBegin_eq, hl.num, side.stepNum, newEpoch_unheld hheld]
  refine ⟨(flag_of_reg hstat _).trans hl.runs, (flag_of_reg hstat _).trans hl.fin, ?_, ?_, ?_, ?_,
    (links.chan 15).trans (opened_chan_same _ _ _)⟩
  · rw [links.eng, opened_eng, hl.eng]
    rfl
  · rw [links.eng, opened_eng, hl.eng]
    rfl
  · rw [links.eng, opened_eng, hl.eng, ← side.eng]
    rfl
  · rw [linkQueues_mem, opened_mem, hl.mem, prepared_mem]

/-! ### STEP_START -/

/-- STEP_START where the host path is present (R7). -/
theorem exec_stepStart {s : State} (hpath : s.flag PKG_ROLE PKG_ROLE_HOST_PATH = true) :
    Machine.exec .stepStart s = done s s.stepStart := by
  refine congrArg (fun t : State => done s t.stepStart) ?_
  rw [hpath, Bool.or_true, if_pos rfl]

theorem canStart_hostPath {s : State} (h : s.canStart = true) : s.flag PKG_ROLE PKG_ROLE_HOST_PATH = true := by
  simp only [State.canStart, Bool.and_eq_true] at h
  exact h.1.2

theorem stepStart_begins {s : State} (h : s.canStart = true) (hg : ∀ c, c < 16 → s.grpBad c = false) : s.stepStart = s.stepBegin := by
  have hany : (List.range 16).any s.grpBad = false := List.any_eq_false.2 fun c hc => by rw [hg c (List.mem_range.1 hc)]; decide
  rw [State.stepStart, h, hany]
  rfl

/-- A group failed its check, and no step starts until a group register is written (R337). -/
def groupFailed (s : State) : State := { s with eng := { s.eng with grpFail := true } }

theorem stepStart_refused {s : State} (h : s.canStart = true) {c : Nat} (hc : c < 16) (hg : s.grpBad c = true) :
    s.stepStart = (groupFailed s).raise BAR_PEVENT BAR_PEVENT_GROUP_BAD := by
  have hany : (List.range 16).any s.grpBad = true := List.any_eq_true.2 ⟨c, List.mem_range.2 hc, hg⟩
  rw [State.stepStart, h, hany]
  rfl

theorem canStart_groupFailed {s : State} (h : s.eng.grpFail = true) : s.canStart = false := by
  simp [State.canStart, h]

theorem stepStart_idle {s : State} (h : s.canStart = false) : s.stepStart = s := by
  rw [State.stepStart, h]
  rfl

/-- Settles O20: where every group passes, `stepBegin_shows`; where one fails, the next STEP_START finds GROUP_BAD remembered. -/
theorem aStepStartsOnlyWhenItMay : Obligations.AStepStartsOnlyWhenItMay := by
  unfold Obligations.AStepStartsOnlyWhenItMay
  intro s hon hstart
  have hpath := canStart_hostPath hstart
  refine ⟨fun hgood hheld => ?_, fun c hc hbad => ?_⟩
  · have h := stepBegin_shows hheld
    rw [← stepStart_begins hstart hgood] at h
    exact ⟨_, (exec_stepStart hpath).trans (done_on hon _), h⟩
  · have hfail : (queued s ((groupFailed s).raise BAR_PEVENT BAR_PEVENT_GROUP_BAD)).eng.grpFail = true := by
      rw [queued_eng, raise_eng]
      rfl
    have hstill := canStart_groupFailed hfail
    refine ⟨_, (exec_stepStart hpath).trans ((congrArg (done s) (stepStart_refused hstart hc hbad)).trans (done_on hon _)),
      rfl, hstill, ?_⟩
    have hpath' : (queued s ((groupFailed s).raise BAR_PEVENT BAR_PEVENT_GROUP_BAD)).flag PKG_ROLE PKG_ROLE_HOST_PATH = true :=
      (flag_of_reg (raise_reg (groupFailed s) BAR_PEVENT_GROUP_BAD (by decide) (by decide)) PKG_ROLE_HOST_PATH).trans hpath
    rw [exec_stepStart hpath', stepStart_idle hstill, done_self]

end Sys2Proof.Stepping
end

section
/-! SUPPORT. What dropping the descriptors that have not started leaves as it was (R198, R200): everything but the records of faces and
dies, the registers that show them, and the mailboxes of the dies. -/

namespace Sys2Proof.Laws

open Sys2Proof Sys2Proof.Machine

/-- A register of the package that sums up no events, or the event register of a die's work. -/
abbrev offFaces (a : Nat) : Prop := a < 0x2000000 ∧ a ≠ PKG_EVENT_SUM ∧ (0x1000000 ≤ a → a % 0x100000 = 0x10C)

theorem not_offFaces_bar4 (r : Nat) : ¬ offFaces (bar4Base + r) := by
  unfold offFaces bar4Base
  omega
theorem not_offFaces_mailbox (d r : Nat) : ¬ offFaces (bar4Base + 0x8000 + d * 0x400 + r) := by
  rw [Nat.add_assoc, Nat.add_assoc]
  exact not_offFaces_bar4 _
theorem offFaces_stepReg {a : Nat} (h : stepReg a) : offFaces a :=
  ⟨by omega, fun he => by rw [he] at h; revert h; decide, fun _ => by omega⟩
theorem offFaces_workEvent {d : Nat} (hd : d < 16) : offFaces (DIE_WORK_EVENT d) := by
  unfold offFaces DIE_WORK_EVENT dieBase PKG_EVENT_SUM
  omega

structure HeldDropped (s t : State) : Prop where
  rest : t = { s with regs := t.regs, out := t.out, hif := t.hif, dies := t.dies, faces := t.faces }
  regs : ∀ a, offFaces a → t.reg a = s.reg a

namespace HeldDropped

variable {s t u : State}

theorem refl (s : State) : HeldDropped s s := ⟨rfl, fun _ _ => rfl⟩
theorem trans (h : HeldDropped s t) (g : HeldDropped t u) : HeldDropped s u where
  rest := by rw [g.rest, h.rest]
  regs := fun a ha => (g.regs a ha).trans (h.regs a ha)
theorem ite {p : Prop} [Decidable p] (h : p → HeldDropped s t) (g : ¬p → HeldDropped s u) : HeldDropped s (if p then t else u) := by
  split
  · exact h ‹_›
  · exact g ‹_›
theorem foldl {α : Type} {f : State → α → State} (hf : ∀ s a, HeldDropped s (f s a)) (l : List α) (s : State) :
    HeldDropped s (l.foldl f s) := by
  induction l generalizing s with
  | nil => exact refl s
  | cons a l ih => exact (hf s a).trans (ih _)

theorem eng (h : HeldDropped s t) : t.eng = s.eng := by rw [h.rest]
theorem mem (h : HeldDropped s t) : t.mem = s.mem := by rw [h.rest]
theorem cru (h : HeldDropped s t) : t.cru = s.cru := by rw [h.rest]
theorem obs (h : HeldDropped s t) : t.obs = s.obs := by rw [h.rest]
/-- Nothing of it is the step engine's. -/
theorem stepSide (h : HeldDropped s t) : StepSide s t := ⟨h.eng, fun a ha => h.regs a (offFaces_stepReg ha)⟩

theorem of_onlyRegs (h : onlyRegs s t) (hr : ∀ a, offFaces a → t.reg a = s.reg a) : HeldDropped s t :=
  ⟨by unfold onlyRegs at h; rw [h], hr⟩
theorem setReg (s : State) {a : Nat} (ha : ¬ offFaces a) (v : Nat) : HeldDropped s (s.setReg a v) :=
  of_onlyRegs (onlyRegs_setReg s a v) fun _ hb => reg_setReg_other s (ne_of_mem_of_not_mem (s := {x | offFaces x}) hb ha) v
theorem setFld (s : State) {a : Nat} (ha : ¬ offFaces a) (f : Fld) (v : Nat) : HeldDropped s (s.setFld a f v) := setReg s ha _
theorem setFlag (s : State) {a : Nat} (ha : ¬ offFaces a) (f : Fld) (b : Bool) : HeldDropped s (s.setFlag a f b) := setReg s ha _
theorem hif (s : State) (h : HostIf) : HeldDropped s { s with hif := h } := ⟨rfl, fun _ _ => rfl⟩
theorem setDie (s : State) (d : Nat) (x : Die) : HeldDropped s (s.setDie d x) := ⟨rfl, fun _ _ => rfl⟩
theorem setFace (s : State) (d f : Nat) (x : Face) : HeldDropped s (s.setFace d f x) := ⟨rfl, fun _ _ => rfl⟩

/-! ### answers of a die (R385) -/

theorem fire (s : State) (v : Nat) : HeldDropped s (s.fire v) := by
  rcases fire_cases s v with h | ⟨x, h⟩ <;> rw [h]
  · exact ⟨rfl, fun _ _ => rfl⟩
  · exact setReg s (by unfold MSIX_PBA; rw [Nat.add_assoc]; exact not_offFaces_bar4 _) x
/-- An event of the mailboxes. -/
theorem mailEvent (s : State) (f : Fld) : HeldDropped s (s.raise MBX_EVENT f) := by
  refine of_onlyRegs (onlyRegs_raiseMask s _ _) fun a ha => raise_reg s f (fun h => ?_) (fun h => not_offFaces_bar4 _ (h ▸ ha))
  have hsum : sumRegs MBX_EVENT = PKG_EVENT_SUM :: pbaRegs := rfl
  rcases List.mem_cons.1 (hsum ▸ h) with h | h
  · exact ha.2.1 h
  · obtain ⟨i, -, rfl⟩ := List.mem_map.1 h
    unfold MSIX_PBA at ha
    rw [Nat.add_assoc] at ha
    exact not_offFaces_bar4 _ ha
theorem d2hPut (s : State) (d w : Nat) : HeldDropped s (s.d2hPut d w) := by
  have stat : ¬ offFaces (D2H_STAT d) := not_offFaces_mailbox d _
  have full := (setReg s (a := D2H_DATA d) (not_offFaces_mailbox d _) w).trans (setFlag _ stat D2H_STAT_FULL true)
  unfold State.d2hPut
  dsimp only
  exact ite (fun _ => ite (fun _ => full) (fun _ => full.trans (fire _ _))) fun _ => ite (fun _ => (hif s _).trans (setFld _ stat _ _))
    (fun _ => ((hif s _).trans (setFlag _ stat _ _)).trans (mailEvent _ _))
theorem d2hPush (s : State) (d w : Nat) : HeldDropped s (s.d2hPush d w) :=
  ite (fun _ => ((hif s _).trans (setFld _ (a := MBX_LATE) (not_offFaces_bar4 _) _ _)).trans (mailEvent _ _))
    (fun _ => (setFlag s (a := H2D_STAT d) (not_offFaces_mailbox d _) _ _).trans (d2hPut _ _ _))
theorem dieQuiesceAnswer (s : State) (d : Nat) : HeldDropped s (s.dieQuiesceAnswer d) :=
  ite (fun _ => (hif s _).trans (foldl (fun s _ => d2hPush s _ _) _ _)) (fun _ => refl s)

/-! ### what the faces and the dies show -/

theorem showFace (s : State) (d f : Nat) : HeldDropped s (s.showFace d f) :=
  of_onlyRegs (onlyRegs_showFace s d f) fun a ha => showFace_reg s f fun g => by
    unfold offFaces at ha
    unfold FSQ_STAT FSQ_CUR_IDX faceBase dieBase
    omega
theorem showPend (s : State) (d : Nat) : HeldDropped s (s.showPend d) :=
  of_onlyRegs (onlyRegs_showPend s d) fun a ha => showPend_reg s fun h => by
    unfold offFaces at ha
    rcases List.mem_cons.1 h with rfl | h
    · unfold BAR_STAT dieBase at ha
      omega
    · obtain ⟨c, hc, rfl⟩ := List.mem_map.1 h
      have := List.mem_range.1 hc
      unfold BAR_CH dieBase at ha
      omega

theorem dropHeld (s : State) : HeldDropped s s.dropHeld := by
  refine foldl (fun s e => ?_) _ s
  extract_lets d f gone x t1 y t2
  refine ite (fun _ => refl s) (fun _ => ?_)
  exact ((((setFace s d f _).trans (setDie t1 d _)).trans (showFace t2 d f)).trans (showPend _ _)).trans (dieQuiesceAnswer _ _)

end HeldDropped

/-! ### memory behind a fault -/

theorem byteAt_hostPut (s : State) (off : Nat) (v : List Byte) {a : Nat} (ha : a < hwBase) : byteAt (s.hostPut off v) a = byteAt s a := by
  unfold State.hostPut
  split
  · exact getByte_setBytes_other v _ _ _ (.inl (by omega))
  · rfl

theorem byteAt_congr {s t : State} (h : t.mem = s.mem) (a : Nat) : byteAt t a = byteAt s a := by rw [byteAt, byteAt, h]

theorem byteAt_faultRing (s : State) (r : FaultRec) {a : Nat} (ha : a < hwBase) : byteAt (s.faultRing r) a = byteAt s a := by
  have put (off prod : Nat) : byteAt ((s.hostPut off r.bytes).setReg FR_PROD prod) a = byteAt s a :=
    (byteAt_congr (State.setReg_mem _ _ _) a).trans (byteAt_hostPut s off r.bytes ha)
  unfold State.faultRing
  dsimp only
  split
  · rfl
  · split
    · exact byteAt_congr (State.bumpSat_mem _ _ _ _) a
    · split
      · exact (byteAt_congr (fire_mem _ _) a).trans (put _ _)
      · exact put _ _

theorem byteAt_deliver (s : State) (r : FaultRec) {a : Nat} (ha : a < hwBase) : byteAt (s.deliver r) a = byteAt s a := by
  have summed : byteAt ((s.logRec r).orReg PKG_FAULT_SUM (2 ^ r.cls)) a = byteAt s a := byteAt_congr (State.orReg_mem _ _ _) a
  unfold State.deliver
  extract_lets t1 t2 n x t3 t4
  split
  · exact (byteAt_congr (State.bumpSat_mem t2 _ _ _) a).trans summed
  · exact ((byteAt_congr (capture_mem t4 _ _) a).trans (byteAt_faultRing t3 r ha)).trans summed

theorem forwardRec_mem (s : State) (r : FaultRec) : (forwardRec s r).mem = s.mem := by
  unfold forwardRec
  split
  · exact send_mem s _ _
  · rfl

/-- Of memory, recording a fault changes the host window only, where the fault ring stands (R438). -/
theorem byteAt_fault (s : State) (c k o d : Nat) {a : Nat} (ha : a < hwBase) : byteAt (s.fault c k o d) a = byteAt s a := by
  have told (t : State) (r : FaultRec) : byteAt (forwardRec (t.deliver r) r) a = byteAt t a :=
    (byteAt_congr (forwardRec_mem _ r) a).trans (byteAt_deliver t r ha)
  rw [fault_eq]
  dsimp only
  split
  · exact (byteAt_congr (fatal_mem _) a).trans (told _ _)
  · exact told _ _

end Sys2Proof.Laws
end

section
/-! The watchdogs and the holds of a step (R199 to R201, R343, R347, R348), and O25. -/

namespace Sys2Proof.Stepping

open Sys2Proof Sys2Proof.Machine Sys2Proof.Laws Sys2Proof.Control

/-! ### the dies that are late -/

/-- The summaries above an event register stand first in their blocks, or in BAR4. -/
theorem notMem_sumRegs {a : Nat} (hlt : a < bar4Base) (ha : 0xC < a % 0x100000) (b : Nat) : a ∉ sumRegs b := by
  intro h
  unfold sumRegs at h
  simp only [List.mem_append, List.mem_singleton] at h
  rcases h with (h | h) | h
  · unfold PKG_EVENT_SUM at h
    omega
  · split at h
    next e _ _ =>
      simp only [List.mem_cons, List.not_mem_nil, or_false] at h
      unfold DIE_EVENT_SUM DIE_FACE_SUM_0 DIE_FACE_SUM_1 dieBase at h
      omega
    next => cases h
  · obtain ⟨i, -, hi⟩ := List.mem_map.1 h
    unfold MSIX_PBA bar4Base at hi
    unfold bar4Base at hlt
    omega
theorem workEvent_notMem_sumRegs {d : Nat} (hd : d < 16) (b : Nat) : DIE_WORK_EVENT d ∉ sumRegs b :=
  notMem_sumRegs (by unfold DIE_WORK_EVENT dieBase bar4Base; omega) (by unfold DIE_WORK_EVENT dieBase; omega) b

/-- WDOG is raised in each die of the list. -/
def tellDies (l : List Nat) (s : State) : State := l.foldl (fun s d => s.raise (DIE_WORK_EVENT d) DIE_WORK_EVENT_WDOG) s

theorem tellDies_cons (e : Nat) (l : List Nat) (s : State) :
    tellDies (e :: l) s = tellDies l (s.raise (DIE_WORK_EVENT e) DIE_WORK_EVENT_WDOG) := List.foldl_cons
theorem tellDies_onlyRegs (l : List Nat) (s : State) : onlyRegs s (tellDies l s) := onlyRegs_foldl (fun s _ => onlyRegs_raiseMask s _ _) l s
theorem tellDies_side (l : List Nat) (s : State) : StepSide s (tellDies l s) := .foldl (fun s d _ => .raise s (not_stepReg_die d _) _) s
theorem tellDies_reg (s : State) {a : Nat} (h : ∀ d, a ∉ sumRegs (DIE_WORK_EVENT d)) (hne : ∀ d, a ≠ DIE_WORK_EVENT d)
    (l : List Nat) :
    (tellDies l s).reg a = s.reg a := foldl_kept (fun s => s.reg a) (fun s d _ => raise_reg s _ (h d) (hne d)) s

/-- A WDOG that stands is not cleared by raising another. -/
theorem wdog_stays (s : State) {d : Nat} (hd : d < 16) (e : Nat) (h : s.flag (DIE_WORK_EVENT d) DIE_WORK_EVENT_WDOG = true) :
    (s.raise (DIE_WORK_EVENT e) DIE_WORK_EVENT_WDOG).flag (DIE_WORK_EVENT d) DIE_WORK_EVENT_WDOG = true := by
  have hs := workEvent_notMem_sumRegs hd (DIE_WORK_EVENT e)
  by_cases hde : DIE_WORK_EVENT d = DIE_WORK_EVENT e
  · rw [hde] at hs ⊢
    exact raise_flag_self s _ hs (by decide) (by decide) rfl
  · exact (flag_of_reg (raise_reg s _ hs hde) _).trans h

theorem tellDies_wdog_stays {d : Nat} (hd : d < 16) (l : List Nat) (s : State)
    (h : s.flag (DIE_WORK_EVENT d) DIE_WORK_EVENT_WDOG = true) : (tellDies l s).flag (DIE_WORK_EVENT d) DIE_WORK_EVENT_WDOG = true := by
  induction l generalizing s with
  | nil => exact h
  | cons e l ih =>
    rw [tellDies_cons]
    exact ih _ (wdog_stays s hd e h)

theorem tellDies_wdog {d : Nat} (hd : d < 16) {l : List Nat} (hl : d ∈ l) (s : State) :
    (tellDies l s).flag (DIE_WORK_EVENT d) DIE_WORK_EVENT_WDOG = true := by
  induction l generalizing s with
  | nil => cases hl
  | cons e l ih =>
    rw [tellDies_cons]
    rcases List.mem_cons.1 hl with rfl | hl'
    · exact tellDies_wdog_stays hd l _ (raise_flag_self s _ (workEvent_notMem_sumRegs hd _) (by decide) (by decide) rfl)
    · exact ih hl' _

/-! ### a local abort (R200, R201) -/

/-- STEP_ABORT_CAUSE as an abort of this cause and layer shows it in the running phase (R201). -/
def causeWord (s : State) (cause layer : Nat) : Nat :=
  cause + layer % 4096 * 2 ^ 4 + s.fld STEP_STAT STEP_STAT_PHASE * 2 ^ 16 + s.micro * 2 ^ 22

theorem causeWord_lt (s : State) {cause : Nat} (layer : Nat) (hc : cause < 2 ^ 4) : causeWord s cause layer < 2 ^ 32 := by
  have hp : s.fld STEP_STAT STEP_STAT_PHASE < 2 ^ 6 := bits_lt _ _ _
  have hm : s.micro < 2 ^ 8 := bits_lt _ _ _
  unfold causeWord
  omega
theorem causeWord_cause (s : State) {cause : Nat} (layer : Nat) (hc : cause < 2 ^ 4) : bits (causeWord s cause layer) 0 4 = cause := by
  unfold causeWord bits
  omega

/-- The cause is noted in the engine. -/
def withCause (s : State) (w : Nat) : State := { s with eng := { s.eng with cause := some w } }
/-- The engine of a step whose abort has begun, channel 15 being open, waits for the vote. -/
def aborting (s : State) : State := { s with eng := { s.eng with aborted := true, mode := .wait } }

theorem withCause_eng (s : State) (w : Nat) : (withCause s w).eng = { s.eng with cause := some w } := rfl
theorem withCause_reg (s : State) (w a : Nat) : (withCause s w).reg a = s.reg a := rfl
theorem withCause_mem (s : State) (w : Nat) : (withCause s w).mem = s.mem := rfl
theorem withCause_cru (s : State) (w : Nat) : (withCause s w).cru = s.cru := rfl
theorem aborting_eng (s : State) : (aborting s).eng = { s.eng with aborted := true, mode := .wait } := rfl
theorem aborting_reg (s : State) (a : Nat) : (aborting s).reg a = s.reg a := rfl
theorem aborting_mem (s : State) : (aborting s).mem = s.mem := rfl
theorem aborting_cru (s : State) : (aborting s).cru = s.cru := rfl
theorem aborting_obs (s : State) : (aborting s).obs = s.obs := rfl
theorem recorded_cru (s : State) (c k o d : Nat) : (recorded s c k o d).cru = s.cru := rfl
theorem fault_cru (s : State) (c k o d : Nat) : (s.fault c k o d).cru = s.cru := by
  rw [(fault_logged s c k o d).rest, ← recorded_cru s c k o d]

/-- FIN is cleared, the cause is noted in the engine, shown, and recorded. -/
def causeRecorded (s : State) (w code src extra : Nat) : State :=
  ((withCause (s.setFlag STEP_STAT STEP_STAT_FIN false) w).setReg STEP_ABORT_CAUSE w).fault 3 code src (w + extra * 2 ^ 32)

theorem causeRecorded_eng (s : State) (w code src extra : Nat) :
    (causeRecorded s w code src extra).eng = { s.eng with cause := some w } := by
  rw [causeRecorded, (StepSide.fault _ (by decide) code src _).eng, State.setReg_eng, withCause_eng, State.setFlag_eng]
theorem causeRecorded_cause (s : State) {w : Nat} (hw : w < 2 ^ 32) (code src extra : Nat) :
    (causeRecorded s w code src extra).reg STEP_ABORT_CAUSE = w := by
  rw [causeRecorded, fault_reg _ _ _ _ _ (by decide), reg_setReg_same, Nat.mod_eq_of_lt hw]
theorem causeRecorded_fin (s : State) (w code src extra : Nat) :
    (causeRecorded s w code src extra).flag STEP_STAT STEP_STAT_FIN = false := by
  have hstat : (causeRecorded s w code src extra).reg STEP_STAT = (s.setFlag STEP_STAT STEP_STAT_FIN false).reg STEP_STAT := by
    rw [causeRecorded, (StepSide.fault _ (by decide) _ _ _).regs _ (by decide), reg_setReg_other _ (by decide), withCause_reg]
  rw [flag_of_reg hstat, flag_setFlag_same _ _ _ (by decide) rfl]
theorem causeRecorded_reg (s : State) (w code src extra : Nat) {a : Nat} (h : a ∉ faultRegs) (hs : a ≠ STEP_STAT)
    (hc : a ≠ STEP_ABORT_CAUSE) : (causeRecorded s w code src extra).reg a = s.reg a := by
  rw [causeRecorded, fault_reg _ _ _ _ _ h, reg_setReg_other _ hc, withCause_reg, reg_setFlag_other _ hs]
theorem causeRecorded_byteAt (s : State) (w code src extra : Nat) {a : Nat} (ha : a < hwBase) :
    byteAt (causeRecorded s w code src extra) a = byteAt s a := by
  rw [causeRecorded, byteAt_fault _ _ _ _ _ ha]
  exact byteAt_congr (by rw [State.setReg_mem, withCause_mem, State.setFlag_mem]) a
theorem causeRecorded_cru (s : State) (w code src extra : Nat) : (causeRecorded s w code src extra).cru = s.cru := by
  rw [causeRecorded, fault_cru, State.setReg_cru, withCause_cru, State.setFlag_cru]

theorem causeWord_finCleared (s : State) (cause layer : Nat) :
    causeWord (s.setFlag STEP_STAT STEP_STAT_FIN false) cause layer = causeWord s cause layer := by
  rw [causeWord, causeWord, State.micro, State.micro, State.setFlag, fld_setFld_other _ _ _ (by decide) (by decide),
    fld_setFld_other _ _ _ (by decide) (by decide)]

theorem abortCause_eq (s : State) (cause layer code src extra : Nat) : s.abortCause cause layer code src extra =
    ((withCause s (causeWord s cause layer)).setReg STEP_ABORT_CAUSE (causeWord s cause layer)).fault 3 code src
      (causeWord s cause layer + extra * 2 ^ 32) := rfl

/-- In the commit wait an abort reaches its boundary through channel 15. -/
theorem abortSettle_wait {s : State} (h : s.eng.mode = .wait) : s.abortSettle = s := if_neg (by rw [h]; simp)

/-- A local abort with channel 15 open: the cause, its record, and the descriptors that have not started are dropped. -/
theorem localAbort_open {s : State} (hrun : s.running = true) (hcause : s.eng.cause = none) (hopen : (s.chan 15).closed = false)
    (cause layer code src extra : Nat) :
    s.localAbort cause layer code src extra =
      ((aborting (causeRecorded s (causeWord s cause layer) code src extra)).setFlag STEP_STAT STEP_STAT_IN_WAIT false).dropHeld := by
  have hchan : (causeRecorded s (causeWord s cause layer) code src extra).chan 15 = s.chan 15 := by
    rw [State.chan, State.chan, causeRecorded_eng]
  unfold State.localAbort
  rw [if_neg (by rw [hrun, hcause]; decide)]
  dsimp only
  rw [abortCause_eq, causeWord_finCleared, ← causeRecorded, hchan, hopen, if_neg Bool.false_ne_true]
  refine abortSettle_wait ?_
  rw [(HeldDropped.dropHeld _).eng, State.setFlag_eng]

/-- What a local abort with channel 15 open leaves (R200). -/
structure Aborted (s t : State) (w code extra : Nat) : Prop where
  eng : t.eng = { s.eng with cause := some w, aborted := true, mode := .wait }
  fin : t.flag STEP_STAT STEP_STAT_FIN = false
  cause : t.reg STEP_ABORT_CAUSE = w
  events : ∀ d, d < 16 → t.reg (DIE_WORK_EVENT d) = s.reg (DIE_WORK_EVENT d)
  record : newestFault t 3 code (w + extra * 2 ^ 32)
  cru : t.cru = s.cru
  mem : ∀ a, a < hwBase → byteAt t a = byteAt s a

theorem workEvent_notMem_faultRegs {d : Nat} (hd : d < 16) : DIE_WORK_EVENT d ∉ faultRegs := by
  refine fun h => (List.mem_append.1 h).elim (fun h => ?_) (workEvent_notMem_sumRegs hd _)
  have hlow : ∀ a ∈ [PKG_FAULT_SUM, FR_SUPPR, FR_DROP, FR_PROD, HIF_WR_BYTES_LO, HIF_WR_BYTES_LO + 4, TRC_DROP_LO, TRC_DROP_LO + 4,
      TRC_STAT, TRC_EVENT, STEP_STAT, STEP_CTRL], a < 0x1000000 ∨ 0x2000000 ≤ a := by decide
  have := hlow _ h
  unfold DIE_WORK_EVENT dieBase at this
  omega

theorem localAbort_shows {s : State} (hrun : s.running = true) (hcause : s.eng.cause = none) (hopen : (s.chan 15).closed = false)
    {cause : Nat} (hc : cause < 2 ^ 4) (layer code src extra : Nat) :
    Aborted s (s.localAbort cause layer code src extra) (causeWord s cause layer) code extra := by
  have hw := causeWord_lt s layer hc
  rw [localAbort_open hrun hcause hopen]
  have drop := HeldDropped.dropHeld
    ((aborting (causeRecorded s (causeWord s cause layer) code src extra)).setFlag STEP_STAT STEP_STAT_IN_WAIT false)
  exact {
    eng := by rw [drop.eng, State.setFlag_eng, aborting_eng, causeRecorded_eng]
    fin := by
      rw [drop.stepSide.flag (by decide), flag_setFlag_other _ _ _ (by decide) (by decide), flag_of_reg (aborting_reg _ _),
        causeRecorded_fin]
    cause := by
      rw [drop.stepSide.regs _ (by decide), reg_setFlag_other _ (by decide), aborting_reg, causeRecorded_cause _ hw]
    events := fun d hd => by
      have hstat : DIE_WORK_EVENT d ≠ STEP_STAT := by unfold DIE_WORK_EVENT dieBase STEP_STAT; omega
      have hcause : DIE_WORK_EVENT d ≠ STEP_ABORT_CAUSE := by unfold DIE_WORK_EVENT dieBase STEP_ABORT_CAUSE; omega
      rw [drop.regs _ (offFaces_workEvent hd), reg_setFlag_other _ hstat, aborting_reg,
        causeRecorded_reg _ _ _ _ _ (workEvent_notMem_faultRegs hd) hstat hcause]
    record := by
      refine newestFault_congr (s := causeRecorded s (causeWord s cause layer) code src extra) ?_ (fault_newest _ _ _ _ _)
      rw [drop.obs, State.setFlag_obs, aborting_obs]
    cru := by rw [drop.cru, State.setFlag_cru, aborting_cru, causeRecorded_cru]
    mem := fun a ha => by
      rw [byteAt_congr drop.mem, byteAt_congr (State.setFlag_mem _ _ _ _), byteAt_congr (aborting_mem _),
        causeRecorded_byteAt _ _ _ _ _ ha] }

/-! ### the phase watchdog (R347, R348) -/

/-- The dies that have not arrived on the phase's channel, all while a batch is awaited. -/
def lateDies (s : State) : List Nat :=
  (List.range 16).filter (fun d => decide (s.eng.mode = .fill) || !s.flag (BAR_CH d s.phaseBarch) BAR_CH_DIE_ARR)
/-- The dies that are told. -/
def toldDies (s : State) : List Nat := if lateDies s = [] then List.range 16 else lateDies s

theorem toldDies_lt {s : State} {d : Nat} (h : d ∈ toldDies s) : d < 16 := by
  unfold toldDies at h
  split at h
  · exact List.mem_range.1 h
  · exact List.mem_range.1 (List.mem_filter.1 h).1

theorem wdogDump_off (s : State) (n : Nat) : s.wdogDump false n = s := rfl

theorem phaseWdog_late {s : State} (hrun : s.running = true) (hgo : s.eng.aborted = false)
    (hmode : s.eng.mode = .phase ∨ s.eng.mode = .fill) (hdump : s.flag DUMP_CFG DUMP_CFG_WDOG = false) :
    s.phaseWdog = (tellDies (toldDies s) s).localAbort acWdog 0 0x0302 (DIE_WORK_EVENT ((toldDies s).headD 0))
      ((lateDies s).map (fun d => 2 ^ d)).sum := by
  have hawaited : (s.eng.mode == .phase || s.eng.mode == .fill) = true := by
    rcases hmode with h | h <;> rw [h] <;> decide
  have hdump' : (tellDies (toldDies s) s).flag DUMP_CFG DUMP_CFG_WDOG = false :=
    (flag_of_reg (tellDies_reg s (fun d => notMem_sumRegs (by decide) (by decide) _)
      (fun d => by unfold DIE_WORK_EVENT dieBase DUMP_CFG; omega) _) _).trans hdump
  have hmask : (lateDies s).foldl (fun n d => n + 2 ^ d) 0 = ((lateDies s).map (fun d => 2 ^ d)).sum := by
    rw [List.sum_eq_foldl, List.foldl_map]
  unfold State.phaseWdog
  rw [if_neg (by rw [hrun, hgo, hawaited]; decide)]
  dsimp only
  have hlate : (List.range 16).filter (fun d => s.eng.mode == .fill || !s.flag (BAR_CH d s.phaseBarch) BAR_CH_DIE_ARR) = lateDies s := rfl
  have htold : (if (lateDies s).isEmpty = true then List.range 16 else lateDies s) = toldDies s := by
    simp only [List.isEmpty_iff, toldDies]
  rw [hlate, hmask, htold, ← tellDies, hdump', wdogDump_off]

/-- The first clause of O25. -/
theorem phaseWdog_shows {s : State} (hrun : s.running = true) (hgo : s.eng.aborted = false) (hcause : s.eng.cause = none)
    (hmode : s.eng.mode = .phase ∨ s.eng.mode = .fill) (hopen : (s.chan 15).closed = false)
    (hdump : s.flag DUMP_CFG DUMP_CFG_WDOG = false) :
    Aborted (tellDies (toldDies s) s) s.phaseWdog (causeWord s acWdog 0) 0x0302 ((lateDies s).map (fun d => 2 ^ d)).sum := by
  have side := tellDies_side (toldDies s) s
  have hw : causeWord (tellDies (toldDies s) s) acWdog 0 = causeWord s acWdog 0 := by
    rw [causeWord, causeWord, side.micro, side.fld (by decide)]
  rw [phaseWdog_late hrun hgo hmode hdump, ← hw]
  exact localAbort_shows (side.running.trans hrun) (side.eng ▸ hcause) (side.chan 15 ▸ hopen) (by decide) 0 _ _ _

/-! ### the channel 15 watchdog (R348) -/

theorem c15Wdog_eq {s : State} (hrun : s.running = true) (hmode : s.eng.mode = .voted ∨ s.eng.mode = .wait)
    (hdump : s.flag DUMP_CFG DUMP_CFG_C15 = false) :
    s.c15Wdog = (s.raise STEP_EVENT STEP_EVENT_C15_WDOG).fault 0 0x0401 STEP_EVENT (s.stepNum % 2 ^ 16 * 2 ^ 16) := by
  have hwaits : (s.eng.mode == .wait || s.eng.mode == .voted) = true := by
    rcases hmode with h | h <;> rw [h] <;> decide
  have hreg {a : Nat} (h : a ∉ sumRegs STEP_EVENT) (hne : a ≠ STEP_EVENT) :
      (s.raise STEP_EVENT STEP_EVENT_C15_WDOG).reg a = s.reg a := raise_reg s _ h hne
  unfold State.c15Wdog
  rw [if_neg (by rw [hrun, hwaits]; decide)]
  dsimp only
  rw [flag_of_reg (fault_reg _ _ _ _ _ (by decide)),
    flag_of_reg (hreg (by decide) (by decide)), hdump, wdogDump_off]

/-! ### ABANDON and a returned packet (R199, R343) -/

/-- STEP_CTRL with ABANDON written 1. -/
def abandonWritten (s : State) : State :=
  s.setReg STEP_CTRL (maskWrite (2 ^ STEP_CTRL_ABANDON.lo) (s.reg STEP_CTRL) (2 ^ STEP_CTRL_ABANDON.lo))

/-- Only in the commit wait does ABANDON take effect at once. -/
theorem abandonNow_phase {s : State} (h : s.eng.mode = .phase) : s.abandonNow = s := if_neg (by rw [h]; simp)

theorem stepAbandon_phase {s : State} {q : Requester} (hq : arrives s q) (hon : s.regOn STEP_CTRL = true) (hrun : s.running = true)
    (hmode : s.eng.mode = .phase) : s.fieldPut q STEP_CTRL (2 ^ STEP_CTRL_ABANDON.lo) (2 ^ STEP_CTRL_ABANDON.lo) =
      (abandonWritten s).setFlag STEP_CTRL STEP_CTRL_ABANDON true := by
  have hm : 2 ^ STEP_CTRL_ABANDON.lo &&& accMask .rw STEP_CTRL = 2 ^ STEP_CTRL_ABANDON.lo := by decide
  have hown : OwnReg s STEP_CTRL := ⟨by decide, by decide, .inr ⟨by decide, by decide⟩⟩
  have hheld : (abandonWritten s).updHold = abandonWritten s :=
    if_pos ((flag_of_reg (reg_setReg_other s (by decide) _) _).trans hrun)
  rw [fieldPut_arrives hq hon, rwPut_own hown (by rw [hm]; decide) (takenMask_of_no_die (by decide) _ _), hm, ← abandonWritten]
  unfold State.regEffect
  rw [if_pos rfl]
  dsimp only
  rw [hheld, if_pos (by decide), State.abandon]
  exact abandonNow_phase (by rw [State.setFlag_eng, abandonWritten, State.setReg_eng, hmode])

theorem barResend_eq {s : State} {b : BarBack} {rest : List BarBack} (h : s.eng.back = b :: rest) :
    s.barResend = ({ s with eng := { s.eng with back := rest } } : State).sendBar b.dst b.msg b.count := by
  rw [State.barResend, h]

theorem send_eng (s : State) (p : Packet) (u : TagUse) : (s.send p u).eng = s.eng := rfl
theorem send_regs (s : State) (p : Packet) (u : TagUse) : (s.send p u).regs = s.regs := rfl
theorem send_tags (s : State) (p : Packet) (u : TagUse) : (s.send p u).fab.tags =
    mapSet (fun _ => none) s.fab.nextTag (some u) s.fab.tags := rfl
/-- What is sent inside the geometry leaves the device with the next tag. -/
theorem send_out (s : State) (p : Packet) (u : TagUse) (h : s.inGeom p.dst = true) :
    (s.send p u).out = .packet { p with tag := s.fab.nextTag, src := s.devId, ord := p.type != 2 && p.type != 3 } :: s.out := by
  have hout : (s.send p u).out = .packet (if s.inGeom p.dst then
      { p with tag := s.fab.nextTag, src := s.devId, ord := p.type != 2 && p.type != 3 } else _) :: s.out := rfl
  rw [hout, h, if_pos rfl]

theorem sendBar_out (s : State) {dst : Nat} (m : BarMsg) (n : Nat) (h : s.inGeom dst = true) :
    (s.sendBar dst m n).out = .packet { barPkt dst m with tag := s.fab.nextTag, src := s.devId } :: s.out :=
  send_out s (barPkt dst m) _ h

/-- Settles O25: `phaseWdog_shows`, the record of the channel 15 watchdog, a write of ABANDON and a packet sent again. -/
theorem watchdogsAndHoldsOfAStep : Obligations.WatchdogsAndHoldsOfAStep := by
  unfold Obligations.WatchdogsAndHoldsOfAStep
  intro s hon
  refine ⟨fun hrun hgo hcause hmode hopen hdump => ?_, fun hrun hmode hdump => ?_, fun q hq hreg hrun hmode => ?_,
    fun b rest hback hgeom => ?_⟩
  · have h := phaseWdog_shows hrun hgo hcause hmode hopen hdump
    have side := tellDies_side (toldDies s) s
    have only := tellDies_onlyRegs (toldDies s) s
    refine ⟨queued s s.phaseWdog, causeWord s acWdog 0, done_on hon _, ?_⟩
    have hactive : s.phaseWdog.eng.active = s.eng.active := by rw [h.eng, side.eng]
    rw [queued_eng, hactive, h.eng]
    exact ⟨rfl, rfl, h.fin, rfl, causeWord_cause s 0 (by decide), h.cause,
      fun d hd => (flag_of_reg (h.events d (toldDies_lt hd)) _).trans (tellDies_wdog (toldDies_lt hd) hd s), h.record,
      rfl, h.cru.trans (onlyRegs_cru only), fun a ha => (h.mem a ha).trans (byteAt_congr (onlyRegs_mem only) a)⟩
  · have record := fault_newest (s.raise STEP_EVENT STEP_EVENT_C15_WDOG) 0 0x0401 STEP_EVENT (s.stepNum % 2 ^ 16 * 2 ^ 16)
    have side := MemSide.fault (s.raise STEP_EVENT STEP_EVENT_C15_WDOG) 0 0x0401 STEP_EVENT (s.stepNum % 2 ^ 16 * 2 ^ 16)
    have hevent := fault_reg (s.raise STEP_EVENT STEP_EVENT_C15_WDOG) 0 0x0401 STEP_EVENT (s.stepNum % 2 ^ 16 * 2 ^ 16)
      (a := STEP_EVENT) (by decide)
    rw [← c15Wdog_eq hrun hmode hdump] at record side hevent
    refine ⟨queued s s.c15Wdog, done_on hon _, ?_, record, ?_, ?_, ?_⟩
    · rw [queued_flag, flag_of_reg hevent, raise_flag_self _ _ (by decide) (by decide) (by decide) rfl]
    · rw [queued_eng, side.eng, raise_eng]
    · exact side.dies.trans (raise_dies _ _ _)
    · exact side.faces.trans (raise_faces _ _ _)
  · have hexec := (congrArg (done s) (stepAbandon_phase hq hreg hrun hmode)).trans
      (done_onlyRegs hon (onlyRegs_trans (onlyRegs_setReg s _ _) (onlyRegs_setFlag _ _ _ _)))
    refine ⟨_, hexec, flag_setFlag_same _ _ _ (by decide) rfl, ?_, ?_⟩
    · exact regsKept_trans (regsKept_setReg s (by decide) _) (regsKept_setReg _ (by decide) _)
    · exact onlyRegs_trans (onlyRegs_setReg s _ _) (onlyRegs_setFlag _ _ _ _)
  · refine ⟨_, (congrArg (done s) (barResend_eq hback)).trans (done_on hon _), ?_, ?_, ?_, ?_⟩
    · rw [queued_eng, State.sendBar, send_eng]
    · exact send_regs _ (barPkt b.dst b.msg) (.bar b.msg b.count)
    · exact sendBar_out _ b.msg b.count hgeom
    · exact (congrArg (mapGet _ _) (send_tags _ _ _)).trans (mapGet_set_same _ _ _ _)

end Sys2Proof.Stepping
end

section
/-! The device's arrival on channel 15 (R196, R197, R335), and O23. -/

namespace Sys2Proof.Stepping

open Sys2Proof Sys2Proof.Machine Sys2Proof.Laws

/-! ### the device arrives on a channel (R335, R339) -/

/-- The device has arrived on channel c with the value v, and stage k runs. -/
def arrived (s : State) (c : Nat) (v : Bool) (k : Nat) : State := s.setChan c { s.chan c with closed := true, val := v, stage := k }

theorem arrived_chan (s : State) (c : Nat) (v : Bool) (k : Nat) :
    (arrived s c v k).chan c = { s.chan c with closed := true, val := v, stage := k } := chan_setChan_same _ _ _
theorem arrived_chan_other (s : State) {c j : Nat} (h : j ≠ c) (v : Bool) (k : Nat) : (arrived s c v k).chan j = s.chan j :=
  chan_setChan_other s h _
theorem arrived_mode (s : State) (c : Nat) (v : Bool) (k : Nat) : (arrived s c v k).eng.mode = s.eng.mode := rfl
theorem arrived_active (s : State) (c : Nat) (v : Bool) (k : Nat) : (arrived s c v k).eng.active = s.eng.active := rfl
theorem arrived_aborted (s : State) (c : Nat) (v : Bool) (k : Nat) : (arrived s c v k).eng.aborted = s.eng.aborted := rfl
theorem arrived_mem (s : State) (c : Nat) (v : Bool) (k : Nat) : (arrived s c v k).mem = s.mem := rfl
theorem arrived_reg (s : State) (c : Nat) (v : Bool) (k a : Nat) : (arrived s c v k).reg a = s.reg a := rfl

theorem chanArrive_eq (s : State) (c : Nat) (v : Bool) :
    s.chanArrive c v = ((arrived s c v (if s.grpEn c then 0 else 3)).stageEnter c 4).stageShow c := rfl

theorem stageEnter_done {s : State} {c : Nat} (h : (s.chan c).stage = 3) (n : Nat) : s.stageEnter c n = s := by
  cases n with
  | zero => rfl
  | succ n => rw [State.stageEnter, h, if_pos (Nat.le_refl 3)]

/-- On a channel without a group the arrival closes it. -/
theorem chanArrive_alone {s : State} {c : Nat} (h : s.grpEn c = false) (v : Bool) :
    s.chanArrive c v = (arrived s c v 3).closeChan c := by
  have hstage : ((arrived s c v 3).chan c).stage = 3 := by rw [arrived_chan]
  rw [chanArrive_eq, h, if_neg Bool.false_ne_true, stageEnter_done hstage, State.stageShow, if_pos hstage]

/-- The AND of a stage so far goes to its line peers, and nothing of the engine changes. -/
theorem sendStage_side (s : State) (c dim : Nat) : StepSide s (s.sendStage c dim) := .foldl (fun s _ _ => .send s _ _) s
theorem sendStage_mem (s : State) (c dim : Nat) : (s.sendStage c dim).mem = s.mem := foldl_kept State.mem (fun s _ _ => send_mem s _ _) s
theorem sendStage_regs (s : State) (c dim : Nat) : (s.sendStage c dim).regs = s.regs :=
  foldl_kept State.regs (fun s _ _ => send_regs s _ _) s

/-- Line peers are awaited from which nothing has come. -/
theorem stageFull_none {s : State} {c : Nat} (hrx : (s.chan c).rx = []) (hpeers : s.linePeers c (s.chan c).stage ≠ []) :
    s.stageFull c = false := by
  obtain ⟨d, l, hl⟩ := List.exists_cons_of_ne_nil hpeers
  rw [State.stageFull, hl, hrx]
  rfl

/-- A group's lines stand in its register and the device's id. -/
theorem linePeers_congr {s t : State} {c : Nat} (hg : t.reg (BAR_GRP c) = s.reg (BAR_GRP c)) (hid : t.reg PKG_ROLE = s.reg PKG_ROLE)
    (dim : Nat) : t.linePeers c dim = s.linePeers c dim := by
  simp only [State.linePeers, State.grpLen, State.grpLo, State.grpHi, State.devId, State.fld, hg, hid]

/-- In a group with peers in the first dimension the arrival waits for them. -/
theorem chanArrive_waits {s : State} {c : Nat} (hen : s.grpEn c = true) (hrx : (s.chan c).rx = []) (hlen : 1 < s.grpLen c 0)
    (hpeers : s.linePeers c 0 ≠ []) (v : Bool) : s.chanArrive c v = ((arrived s c v 0).sendStage c 0).showFabric c := by
  have hchan : ((arrived s c v 0).sendStage c 0).chan c = { s.chan c with closed := true, val := v, stage := 0 } := by
    rw [(sendStage_side _ c 0).chan, arrived_chan]
  have hfull : ((arrived s c v 0).sendStage c 0).stageFull c = false := by
    refine stageFull_none (by rw [hchan]; exact hrx) ?_
    have hreg (a : Nat) : ((arrived s c v 0).sendStage c 0).reg a = s.reg a := by
      rw [State.reg, sendStage_regs]
      rfl
    rw [hchan, linePeers_congr (hreg _) (hreg _)]
    exact hpeers
  have hlen' : ¬ (arrived s c v 0).grpLen c 0 ≤ 1 := Nat.not_le.2 hlen
  have henter : (arrived s c v 0).stageEnter c 4 = (arrived s c v 0).sendStage c 0 := by
    have hk : ((arrived s c v 0).chan c).stage = 0 := by rw [arrived_chan]
    rw [State.stageEnter]
    dsimp only
    rw [hk, if_neg (by decide), if_neg hlen', hfull, if_neg Bool.false_ne_true]
  rw [chanArrive_eq, hen, if_pos rfl, henter, State.stageShow, hchan]
  exact if_neg (show ¬0 = 3 by decide)

/-! ### the commit wait -/

/-- The device has voted, and shows that it waits for channel 15. -/
def awaiting (s : State) : State := (inMode s .voted).setFlag STEP_STAT STEP_STAT_C15_WAIT true

theorem awaiting_eng (s : State) : (awaiting s).eng = { s.eng with mode := .voted } := by
  rw [awaiting, State.setFlag_eng]
  rfl
theorem awaiting_reg (s : State) {a : Nat} (h : a ≠ STEP_STAT) : (awaiting s).reg a = s.reg a := by
  rw [awaiting, reg_setFlag_other _ h, inMode_reg]
theorem awaiting_waits (s : State) : (awaiting s).flag STEP_STAT STEP_STAT_C15_WAIT = true := by
  rw [awaiting, flag_setFlag_same _ _ _ (by decide) rfl]
theorem awaiting_mem (s : State) : (awaiting s).mem = s.mem := by
  rw [awaiting, State.setFlag_mem]
  rfl
theorem awaiting_chan (s : State) (c : Nat) : (awaiting s).chan c = s.chan c := by
  rw [State.chan, State.chan, awaiting_eng]
theorem awaiting_grpEn (s : State) : (awaiting s).grpEn 15 = s.grpEn 15 := flag_of_reg (awaiting_reg s (by decide)) _

theorem vote_eq (s : State) (v : Bool) :
    s.vote v = (if v then awaiting s else (awaiting s).ownNotice).chanArrive 15 v := rfl

/-- The notice of a 0 is noted as sent. -/
def noticed (s : State) : State := s.setChan 15 { s.chan 15 with sent := true }

theorem noticed_mode (s : State) : (noticed s).eng.mode = s.eng.mode := rfl
theorem noticed_active (s : State) : (noticed s).eng.active = s.eng.active := rfl
theorem noticed_mem (s : State) : (noticed s).mem = s.mem := rfl
theorem noticed_grpEn (s : State) (c : Nat) : (noticed s).grpEn c = s.grpEn c := rfl

/-- The notice of a 0 is told in a group alone. -/
theorem ownNotice_alone {s : State} (h : s.grpEn 15 = false) : s.ownNotice = if (s.chan 15).sent then s else noticed s := by
  have htold : (noticed s).sendNotice [0, 1, 2] = noticed s := if_pos (by rw [noticed_grpEn, h]; rfl)
  rw [State.ownNotice, ← noticed, htold]

theorem c15Arrive_votes {s : State} (hrun : s.running = true) (hmode : s.eng.mode = .wait) (hquiet : s.quiet = true)
    (hgo : s.eng.aborted = false) (hkeep : s.flag STEP_CTRL STEP_CTRL_ABANDON = false) (hclosed : s.jobsClosed = true)
    (hfail : s.jobFailed = none) (hsums : s.eng.sums = []) : s.c15Arrive = s.vote (s.flag STEP_STAT STEP_STAT_FIN) := by
  unfold State.c15Arrive
  rw [if_neg (by rw [hrun, hmode, hquiet]; decide), if_neg (by rw [hkeep]; decide), if_neg (by rw [hgo]; decide),
    if_neg (by rw [hclosed, hsums]; decide), hfail]
  rfl

/-! ### channel 15 closes (R197) -/

/-- Channel 15 closes, and CLOSED of BAR_PSTAT shows it. -/
def shown15 (s : State) : State :=
  ((s.traceBar 15 ((s.chan 15).epoch.getD 0) (s.chan 15).val).setFlag BAR_PSTAT ⟨15, 1⟩ true).setFlag BAR_PSTAT ⟨31, 1⟩ false

theorem closeChan_15 (s : State) : s.closeChan 15 = (shown15 s).c15Close (s.chan 15).val := rfl
theorem shown15_eng (s : State) : (shown15 s).eng = s.eng := by
  rw [shown15, State.setFlag_eng, State.setFlag_eng, State.traceBar, (StepSide.capture s _ _).eng]
theorem shown15_mem (s : State) : (shown15 s).mem = s.mem := by
  rw [shown15, State.setFlag_mem, State.setFlag_mem, State.traceBar, capture_mem]
theorem shown15_closed (s : State) : (shown15 s).flag BAR_PSTAT ⟨15, 1⟩ = true := by
  rw [shown15, flag_setFlag_other _ _ _ (by decide) (by decide), flag_setFlag_same _ _ _ (by decide) rfl]

theorem phaseW0_congr {s t : State} (h : t.mem = s.mem) (p : Slot) (i : Nat) : t.phaseW0 p i = s.phaseW0 p i := by
  rw [State.phaseW0, State.phaseW0, State.memNat, State.memNat, h]

/-- The program's first COMMIT phase stands in memory. -/
theorem firstCommit_congr {s t : State} (h : t.mem = s.mem) (p : Slot) :
    (List.range (hPhases p.hdr)).find? (fun i => phKind (t.phaseW0 p i) == 3) =
      (List.range (hPhases p.hdr)).find? (fun i => phKind (s.phaseW0 p i) == 3) := by
  simp only [phaseW0_congr h]

/-- The device stops waiting for channel 15. -/
def settled15 (s : State) : State := s.setFlag STEP_STAT STEP_STAT_C15_WAIT false

/-- Channel 15 closes with 1: the first COMMIT phase starts. -/
theorem c15Close_commits {s : State} {p : Slot} (hact : s.eng.active = some p) (hmode : s.eng.mode = .voted)
    (hgo : s.eng.aborted = false) {i : Nat}
    (hfind : (List.range (hPhases p.hdr)).find? (fun i => phKind (s.phaseW0 p i) == 3) = some i) :
    s.c15Close true = (settled15 s).phaseStart p i 0 := by
  have hmem : (settled15 s).mem = s.mem := State.setFlag_mem s _ _ _
  have hgo' : (settled15 s).eng.aborted = false := by rw [settled15, State.setFlag_eng, hgo]
  unfold State.c15Close
  rw [hact]
  dsimp only
  rw [if_neg (not_not.2 hmode), ← settled15, if_pos ⟨rfl, by rw [hgo']; rfl⟩, firstCommit_congr hmem, hfind]

/-- Channel 15 closes with 0: the step ends aborted. -/
theorem c15Close_aborts {s : State} {p : Slot} (hact : s.eng.active = some p) (hmode : s.eng.mode = .voted) :
    s.c15Close false = (settled15 s).boundary false := by
  unfold State.c15Close
  rw [hact]
  dsimp only
  rw [if_neg (not_not.2 hmode), ← settled15, if_neg (fun h => Bool.false_ne_true h.1)]

/-! ### the three arrivals -/

/-- With FIN = 1 and no group: the channel closes with 1. -/
theorem vote_true_alone {s : State} {p : Slot} (hact : s.eng.active = some p) (hgo : s.eng.aborted = false) (hen : s.grpEn 15 = false)
    {i : Nat} (hfind : (List.range (hPhases p.hdr)).find? (fun i => phKind (s.phaseW0 p i) == 3) = some i) :
    s.vote true = (settled15 (shown15 (arrived (awaiting s) 15 true 3))).phaseStart p i 0 := by
  have hmem : (shown15 (arrived (awaiting s) 15 true 3)).mem = s.mem := by rw [shown15_mem, arrived_mem, awaiting_mem]
  have hclose := c15Close_commits (s := shown15 (arrived (awaiting s) 15 true 3)) (p := p) (i := i)
    (by rw [shown15_eng, arrived_active, awaiting_eng, hact]) (by rw [shown15_eng, arrived_mode, awaiting_eng])
    (by rw [shown15_eng, arrived_aborted, awaiting_eng, hgo]) (by rw [firstCommit_congr hmem, hfind])
  rw [vote_eq, if_pos rfl, chanArrive_alone ((awaiting_grpEn s).trans hen), closeChan_15, arrived_chan, hclose]

/-- What the first COMMIT phase shows once channel 15 has closed with 1. -/
theorem vote_true_shows {s : State} {p : Slot} (hact : s.eng.active = some p) (hgo : s.eng.aborted = false) (hen : s.grpEn 15 = false)
    {i : Nat} (hfind : (List.range (hPhases p.hdr)).find? (fun i => phKind (s.phaseW0 p i) == 3) = some i) (hi : i < 64)
    (hheld : ∀ c, c < 15 → (s.chan c).held = []) :
    (s.vote true).eng.mode = .phase ∧ ((s.vote true).chan 15).closed = true ∧
      (s.vote true).flag STEP_STAT STEP_STAT_C15_WAIT = false ∧ (s.vote true).fld STEP_STAT STEP_STAT_PHASE = i ∧
      (s.vote true).flag BAR_PSTAT ⟨15, 1⟩ = true := by
  have hchan (c : Nat) : (settled15 (shown15 (arrived (awaiting s) 15 true 3))).chan c = (arrived (awaiting s) 15 true 3).chan c := by
    rw [settled15, chan_congr (State.setFlag_eng _ _ _ _), chan_congr (shown15_eng _)]
  have runs := phaseStart_runs (s := settled15 (shown15 (arrived (awaiting s) 15 true 3))) p hi (mu := 0) (by decide) fun c hc => by
    rw [hchan, arrived_chan_other _ (Nat.ne_of_lt hc), awaiting_chan, hheld c hc]
  rw [vote_true_alone hact hgo hen hfind]
  refine ⟨runs.mode, ?_, ?_, runs.phase, ?_⟩
  · rw [runs.chan15, hchan, arrived_chan]
  · rw [runs.flags _ (by decide), settled15, flag_setFlag_same _ _ _ (by decide) rfl]
  · rw [runs.closed15, settled15, flag_of_reg (reg_setFlag_other _ (by decide) _ _), shown15_closed]

/-- In a group the device waits with its value, its notice told before or not due. -/
theorem vote_group {s : State} (hen : s.grpEn 15 = true) (hrx : (s.chan 15).rx = []) (hlen : 1 < s.grpLen 15 0)
    (hpeers : s.linePeers 15 0 ≠ []) (hsent : (s.chan 15).sent = true) (v : Bool) :
    s.vote v = ((arrived (awaiting s) 15 v 0).sendStage 15 0).showFabric 15 := by
  have hnotice : (awaiting s).ownNotice = awaiting s := if_pos ((congrArg Chan.sent (awaiting_chan s 15)).trans hsent)
  have hgrp : (awaiting s).reg (BAR_GRP 15) = s.reg (BAR_GRP 15) := awaiting_reg s (by decide)
  have hlen' : 1 < (awaiting s).grpLen 15 0 := by
    rw [State.grpLen, State.grpHi, State.grpLo, hgrp]
    exact hlen
  have hpeers' : (awaiting s).linePeers 15 0 ≠ [] := by
    rw [linePeers_congr hgrp (awaiting_reg s (by decide))]
    exact hpeers
  rw [vote_eq, hnotice, ite_self]
  exact chanArrive_waits ((awaiting_grpEn s).trans hen) ((congrArg Chan.rx (awaiting_chan s 15)).trans hrx) hlen' hpeers' v

theorem vote_group_shows {s : State} (hen : s.grpEn 15 = true) (hrx : (s.chan 15).rx = []) (hlen : 1 < s.grpLen 15 0)
    (hpeers : s.linePeers 15 0 ≠ []) (hsent : (s.chan 15).sent = true) (v : Bool) :
    (s.vote v).eng.mode = .voted ∧ ((s.vote v).chan 15).closed = true ∧ ((s.vote v).chan 15).val = v ∧
      (s.vote v).flag STEP_STAT STEP_STAT_C15_WAIT = true ∧ (s.vote v).mem = s.mem := by
  have sent := sendStage_side (arrived (awaiting s) 15 v 0) 15 0
  have heng : (s.vote v).eng = (arrived (awaiting s) 15 v 0).eng := by
    rw [vote_group hen hrx hlen hpeers hsent, State.showFabric, State.setFlag_eng, sent.eng]
  refine ⟨?_, ?_, ?_, ?_, ?_⟩
  · rw [heng, arrived_mode, awaiting_eng]
  · rw [chan_congr heng, arrived_chan]
  · rw [chan_congr heng, arrived_chan]
  · rw [vote_group hen hrx hlen hpeers hsent, State.showFabric, flag_of_reg (reg_setFlag_other _ (by decide) _ _), sent.flag (by decide),
      flag_of_reg (arrived_reg _ _ _ _ _), awaiting_waits]
  · rw [vote_group hen hrx hlen hpeers hsent, State.showFabric, State.setFlag_mem, sendStage_mem, arrived_mem, awaiting_mem]

/-- With FIN = 0 and no group: the channel closes with 0, and the step ends aborted. -/
theorem vote_false_alone {s : State} {p : Slot} (hact : s.eng.active = some p) (hen : s.grpEn 15 = false) :
    ∃ u : State, s.vote false = u.boundary false ∧ u.eng.mode = .voted ∧ u.mem = s.mem := by
  obtain ⟨t, ht, hmode, hactive, hmem, hgrp⟩ : ∃ t, (awaiting s).ownNotice = t ∧ t.eng.mode = .voted ∧ t.eng.active = some p ∧
      t.mem = s.mem ∧ t.grpEn 15 = false := by
    have heng := awaiting_eng s
    refine ⟨_, ownNotice_alone ((awaiting_grpEn s).trans hen), ?_⟩
    split
    · exact ⟨by rw [heng], by rw [heng, hact], awaiting_mem s, (awaiting_grpEn s).trans hen⟩
    · exact ⟨by rw [noticed_mode, heng], by rw [noticed_active, heng, hact], by rw [noticed_mem, awaiting_mem],
        by rw [noticed_grpEn, awaiting_grpEn, hen]⟩
  have hclose := c15Close_aborts (s := shown15 (arrived t 15 false 3)) (p := p) (by rw [shown15_eng, arrived_active, hactive])
    (by rw [shown15_eng, arrived_mode, hmode])
  refine ⟨settled15 (shown15 (arrived t 15 false 3)), ?_, ?_, ?_⟩
  · rw [vote_eq, if_neg Bool.false_ne_true, ht, chanArrive_alone hgrp, closeChan_15, arrived_chan, hclose]
  · rw [settled15, State.setFlag_eng, shown15_eng, arrived_mode, hmode]
  · rw [settled15, State.setFlag_mem, shown15_mem, arrived_mem, hmem]

/-- Settles O23: `vote_true_shows`, `vote_group_shows` and `vote_false_alone`, one for each arrival. -/
theorem theDeviceVotesItsFiniteBit : Obligations.TheDeviceVotesItsFiniteBit := by
  unfold Obligations.TheDeviceVotesItsFiniteBit
  intro s p hon hrun hmode hquiet hgo hkeep hclosed hfail hsums hact
  have hvote := c15Arrive_votes hrun hmode hquiet hgo hkeep hclosed hfail hsums
  refine ⟨fun i hen hfin hheld hfind hi => ?_, fun hen hrx hlen hpeers hsent => ?_, fun hen hfin => ?_⟩
  · rw [hfin] at hvote
    obtain ⟨hphase, hchan, hwait, hfirst, hshown⟩ := vote_true_shows hact hgo hen hfind hi hheld
    refine ⟨queued s (s.vote true), (congrArg (done s) hvote).trans (done_on hon _), ?_⟩
    rw [queued_eng, chan_congr (queued_eng s _), queued_flag, queued_fld, queued_flag]
    exact ⟨hphase, hchan, hwait, hfirst, hshown⟩
  · obtain ⟨hvoted, hchan, hval, hwait, hmem⟩ := vote_group_shows hen hrx hlen hpeers hsent (s.flag STEP_STAT STEP_STAT_FIN)
    refine ⟨queued s (s.vote (s.flag STEP_STAT STEP_STAT_FIN)), (congrArg (done s) hvote).trans (done_on hon _), ?_⟩
    rw [queued_eng, chan_congr (queued_eng s _), queued_flag, queued_mem]
    exact ⟨hvoted, hchan, hval, hwait, hmem⟩
  · rw [hfin] at hvote
    obtain ⟨u, hu, hends⟩ := vote_false_alone hact hen
    exact ⟨u, (congrArg (done s) (hvote.trans hu)).trans (done_on hon _), hends⟩

end Sys2Proof.Stepping
end

section
/-! SUPPORT. Reads and writes of memory by the units leave the step engine as it was too (`StepSide`; R216 to R225, R358):
`MemSide` keeps its record, but speaks of the registers aside and not of the STEP block. -/

namespace Sys2Proof.Laws

open Sys2Proof Sys2Proof.Machine

theorem not_stepReg_ctl (a r : Nat) : ¬ stepReg (dieBase (stackOf (gchan a)) + 0x10000 + ctlOf (gchan a) * 0x1000 + r) := by
  rw [Nat.add_assoc, Nat.add_assoc]
  exact not_stepReg_die _ _
theorem not_stepReg_ld (k o : Nat) : ¬ stepReg (ldBase k + o) := by
  unfold stepReg ldBase
  omega
/-- Blocks from placement on stand above the step engine's. -/
theorem not_stepReg_above {b : Nat} (h : 0x400000 ≤ b) (o : Nat) : ¬ stepReg (b + o) := by
  unfold stepReg
  omega

namespace StepSide

variable {s t u : State}

theorem ended (s : State) (a c : Nat) : StepSide s (s.ended a c) := by
  unfold State.ended
  exact (ite (fun _ => raise s (not_stepReg_ctl a _) _) (fun _ => refl s)).trans (fault _ (by decide) _ _ _)

/-! ### lines of the die cache -/

theorem burst (s : State) (a : Nat) : StepSide s (s.burst a) := ite (fun _ => note rfl rfl) (fun _ => note rfl rfl)
theorem dropLine (s : State) (l : Nat) (c : CLine) : StepSide s (s.dropLine l c) :=
  (ite (fun _ => refl s) (fun _ => note rfl rfl) : StepSide s (s.restoreBelow l c c.dirty)).trans (note rfl rfl)
theorem evictLine (s : State) (l : Nat) (c : CLine) : StepSide s (s.evictLine l c) :=
  ite (fun _ => (burst s _).trans (note rfl rfl)) (fun _ => dropLine s l c)
theorem makeWay (s : State) (l : Nat) : StepSide s (s.makeWay l) := by
  unfold State.makeWay
  split
  · exact evictLine s _ _
  · exact refl s
/-- A counter of a controller. -/
theorem ctlCount (s : State) (a r : Nat) :
    StepSide s (s.bump (dieBase (stackOf (gchan a)) + 0x10000 + ctlOf (gchan a) * 0x1000 + r) 1) :=
  bump s (not_stepReg_ctl a r) (not_stepReg_ctl a (r + 4)) 1
theorem countHit (s : State) (a : Nat) : StepSide s (s.countHit a) := ctlCount s a 0x108
theorem countMiss (s : State) (a : Nat) : StepSide s (s.countMiss a) := ctlCount s a 0x110
theorem loadLine256 (s : State) (l : Nat) (k : Bool) (n : Nat) : StepSide s (s.loadLine256 l k n) :=
  ite (fun _ => (burst s _).trans (note rfl rfl)) (fun _ => (burst s _).trans (note rfl rfl))
theorem useTick (s : State) : StepSide s s.useTick.2 := note rfl rfl
theorem fillLine (s : State) (l : Nat) (k : Bool) : StepSide s (s.fillLine l k) :=
  (makeWay s l).trans <| (ite (fun _ => raise _ (not_stepReg_ctl (l * 256) _) _) (fun _ => refl _)).trans <|
    (useTick _).trans (loadLine256 _ _ _ _)
theorem touchLine (s : State) (l hint : Nat) : StepSide s (s.touchLine l hint) := by
  unfold State.touchLine
  split
  · exact refl s
  · exact ite (fun _ => refl s) (fun _ => note rfl rfl)
theorem dirtyLine (s : State) (l : Nat) : StepSide s (s.dirtyLine l) := by
  unfold State.dirtyLine
  split
  · exact refl s
  · exact ite (fun _ => refl s) (fun _ => note rfl rfl)

/-! ### reads -/

/-- A read of a line without an error in it. -/
theorem dcLook (s : State) (hint a n : Nat) : StepSide s (s.dcLook hint a n .none).2 := by
  unfold State.dcLook
  dsimp only
  split
  · refine (countHit s a).trans (ite (fun _ => ?_) (fun _ => touchLine _ _ _))
    split
    · exact dropLine _ _ _
    · exact refl _
  · exact (countMiss s a).trans (ite (fun _ => burst _ _) (fun _ => fillLine _ _ _))

theorem hostRead1 (s : State) (o n : Nat) : StepSide s (s.hostRead1 o n) := by
  have asks : StepSide s { s.emit (.hostRead s.hif.nextTag (s.hostAddr o) n) with
    hif := { s.hif with nextTag := (s.hif.nextTag + 1) % 16384 } } := note rfl rfl
  have count (t : State) : StepSide t (t.bump HIF_RD_BYTES_LO n) := bump t (by decide) (by decide) n
  have event (t : State) (f : Fld) : StepSide t (t.raise HIF_EVENT f) := raise t (by decide) f
  unfold State.hostRead1
  dsimp only
  split
  · exact asks.trans (count _)
  · exact (asks.trans (count _)).trans (event _ _)
  · exact (asks.trans (event _ _)).trans (ended _ _ _)
  · exact (asks.trans (event _ _)).trans (ended _ _ _)

theorem memSeenAs (s : State) (hint a n : Nat) : StepSide s (s.memSeenAs hint a n) :=
  ite (fun _ => ended s _ _) fun _ => ite (fun _ => foldl (fun s _ _ => dcLook s _ _ _) s) fun _ =>
    ite (fun _ => ite (fun _ => ended s _ _) (fun _ => foldl (fun s _ _ => hostRead1 s _ _) s)) (fun _ => refl s)
theorem memSeen (s : State) (a n : Nat) : StepSide s (s.memSeen a n) := memSeenAs s 0 a n

/-! ### writes -/

theorem memPut (s : State) (a : Nat) (v : List Byte) (bad : Bool) : StepSide s (s.memPut a v bad) :=
  (ite (fun _ => refl s) (fun _ => note rfl rfl) : StepSide s (s.overLost a v.length)).trans (note rfl rfl)
theorem mergeLost (s : State) (a n : Nat) : StepSide s (s.mergeLost a n) := by
  unfold State.mergeLost
  refine ite (fun _ => refl s) (fun _ => ?_)
  split
  · exact fault s (by decide) _ _ _
  · exact refl s
theorem dcTake (s : State) (hint a n : Nat) : StepSide s (s.dcTake hint a n .none) := by
  unfold State.dcTake
  dsimp only
  split
  · exact ((countHit s a).trans (dirtyLine _ _)).trans (touchLine _ _ _)
  · exact (countMiss s a).trans (ite (fun _ => (mergeLost _ _ _).trans (burst _ _)) (fun _ => (fillLine _ _ _).trans (dirtyLine _ _)))
theorem localPut (s : State) (hint a : Nat) (v : List Byte) (bad : Bool) : StepSide s (s.localPut hint a v bad) := by
  unfold State.localPut
  split
  · exact foldl (fun s _ _ => (dcTake s _ _ _).trans (memPut _ _ _ _)) s
  · exact (hostPut s _ _).trans (note rfl rfl)
  · exact memPut s _ _ _
theorem memWrite (s : State) (a : Nat) (v : List Byte) (bad : Bool) : StepSide s (s.memWrite a v bad) :=
  ite (fun _ => refl s) fun _ => ite (fun _ => ended s _ _) (fun _ => localPut s _ _ _ _)

end StepSide

end Sys2Proof.Laws
end

section
/-! SUPPORT. Placement leaves the step engine as it was too (`StepSide`; R245 to R264): tables, ledger, moves, fetches, placing and
resolution, and so a unit's read or write of an object. -/

namespace Sys2Proof.Laws

open Sys2Proof Sys2Proof.Machine

namespace StepSide

variable {s t u : State}

/-- Records of placement. -/
theorem plc (s : State) (p : Placement) : StepSide s { s with plc := p } := note rfl rfl
theorem usePromo (s : State) (a : Arbiter) (r : LowReq) : StepSide s (s.usePromo a r) := note rfl rfl
theorem sendPlain (s : State) (p : Packet) : StepSide s (s.sendPlain p) := note rfl rfl
/-- A register of the placement block. -/
theorem plcReg (s : State) (o : Nat) (f : Fld) (v : Nat) : StepSide s (s.setFld (0x400000 + o) f v) :=
  setFld s (not_stepReg_above (by decide) o) f v
theorem plcCount (s : State) (o : Nat) : StepSide s (s.bump (0x400000 + o) 1) :=
  bump s (not_stepReg_above (by decide) o) (not_stepReg_above (by decide) (o + 4)) 1
theorem plcEvent (s : State) (f : Fld) : StepSide s (s.raise PLC_EVENT f) := raise s (by decide) f
theorem tablePut (s : State) (a n v : Nat) : StepSide s (s.tablePut a n v) := memWrite s _ _ _
theorem resolveEnd (s : State) (oa : Nat) : StepSide s (s.resolveEnd oa) := fault s (by decide) _ _ _
theorem zeroRange (s : State) (a n : Nat) : StepSide s (s.zeroRange a n) :=
  ite (fun _ => ended s _ _) (fun _ => (foldl (fun s _ _ => dcTake s _ _ _) s).trans (note rfl rfl))
theorem setPlaced (s : State) (o n : Nat) : StepSide s (s.setPlaced o n) := ite (fun _ => tablePut s _ _ _) (fun _ => plc s _)
theorem takeFrame (s : State) (fr k c : Nat) (p r : Bool) : StepSide s (s.takeFrame fr k c p r) :=
  (tablePut s _ _ _).trans (plcReg _ 0xc _ _)
theorem freeFrame (s : State) (fr : Nat) : StepSide s (s.freeFrame fr) :=
  ite (fun _ => (tablePut s _ _ _).trans (plcReg _ 0xc _ _)) (fun _ => refl s)

/-! ### ledger -/

theorem setLedc (s : State) (k : Nat) (l : List (Nat × Bool)) : StepSide s (s.setLedc k l) := plc s _
theorem ledcReg (s : State) (k o : Nat) (f : Fld) (v : Nat) : StepSide s (s.setFld (ldBase (keyLinkDie k) + o) f v) :=
  setFld s (not_stepReg_ld _ o) f v
theorem ledcCount (s : State) (k o : Nat) : StepSide s (s.bump (ldBase (keyLinkDie k) + o) 1) :=
  bump s (not_stepReg_ld _ o) (not_stepReg_ld _ (o + 4)) 1
theorem ledcDrop (s : State) (k : Nat) : StepSide s (s.ledcDrop k) :=
  ite (fun _ => (setLedc s _ _).trans (ledcReg _ k _ _ _)) (fun _ => refl s)
theorem setLed (s : State) (a e : Nat) : StepSide s (s.setLed a e) := by
  have drop : StepSide s (if leKind (s.led a) = kEmpty ∨ (e ≠ 0 ∧ leKey e = leKey (s.led a)) then s
      else s.ledcDrop (leKey (s.led a))) := ite (fun _ => refl s) (fun _ => ledcDrop s _)
  have mark (t : State) (k : Nat) : StepSide t (t.ledcMark k) := ite (fun _ => setLedc t _ _) (fun _ => refl t)
  exact drop.trans ((ite (fun _ => refl _) (fun _ => mark _ _)).trans (tablePut _ _ _ _))

theorem walkBuckets (s : State) (k : Nat) : StepSide s (s.walkBuckets k) := by
  have one (s : State) (b : Nat) : StepSide s (if s.served (bucketAddr b) 128 then s.memSeen (bucketAddr b) 128 else s) :=
    ite (fun _ => memSeen s _ _) (fun _ => refl s)
  unfold State.walkBuckets
  dsimp only
  split
  · exact ite (fun _ => one s _) (fun _ => (one s _).trans (one _ _))
  · exact (one s _).trans (one _ _)

theorem ledcLook (s : State) (k : Nat) : StepSide s (s.ledcLook k) := by
  have walked : StepSide s ((s.bump (LEDC_MISS_LO (keyLinkDie k)) 1).walkBuckets k) := (ledcCount s k _).trans (walkBuckets _ _)
  unfold State.ledcLook
  dsimp only
  split
  · exact (ledcCount s k _).trans (setLedc _ _ _)
  · refine walked.trans (ite (fun _ => refl _) fun _ => ite (fun _ => ?_) (fun _ => ?_))
    · exact (setLedc _ _ _).trans (ledcReg _ k _ _ _)
    · exact (ite (fun _ => (ledcCount _ k _).trans (usePromo _ _ _)) (fun _ => refl _)).trans (setLedc _ _ _)

theorem addLed {k e : Nat} (h : s.addLed k e = some t) : StepSide s t := by
  unfold State.addLed at h
  dsimp only at h
  split at h
  · cases h; exact setLed s _ _
  · split at h
    · cases h; exact setLed s _ _
    · split at h
      · cases h; exact (freeFrame s _).trans (setLed _ _ _)
      · cases h
theorem dropLed (s : State) (k : Nat) : StepSide s (s.dropLed k) := by
  unfold State.dropLed
  split
  · exact setLed s _ _
  · exact refl s

/-! ### regions and requests -/

theorem takeSlot (s : State) (r i : Nat) : StepSide s (s.takeSlot r i) :=
  (setFld s (not_stepReg_above (by decide) _) _ _).trans (plc _ _)
theorem freeSlot (s : State) (h : Nat) : StepSide s (s.freeSlot h) := by
  unfold State.freeSlot
  split
  · exact refl s
  · exact ite (fun _ => (setFld s (not_stepReg_above (by decide) _) _ _).trans (plc _ _)) (fun _ => refl s)
theorem request (s : State) (w : Where) (r : ObjReq) (n : Nat) : StepSide s (s.request w r n) := by
  unfold State.request
  split
  · exact send s _ _
  · exact send s _ _
  · exact send s _ _
  · exact resolveEnd s _

/-! ### moves, mirrors and poison -/

theorem countMoves (s : State) : StepSide s s.countMoves := setFld s (by decide) _ _
theorem addMove (s : State) (m : Move) : StepSide s (s.addMove m) := (plc s _).trans (countMoves _)
theorem dropMove (s : State) (k : Nat) : StepSide s (s.dropMove k) := (plc s _).trans (countMoves _)

theorem of_askPlace {p x k : Nat} {r : Bool} {o : Option (Nat × Nat × Bool)} (h : s.askPlace p x k r = (o, t)) : StepSide s t := by
  have asked : StepSide s (s.draw.2.send (ledPkt p opSpill (keyOa k) x []) .other) :=
    (note rfl rfl : StepSide s s.draw.2).trans (send _ _ _)
  have ha : StepSide s (s.askPlace p x k r).2 := by
    unfold State.askPlace
    dsimp only
    split
    · exact asked
    · exact asked
  rwa [h] at ha
theorem askSpill (x : Nat) (l : List Nat) (k : Nat) (s : State) : StepSide s (State.askSpill x l k s).2 := by
  induction l generalizing s with
  | nil => exact refl s
  | cons p l ih =>
    unfold State.askSpill
    split
    next t ha => exact (of_askPlace ha).trans (ih t)
    next ha => exact of_askPlace ha

theorem tellMirror (s : State) (k : Nat) : StepSide s (s.tellMirror k) := by
  unfold State.tellMirror
  split
  · exact ite (fun _ => send s _ _) (fun _ => refl s)
  · exact refl s
theorem mirrorTo (s : State) (d : Option Nat) (k o : Nat) (v : List Byte) (b : Bool) (w : Option Packet) :
    StepSide s (s.mirrorTo d k o v b w) := by
  unfold State.mirrorTo
  split
  · exact foldl (fun s _ _ => send s _ _) s
  · exact refl s
theorem addMirror (s : State) (k : Nat) : StepSide s (s.addMirror k) := by
  unfold State.addMirror
  refine ite (fun _ => refl s) (fun _ => ?_)
  split
  · exact refl s
  · split
    · exact refl s
    · split
      next ha => exact of_askPlace ha
      next ha => exact ((of_askPlace ha).trans (setLed _ _ _)).trans (tellMirror _ _)

theorem startMend (s : State) (k e : Nat) : StepSide s (s.startMend k e) := by
  unfold State.startMend
  refine ite (fun _ => refl s) (fun _ => ite (fun _ => refl s) (fun _ => ?_))
  split
  · exact (send s _ _).trans (plc _ _)
  · exact plc s _
theorem markPoison (s : State) (k : Nat) : StepSide s (s.markPoison k) := by
  unfold State.markPoison
  dsimp only
  split
  · exact ite (fun _ => plc s _) (fun _ => (plc s _).trans (setLed _ _ _))
  · exact plc s _
theorem framePoison (s : State) (fr : Nat) : StepSide s (s.framePoison fr) := by
  have marked : StepSide s ((((s.markPoison (fmKey (s.fm fr))).setFm fr (s.fm fr + 2 ^ 63)).setFld PLC_RETIRED PLC_RETIRED_FRAMES
      (((s.markPoison (fmKey (s.fm fr))).setFm fr (s.fm fr + 2 ^ 63)).fld PLC_RETIRED PLC_RETIRED_FRAMES + 1)).raise PLC_EVENT
        PLC_EVENT_POISON) :=
    (((markPoison s _).trans (tablePut _ _ _ _)).trans (setFld _ (by decide) _ _)).trans (plcEvent _ _)
  unfold State.framePoison
  refine ite (fun _ => refl s) (fun _ => marked.trans (ite (fun _ => ?_) (fun _ => ite (fun _ => ?_) (fun _ => send _ _ _))))
  · exact (dropLed _ _).trans (send _ _ _)
  · split
    · exact startMend _ _ _
    · exact refl _

theorem sendGranule (s : State) (k a d f : Nat) : StepSide s (s.sendGranule k a d f) :=
  ((memSeen s _ _).trans (foldl (fun s _ _ => sendPlain s _) _)).trans (send _ _ _)
theorem hostStore (s : State) (d o : Nat) (v : List Byte) (b : Bool) : StepSide s (s.hostStore d o v b) :=
  ite (fun _ => memWrite s _ _ _) (fun _ => foldl (fun s _ _ => send s _ _) s)
theorem hostGranule (s : State) (d o a : Nat) : StepSide s (s.hostGranule d o a) :=
  (memSeen s _ _).trans (foldl (fun s _ _ => hostStore s _ _ _ _) _)

theorem startMove (s : State) (k : Nat) (w : MoveWhy) (d o : Nat) (h : Bool) : StepSide s (s.startMove k w d o h) := by
  unfold State.startMove
  refine ite (fun _ => refl s) (fun _ => ?_)
  split
  · exact refl s
  next a e _ =>
    refine ite (fun _ => refl s) (fun _ => ite (fun _ => framePoison s _) (fun _ => ?_))
    have marked := setLed s a (e - leKind e * 2 ^ 48 + kMoving * 2 ^ 48)
    dsimp only
    generalize s.setLed a (e - leKind e * 2 ^ 48 + kMoving * 2 ^ 48) = t at marked ⊢
    refine trans (trans (marked.trans ?_) (ite (fun _ => send _ _ _) (fun _ => refl _))) (addMove _ _)
    exact ite (fun _ => hostGranule _ _ _ _) (fun _ => sendGranule _ _ _ _ _)

theorem moved (s : State) (k r : Nat) (ans : Option (Nat × Nat)) : StepSide s (MemSide.movedTo s k r ans) := by
  unfold MemSide.movedTo
  split
  · exact startMove _ _ _ _ _ _
  · split
    next rg i _ =>
      have started := startMove s k .evict s.regionDev (s.regionBase rg + i * 65536) true
      extract_lets t
      exact ite (fun _ => StepSide.trans started (takeSlot t _ _)) (fun _ => started)
    · exact refl _

theorem moveDown (s : State) (fr : Nat) : StepSide s (s.moveDown fr) := by
  unfold State.moveDown
  extract_lets e k v r ext
  refine ite (fun _ => ?_) (fun _ => ite (fun _ => refl s) (fun _ => ite (fun _ => ite (fun _ => refl s) (fun _ => ?_)) (fun _ => ?_)))
  · exact (((freeFrame s fr).trans (dropLed _ _)).trans (plcCount _ _)).trans (send _ _ _)
  · extract_lets
    generalize hx : State.askSpill _ _ _ s = x
    have asked : StepSide s x.2 := by
      rw [← hx]
      exact askSpill _ _ _ s
    obtain ⟨ans, u⟩ := x
    exact asked.trans (moved u k r ans)
  · split
    next ha => exact (of_askPlace ha).trans (startMove _ _ _ _ _ _)
    next ha => exact of_askPlace ha

theorem landWrite (s : State) (m : Move) (o : Option Nat) (w : HeldWrite) : StepSide s (s.landWrite m o w) :=
  ite (fun _ => (hostStore s _ _ _ _).trans (mirrorTo _ _ _ _ _ _ _)) fun _ =>
    ite (fun _ => (memWrite s _ _ _).trans (mirrorTo _ _ _ _ _ _ _)) (fun _ => foldl (fun s _ _ => send s _ _) s)

theorem switches (s : State) (m : Move) : StepSide s (MemSide.switched s m) := by
  have pulledIn : StepSide s (match m.srcAddr with
      | some h => (s.memSeen h 65536).memWrite m.dstAddr (s.memRead h 65536).1 (s.memRead h 65536).2
      | none => s) := by
    split
    · exact (memSeen s _ _).trans (memWrite _ _ _ _)
    · exact refl s
  have out (a e : Nat) : StepSide s (if m.host then s.setLed a (leSet e kHost m.dstDev (m.dstAddr / 65536))
      else (s.setLed a (leSet e kPeer m.dstDev (m.dstAddr / 65536))).tellMirror m.key) :=
    ite (fun _ => setLed s _ _) (fun _ => (setLed s _ _).trans (tellMirror _ _))
  unfold MemSide.switched
  split
  · exact refl s
  · split
    · extract_lets t t'
      exact (StepSide.trans pulledIn (ite (fun _ => freeSlot t _) (fun _ => send t _ _))).trans (setLed t' _ _)
    · exact setLed s _ _
    · exact out _ _

theorem settles (s : State) (m : Move) (mirror : Option Nat) : StepSide s (MemSide.settled s m mirror) := by
  have frees : StepSide s (match m.srcAddr with
      | some src => if src < 0x20000000000 then s.freeFrame (src / 65536) else s
      | none => s) := by
    split
    · exact ite (fun _ => freeFrame s _) (fun _ => refl s)
    · exact refl s
  unfold MemSide.settled
  extract_lets t t'
  exact (StepSide.trans frees (ite (fun _ => plcCount t _) (fun _ => refl t))).trans (foldl (fun s _ _ => landWrite s _ _ _) t')

theorem switchEntry (s : State) (m : Move) : StepSide s (s.switchEntry m) := by
  rw [MemSide.switchEntry_eq]
  exact (((dropMove s _).trans (plcCount _ _)).trans (switches _ _)).trans (settles _ _ _)

/-! ### fetches and placing -/

theorem startFetch (s : State) (k fr c d : Nat) (p q ak : Bool) (b : Nat) : StepSide s (s.startFetch k fr c d p q ak b) :=
  (plc s _).trans (foldl (fun s _ _ => send s _ _) _)
theorem takeReplica (s : State) (k d : Nat) (p : Bool) : StepSide s (s.takeReplica k d p) := by
  unfold State.takeReplica
  refine ite (fun _ => refl s) (fun _ => ?_)
  split
  · exact refl s
  · exact (takeFrame s _ _ _ _ _).trans (startFetch _ _ _ _ _ _ _ _ _)

theorem evictNow (s : State) (fr : Nat) : StepSide s (s.evictNow fr) := by
  unfold State.evictNow
  extract_lets t
  split
  · exact (moveDown s fr).trans (switchEntry _ _)
  · exact moveDown s fr

theorem freshen (s : State) (k : Nat) : StepSide s (s.freshen k) := by
  unfold State.freshen
  split
  · exact ite (fun _ => ite (fun _ => refl s) (fun _ => tablePut s _ _ _)) (fun _ => refl s)
  · exact refl s

theorem unitAsks (s : State) (w : Where) (k o n : Nat) : StepSide s (s.unitAsks w k o n) := by
  have asked : StepSide s ((linePieces (keyOa k + o) n).foldl (fun s q => s.request w (.unit q.1) 0) s) :=
    foldl (fun s _ _ => request s _ _ _) s
  unfold State.unitAsks
  extract_lets t
  split
  · exact StepSide.trans asked (ite (fun _ => takeReplica t _ _ _) (fun _ => refl t))
  · exact asked

theorem pulls (s : State) (k a e fr : Nat) : StepSide s (MemSide.pulling s k a e fr) := by
  have taken := takeFrame s fr k (leClass e) false false
  unfold MemSide.pulling
  extract_lets host near t t' src t''
  have added : StepSide t t'' := (setLed t _ _).trans (addMove t' _)
  exact (StepSide.trans taken added).trans (ite (fun _ => refl t'') fun _ =>
    ite (fun _ => startFetch t'' _ _ _ _ _ _ _ _) (fun _ => (send t'' _ _).trans (startFetch _ _ _ _ _ _ _ _ _)))

theorem pull (s : State) (k : Nat) (face : Option Nat) : StepSide s (s.pull k face) := by
  unfold State.pull
  extract_lets r
  split
  · exact refl s
  next a e _ =>
    refine ite (fun _ => refl s) (fun _ => ?_)
    split
    · exact refl s
    next fr _ => exact pulls s k a e fr

theorem tier0 (s : State) (r : Nat) (face : Option Nat) : StepSide s (s.tier0 r face).2 := by
  unfold State.tier0
  split
  · exact refl s
  · split
    · exact refl s
    · split
      · exact foldl (fun s _ _ => ite (fun _ => refl s) (fun _ => evictNow s _)) s
      · exact refl s

theorem places (t : State) (k r : Nat) : StepSide t (MemSide.placed t k r) := (setPlaced t _ _).trans (addMirror _ _)

/-- An entry that finds room in the ledger is placed; else the ledger is full. -/
theorem placedOr {k e r : Nat} {f : State → State} (hf : ∀ t, StepSide t (f t))
    (h : (match u.addLed k e with
      | none => some (u.raise PLC_EVENT PLC_EVENT_LEDGER_FULL)
      | some t => some (MemSide.placed (f t) k r)) = some t) : StepSide u t := by
  split at h
  · cases h; exact plcEvent u _
  next t' ht => cases h; exact ((addLed ht).trans (hf t')).trans (places _ k r)

theorem place {k : Nat} {face : Option Nat} (h : s.place k face = some t) : StepSide s t := by
  have noSpace (u : State) : StepSide u (u.raise PLC_EVENT PLC_EVENT_NO_SPACE) := plcEvent u _
  unfold State.place at h
  extract_lets r pin fin noSp full at h
  split at h
  · cases h
  · split at h
    · split at h
      · exact placedOr (fun t => takeSlot t _ _) h
      · cases h; exact noSpace s
    · generalize hx : s.tier0 r face = x at h
      have tried : StepSide s x.2 := hx ▸ tier0 s r face
      obtain ⟨frame, u⟩ := x
      refine tried.trans ?_
      dsimp only at h
      split at h
      · exact placedOr (fun t => (takeFrame t _ _ _ _ _).trans (zeroRange _ _ _)) h
      · generalize hy : (if orTmin r ≤ 1 ∧ 1 ≤ orTmax r then State.askSpill _ _ _ u else (none, u)) = y at h
        have asked : StepSide u y.2 := by
          rw [← hy]
          split
          · exact askSpill _ _ _ u
          · exact refl u
        obtain ⟨ans, w⟩ := y
        refine asked.trans ?_
        dsimp only at h
        split at h
        · exact placedOr (fun t => refl t) h
        · split at h
          · cases h; exact noSpace w
          · exact placedOr (fun t => takeSlot t _ _) h

theorem settle (s : State) (k : Nat) (face : Option Nat) : StepSide s (s.settle k face) := by
  unfold State.settle
  split
  · refine ite (fun _ => refl s) (fun _ => ?_)
    cases h : s.place k face with
    | none => exact refl s
    | some t => exact place h
  · exact freshen s k
  · exact refl s

/-! ### objects -/

/-- A unit's read of an object (R216, R250, R252). -/
theorem objSeen (s : State) (a n : Nat) (face : Option Nat) : StepSide s (s.objSeen a n face) := by
  have part (s : State) (p : Nat × Nat × Nat) : StepSide s (match s.whereIs p.1 with
      | .here a => s.memSeenAs 0 (a + p.2.1) p.2.2
      | .ended => s.resolveEnd (keyOa p.1 + p.2.1)
      | .empty => s.resolveEnd (keyOa p.1 + p.2.1)
      | w => s.unitAsks w p.1 p.2.1 p.2.2) := by
    split
    · exact memSeenAs s _ _ _
    · exact resolveEnd s _
    · exact resolveEnd s _
    · exact unitAsks s _ _ _ _
  unfold State.objSeen State.objSeenAs
  extract_lets t t'
  have looked : StepSide s t := foldl (fun s _ _ => ledcLook s _) s
  have touched : StepSide t (t.touch a n face) := foldl (fun s _ _ => settle s _ _) t
  have parts : StepSide (t.touch a n face) t' := foldl (fun s p _ => part s p) _
  exact ((looked.trans touched).trans parts).trans (foldl (fun s _ _ => pull s _ _) t')

end StepSide

end Sys2Proof.Laws
end

section
/-! SUPPORT. A unit's writes of objects and the parts that a step opens at the Crucibles leave the step engine as it was too
(`StepSide`; R230, R252, R262, R264, R315, R320, R329). -/

namespace Sys2Proof.Laws

open Sys2Proof Sys2Proof.Machine

theorem not_stepReg_cru (d c r : Nat) : ¬ stepReg (dieBase d + 0x20000 + c * 0x2000 + r) := by
  rw [Nat.add_assoc, Nat.add_assoc]
  exact not_stepReg_die _ _
theorem not_stepReg_cruJob (d c r e : Nat) : ¬ stepReg (dieBase d + 0x20000 + c * 0x2000 + r + e * 16) := by
  rw [Nat.add_assoc _ r]
  exact not_stepReg_cru _ _ _
theorem not_stepReg_mc (d c r : Nat) : ¬ stepReg (dieBase d + 0x10000 + c * 0x1000 + r) := by
  rw [Nat.add_assoc, Nat.add_assoc]
  exact not_stepReg_die _ _
theorem not_stepReg_dir (r j : Nat) : ¬ stepReg (0x500000 + r + j * 64) := by
  rw [Nat.add_assoc]
  exact not_stepReg_above (by decide) _

namespace StepSide

variable {s t u : State}

/-! ### writes of objects -/

theorem clearPoison (s : State) (k : Nat) : StepSide s (s.clearPoison k) := by
  unfold State.clearPoison
  extract_lets p t
  split
  · exact (plc s _).trans (ite (fun _ => setLed t _ _) (fun _ => refl t))
  · exact plc s _
theorem noteWrite (s : State) (k o n : Nat) : StepSide s (s.noteWrite k o n) := by
  unfold State.noteWrite
  split
  · exact ite (fun _ => refl s) fun _ => ite (fun _ => plc s _) fun _ =>
      (clearPoison s k).trans (ite (fun _ => refl _) (fun _ => send _ _ _))
  · exact refl s

/-- One part of an object is written where it is. -/
theorem objWrite1 (s : State) (k o : Nat) (v : List Byte) (b : Bool) (face : Option Nat) (hint : Nat) (who : Option Packet) :
    StepSide s (s.objWrite1 k o v b face hint who) := by
  have noted (t : State) : StepSide t ((if b then t else t.noteWrite k o v.length).mirrorWrite k o v b who) :=
    (ite (fun _ => refl t) (fun _ => noteWrite t _ _ _)).trans (mirrorTo _ _ _ _ _ _ _)
  have owned (t : State) (w : Where) : StepSide t (match w with
      | .hostAt _ _ => (if b then t else t.noteWrite k o v.length).mirrorWrite k o v b who
      | _ => t) := by
    split
    · exact noted t
    · exact refl t
  have asked (t : State) (w : Where) (a : Nat) : StepSide t (t.writeAt w a v b) := foldl (fun s _ _ => request s _ _ _) t
  have pulled (t : State) {p : Prop} [Decidable p] : StepSide t (if p then t.pull k face else t) :=
    ite (fun _ => pull t _ _) (fun _ => refl t)
  unfold State.objWrite1
  extract_lets r v' mine t cls own
  have settled : StepSide s t := (ite (fun _ => refl s) (fun _ => ledcLook s _)).trans (settle _ _ _)
  refine settled.trans (ite (fun _ => resolveEnd t _) (fun _ => ?_))
  split
  · exact plc t _
  · split
    · exact ite (fun _ => ended t _ _) (fun _ => ((localPut t _ _ _ _).trans (noted _)).trans (pulled _))
    · exact resolveEnd t _
    · exact resolveEnd t _
    · exact ((asked t _ _).trans (owned _ _)).trans (pulled _)

theorem objWrite (s : State) (a : Nat) (v : List Byte) (b : Bool) : StepSide s (s.objWrite a v b) := by
  have parts (l : List (Nat × Nat × Nat)) (x : State × List Byte) : StepSide x.1 (l.foldl (fun (acc : State × List Byte) p =>
      (acc.1.objWrite1 p.1 p.2.1 (acc.2.take p.2.2) b none 0 none, acc.2.drop p.2.2)) x).1 := by
    induction l generalizing x with
    | nil => exact refl _
    | cons p l ih =>
      exact StepSide.trans (objWrite1 x.1 _ _ _ _ _ _ _) (ih (x.1.objWrite1 p.1 p.2.1 (x.2.take p.2.2) b none 0 none, x.2.drop p.2.2))
  exact parts _ (s, v)

/-! ### the cap that waits for open jobs (R235) -/

theorem dram (s : State) (m : Dram) : StepSide s { s with dram := m } := note rfl rfl
theorem setMcAll (s : State) {d : Nat} {r : Nat → Nat → Nat} (hr : ∀ c, ¬ stepReg (r d c)) (f : Fld) (v : Nat) :
    StepSide s (s.setMcAll d r f v) := foldl (fun s c _ => setFld s (hr c) f v) s
theorem setCap (s : State) (d : Nat) (on : Bool) : StepSide s (s.setCap d on) :=
  (setMcAll s (r := MC_STAT) (fun _ => not_stepReg_mc _ _ _) _ _).trans (dram _ _)
theorem setGrace (s : State) (d : Nat) (l : List Nat) (n : Nat) : StepSide s (s.setGrace d l n) :=
  ((setMcAll s (r := MC_STAT) (fun _ => not_stepReg_mc _ _ _) _ _).trans
    (setMcAll _ (r := MC_GRACE) (fun _ => not_stepReg_mc _ _ _) _ _)).trans (dram _ _)
theorem graceCheck (s : State) (d : Nat) : StepSide s (s.graceCheck d) :=
  ite (fun _ => refl s) fun _ => ite (fun _ => (setGrace s d _ _).trans (setCap _ d _)) (fun _ => dram s _)

/-! ### parts of a job (R315, R320, R329) -/

theorem cru (s : State) (c : Cru) : StepSide s { s with cru := c } := note rfl rfl
theorem stageDrop (s : State) (C : Nat) (wit : Bool) (job : Nat) : StepSide s (s.stageDrop C wit job) :=
  (cru s _).trans (setFld _ (not_stepReg_cru _ _ _) _ _)
theorem cruShow (s : State) (C : Nat) : StepSide s (s.cruShow C) :=
  ((setFld s (not_stepReg_cru _ _ _) _ _).trans (setFld _ (by decide) _ _)).trans (graceCheck _ _)
theorem setPart (s : State) (C e st job step : Nat) : StepSide s (s.setPart C e st job step) :=
  (setReg s (not_stepReg_cruJob _ _ _ _) _).trans (cruShow _ C)
theorem jobReset (s : State) (job step : Nat) : StepSide s (s.jobReset job step) :=
  ((((setReg s (not_stepReg_dir _ _) _).trans (setReg _ (not_stepReg_dir _ _) _)).trans
    (setReg _ (not_stepReg_dir _ _) _)).trans (setReg _ (not_stepReg_dir _ _) _)).trans (cru _ _)

theorem cutPart (s : State) (C e w : Nat) : StepSide s (s.cutPart C e w) := by
  unfold State.cutPart
  extract_lets job mine t t' t''
  have recorded : StepSide s t := by
    refine foldl (fun s x _ => ?_) s
    split
    · exact objWrite s _ _ _
    · exact refl s
  have cut : StepSide t t'' := ((stageDrop t C false job).trans (setPart _ C e _ _ _)).trans (raise t' (by decide) _)
  exact (recorded.trans cut).trans (ite (fun _ => setFld t'' (not_stepReg_dir _ _) _ _) (fun _ => refl t''))

theorem openPart {job C step : Nat} (h : s.openPart job C step = some t) : StepSide s t := by
  have witnessed (s : State) (l : List Nat) : StepSide s (match s.witExp (s.pol job) with
      | none => s
      | some w => (l.filter (sampled w step)).foldl (fun s b => s.objWrite (s.recAt true job b) (List.replicate 8 0) false) s) := by
    split
    · exact refl s
    · exact foldl (fun s _ _ => objWrite s _ _ _) s
  have recut (old : Option (Nat × Nat)) : StepSide s (match old with
      | some (e', w) => if ptState w = jtOpen then s.cutPart C e' w else s
      | none => s) := by
    split
    · exact ite (fun _ => cutPart s _ _ _) (fun _ => refl s)
    · exact refl s
  unfold State.openPart at h
  split at h
  · cases h
  extract_lets old used slot t1 t2 t3 area t4 blocks t5 t6 at h
  clear_value old slot
  cases slot with
  | none => cases h
  | some e =>
    cases h
    have dropped : StepSide t1 t3 := (ite (fun _ => jobReset t1 _ _) (fun _ => refl t1)).trans
      ((stageDrop t2 _ _ _).trans (stageDrop _ _ _ _))
    have cleared : StepSide t3 t6 :=
      ((objWrite t3 _ _ _).trans (foldl (fun s _ _ => objWrite s _ _ _) t4)).trans (witnessed t5 _)
    have word (t : State) (r v : Nat) : StepSide t (t.setReg (dieBase (C / 8) + 0x20000 + C % 8 * 0x2000 + r + e * 16) v) :=
      setReg t (not_stepReg_cruJob _ _ _ _) v
    exact ((((((recut old).trans dropped).trans cleared).trans (word t6 _ _)).trans (word _ _ _)).trans (word _ _ _)).trans
      (setPart _ C e _ _ _)

theorem jobClose (s : State) (job : Nat) : StepSide s (s.jobClose job) := by
  unfold State.jobClose
  extract_lets step sts t1 t2
  exact ite (fun _ => refl s) fun _ => trans (setFld s (not_stepReg_dir _ _) _ _) <|
    trans (ite (fun _ => raise t1 (by decide) _) (fun _ => refl t1)) <| ite (fun _ => refl t2) fun _ =>
      foldl (fun s _ _ => send s _ _) t2

/-- The Crucibles open the parts of a step (R316, R317). -/
theorem cruSync (s : State) : StepSide s s.cruSync := by
  have opens (s : State) (stays : Bool) (job C step : Nat) : StepSide s (if stays then s else (s.openPart job C step).getD s) := by
    refine ite (fun _ => refl s) (fun _ => ?_)
    cases h : s.openPart job C step with
    | none => exact refl s
    | some t => exact openPart h
  unfold State.cruSync
  extract_lets step
  refine foldl (fun s job _ => ?_) s
  extract_lets again t t'
  have reset : StepSide s t := ite (fun _ => jobReset s _ _) (fun _ => refl s)
  have parts : StepSide t t' := foldl (fun s i _ => (opens s _ _ _ _).trans (cru _ _)) t
  exact (reset.trans parts).trans (ite (fun _ => jobClose t' job) (fun _ => refl t'))

end StepSide

end Sys2Proof.Laws
end

section
/-! A microstep and its batch (R172, R173, R338), and O21. -/

namespace Sys2Proof.Stepping

open Sys2Proof Sys2Proof.Machine Sys2Proof.Laws

/-! ### FILL is read (R172) -/

/-- FILL of the program's input ring has been read, where it has one. -/
def fillSeen (s : State) (p : Slot) : State := if hInObj p.hdr = 0 then s else s.objSeen (hInObj p.hdr * 2 ^ 40) 8 none

theorem fillSeen_side (s : State) (p : Slot) : StepSide s (fillSeen s p) := .ite (fun _ => .refl s) (fun _ => .objSeen s _ _ _)

/-- FILL exceeds the microsteps done, or there is no ring. -/
def batchReady (s : State) (p : Slot) : Bool :=
  hInObj p.hdr == 0 || s.readFill.any (fun n => decide (s.gmicro < n))

theorem batchReady_false {s : State} {p : Slot} (hring : hInObj p.hdr ≠ 0) (h : ∀ n, s.readFill = some n → n ≤ s.gmicro) :
    batchReady s p = false := by
  rw [batchReady, beq_false_of_ne hring, Bool.false_or, Option.any_eq_false_iff_get]
  exact fun hn => decide_eq_false (Nat.not_lt.2 (h _ (Option.some_get hn).symm))
theorem batchReady_true {s : State} {p : Slot} (h : hInObj p.hdr = 0 ∨ ∃ n, s.readFill = some n ∧ s.gmicro < n) :
    batchReady s p = true := by
  rcases h with h | ⟨n, hn, hlt⟩
  · rw [batchReady, h]
    rfl
  · rw [batchReady, hn, Option.any_some, decide_eq_true hlt, Bool.or_true]

/-! ### the microstep starts, or waits (R173) -/

/-- The batch is there: IN_WAIT clears, and the tallies start anew (R29). -/
def batchTaken (s : State) : State := (s.setFlag STEP_STAT STEP_STAT_IN_WAIT false).clearTallies
/-- In the last microstep of a step the Crucibles open its parts (R316). -/
def partsOpened (s : State) (last : Bool) : State := if last then s.cruSync else s

theorem batchTaken_eng (s : State) : (batchTaken s).eng = s.eng := by
  rw [batchTaken, (StepSide.clearTallies _).eng, State.setFlag_eng]
theorem batchTaken_reg (s : State) {a : Nat} (ha : stepReg a) (h : a ≠ STEP_STAT) : (batchTaken s).reg a = s.reg a := by
  rw [batchTaken, (StepSide.clearTallies _).regs a ha, reg_setFlag_other _ h]
theorem batchTaken_inWait (s : State) : (batchTaken s).flag STEP_STAT STEP_STAT_IN_WAIT = false := by
  rw [batchTaken, (StepSide.clearTallies _).flag (by decide), flag_setFlag_same _ _ _ (by decide) rfl]
theorem partsOpened_side (s : State) (last : Bool) : StepSide s (partsOpened s last) := .ite (fun _ => .cruSync s) (fun _ => .refl s)

section
variable {s : State} {p : Slot} (hact : s.eng.active = some p) (hrun : s.running = true) (hmode : s.eng.mode = .fill)
include hact hrun hmode

theorem microTry_eq : s.microTry = if batchReady (fillSeen s p) p then
      (partsOpened (batchTaken (fillSeen s p)) (decide ((fillSeen s p).micro + 1 = hSyncEvery p.hdr))).phaseStart p 0 (fillSeen s p).micro
    else (fillSeen s p).setFlag STEP_STAT STEP_STAT_IN_WAIT true := by
  have hlast (t : State) (q : Prop) [Decidable q] : (if q then t.cruSync else t) = partsOpened t (decide q) := by
    unfold partsOpened
    simp only [decide_eq_true_eq]
  have hnot (b : Bool) (x y : State) : (if (!b) = true then x else y) = if b then y else x := by cases b <;> rfl
  unfold State.microTry
  rw [hact]
  dsimp only
  rw [if_neg (by rw [hrun, hmode]; decide), ← fillSeen, hlast, ← batchTaken, hnot, batchReady]
  cases (fillSeen s p).readFill with
  | none => rw [Option.any_none]
  | some n => rw [Option.any_some]

/-- A batch that has not come leaves the microstep waiting. -/
theorem microTry_waits (hring : hInObj p.hdr ≠ 0)
    (h : ∀ n, (s.objSeen (hInObj p.hdr * 2 ^ 40) 8 none).readFill = some n → n ≤ s.gmicro) :
    s.microTry = (s.objSeen (hInObj p.hdr * 2 ^ 40) 8 none).setFlag STEP_STAT STEP_STAT_IN_WAIT true := by
  have hseen : fillSeen s p = s.objSeen (hInObj p.hdr * 2 ^ 40) 8 none := if_neg hring
  have hidle : batchReady (fillSeen s p) p = false :=
    batchReady_false hring fun n hn => ((fillSeen_side s p).gmicro ▸ h n (hseen ▸ hn))
  rw [microTry_eq hact hrun hmode, hidle, if_neg Bool.false_ne_true, hseen]

/-- A batch that has come, or no ring to wait for, starts phase 0. -/
theorem microTry_starts (h : hInObj p.hdr = 0 ∨ ∃ n, (s.objSeen (hInObj p.hdr * 2 ^ 40) 8 none).readFill = some n ∧ s.gmicro < n) :
    s.microTry = (partsOpened (batchTaken (fillSeen s p)) (decide (s.micro + 1 = hSyncEvery p.hdr))).phaseStart p 0 s.micro := by
  have side := fillSeen_side s p
  have hready : batchReady (fillSeen s p) p = true := by
    refine batchReady_true ?_
    by_cases hring : hInObj p.hdr = 0
    · exact .inl hring
    · obtain ⟨n, hn, hlt⟩ := h.resolve_left hring
      have hseen : fillSeen s p = s.objSeen (hInObj p.hdr * 2 ^ 40) 8 none := if_neg hring
      exact .inr ⟨n, hseen ▸ hn, side.gmicro.symm ▸ hlt⟩
  rw [microTry_eq hact hrun hmode, hready, if_pos rfl, side.micro]

end

/-- What phase 0 of a microstep shows. -/
theorem phase0_shows {s t : State} (side : StepSide s t) (p : Slot) (last : Bool) (hheld : ∀ c, c < 15 → (s.chan c).held = []) :
    let u := (partsOpened (batchTaken t) last).phaseStart p 0 s.micro
    u.eng.mode = .phase ∧ u.flag STEP_STAT STEP_STAT_IN_WAIT = false ∧ u.fld STEP_STAT STEP_STAT_PHASE = 0 ∧ u.micro = s.micro ∧
      u.reg BAR_EPOCH = s.stepNum % 2 ^ 16 * 2 ^ 16 + s.micro * 2 ^ 8 := by
  have parts := partsOpened_side (batchTaken t) last
  have hnum : (partsOpened (batchTaken t) last).stepNum = s.stepNum := by
    rw [parts.stepNum, State.stepNum, batchTaken_reg t (by decide) (by decide), side.regs _ (by decide), State.stepNum]
  have runs := phaseStart_runs (s := partsOpened (batchTaken t) last) p (i := 0) (mu := s.micro) (by decide) (bits_lt _ _ _)
    fun c hc => by rw [parts.chan, chan_congr (batchTaken_eng t), side.chan, hheld c hc]
  refine ⟨runs.mode, ?_, runs.phase, runs.micro, ?_⟩
  · rw [runs.flags _ (by decide), parts.flag (by decide), batchTaken_inWait]
  · rw [runs.epoch, epochOf, hnum, Nat.zero_mul, Nat.add_zero]

/-- The first read of FILL and a poll of it are the same try. -/
theorem exec_microTry {s : State} {again : Bool} (hwait : s.flag STEP_STAT STEP_STAT_IN_WAIT = again) :
    Machine.exec (if again then .inputFillPoll else .microstepStart) s = done s s.microTry := by
  cases again with
  | true => exact congrArg (done s) (if_pos hwait)
  | false => exact congrArg (done s) (if_neg (by rw [hwait]; decide))

/-- Settles O21: reading FILL leaves the step engine as it was, so the try decides on G and starts the microstep that waits. -/
theorem aMicrostepWaitsForItsBatch : Obligations.AMicrostepWaitsForItsBatch := by
  unfold Obligations.AMicrostepWaitsForItsBatch
  intro s p again hon hrun hact hmode hwait hheld
  have hexec := exec_microTry hwait
  refine ⟨fun hring hfill => ?_, fun hready => ?_⟩
  · rw [hexec, microTry_waits hact hrun hmode hring hfill, done_on hon]
  · obtain ⟨hphase, hin, hfirst, hmu, hepoch⟩ :=
      phase0_shows (fillSeen_side s p) p (decide (s.micro + 1 = hSyncEvery p.hdr)) hheld
    rw [← microTry_starts hact hrun hmode hready] at hphase hin hfirst hmu hepoch
    exact ⟨queued s s.microTry, hexec.trans (done_on hon _), hphase, hin, hfirst, hmu, hepoch⟩

end Sys2Proof.Stepping
end

section
/-! SUPPORT. The registers of the memory controllers (R209 to R237): where they stand, and that no summary and no way of a fault
record is among them. -/

namespace Sys2Proof.Laws

open Sys2Proof Sys2Proof.Machine Sys2Proof.Stepping

/-- Register r of controller c of die d. -/
abbrev ctlReg (d c r : Nat) : Nat := dieBase d + 0x10000 + c * 0x1000 + r

/-- Two registers of controllers at different offsets differ. -/
theorem ctlReg_ne {r r' : Nat} (hr : r < 0x1000) (hr' : r' < 0x1000) (h : r ≠ r') (d c d' c' : Nat) :
    ctlReg d c r ≠ ctlReg d' c' r' := by
  unfold ctlReg dieBase
  omega

/-- The same register of two controllers of a die. -/
theorem ctlReg_ne_ctl {c c' : Nat} (h : c ≠ c') (d r : Nat) : ctlReg d c r ≠ ctlReg d c' r := by
  unfold ctlReg
  omega

theorem ctlReg_notMem_sumRegs {d c r : Nat} (hd : d < 16) (hc : c < 8) (hr : r < 0x1000) (b : Nat) : ctlReg d c r ∉ sumRegs b :=
  notMem_sumRegs (by unfold ctlReg dieBase bar4Base; omega) (by unfold ctlReg dieBase; omega) b

theorem mcEvent_notMem_sumRegs {d c : Nat} (hd : d < 16) (hc : c < 8) (b : Nat) : MC_EVENT d c ∉ sumRegs b :=
  ctlReg_notMem_sumRegs hd hc (by decide) b

theorem chan_ctl_lt (ch : ChanIx) : ch.val / 4 < 8 := by omega

end Sys2Proof.Laws
end

section
/-! Refreshes, rows and windows of a channel (R209, R231, R233), and O31. -/

namespace Sys2Proof.Channels

open Sys2Proof Sys2Proof.Machine Sys2Proof.Laws Sys2Proof.Control

variable {s : State} {d : DieIx} {ch : ChanIx}

/-- What REF_POST of a channel can hold fits its field. -/
theorem refPost_fits (ch : Nat) : (refPost ch).lo + (refPost ch).w ≤ 32 := by
  unfold refPost
  dsimp only
  omega

/-- A write of REF_POST is that field alone. -/
theorem refPost_shows (s : State) (d : DieIx) (ch : ChanIx) {n : Nat} (hn : n < 16) :
    let st := MC_STAT d.val (ch.val / 4)
    let t := s.setFld st (refPost ch.val) n
    t.fld st (refPost ch.val) = n ∧ onlyRegs s t ∧ regsKept s t [st] :=
  ⟨(fld_setFld_same s _ _ n (refPost_fits ch.val)).trans (Nat.mod_eq_of_lt hn), onlyRegs_setFld s _ _ _,
    regsKept_setReg s List.mem_cons_self _⟩

/-- A forced refresh raises its flag and leaves what is postponed. -/
theorem refForced_shows (s : State) (d : DieIx) (ch : ChanIx) :
    let st := MC_STAT d.val (ch.val / 4)
    let ev := MC_EVENT d.val (ch.val / 4)
    let t := s.raise ev MC_EVENT_REF_FORCED
    t.flag ev MC_EVENT_REF_FORCED = true ∧ onlyRegs s t ∧ t.fld st (refPost ch.val) = s.fld st (refPost ch.val) := by
  have hc := chan_ctl_lt ch
  refine ⟨raise_flag_self s _ (mcEvent_notMem_sumRegs d.isLt hc _) (by decide) (by decide) rfl, onlyRegs_raiseMask s _ _, ?_⟩
  exact fld_of_reg (raise_reg s _ (ctlReg_notMem_sumRegs d.isLt hc (by decide) _)
    (ctlReg_ne (r := 4) (r' := 8) (by decide) (by decide) (by decide) _ _ _ _)) _

/-- A refresh that falls due. -/
theorem exec_refreshDue (hon : s.boot.on = true) (hok : s.chanOk (32 * d.val + ch.val) = true) :
    let st := MC_STAT d.val (ch.val / 4)
    Machine.exec (.refreshDue d ch true) s =
      .next (if s.fld st (refPost ch.val) < 8 then s.setFld st (refPost ch.val) (s.fld st (refPost ch.val) + 1)
        else s.raise (MC_EVENT d.val (ch.val / 4)) MC_EVENT_REF_FORCED) := by
  change execRefreshDue d ch true s = _
  unfold execRefreshDue
  simp only [hok, Bool.not_true, Bool.or_self, Bool.false_eq_true, if_false]
  exact done_onlyRegs hon (onlyRegs_ite (onlyRegs_setFld s _ _ _) (onlyRegs_raiseMask s _ _))

/-- The row of an idle bank closes. -/
theorem exec_rowIdlePrecharge (hon : s.boot.on = true) (bank : Fin 128) :
    Machine.exec (.rowIdlePrecharge d ch bank) s =
      .next { s with dram := { s.dram with
        rows := mapSet (fun _ => none) ((32 * d.val + ch.val) * 128 + bank.val) none s.dram.rows } } :=
  done_kept hon rfl

theorem burstsSet_eq (s : State) (b : List (Nat × Nat)) :
    let t := { s with dram := { s.dram with bursts := b } }
    t = { s with dram := { s.dram with bursts := t.dram.bursts } } := rfl

/-- The window of a capped channel ends. -/
theorem exec_hotCapWindow (hon : s.boot.on = true) :
    Machine.exec (.hotCapWindow d ch) s = .next { s with dram := { s.dram with
      bursts := mapSet (fun _ => 0) (32 * d.val + ch.val)
        (mapGet (fun _ => 0) (32 * d.val + ch.val) s.dram.bursts - 500) s.dram.bursts } } :=
  done_kept hon rfl

/-- Settles O31: each command is one field, one event, or one entry of a record of DRAM. -/
theorem refreshRowsAndWindowsOfAChannel : Obligations.RefreshRowsAndWindowsOfAChannel := by
  unfold Obligations.RefreshRowsAndWindowsOfAChannel
  intro s d ch hon st n
  have hn : n < 16 := bits_lt _ _ _
  refine ⟨fun hok => ⟨fun hlt => ?_, fun hge => ?_, ?_, fun hpos => ?_⟩, fun bank => ?_, ?_⟩
  · obtain ⟨hfld, honly, hregs⟩ := refPost_shows s d ch (n := n + 1) (by omega)
    exact ⟨_, (exec_refreshDue hon hok).trans (congrArg _ (if_pos hlt)), hfld, honly, hregs⟩
  · obtain ⟨hflag, honly, hfld⟩ := refForced_shows s d ch
    exact ⟨_, (exec_refreshDue hon hok).trans (congrArg _ (if_neg (Nat.not_lt.2 hge))), hflag, honly, hfld⟩
  · change execRefreshDue d ch false s = _
    unfold execRefreshDue
    simp only [Bool.not_false, Bool.or_true, if_true]
    exact done_self s
  · obtain ⟨hfld, honly, hregs⟩ := refPost_shows s d ch (n := n - 1) (by omega)
    refine ⟨_, ?_, hfld, honly, hregs⟩
    change execRefreshPostponedIssue d ch s = _
    unfold execRefreshPostponedIssue
    simp only [hok, Bool.true_and, decide_eq_true (show 0 < s.fld (MC_STAT d.val (ch.val / 4)) (refPost ch.val) from hpos), if_true]
    exact done_onlyRegs hon honly
  · exact ⟨_, exec_rowIdlePrecharge hon bank, by rw [mapGet_set_same], rfl⟩
  · exact ⟨_, exec_hotCapWindow hon, by rw [mapGet_set_same], burstsSet_eq s _⟩

end Sys2Proof.Channels
end

section
/-! A store line whose owner pulls the granule (R229, R258), and O34: the pull's packets leave after the WR. -/

namespace Sys2Proof.StoreStream

open Sys2Proof Sys2Proof.Machine

/-- The key of granule 0 of object 5 of device 0. -/
def pulledKey : Nat := 5 * 2 ^ 24
/-- The descriptor of a store stream over 2 KiB of that granule (R226). -/
def pulledDesc : Nat := 5 * 2 ^ 40 + 2 ^ 80 + 2 ^ 90 + 4 * 2 ^ 93 + 32 * 2 ^ 112
/-- A device whose channels answer, that may pull, with room in the pool and a peer in its geometry. -/
def pullerRegs : List (Nat × Nat) :=
  (List.range 128).map (fun i => (MC_STAT (i / 8) (i % 8), 0xF)) ++
    (List.range 4).map (fun i => (PKG_PD_STAT i, 0xFFFFFFFF)) ++ [(LD_GEOM 0, 0x7333), (PLC_FREE, 100), (PLC_WATER, 0), (PLC_CTRL, 2 ^ PLC_CTRL_PULL_EN.lo),
     (PF_STAT 15 63 7, 3)]
/-- Its ledger holds the granule at device 0x21, and line 7 of stream 7 of face 63 of die 15 is filled. -/
def puller : State :=
  let s := pullerRegs.foldl (fun s e => s.setReg e.1 e.2) { State.reset with boot := { State.reset.boot with perst := false } }
  let s := (s.setSdesc 15 63 7 pulledDesc).setStrm 15 63 7 { next := 7, fill := [(7, 2 ^ 256 - 1)] }
  s.setLed ((keyWays pulledKey).headD 0) (leMake pulledKey kPeer false false 2 0x21 0)

/-- The type of the packet that left last. -/
def lastType : Res → Nat
  | .next t => match t.out.head? with
    | some (.packet p) => p.type
    | _ => 16
  | _ => 16

/-- The line that is stored is line 7, at byte 7 * 256 of the granule. -/
def pulledSeg : Seg := ⟨5 * 2 ^ 40 + 7 * 256, 256, 7 * 256⟩

theorem puller_stores : puller.boot.on = true ∧ puller.flag (PF_STAT 15 63 7) PF_STAT_ACTIVE = true ∧
    puller.flag (PF_STAT 15 63 7) PF_STAT_DIR = true ∧ streamSeg (puller.sdesc 15 63 7) (puller.strm 15 63 7).next = some pulledSeg ∧
    (puller.strm 15 63 7).flight.length < sdDepth (puller.sdesc 15 63 7) ∧ puller.faceFlight 15 63 < 256 ∧
    (puller.strm 15 63 7).filled (puller.strm 15 63 7).next pulledSeg = true := by decide +kernel

theorem puller_lies : let u := puller.streamResolve 15 63 7 pulledSeg.oa
    u.2.storeLie (oaKey pulledSeg.oa) u.1 = .away 0x21 ∧ puller.inGeom 0x21 = true := by decide +kernel

/-- The last packet is an RD of the pull (R258), not the WR of the line. -/
theorem puller_lastType : lastType (Machine.exec (.streamLineStore 15 63 7 none) puller) = 0 := by decide +kernel

/-- Refutes O34: the owner of the granule starts a pull with the store (R258), and its RDs leave after the WR. -/
theorem not_streamsIssueReturnAndAcknowledgeLines : ¬ Obligations.StreamsIssueReturnAndAcknowledgeLines := by
  unfold Obligations.StreamsIssueReturnAndAcknowledgeLines
  intro h
  obtain ⟨hon, hact, hdir, hseg, hdepth, hflight, hfilled⟩ := puller_stores
  obtain ⟨hlie, hgeom⟩ := puller_lies
  obtain ⟨hstore, -⟩ := (h puller 15 63 7 hon hact).2 hdir
  obtain ⟨t, r, hexec, -, -, -, hout⟩ := hstore pulledSeg 0x21 hseg hdepth hflight hfilled hlie hgeom
  have htype := puller_lastType
  rw [hexec, lastType, hout] at htype
  exact absurd htype (by decide : (1 : Nat) ≠ 0)

end Sys2Proof.StoreStream
end

section
/-! A part write of a lost beat by a WR with the STREAM hint (R217, R222), and O43: the fault record that it makes is written to
the ring behind the host window (R438). -/

namespace Sys2Proof.PartWrite

open Sys2Proof Sys2Proof.Machine Sys2Proof.Laws

/-- A device whose channel 511 answers, with a host path and a fault ring. -/
def ringRegs : List (Nat × Nat) :=
  [(AON_BOOT_STAT, 8), (MC_STAT 15 7, 0xF), (FR_RING_HI, 2 ^ FR_RING_HI_V.lo), (HIF_STAT, 2 ^ HIF_STAT_LINK_UP.lo),
    (HIF_CTRL, 2 ^ HIF_CTRL_DMA_EN.lo)] ++ (List.range 4).map (fun i => (PKG_PD_STAT i, 0xFFFFFFFF))
/-- DRAM has lost its last beat. -/
def beatGone : State :=
  let s := ringRegs.foldl (fun s e => s.setReg e.1 e.2) { State.reset with boot := { State.reset.boot with perst := false } }
  { s with dram := { s.dram with lost := [0x7FFFFFFFF] } }
/-- A WR of 32 bytes at the start of that beat, with hint STREAM. -/
def partWr : Packet :=
  { type := 1, src := 0, dst := 0, ak := true, args := 2, addr := 0x1FFFFFFFFC0, ext := 2 ^ 64 - 1, data := List.replicate 32 7 }

/-- Records go to the fault ring (R438): it is valid and not full, and the host can be reached. -/
def ringTakes (s : State) : Prop :=
  s.isMember = false ∧ s.flag FR_RING_HI FR_RING_HI_V = true ∧
    ringUsed (s.reg FR_PROD) (s.reg FR_CONS) < 2 ^ ringLog (s.fld FR_RING_LO FR_RING_LO_SIZE) ∧ s.canHost = true
/-- Where the next record goes, as an offset in the host window. -/
def ringPlace (s : State) : Nat :=
  s.fld FR_RING_LO FR_RING_LO_ADDR * 4096 + s.fld FR_RING_HI FR_RING_HI_ADDR * 2 ^ 32 +
    s.reg FR_PROD % 2 ^ ringLog (s.fld FR_RING_LO FR_RING_LO_SIZE) * 32

theorem faultRing_mem {s : State} (h : ringTakes s) (r : FaultRec) :
    (s.faultRing r).mem = setBytes r.bytes (hwBase + ringPlace s) s.mem := by
  obtain ⟨hmember, hvalid, hroom, hhost⟩ := h
  unfold State.faultRing
  simp only [hmember, hvalid, hhost, Nat.not_le.2 hroom, Bool.not_true, Bool.or_self, Bool.false_eq_true, if_false,
    apply_ite State.mem, fire_mem, State.setReg_mem, ite_self]
  exact (hostPut_of_canHost hhost _ _).1

/-- The record is in the summary of R441, no limit holds it back, and the ring takes it. -/
def ringHears (s : State) (cls : Nat) : Prop :=
  (s.orReg PKG_FAULT_SUM (2 ^ cls)).limited cls = false ∧ ringTakes (s.orReg PKG_FAULT_SUM (2 ^ cls))

theorem deliver_mem {s : State} {r : FaultRec} (h : ringHears s r.cls) :
    (s.deliver r).mem = setBytes r.bytes (hwBase + ringPlace (s.orReg PKG_FAULT_SUM (2 ^ r.cls))) s.mem := by
  obtain ⟨hfree, hring⟩ := h
  unfold State.deliver
  extract_lets t1 t2 n o t3 t4
  have hlimit : t2.limited r.cls = false := hfree
  rw [if_neg (by rw [hlimit]; decide), capture_mem]
  exact faultRing_mem (s := t3) hring r

/-- A record of a class below DEVICE-FATAL that the ring hears stands in it. -/
theorem fault_mem_ring {s : State} {cls : Nat} (hcls : cls ≠ 4) (code srcOff detail : Nat) (h : ringHears s cls) :
    (s.fault cls code srcOff detail).mem =
      setBytes (faultRec s cls code srcOff detail).bytes (hwBase + ringPlace (s.orReg PKG_FAULT_SUM (2 ^ cls))) s.mem := by
  rw [fault_eq]
  dsimp only
  rw [if_neg hcls, forwardRec_mem]
  exact deliver_mem (r := faultRec s cls code srcOff detail) h

theorem partWr_served : beatGone.boot.on = true ∧ partWr.dst = beatGone.devId ∧ akOk partWr = true ∧
    (regionOf (partWr.addr % 2 ^ 48) = .dram ∧ dcRange (partWr.addr % 2 ^ 48) partWr.data.length = true ∧
      beatGone.served (partWr.addr % 2 ^ 48) partWr.data.length = true ∧
      beatGone.mustWait (partWr.addr % 2 ^ 48) partWr.data.length = false) ∧
    (beatGone.setLines (partWr.addr % 2 ^ 48 / 256)).length < 16 := by decide +kernel

/-- What the WR does to its slice first: a miss is counted. -/
def partMissed : State := beatGone.countMiss (partWr.addr % 2 ^ 48)

theorem partMissed_hears : ringHears partMissed 1 := by
  unfold ringHears ringTakes
  decide +kernel
theorem partMissed_place : ringPlace (partMissed.orReg PKG_FAULT_SUM (2 ^ 1)) = 0 := by decide +kernel

/-- The merge cannot read the beat. -/
theorem partMissed_mergeLost :
    ∃ src detail, partMissed.mergeLost (partWr.addr % 2 ^ 48) partWr.data.length = partMissed.fault 1 0x0101 src detail := by
  have hlost : partMissed.dram.lost.isEmpty = false := by decide +kernel
  have hfind : ((blocksOf 64 (partWr.addr % 2 ^ 48) partWr.data.length).filter partMissed.lostAt).find?
      (fun b => !(decide (partWr.addr % 2 ^ 48 ≤ b * 64) &&
        decide (b * 64 + 64 ≤ partWr.addr % 2 ^ 48 + partWr.data.length))) = some 0x7FFFFFFFF := by decide +kernel
  rw [State.mergeLost, if_neg (by rw [hlost]; decide), hfind]
  exact ⟨_, _, rfl⟩

/-- The WR is one write of its slice. -/
theorem exec_partWr : Machine.exec (.wr partWr) beatGone =
    .next (queued beatGone ((beatGone.dcStore 2 (partWr.addr % 2 ^ 48) partWr.data false .none).rdNone partWr stOk)) := by
  obtain ⟨hon, hdst, hak, ⟨hregion, -, hserved, hwait⟩, -⟩ := partWr_served
  have hruns : wrRuns partWr (partWr.addr % 2 ^ 48) 0 partWr.data [] = [(partWr.addr % 2 ^ 48, partWr.data)] := by decide +kernel
  have hlocal : beatGone.wrLocal partWr = (beatGone.localPut 2 (partWr.addr % 2 ^ 48) partWr.data false).rdNone partWr stOk := by
    unfold State.wrLocal
    simp only [hak, hregion, hserved, hwait, hruns, Bool.not_true, Bool.false_eq_true, if_false, Bool.and_false, List.foldl_cons,
      List.foldl_nil]
    rfl
  have hput : beatGone.localPut 2 (partWr.addr % 2 ^ 48) partWr.data false =
      beatGone.dcStore 2 (partWr.addr % 2 ^ 48) partWr.data false .none := by
    unfold State.localPut
    simp only [hregion]
    rfl
  rw [← hput, ← hlocal, ← done_on hon]
  change execWr partWr beatGone = _
  unfold execWr
  rw [if_neg (by rw [hdst]; decide), if_pos (show partWr.ak = true from rfl)]

/-- The first byte of what was stored. -/
theorem firstByte {v l : List Byte} {b : Byte} (h : v = b :: l) (a : Nat) (m : List Host.Cell) :
    mapGet (fun _ => (0 : Byte)) a (setBytes v a m) = b := by
  rw [h, setBytes, getByte_setBytes_other _ _ _ _ (.inl (Nat.lt_succ_self a)), mapGet_set_same]

/-- A record of device 0 begins with its class (R436). -/
theorem faultRec_bytes (code src detail : Nat) :
    ∃ l, (faultRec partMissed 1 code src detail).bytes = 1 :: l := by
  have hdev : partMissed.devId = 0 := by decide +kernel
  rw [faultRec, hdev]
  exact ⟨_, rfl⟩

/-- The first byte of the fault ring is 0 before, and the class of the record after. -/
theorem byteAt_partWr : byteAt beatGone hwBase = 0 ∧
    byteAt (queued beatGone ((beatGone.dcStore 2 (partWr.addr % 2 ^ 48) partWr.data false .none).rdNone partWr stOk)) hwBase = 1 := by
  have hline : beatGone.line (partWr.addr % 2 ^ 48 / 256) = none := by decide +kernel
  have htake : beatGone.dcTake 2 (partWr.addr % 2 ^ 48) partWr.data.length .none =
      (partMissed.mergeLost (partWr.addr % 2 ^ 48) partWr.data.length).burst (partWr.addr % 2 ^ 48) := by
    simp only [State.dcTake, hline, if_true, partMissed]
  obtain ⟨src, detail, hfault⟩ := partMissed_mergeLost
  obtain ⟨l, hbytes⟩ := faultRec_bytes 0x0101 src detail
  have hmem : (beatGone.dcStore 2 (partWr.addr % 2 ^ 48) partWr.data false .none).mem =
      setBytes partWr.data (partWr.addr % 2 ^ 48)
        (setBytes (faultRec partMissed 1 0x0101 src detail).bytes (hwBase + 0) partMissed.mem) := by
    rw [State.dcStore, memPut_mem, htake, burst_mem, hfault, fault_mem_ring (by decide) _ _ _ partMissed_hears, partMissed_place]
  generalize beatGone.dcStore 2 (partWr.addr % 2 ^ 48) partWr.data false .none = u at hmem
  refine ⟨by decide +kernel, ?_⟩
  calc byteAt (queued beatGone (u.rdNone partWr stOk)) hwBase
    _ = mapGet (fun _ => (0 : Byte)) hwBase u.mem := rfl
    _ = mapGet (fun _ => (0 : Byte)) hwBase (setBytes (faultRec partMissed 1 0x0101 src detail).bytes (hwBase + 0) partMissed.mem) := by
        rw [hmem, getByte_setBytes_other _ _ _ _ (.inr (by decide))]
    _ = 1 := firstByte hbytes _ _

/-- Refutes O43: the merge of a part write that cannot read its beat (R217) records a fault, whose record stands behind the host
window, outside the bytes of the WR. -/
theorem not_requestsAreServedAndResponsesSettle : ¬ Obligations.RequestsAreServedAndResponsesSettle := by
  unfold Obligations.RequestsAreServedAndResponsesSettle
  intro h
  obtain ⟨hon, hdst, hak, hplain, hroom⟩ := partWr_served
  obtain ⟨-, -, hserve, -⟩ := h beatGone partWr hon
  obtain ⟨-, hwr, -⟩ := hserve rfl hdst rfl hak
  obtain ⟨t, hexec, -, -, hkept⟩ := hwr rfl (.inl hplain) hroom
  obtain ⟨hbefore, hafter⟩ := byteAt_partWr
  have hsame : byteAt t hwBase = byteAt beatGone hwBase := hkept hwBase (.inr (by decide))
  rw [exec_partWr] at hexec
  cases hexec
  rw [hafter, hbefore] at hsame
  exact absurd hsame (by decide)

end Sys2Proof.PartWrite
end

section
/-! Bursts whose beats decode (R213, R214, R218, R232), and O30. -/

namespace Sys2Proof.Bursts

open Sys2Proof Sys2Proof.Machine Sys2Proof.Laws Sys2Proof.Control

theorem pair_lt (s : State) (a : Nat) : s.pair a < 2 ^ 64 := by
  have hlo := reg_lt s a
  have hhi := reg_lt s (a + 4)
  rw [State.pair]
  omega

/-- Only registers, what left the device, open rows and lost beats differ. -/
def burstOnly (s t : State) : Prop :=
  t = { s with regs := t.regs, out := t.out, dram := { s.dram with rows := t.dram.rows, lost := t.dram.lost } }

theorem burstOnly_trans {s t u : State} (h : burstOnly s t) (g : burstOnly t u) : burstOnly s u := by
  unfold burstOnly at *
  rw [g, h]

theorem burstOnly_of_onlyRegs {s t : State} (h : onlyRegs s t) : burstOnly s t := by
  unfold burstOnly
  rw [onlyRegs_dram h]
  exact h

/-- What beat i of line l carries: its errors, and the poison it is stored with (R214). -/
def beatPat (s : State) (l : Nat) (errs : List BeatErr) (i : Nat) : BeatErr :=
  if (s.dramBad l).contains (4 * l + i) then errs.getD i [] ++ rsPoison else errs.getD i []

/-- Beats of a burst decode: what they leave is their count k in pair `ce` and the errors' records. -/
structure Decoded (s : State) (ce k : Nat) (t : State) : Prop where
  rest : burstOnly s t
  lost : ∀ b ∈ t.dram.lost, b ∈ s.dram.lost
  count : t.pair ce = (s.pair ce + k) % 2 ^ 64
  clean : k = 0 → t.regs = s.regs ∧ t.out = s.out

namespace Decoded

variable {s t : State} {ce k : Nat}

theorem beatPat (h : Decoded s ce k t) (l : Nat) (errs : List BeatErr) (i : Nat) :
    beatPat t l errs i = Bursts.beatPat s l errs i := by
  have hbad : t.dramBad l = s.dramBad l := by
    rw [h.rest]
    rfl
  rw [Bursts.beatPat, hbad, Bursts.beatPat]

/-- An open row is all that a burst leaves before its beats. -/
theorem openRow (s : State) (ce a : Nat) : Decoded s ce 0 (s.openRow a) where
  rest := rfl
  lost := fun _ hb => hb
  count := by
    rw [Nat.add_zero, Nat.mod_eq_of_lt (pair_lt s ce)]
    exact pair_of_reg rfl rfl
  clean := fun _ => ⟨rfl, rfl⟩

/-- A beat that decodes is not lost. -/
theorem soundBeat (h : Decoded s ce k t) (b : Nat) : Decoded s ce k (t.soundBeat b) := by
  unfold State.soundBeat
  split
  · exact ⟨burstOnly_trans h.rest rfl, fun x hx => h.lost x (List.mem_of_mem_filter hx), (pair_of_reg rfl rfl).trans h.count, h.clean⟩
  · exact h

/-- A corrected beat counts. -/
theorem bump (h : Decoded s ce k t) : Decoded s ce (k + 1) (t.bump ce 1) where
  rest := burstOnly_trans h.rest (burstOnly_of_onlyRegs (onlyRegs_bump t ce 1))
  lost := by
    rw [State.bump_dram]
    exact h.lost
  count := by rw [State.bump, pair_setPair_same _ _ (Nat.mod_lt _ (by decide)), h.count, Nat.mod_add_mod, Nat.add_assoc]
  clean := fun h0 => absurd h0 (Nat.succ_ne_zero k)

/-- Other registers may change once a beat has counted. -/
theorem onlyRegs {u : State} (h : Decoded s ce (k + 1) t) (ho : onlyRegs t u) (hp : u.pair ce = t.pair ce) :
    Decoded s ce (k + 1) u where
  rest := burstOnly_trans h.rest (burstOnly_of_onlyRegs ho)
  lost := by
    rw [onlyRegs_dram ho]
    exact h.lost
  count := hp.trans h.count
  clean := fun h0 => absurd h0 (Nat.succ_ne_zero k)

end Decoded

theorem recordErr_onlyRegs (s : State) (beat : Nat) (ue scrub worse : Bool) (syms : List Nat) :
    onlyRegs s (s.recordErr beat ue scrub worse syms) :=
  onlyRegs_ite (onlyRegs_refl s) (onlyRegs_trans (onlyRegs_setReg _ _ _) (onlyRegs_trans (onlyRegs_setReg _ _ _) (onlyRegs_setReg _ _ _)))

theorem recordErr_reg (s : State) (beat : Nat) (ue scrub worse : Bool) (syms : List Nat) {d c r : Nat} (hr : r < 0x1000)
    (hinfo : r ≠ 0x18) (hlo : r ≠ 0x20) (hhi : r ≠ 0x24) :
    (s.recordErr beat ue scrub worse syms).reg (ctlReg d c r) = s.reg (ctlReg d c r) := by
  unfold State.recordErr
  extract_lets g d' c' v
  split
  · rfl
  · rw [State.setPair, reg_setReg_other, reg_setReg_other, reg_setReg_other]
    · exact ctlReg_ne hr (r' := 0x18) (by decide) hinfo _ _ _ _
    · exact ctlReg_ne hr (r' := 0x20) (by decide) hlo _ _ _ _
    · exact ctlReg_ne hr (r' := 0x24) (by decide) hhi _ _ _ _

/-- The count of corrected errors of the controller of line l (R218). -/
abbrev ceOf (l : Nat) : Nat := MC_CE_LO (stackOf (gchan (l * 256))) (ctlOf (gchan (l * 256)))

/-- The beats of a line lie in its channel. -/
theorem gchan_beat {i : Nat} (hi : i < 4) (l : Nat) : gchan ((4 * l + i) * 64) = gchan (l * 256) := by
  unfold gchan
  omega

/-- A beat is corrected, and counts. -/
def beatFixed (s : State) (l : Nat) (errs : List BeatErr) (i : Nat) : Bool :=
  match rsDecode (beatPat s l errs i) with
  | .corrected _ => true
  | _ => false
/-- A beat decodes (R213). -/
def beatSound (s : State) (l : Nat) (errs : List BeatErr) (i : Nat) : Prop :=
  rsDecode (beatPat s l errs i) = .clean ∨ ∃ fix, rsDecode (beatPat s l errs i) = .corrected fix

section
variable {s t : State} {l : Nat} {errs : List BeatErr}

theorem beatDone_decoded {i k : Nat} (hi : i < 4) (h : Decoded s (ceOf l) k t) (hsound : beatSound s l errs i) (scrub : Bool)
    (found : BurstFound) :
    let r := t.beatDone scrub found (4 * l + i) (errs.getD i [])
    Decoded s (ceOf l) (k + (beatFixed s l errs i).toNat) r.1 ∧ r.2 = { found with ce := found.ce || beatFixed s l errs i } := by
  have hline : (4 * l + i) / 4 = l := by omega
  have hpat := h.beatPat l errs i
  rw [beatPat] at hpat
  unfold State.beatDone
  simp only [hline, hpat, gchan_beat hi]
  rcases hsound with hclean | ⟨fix, hfix⟩
  · simp only [hclean, beatFixed, Bool.toNat_false, Nat.add_zero, Bool.or_false, and_true]
    exact h.soundBeat _
  · simp only [hfix, beatFixed, Bool.toNat_true, Bool.or_true, and_true]
    refine (h.soundBeat _).bump.onlyRegs (recordErr_onlyRegs _ _ _ _ _ _) (pair_of_reg ?_ ?_)
    · exact recordErr_reg _ _ _ _ _ _ (r := 0x28) (by decide) (by decide) (by decide) (by decide)
    · exact recordErr_reg _ _ _ _ _ _ (r := 0x2C) (by decide) (by decide) (by decide) (by decide)

theorem beats_decoded (scrub : Bool) (L : List Nat) (hL : ∀ i ∈ L, i < 4 ∧ beatSound s l errs i) {k : Nat} (found : BurstFound)
    (h : Decoded s (ceOf l) k t) :
    let r := L.foldl (fun (acc : State × BurstFound) i => acc.1.beatDone scrub acc.2 (4 * l + i) (errs.getD i [])) (t, found)
    Decoded s (ceOf l) (k + (L.filter (beatFixed s l errs)).length) r.1 ∧
      r.2 = { found with ce := found.ce || L.any (beatFixed s l errs) } := by
  induction L generalizing t k found with
  | nil => exact ⟨h, by simp⟩
  | cons i L ih =>
    obtain ⟨hi, hsound⟩ := hL i List.mem_cons_self
    obtain ⟨hdec, hfound⟩ := beatDone_decoded hi h hsound scrub found
    rw [List.foldl_cons]
    generalize t.beatDone scrub found (4 * l + i) (errs.getD i []) = r at hdec hfound ⊢
    obtain ⟨u, f⟩ := r
    subst hfound
    obtain ⟨hrest, hflags⟩ := ih (fun j hj => hL j (List.mem_cons_of_mem _ hj)) _ hdec
    have hlen : (List.filter (beatFixed s l errs) (i :: L)).length =
        (beatFixed s l errs i).toNat + (List.filter (beatFixed s l errs) L).length := by
      cases hb : beatFixed s l errs i <;> simp [hb, Nat.add_comm]
    refine ⟨?_, hflags.trans (by rw [List.any_cons, Bool.or_assoc])⟩
    rw [hlen, ← Nat.add_assoc]
    exact hrest

end

/-- A corrected beat raises CE of its controller and leaves its count. -/
theorem ceRaised {s u : State} {l n : Nat} (h : Decoded s (ceOf l) (n + 1) u) :
    let ev := MC_EVENT (stackOf (gchan (l * 256))) (ctlOf (gchan (l * 256)))
    let v := u.raiseMask ev (2 ^ MC_EVENT_CE.lo)
    Decoded s (ceOf l) (n + 1) v ∧ v.flag ev MC_EVENT_CE = true := by
  have hd := stackOf_gchan_lt (l * 256)
  have hc := ctlOf_lt (gchan (l * 256))
  have kept {r : Nat} (hr : r < 0x1000) (hne : r ≠ 8) := raiseMask_reg u (2 ^ MC_EVENT_CE.lo) (ctlReg_notMem_sumRegs hd hc hr _)
    (ctlReg_ne hr (r' := 8) (by decide) hne _ _ (stackOf (gchan (l * 256))) (ctlOf (gchan (l * 256))))
  refine ⟨h.onlyRegs (onlyRegs_raiseMask _ _ _) (pair_of_reg ?_ ?_), ?_⟩
  · exact kept (r := 0x28) (by decide) (by decide)
  · exact kept (r := 0x2C) (by decide) (by decide)
  · rw [raiseMask_flag _ _ (mcEvent_notMem_sumRegs hd hc _) (by decide) (by decide) (by decide) rfl, show Nat.testBit (2 ^ 8) 8 = true by decide,
      Bool.or_true]

/-- With no poison and no lost beat, the burst's event is CE alone. -/
theorem burstDone_ce {s u : State} {scrub b : Bool} {l : Nat} {errs : List BeatErr}
    (h : (List.range 4).foldl (fun (acc : State × BurstFound) i => acc.1.beatDone scrub acc.2 (4 * l + i) (errs.getD i []))
      (s, {}) = (u, { ce := b })) :
    s.burstDone scrub l errs =
      (if b then u.raiseMask (MC_EVENT (stackOf (gchan (l * 256))) (ctlOf (gchan (l * 256)))) (2 ^ MC_EVENT_CE.lo) else u, { ce := b }) := by
  unfold State.burstDone
  rw [h]
  cases b <;> simp

/-- A burst all of whose beats decode. -/
theorem burstDone_decoded {s : State} {l : Nat} {errs : List BeatErr} (a : Nat) (scrub : Bool)
    (hsound : ∀ i, i < 4 → beatSound s l errs i) :
    let fixed := (List.range 4).filter (beatFixed s l errs)
    let r := (s.openRow a).burstDone scrub l errs
    r.2.worst = [] ∧ Decoded s (ceOf l) fixed.length r.1 ∧
      (fixed ≠ [] → r.1.flag (MC_EVENT (stackOf (gchan (l * 256))) (ctlOf (gchan (l * 256)))) MC_EVENT_CE = true) := by
  obtain ⟨hdec, hfound⟩ := beats_decoded scrub (List.range 4) (fun i hi => ⟨List.mem_range.1 hi, hsound i (List.mem_range.1 hi)⟩) {}
    (Decoded.openRow s (ceOf l) a)
  rw [Nat.zero_add] at hdec
  rw [show ({} : BurstFound).ce = false from rfl, Bool.false_or] at hfound
  generalize hq : (List.range 4).foldl _ _ = q at hdec hfound
  obtain ⟨u, f⟩ := q
  subst hfound
  intro fixed r
  rw [show r = _ from burstDone_ce hq]
  cases hfixed : fixed with
  | nil =>
    have hany : (List.range 4).any (beatFixed s l errs) = false :=
      List.any_eq_false.2 (List.filter_eq_nil_iff.1 hfixed)
    rw [show (List.range 4).filter (beatFixed s l errs) = [] from hfixed] at hdec
    rw [if_neg (by rw [hany]; decide)]
    exact ⟨rfl, hdec, fun h => absurd rfl h⟩
  | cons i rest =>
    obtain ⟨hi, hfix⟩ := List.mem_filter.1 (show i ∈ fixed from hfixed ▸ List.mem_cons_self)
    have hany : (List.range 4).any (beatFixed s l errs) = true := List.any_eq_true.2 ⟨i, hi, hfix⟩
    rw [show (List.range 4).filter (beatFixed s l errs) = i :: rest from hfixed] at hdec
    obtain ⟨hcount, hflag⟩ := ceRaised hdec
    rw [if_pos hany]
    exact ⟨rfl, hcount, fun _ => hflag⟩

theorem burstOnly_pending {s t : State} (h : burstOnly s t) : t.pending = s.pending := by
  unfold burstOnly at h
  rw [h]
theorem burstOnly_mem {s t : State} (h : burstOnly s t) : t.mem = s.mem := by
  unfold burstOnly at h
  rw [h]
theorem burstOnly_poison {s t : State} (h : burstOnly s t) : t.poison = s.poison := by
  unfold burstOnly at h
  rw [h]

/-- A demand burst without a lost beat leaves what its beats do. -/
theorem dramRead_sound {s : State} {a : Nat} {errs : List BeatErr}
    (h : ((s.openRow a).burstDone false (a / 256) errs).2.worst = []) :
    s.dramRead a errs = ((s.openRow a).burstDone false (a / 256) errs).1 := by
  unfold State.dramRead
  dsimp only
  generalize (s.openRow a).burstDone false (a / 256) errs = r at h ⊢
  rw [h]

theorem exec_dramReadDone {s : State} (hon : s.boot.on = true) {a : Nat} {errs : List BeatErr} (ha : a < 0x20000000000)
    (hok : s.chanOk (gchan a) = true) (h : burstOnly s (s.dramRead a errs)) :
    Machine.exec (.dramReadDone a errs) s = .next (s.dramRead a errs) := by
  change done s (if a < 0x20000000000 ∧ s.chanOk (gchan a) then s.dramRead a errs else s) = _
  rw [if_pos ⟨ha, hok⟩]
  exact done_kept hon (burstOnly_pending h)

/-- The patrol of channel g moves on. -/
def patrolled (s t : State) (g : Nat) : State :=
  { t with dram := { t.dram with
      scrub := mapSet (fun _ => 0) g ((mapGet (fun _ => 0) g s.dram.scrub + 1) % 2 ^ 24) t.dram.scrub } }

/-- A scrub burst without a lost beat. -/
theorem scrubBurst_sound {s : State} {g l : Nat} {errs : List BeatErr} (hl : l = g * 2 ^ 24 + mapGet (fun _ => 0) g s.dram.scrub)
    (h : ((s.openRow (l * 256)).burstDone true l errs).2.worst = []) :
    s.scrubBurst g errs = patrolled s ((s.openRow (l * 256)).burstDone true l errs).1 g := by
  unfold State.scrubBurst
  dsimp only
  rw [← hl]
  generalize (s.openRow (l * 256)).burstDone true l errs = r at h ⊢
  rw [h]
  rfl

theorem exec_patrolScrub {s : State} (hon : s.boot.on = true) {d : DieIx} {ch : ChanIx} {errs : List BeatErr} {written : Bool}
    (hen : s.scrubEn d.val (ch.val / 4) = true) (hready : s.chanReady (32 * d.val + ch.val) = true) (hcool : s.tstate d.val < 2)
    (hpend : (s.scrubBurst (32 * d.val + ch.val) errs).pending = s.pending) :
    Machine.exec (.patrolScrub d ch errs written) s =
      .next ((s.scrubBurst (32 * d.val + ch.val) errs).usePromo (.memQueue d (Fin.ofNat 8 (ch.val / 4))) .scrub) := by
  change execPatrolScrub d ch errs written s = _
  unfold execPatrolScrub
  simp only [hen, hready, decide_eq_true hcool, Bool.and_self, if_true]
  generalize s.scrubBurst (32 * d.val + ch.val) errs = t at hpend ⊢
  exact done_kept hon hpend

/-- Settles O30: the four beats are counted one by one, and each leaves what the next is decoded from. -/
theorem correctedBurstsOnlyCount : Obligations.CorrectedBurstsOnlyCount := by
  unfold Obligations.CorrectedBurstsOnlyCount
  intro s hon
  refine ⟨?_, ?_⟩
  · intro a errs ha hok pat fixed hsound
    obtain ⟨hworst, hdec, hflag⟩ := burstDone_decoded (s := s) (l := a / 256) (errs := errs) a false hsound
    have hchan : gchan (a / 256 * 256) = gchan a := by
      unfold gchan
      omega
    rw [← dramRead_sound hworst] at hdec hflag
    rw [ceOf, hchan] at hdec
    rw [hchan] at hflag
    refine ⟨_, exec_dramReadDone hon ha hok hdec.rest, burstOnly_mem hdec.rest, burstOnly_poison hdec.rest, hdec.count, fun h0 => ?_, hflag⟩
    obtain ⟨hregs, hout⟩ := hdec.clean (List.length_eq_zero_iff.2 h0)
    have hrest := hdec.rest
    rw [burstOnly, hregs, hout] at hrest
    exact hrest
  · intro d ch errs written g p hen hready hcool hclean
    have hsound : ∀ i, i < 4 → beatSound s (g * 2 ^ 24 + p) errs i := fun i hi => .inl (hclean i hi)
    have hfixed : (List.range 4).filter (beatFixed s (g * 2 ^ 24 + p) errs) = [] := by
      refine List.filter_eq_nil_iff.2 fun i hi => ?_
      have hi' : rsDecode (beatPat s (g * 2 ^ 24 + p) errs i) = .clean := hclean i (List.mem_range.1 hi)
      rw [beatFixed, hi']
      decide
    obtain ⟨hworst, hdec, -⟩ := burstDone_decoded (s := s) ((g * 2 ^ 24 + p) * 256) true hsound
    have hburst := scrubBurst_sound (g := g) (l := g * 2 ^ 24 + p) rfl hworst
    rw [hfixed] at hdec
    generalize ((s.openRow ((g * 2 ^ 24 + p) * 256)).burstDone true (g * 2 ^ 24 + p) errs).1 = t at hdec hburst
    obtain ⟨hregs, hout⟩ := hdec.clean rfl
    have hrest := hdec.rest
    rw [burstOnly, hregs, hout] at hrest
    refine ⟨(patrolled s t g).usePromo (.memQueue d (Fin.ofNat 8 (ch.val / 4))) .scrub, ?_, hdec.lost, ?_, ?_⟩
    · rw [← hburst]
      refine exec_patrolScrub hon hen hready hcool ?_
      rw [hburst]
      exact (show (patrolled s t g).pending = t.pending from rfl).trans (burstOnly_pending hdec.rest)
    · rw [hrest]
      rfl
    · rw [hrest]
      rfl

end Sys2Proof.Bursts
end

section
/-! SUPPORT. Operations on all eight controllers of a stack (R233, R237), and the fault ring without a host path (R438). -/

namespace Sys2Proof.Laws

open Sys2Proof Sys2Proof.Machine Sys2Proof.Stepping

/-- Registers below the dies are no summary of an event, but the summary of the package. -/
theorem pkg_notMem_sumRegs {a : Nat} (ha : a < 0x1000000) (hne : a ≠ PKG_EVENT_SUM) (b : Nat) : a ∉ sumRegs b := by
  intro h
  unfold sumRegs at h
  simp only [List.mem_append, List.mem_singleton] at h
  rcases h with (h | h) | h
  · exact hne h
  · split at h
    next e _ _ =>
      simp only [List.mem_cons, List.not_mem_nil, or_false] at h
      unfold DIE_EVENT_SUM DIE_FACE_SUM_0 DIE_FACE_SUM_1 dieBase at h
      omega
    next => cases h
  · obtain ⟨i, -, hi⟩ := List.mem_map.1 h
    unfold MSIX_PBA bar4Base at hi
    omega

/-! ### without a host path a fault record changes no memory -/

theorem faultRing_mem_unreached {s : State} (h : s.canHost = false) (r : FaultRec) : (s.faultRing r).mem = s.mem := by
  unfold State.faultRing
  simp only [h, Bool.not_false, Bool.or_true, if_true, apply_ite State.mem, State.bumpSat_mem, ite_self]

theorem deliver_mem_unreached {s : State} (h : s.canHost = false) (r : FaultRec) : (s.deliver r).mem = s.mem := by
  have hsum : (s.orReg PKG_FAULT_SUM (2 ^ r.cls)).canHost = false :=
    (canHost_congr (State.orReg_boot _ _ _) fun a ha => reg_setReg_other s (by
      simp only [List.mem_cons, List.not_mem_nil, or_false] at ha
      rcases ha with rfl | rfl | rfl <;> decide) _).trans h
  unfold State.deliver
  extract_lets t1 t2 n o t3 t4
  have h3 : t3.canHost = false := hsum
  have hmem : t2.mem = s.mem := rfl
  rw [← hmem]
  split
  · exact State.bumpSat_mem t2 _ _ _
  · rw [capture_mem]
    exact faultRing_mem_unreached h3 r

theorem fault_mem_unreached {s : State} (h : s.canHost = false) (cls code srcOff detail : Nat) :
    (s.fault cls code srcOff detail).mem = s.mem := by
  have told (r : FaultRec) : (forwardRec (({ s with freeN := s.freeN + 1, obs := { s.obs with fseq := (s.obs.fseq + 1) % 2 ^ 32 } } : State).deliver r) r).mem = s.mem := by
    rw [forwardRec_mem]
    exact deliver_mem_unreached (by exact h) r
  rw [fault_eq]
  dsimp only
  split
  · rw [fatal_mem]
    exact told _
  · exact told _

/-! ### all controllers of a stack -/

theorem setMcAll_onlyRegs (s : State) (d : Nat) (reg : Nat → Nat → Nat) (f : Fld) (v : Nat) : onlyRegs s (s.setMcAll d reg f v) :=
  onlyRegs_foldl (fun s _ => onlyRegs_setReg s _ _) _ s

section
variable (s : State) {d : Nat} {reg : Nat → Nat → Nat} {f : Fld} (v : Nat)

theorem setMcAll_reg_other {a : Nat} (h : ∀ c, a ≠ reg d c) : (s.setMcAll d reg f v).reg a = s.reg a :=
  foldl_kept (fun s => s.reg a) (fun s c _ => reg_setReg_other s (h c) _) s

theorem setMcAll_fld_apart (hf : f.lo + f.w ≤ 32) {a : Nat} {g : Fld}
    (h : ∀ c, a ≠ reg d c ∨ f.lo + f.w ≤ g.lo ∨ g.lo + g.w ≤ f.lo) : (s.setMcAll d reg f v).fld a g = s.fld a g :=
  foldl_kept (fun s => s.fld a g) (fun s c _ => fld_setFld_apart s v hf (h c)) s

/-- Stack values read at the first controller. -/
theorem setMcAll_fld_first (hf : f.lo + f.w ≤ 32) (hreg : ∀ c, reg d 0 ≠ reg d (c + 1)) :
    (s.setMcAll d reg f v).fld (reg d 0) f = v % 2 ^ f.w := by
  unfold State.setMcAll
  rw [List.range_succ_eq_map, List.foldl_cons, List.foldl_map]
  refine Eq.trans ?_ (fld_setFld_same s (reg d 0) f v hf)
  exact foldl_kept (fun s => s.fld (reg d 0) f) (fun s c _ => fld_setFld_apart s v hf (.inl (hreg c))) _

end

theorem raiseMcAll_onlyRegs (s : State) (d m : Nat) : onlyRegs s (s.raiseMcAll d m) :=
  onlyRegs_foldl (fun s _ => onlyRegs_raiseMask s _ _) _ s

theorem raiseMcAll_reg (s : State) (d m : Nat) {a : Nat} (hs : ∀ b, a ∉ sumRegs b) (hne : ∀ c, a ≠ MC_EVENT d c) :
    (s.raiseMcAll d m).reg a = s.reg a :=
  foldl_kept (fun s => s.reg a) (fun s c _ => raiseMask_reg s m (hs _) (hne c)) s

/-- Every controller of a stack shows the flag raised. -/
theorem raiseMcAll_flag (s : State) {d c : Nat} (hd : d < 16) (hc : c < 8) {m : Nat} (hm : m % 256 = 0) (hw : m < 2 ^ 32) {f : Fld}
    (h8 : 8 ≤ f.lo) (h1 : f.w = 1) (hbit : m.testBit f.lo = true) : (s.raiseMcAll d m).flag (MC_EVENT d c) f = true := by
  have hsum := mcEvent_notMem_sumRegs hd hc
  have keeps (s : State) (b : Nat) (h : s.flag (MC_EVENT d c) f = true) : (s.raiseMask (MC_EVENT d b) m).flag (MC_EVENT d c) f = true := by
    by_cases hb : c = b
    · rw [← hb, raiseMask_flag s m (hsum _) hm hw h8 h1, h, Bool.true_or]
    · exact (flag_of_reg (raiseMask_reg s m (hsum _) (show MC_EVENT d c ≠ MC_EVENT d b from ctlReg_ne_ctl hb d 8)) f).trans h
  have raised (l : List Nat) (hl : c ∈ l) (s : State) :
      (l.foldl (fun s c => s.raiseMask (MC_EVENT d c) m) s).flag (MC_EVENT d c) f = true := by
    induction l generalizing s with
    | nil => cases hl
    | cons b l ih =>
      rcases List.mem_cons.1 hl with rfl | hl
      · refine List.foldlRecOn l _ (motive := fun s => s.flag (MC_EVENT d c) f = true) ?_ fun s h b _ => keeps s b h
        rw [raiseMask_flag s m (hsum _) hm hw h8 h1, hbit, Bool.or_true]
      · exact ih hl _
  exact raised _ (List.mem_range.2 hc) s

end Sys2Proof.Laws
end

section
/-! The thermal ladder of a stack (R233 to R235), and O32. -/

namespace Sys2Proof.Ladder

open Sys2Proof Sys2Proof.Machine Sys2Proof.Laws Sys2Proof.Control

/-- The registers the host path is read from. -/
def hostRegs : List Nat := [PKG_ROLE, HIF_STAT, HIF_CTRL]

theorem hostRegs_low {a : Nat} (h : a ∈ hostRegs) : a < 0x1000000 ∧ a ≠ PKG_EVENT_SUM ∧ a ≠ PWR_EVENT := by
  simp only [hostRegs, List.mem_cons, List.not_mem_nil, or_false] at h
  rcases h with rfl | rfl | rfl <;> decide

/-- Memory, the queue and the host path stay. -/
structure HostKept (s t : State) : Prop where
  mem : t.mem = s.mem
  pending : t.pending = s.pending
  boot : t.boot = s.boot
  host : ∀ a ∈ hostRegs, t.reg a = s.reg a

namespace HostKept

variable {s t u : State}

theorem trans (h : HostKept s t) (g : HostKept t u) : HostKept s u :=
  ⟨g.mem.trans h.mem, g.pending.trans h.pending, g.boot.trans h.boot, fun a ha => (g.host a ha).trans (h.host a ha)⟩
theorem canHost (h : HostKept s t) : t.canHost = s.canHost := canHost_congr h.boot h.host
theorem of_onlyRegs (h : onlyRegs s t) (hr : ∀ a ∈ hostRegs, t.reg a = s.reg a) : HostKept s t :=
  ⟨onlyRegs_mem h, onlyRegs_pending h, onlyRegs_boot h, hr⟩

theorem setMcAll (s : State) (d : Nat) {reg : Nat → Nat → Nat} (hreg : ∀ c, 0x1000000 ≤ reg d c) (f : Fld) (v : Nat) :
    HostKept s (s.setMcAll d reg f v) :=
  of_onlyRegs (setMcAll_onlyRegs s d reg f v) fun _ ha => setMcAll_reg_other s v fun c =>
    Nat.ne_of_lt (Nat.lt_of_lt_of_le (hostRegs_low ha).1 (hreg c))
theorem raiseMcAll (s : State) (d m : Nat) : HostKept s (s.raiseMcAll d m) :=
  of_onlyRegs (raiseMcAll_onlyRegs s d m) fun _ ha => raiseMcAll_reg s d m
    (pkg_notMem_sumRegs (hostRegs_low ha).1 (hostRegs_low ha).2.1) fun c => by
      have hlow := (hostRegs_low ha).1
      unfold MC_EVENT dieBase
      omega
theorem raisePwr (s : State) (f : Fld) : HostKept s (s.raise PWR_EVENT f) :=
  of_onlyRegs (onlyRegs_raiseMask s _ _) fun _ ha => raise_reg s f
    (pkg_notMem_sumRegs (hostRegs_low ha).1 (hostRegs_low ha).2.1 _) (hostRegs_low ha).2.2

end HostKept

/-- The thermal state of stack d stays too. -/
structure StackKept (d : Nat) (s t : State) : Prop extends HostKept s t where
  tstate : t.tstate d = s.tstate d

namespace StackKept

variable {s t u : State} {d : Nat}

theorem refl (s : State) : StackKept d s s := ⟨⟨rfl, rfl, rfl, fun _ _ => rfl⟩, rfl⟩
/-- Records of the slices and channels are no part of this. -/
theorem note (s : State) (x : Dram) : StackKept d s { s with dram := x } := ⟨⟨rfl, rfl, rfl, fun _ _ => rfl⟩, rfl⟩
theorem trans (h : StackKept d s t) (g : StackKept d t u) : StackKept d s u :=
  ⟨h.toHostKept.trans g.toHostKept, g.tstate.trans h.tstate⟩

/-- A field of all controllers, but TSTATE. -/
theorem setMcAll (s : State) {reg : Nat → Nat → Nat} {f : Fld} (hreg : ∀ c, 0x1000000 ≤ reg d c) (hf : f.lo + f.w ≤ 32)
    (h : ∀ c, MC_STAT d 0 ≠ reg d c ∨ f.lo + f.w ≤ 4 ∨ 6 ≤ f.lo) (v : Nat) : StackKept d s (s.setMcAll d reg f v) :=
  ⟨.setMcAll s d hreg f v, setMcAll_fld_apart s v hf h⟩

theorem stat (s : State) {f : Fld} (hf : f.lo + f.w ≤ 32) (h : f.lo + f.w ≤ 4 ∨ 6 ≤ f.lo) (v : Nat) :
    StackKept d s (s.setMcAll d MC_STAT f v) :=
  setMcAll s (fun c => by unfold MC_STAT dieBase; omega) hf (fun _ => .inr h) v
theorem grace (s : State) (v : Nat) : StackKept d s (s.setMcAll d MC_GRACE MC_GRACE_LEFT v) :=
  setMcAll s (reg := MC_GRACE) (fun c => by unfold MC_GRACE dieBase; omega) (by decide)
    (fun c => .inl (ctlReg_ne (r := 4) (r' := 0x10) (by decide) (by decide) (by decide) d 0 d c)) v
theorem therm (s : State) {f : Fld} (hf : f.lo + f.w ≤ 32) (v : Nat) : StackKept d s (s.setMcAll d MC_THERM f v) :=
  setMcAll s (reg := MC_THERM) (fun c => by unfold MC_THERM dieBase; omega) hf
    (fun c => .inl (ctlReg_ne (r := 4) (r' := 0xC) (by decide) (by decide) (by decide) d 0 d c)) v

theorem setCap (s : State) (on : Bool) : StackKept d s (s.setCap d on) :=
  (stat s (by decide) (by decide) _).trans (note _ _)
theorem setGrace (s : State) (jobs : List Nat) (left : Nat) : StackKept d s (s.setGrace d jobs left) :=
  ((stat s (by decide) (by decide) _).trans (grace _ _)).trans (note _ _)
theorem graceTick (s : State) : StackKept d s (s.graceTick d) := by
  unfold State.graceTick
  dsimp only
  split
  · exact refl s
  · exact (note s _).trans (grace _ _)

end StackKept

theorem tstate_lt (s : State) (d : Nat) : s.tstate d < 4 := bits_lt _ _ _

theorem nextTstate_near {n : Nat} (hn : n < 4) (temp : Nat) :
    nextTstate n temp < 4 ∧ nextTstate n temp ≤ n + 1 ∧ n ≤ nextTstate n temp + 1 := by
  obtain rfl | rfl | rfl | rfl : n = 0 ∨ n = 1 ∨ n = 2 ∨ n = 3 := by omega
  all_goals
    simp only [nextTstate]
    repeat' split
    all_goals omega


/-- What an entry writes first: TSTATE, and the events of the stack and of the power controller. -/
def stateShown (s : State) (d n : Nat) : State :=
  ((s.setMcAll d MC_STAT MC_STAT_TSTATE n).raiseMcAll d (2 ^ MC_EVENT_TSTATE.lo)).raise PWR_EVENT PWR_EVENT_TSTATE

/-- The jobs a grace waits for (R235). -/
def graceJobs (s : State) (d : Nat) : List Nat := if s.graceEn d ∧ s.graceLimit d ≠ 0 then s.openJobs d else []
/-- What follows from the state entered: the cap, a grace, or the record of a stack at CRIT. -/
def stateTaken (s : State) (d n : Nat) : State :=
  if n = 2 then
    if (graceJobs s d).isEmpty then s.setCap d true else s.setGrace d (graceJobs s d) (s.graceLimit d)
  else
    let s := (s.setGrace d [] 0).setCap d false
    if n = 3 then s.fault 1 0x0105 (MC_EVENT d 0) d else s

theorem enterTstate_eq (s : State) (d n : Nat) : s.enterTstate d n = stateTaken (stateShown s d n) d n := rfl

theorem mcStat_notMem_sumRegs {d : Nat} (hd : d < 16) (b : Nat) : MC_STAT d 0 ∉ sumRegs b :=
  ctlReg_notMem_sumRegs (c := 0) (r := 4) hd (by decide) (by decide) b

theorem mcStat_notMem_faultRegs {d : Nat} (hd : d < 16) : MC_STAT d 0 ∉ faultRegs := by
  have low : ∀ a ∈ [PKG_FAULT_SUM, FR_SUPPR, FR_DROP, FR_PROD, HIF_WR_BYTES_LO, HIF_WR_BYTES_LO + 4, TRC_DROP_LO, TRC_DROP_LO + 4,
    TRC_STAT, TRC_EVENT, STEP_STAT, STEP_CTRL], a < 0x1000000 ∨ 0x2000000 ≤ a := by decide
  intro h
  rcases List.mem_append.1 h with h | h
  · have hlow := low _ h
    unfold MC_STAT dieBase at hlow
    omega
  · exact mcStat_notMem_sumRegs hd _ h

theorem stateShown_hostKept (s : State) (d n : Nat) : HostKept s (stateShown s d n) :=
  ((HostKept.setMcAll s d (fun c => by unfold MC_STAT dieBase; omega) _ _).trans (.raiseMcAll _ d _)).trans (.raisePwr _ _)

theorem stateShown_tstate (s : State) {d n : Nat} (hd : d < 16) (hn : n < 4) : (stateShown s d n).tstate d = n := by
  have hsum := mcStat_notMem_sumRegs hd
  have hpwr : MC_STAT d 0 ≠ PWR_EVENT := by
    unfold MC_STAT PWR_EVENT dieBase
    omega
  have hev (c : Nat) : MC_STAT d 0 ≠ MC_EVENT d c := ctlReg_ne (r := 4) (r' := 8) (by decide) (by decide) (by decide) d 0 d c
  have hraise := (raise_reg ((s.setMcAll d MC_STAT MC_STAT_TSTATE n).raiseMcAll d (2 ^ MC_EVENT_TSTATE.lo)) PWR_EVENT_TSTATE (hsum _)
    hpwr).trans (raiseMcAll_reg (s.setMcAll d MC_STAT MC_STAT_TSTATE n) d (2 ^ MC_EVENT_TSTATE.lo) hsum hev)
  refine (fld_of_reg hraise _).trans ?_
  rw [setMcAll_fld_first s n (by decide) fun c => ctlReg_ne_ctl (Nat.succ_ne_zero c).symm d 4]
  exact Nat.mod_eq_of_lt hn

theorem stateTaken_shows {s : State} (hhost : s.canHost = false) {d n : Nat} (hd : d < 16) :
    let t := stateTaken s d n
    t.tstate d = s.tstate d ∧ t.mem = s.mem ∧ t.pending = s.pending := by
  have kept {t : State} (h : StackKept d s t) : t.tstate d = s.tstate d ∧ t.mem = s.mem ∧ t.pending = s.pending :=
    ⟨h.tstate, h.mem, h.pending⟩
  unfold stateTaken
  split
  · split
    · exact kept (.setCap s true)
    · exact kept (.setGrace s _ _)
  · have hopen : StackKept d s ((s.setGrace d [] 0).setCap d false) := (StackKept.setGrace s [] 0).trans (.setCap _ false)
    dsimp only
    split
    · refine ⟨?_, ?_, ?_⟩
      · exact (fld_of_reg (fault_reg _ _ _ _ _ (mcStat_notMem_faultRegs hd)) _).trans hopen.tstate
      · exact (fault_mem_unreached (hopen.canHost.trans hhost) _ _ _ _).trans hopen.mem
      · exact (fault_pending _ _ _ _ _).trans hopen.pending
    · exact kept hopen

/-- The thermal state is what is entered, whatever else the entry does (R233 to R235). -/
theorem enterTstate_shows {s : State} (hhost : s.canHost = false) {d n : Nat} (hd : d < 16) (hn : n < 4) :
    let t := s.enterTstate d n
    t.tstate d = n ∧ t.mem = s.mem ∧ t.pending = s.pending := by
  have hshown := stateShown_hostKept s d n
  obtain ⟨hstate, hmem, hpend⟩ := stateTaken_shows (hshown.canHost.trans hhost) (n := n) hd
  exact ⟨hstate.trans (stateShown_tstate s hd hn), hmem.trans hshown.mem, hpend.trans hshown.pending⟩

/-- What the eight sensors read, as it is shown before the ladder moves: the hottest, its peak and its place. -/
def tempShown (s : State) (d : Nat) (temps : List Nat) : State :=
  let temp := temps.foldl max 0
  let t := (s.graceTick d).setMcAll d MC_THERM MC_THERM_TEMP (min 255 temp)
  (t.setMcAll d MC_THERM MC_THERM_PEAK (max (t.fld (MC_THERM d 0) MC_THERM_PEAK) (min 255 temp))).setMcAll d MC_THERM
    MC_THERM_HOT_SID (temps.idxOf temp)

theorem tempShown_kept (s : State) (d : Nat) (temps : List Nat) : StackKept d s (tempShown s d temps) :=
  (((StackKept.graceTick s).trans (.therm _ (by decide) _)).trans (.therm _ (by decide) _)).trans (.therm _ (by decide) _)

theorem stackReading_eq (s : State) (d : Nat) (temps : List Nat) :
    s.stackReading d temps =
      let t := tempShown s d temps
      let n := nextTstate (t.tstate d) (temps.foldl max 0)
      if n = t.tstate d then t else t.enterTstate d n := rfl

theorem stackReading_shows {s : State} (hhost : s.canHost = false) {d : Nat} (hd : d < 16) (temps : List Nat) :
    let t := s.stackReading d temps
    t.tstate d = nextTstate (s.tstate d) (temps.foldl max 0) ∧ t.mem = s.mem ∧ t.pending = s.pending := by
  have hshown := tempShown_kept s d temps
  rw [stackReading_eq]
  generalize tempShown s d temps = u at hshown
  rw [← hshown.tstate]
  dsimp only
  split
  next hsame => exact ⟨hsame.symm, hshown.mem, hshown.pending⟩
  next =>
    obtain ⟨hnext, -⟩ := nextTstate_near (tstate_lt u d) (temps.foldl max 0)
    obtain ⟨hstate, hmem, hpend⟩ := enterTstate_shows (hshown.canHost.trans hhost) hd hnext
    exact ⟨hstate, hmem.trans hshown.mem, hpend.trans hshown.pending⟩

theorem exec_thermalReading {s : State} (hon : s.boot.on = true) {d : DieIx} {temps : List Nat} (hlen : temps.length = 8)
    (hpend : (s.stackReading d.val temps).pending = s.pending) :
    Machine.exec (.thermalReading d temps) s = .next (s.stackReading d.val temps) := by
  change done s (if temps.length = 8 then s.stackReading d.val temps else s) = _
  rw [if_pos hlen]
  exact done_kept hon hpend

/-- The end of a grace, before its events. -/
def graceEnded (s : State) (d : Nat) : State := (s.setGrace d [] 0).setCap d true

theorem reg_note (s : State) (x : Dram) (a : Nat) : ({ s with dram := x } : State).reg a = s.reg a := rfl

theorem setCap_reg (s : State) (d : Nat) (on : Bool) (a : Nat) :
    (s.setCap d on).reg a = (s.setMcAll d MC_STAT MC_STAT_CAPPED (b2n on)).reg a :=
  reg_note _ _ a
theorem setGrace_reg (s : State) (d : Nat) (jobs : List Nat) (left a : Nat) :
    (s.setGrace d jobs left).reg a =
      ((s.setMcAll d MC_STAT MC_STAT_GRACE (if jobs.isEmpty then 0 else 1)).setMcAll d MC_GRACE MC_GRACE_LEFT left).reg a :=
  reg_note _ _ a

/-- GRACE clears, and the cap is in force. -/
theorem graceEnded_stat (s : State) (d : Nat) :
    (graceEnded s d).flag (MC_STAT d 0) MC_STAT_GRACE = false ∧ (graceEnded s d).flag (MC_STAT d 0) MC_STAT_CAPPED = true := by
  have hfirst (c : Nat) : MC_STAT d 0 ≠ MC_STAT d (c + 1) := ctlReg_ne_ctl (Nat.succ_ne_zero c).symm d 4
  have hother (c : Nat) : MC_STAT d 0 ≠ MC_GRACE d c := ctlReg_ne (r := 4) (r' := 0x10) (by decide) (by decide) (by decide) d 0 d c
  have hgrace : (graceEnded s d).fld (MC_STAT d 0) MC_STAT_GRACE = 0 := by
    rw [graceEnded, fld_of_reg (setCap_reg _ _ _ _), setMcAll_fld_apart _ _ (by decide) fun _ => .inr (by decide),
      fld_of_reg (setGrace_reg _ _ _ _ _), setMcAll_fld_apart _ _ (by decide) fun c => .inl (hother c),
      setMcAll_fld_first _ _ (by decide) hfirst]
    rfl
  have hcap : (graceEnded s d).fld (MC_STAT d 0) MC_STAT_CAPPED = 1 := by
    rw [graceEnded, fld_of_reg (setCap_reg _ _ _ _), setMcAll_fld_first _ _ (by decide) hfirst]
    rfl
  rw [State.flag, State.flag, hgrace, hcap]
  exact ⟨rfl, rfl⟩

theorem exec_graceLimit {s : State} (hon : s.boot.on = true) {d : DieIx} (hgrace : s.flag (MC_STAT d.val 0) MC_STAT_GRACE = true) :
    Machine.exec (.graceLimit d) s = .next ((graceEnded s d.val).raiseMcAll d.val (2 ^ MC_EVENT_GRACE_END.lo)) := by
  change done s (if s.flag (MC_STAT d.val 0) MC_STAT_GRACE then
    (graceEnded s d.val).raiseMcAll d.val (2 ^ MC_EVENT_GRACE_END.lo) else s) = _
  rw [if_pos hgrace]
  have hended : StackKept d.val s (graceEnded s d.val) := (StackKept.setGrace s [] 0).trans (.setCap _ true)
  exact done_kept hon ((HostKept.raiseMcAll _ _ _).pending.trans hended.pending)

/-- Settles O32: a reading shows the stack its temperature, and an entry into a state writes TSTATE once. -/
theorem theThermalLadderMovesOneStep : Obligations.TheThermalLadderMovesOneStep := by
  unfold Obligations.TheThermalLadderMovesOneStep
  intro s d hon
  refine ⟨fun temps hlen hhost => ?_, fun hgrace => ?_⟩
  · obtain ⟨hstate, hmem, hpend⟩ := stackReading_shows hhost d.isLt temps
    obtain ⟨-, hup, hdown⟩ := nextTstate_near (tstate_lt s d.val) (temps.foldl max 0)
    rw [← hstate] at hup hdown
    exact ⟨_, exec_thermalReading hon hlen hpend, hstate, hup, hdown, hmem⟩
  · have hended : StackKept d.val s (graceEnded s d.val) := (StackKept.setGrace s [] 0).trans (.setCap _ true)
    have hstat := raiseMcAll_reg (graceEnded s d.val) d.val (2 ^ MC_EVENT_GRACE_END.lo) (mcStat_notMem_sumRegs d.isLt)
      fun c => ctlReg_ne (r := 4) (r' := 8) (by decide) (by decide) (by decide) d.val 0 d.val c
    obtain ⟨hgraceFlag, hcapFlag⟩ := graceEnded_stat s d.val
    refine ⟨_, exec_graceLimit hon hgrace, (flag_of_reg hstat _).trans hgraceFlag, (flag_of_reg hstat _).trans hcapFlag, fun c hc => ?_,
      (HostKept.raiseMcAll _ _ _).mem.trans hended.mem⟩
    exact raiseMcAll_flag _ d.isLt hc (by decide) (by decide) (by decide) rfl (by decide)

end Sys2Proof.Ladder
end

section
/-! SUPPORT. Sets of beats, and what the operations of a slice (R219 to R222) leave of the beats that reads see. -/

namespace Sys2Proof.Laws

open Sys2Proof Sys2Proof.Machine Sys2Proof.StepRun

/-! ### sets of numbers -/

theorem mem_setInsert {x k : Nat} {l : List Nat} : x ∈ setInsert k l ↔ x = k ∨ x ∈ l := by
  induction l with
  | nil => simp [setInsert]
  | cons j l ih =>
    rw [setInsert]
    split
    · simp
    · split
      next h => simp [h]
      next => rw [List.mem_cons, ih, List.mem_cons, or_left_comm]

theorem mem_foldl_setInsert {x : Nat} (l : List Nat) {p : List Nat} :
    x ∈ l.foldl (fun p b => setInsert b p) p ↔ x ∈ l ∨ x ∈ p := by
  induction l generalizing p with
  | nil => simp
  | cons b l ih => rw [List.foldl_cons, ih, mem_setInsert, List.mem_cons, or_assoc, or_left_comm]

/-- A burst opens a row and counts in the window of a capped channel. -/
theorem burst_eq (s : State) (a : Nat) : ∃ r b, s.burst a = { s with dram := { s.dram with rows := r, bursts := b } } := by
  obtain ⟨r, hr⟩ : ∃ r, s.openRow a = { s with dram := { s.dram with rows := r } } := ⟨_, rfl⟩
  unfold State.burst
  rw [hr]
  dsimp only
  split <;> exact ⟨_, _, rfl⟩

theorem burst_lines (s : State) (a : Nat) : (s.burst a).dram.lines = s.dram.lines := by
  obtain ⟨r, b, h⟩ := burst_eq s a
  rw [h]

/-! ### beats -/

/-- The beats of line l. -/
theorem mem_beats {l b : Nat} : b ∈ blocksOf 64 (l * 256) 256 ↔ b / 4 = l := by
  rw [mem_blocksOf]
  omega

theorem line_setLine (s : State) (l : Nat) (c : Option CLine) (k : Nat) :
    (s.setLine l c).line k = if k = l then c else s.line k := mapGet_set (fun _ => none) k l c s.dram.lines

theorem lostAt_eq (s : State) (b : Nat) : s.lostAt b = (s.dram.lost.contains b && (s.line (b / 4)).isNone) := rfl

/-- One beat reads poisoned. -/
theorem beatBad_one (s : State) (b : Nat) : s.beatBad (64 * b) 64 = (s.poison.contains b || s.lostAt b) := by
  have hbeat : blocksOf 64 (64 * b) 64 = [b] := by
    have hn : (64 * b + 64 - 1) / 64 - 64 * b / 64 + 1 = 1 := by omega
    have hb : 64 * b / 64 = b := by omega
    unfold blocksOf
    rw [if_neg (by decide), hn, hb]
    rfl
  rw [State.beatBad, hbeat, List.any_cons, List.any_nil, Bool.or_false]

/-- The same beats are poisoned, lost and held by a slice. -/
structure BeatsKept (s t : State) : Prop where
  poison : t.poison = s.poison
  lost : t.dram.lost = s.dram.lost
  held : ∀ l, (t.line l).isNone = (s.line l).isNone

namespace BeatsKept

variable {s t u : State}

theorem refl (s : State) : BeatsKept s s := ⟨rfl, rfl, fun _ => rfl⟩
theorem trans (h : BeatsKept s t) (g : BeatsKept t u) : BeatsKept s u :=
  ⟨g.poison.trans h.poison, g.lost.trans h.lost, fun l => (g.held l).trans (h.held l)⟩
theorem of_onlyRegs (h : onlyRegs s t) : BeatsKept s t := by
  have hd := onlyRegs_dram h
  refine ⟨onlyRegs_poison h, by rw [hd], fun l => ?_⟩
  rw [State.line, hd, State.line]

theorem lostAt (h : BeatsKept s t) (b : Nat) : t.lostAt b = s.lostAt b := by
  have hheld := h.held (b / 4)
  unfold State.line at hheld
  rw [State.lostAt, State.lostAt, h.lost, hheld]
theorem beatBad (h : BeatsKept s t) (a n : Nat) : t.beatBad a n = s.beatBad a n := by
  simp only [State.beatBad, h.poison, h.lostAt]

theorem burst (s : State) (a : Nat) : BeatsKept s (s.burst a) := by
  obtain ⟨r, b, h⟩ := burst_eq s a
  rw [h]
  exact ⟨rfl, rfl, fun _ => rfl⟩
theorem useTick (s : State) : BeatsKept s s.useTick.2 := ⟨rfl, rfl, fun _ => rfl⟩

/-- A resident line is replaced. -/
theorem setLine (s : State) {l : Nat} (h : (s.line l).isNone = false) (c : CLine) : BeatsKept s (s.setLine l (some c)) where
  poison := rfl
  lost := rfl
  held := fun k => by
    rw [line_setLine]
    split
    next hk => rw [hk, h]; rfl
    next => rfl

theorem touchLine (s : State) (l hint : Nat) : BeatsKept s (s.touchLine l hint) := by
  unfold State.touchLine
  split
  next => exact refl s
  next c hc =>
    split
    · exact refl s
    · exact (useTick s).trans (setLine _ (by rw [show s.useTick.2.line l = s.line l from rfl, hc]; rfl) _)

end BeatsKept

/-- A beat reads poisoned exactly where it did: a fill holds poisoned data where DRAM has lost it (R216). -/
def BeatsRead (s t : State) : Prop := ∀ b, t.beatBad (64 * b) 64 = s.beatBad (64 * b) 64

theorem loadLine256_line (s : State) (l : Nat) (k : Bool) (u : Nat) :
    ∃ c, (s.loadLine256 l k u).dram.lines = ((s.burst (l * 256)).setLine l (some c)).dram.lines ∧
      (s.loadLine256 l k u).dram.lost = s.dram.lost ∧
      (s.loadLine256 l k u).poison = ((blocksOf 64 (l * 256) 256).filter s.lostAt).foldl (fun p b => setInsert b p) s.poison := by
  have hburst := BeatsKept.burst s (l * 256)
  unfold State.loadLine256
  dsimp only
  generalize s.burst (l * 256) = t at hburst ⊢
  rw [← hburst.poison, ← hburst.lost]
  split
  next hgone => exact ⟨_, rfl, rfl, by rw [List.isEmpty_iff.1 hgone]; rfl⟩
  next => exact ⟨_, rfl, rfl, rfl⟩

theorem loadLine256_beats (s : State) (l : Nat) (k : Bool) (u : Nat) : BeatsRead s (s.loadLine256 l k u) := by
  intro b
  obtain ⟨c, hlines, hlost, hpoison⟩ := loadLine256_line s l k u
  have hline : (s.loadLine256 l k u).line (b / 4) = if b / 4 = l then some c else s.line (b / 4) := by
    rw [State.line, hlines]
    exact (line_setLine _ l (some c) (b / 4)).trans (by rw [State.line, burst_lines, State.line])
  have hbad : (s.loadLine256 l k u).poison.contains b = (decide (b / 4 = l) && s.lostAt b || s.poison.contains b) := by
    rw [hpoison, Bool.eq_iff_iff]
    simp [mem_foldl_setInsert, mem_beats]
  have hat : (s.loadLine256 l k u).lostAt b = (!decide (b / 4 = l) && s.lostAt b) := by
    rw [lostAt_eq, lostAt_eq, hlost, hline]
    by_cases hb : b / 4 = l <;> simp [hb]
  rw [beatBad_one, beatBad_one, hbad, hat]
  by_cases hb : b / 4 = l <;> simp [hb, Bool.or_comm]

end Sys2Proof.Laws
end

section
/-! A flush of a controller's slices (R225, R385), and O33. -/

namespace Sys2Proof.Flush

open Sys2Proof Sys2Proof.Machine Sys2Proof.Laws Sys2Proof.Control

/-! ### FLUSH is written -/

theorem dcCtrl_eq (d c : Nat) : DC_CTRL d c = dieBase d + (0x10000 + c * 0x1000 + 0x100) := by
  unfold DC_CTRL
  omega

theorem rowAt_dcCtrl {d c : Nat} (hd : d < 16) (hc : c < 8) : rowAt (DC_CTRL d c) = mcRegs.find? (fun r => r.covers 0x100) := by
  have hlt : ¬ bar4Base ≤ dieBase d + (0x10000 + c * 0x1000 + 0x100) := by unfold bar4Base dieBase; omega
  have hmod : (dieBase d + (0x10000 + c * 0x1000 + 0x100)) % 0x100000 = 0x10000 + c * 0x1000 + 0x100 := by unfold dieBase; omega
  have hdiv : (dieBase d + (0x10000 + c * 0x1000 + 0x100)) / 0x100000 = 16 + d := by unfold dieBase; omega
  have hrow : (0x10000 + c * 0x1000 + 0x100 - 0x10000) % 0x1000 = 0x100 := by omega
  have harea : regArea (DC_CTRL d c) = some (0x100, mcRegs) := by
    rw [dcCtrl_eq]
    unfold regArea
    simp only [if_neg hlt, hmod, hdiv]
    split
    iterate 7 · omega
    rw [if_pos (by omega), if_neg (by omega), if_pos (by omega), hrow]
  rw [rowAt, harea]
  rfl

theorem rw_dcCtrl {d c : Nat} (hd : d < 16) (hc : c < 8) : accMask .rw (DC_CTRL d c) = 0x11F :=
  accMask_of_row (rowAt_dcCtrl hd hc) .rw

/-- FLUSH written 1 starts the walk. -/
theorem dieEffect_dcCtrl (s : State) (d : Nat) {c : Nat} (hc : c < 8) :
    s.dieEffect d (0x10000 + c * 0x1000 + 0x100) (2 ^ 8) (2 ^ 8) = s.startFlush d c := by
  have hg : gateUnit d (0x10000 + c * 0x1000 + 0x100) = none := by
    unfold gateUnit
    dsimp only
    rw [if_neg (by omega), if_pos (by omega)]
  have hm : (0x10000 + c * 0x1000 + 0x100) % 0x1000 = 0x100 := by omega
  have hdiv : (0x10000 + c * 0x1000 + 0x100 - 0x10000) / 0x1000 = c := by omega
  unfold State.dieEffect State.ungate
  rw [hg]
  dsimp only
  rw [if_pos (by omega), hm, hdiv, if_neg (by decide)]
  rfl

theorem dcFlush_written {s : State} {q : Requester} (hq : arrives s q) {d c : Nat} (hd : d < 16) (hc : c < 8)
    (hon : s.regOn (DC_CTRL d c) = true) :
    s.fieldPut q (DC_CTRL d c) (2 ^ DC_CTRL_FLUSH.lo) (2 ^ DC_CTRL_FLUSH.lo) =
      (s.setReg (DC_CTRL d c) (maskWrite (2 ^ 8) (s.reg (DC_CTRL d c)) (2 ^ 8))).startFlush d c := by
  have hm : 2 ^ DC_CTRL_FLUSH.lo &&& accMask .rw (DC_CTRL d c) = 2 ^ 8 := by rw [rw_dcCtrl hd hc]; rfl
  have hmod : (0x10000 + c * 0x1000 + 0x100) % 0x1000 = 0x100 := by omega
  have hbit : bit (maskWrite (2 ^ 8) (s.reg (DC_CTRL d c)) (2 ^ 8)) DC_CTRL_FLUSH.lo = true := by
    rw [bit_eq_testBit, maskWrite_bit _ _ (by decide) (by decide)]
    decide
  have ht : takenMask (DC_CTRL d c) (2 ^ 8) (maskWrite (2 ^ 8) (s.reg (DC_CTRL d c)) (2 ^ 8)) = 2 ^ 8 := by
    rw [takenMask, dcCtrl_eq, dieOf_die hd (by omega), ← dcCtrl_eq]
    dsimp only
    rw [if_neg (by omega), hbit, if_neg (by simp)]
  rw [fieldPut_arrives hq hon, rwPut_own (dcCtrl_eq d c ▸ ownReg_die s hd (by omega)) (by rw [hm]; decide) (by rw [hm]; exact ht), hm]
  conv_lhs => rw [dcCtrl_eq, regEffect_die _ hd (by omega), show 2 ^ DC_CTRL_FLUSH.lo = 2 ^ 8 from rfl, dieEffect_dcCtrl _ d hc, ← dcCtrl_eq]

/-! ### the walk -/

/-- Nothing but memory, its poison and the slices' records of lines, rows, windows and lost beats differs. -/
def walkOnly (s t : State) : Prop :=
  t = { s with mem := t.mem, poison := t.poison, dram := { s.dram with
    lines := t.dram.lines, rows := t.dram.rows, bursts := t.dram.bursts, lost := t.dram.lost } }

theorem walkOnly_trans {s t u : State} (h : walkOnly s t) (g : walkOnly t u) : walkOnly s u := by
  unfold walkOnly at *
  rw [g, h]

theorem burst_walkOnly (s : State) (a : Nat) : walkOnly s (s.burst a) := by
  obtain ⟨r, b, h⟩ := burst_eq s a
  rw [h]
  rfl
theorem dropLine_walkOnly (s : State) (l : Nat) (c : CLine) : walkOnly s (s.dropLine l c) := by
  unfold State.dropLine State.restoreBelow
  split <;> rfl

theorem evictLine_walkOnly (s : State) (l : Nat) (c : CLine) : walkOnly s (s.evictLine l c) := by
  unfold State.evictLine
  split
  · exact walkOnly_trans (burst_walkOnly s _) rfl
  · exact dropLine_walkOnly s l c

/-- A line that leaves its slice is not resident, and no other line changes. -/
theorem evictLine_lines (s : State) (l : Nat) (c : CLine) :
    (s.evictLine l c).dram.lines = mapSet (fun _ => none) l none s.dram.lines := by
  unfold State.evictLine
  split
  · exact congrArg (mapSet (fun _ => none) l none) (burst_lines s _)
  · exact dropLine_lines s l c

/-- Line l lies in a slice of the controller. -/
def ofCtl (d c l : Nat) : Prop := stackOf (gchan (l * 256)) = d ∧ ctlOf (gchan (l * 256)) = c

/-- The walk over the lines of a list. -/
def walkLines (d c : Nat) (es : List (Nat × Option CLine)) (s : State) : State :=
  es.foldl (fun s e =>
    if stackOf (gchan (e.1 * 256)) = d ∧ ctlOf (gchan (e.1 * 256)) = c then
      match e.2 with
      | some cl => s.evictLine e.1 cl
      | none => s
    else s) s

theorem walkFlush_eq (s : State) (d c : Nat) : s.walkFlush d c = walkLines d c s.dram.lines s := rfl

theorem walkLines_only (d c : Nat) (es : List (Nat × Option CLine)) (s : State) : walkOnly s (walkLines d c es s) := by
  refine List.foldlRecOn es _ (motive := fun t => walkOnly s t) rfl fun t h e _ => ?_
  split
  · split
    · exact walkOnly_trans h (evictLine_walkOnly t _ _)
    · exact h
  · exact h

/-- A line of the controller is gone after the walk where it was not resident before or was walked over. -/
theorem walkLines_line {d c l : Nat} (hl : ofCtl d c l) (es : List (Nat × Option CLine)) (s : State)
    (h : s.line l = none ∨ ∃ cl, (l, some cl) ∈ es) : (walkLines d c es s).line l = none := by
  induction es generalizing s with
  | nil => exact h.resolve_right (by simp)
  | cons e es ih =>
    obtain ⟨k, v⟩ := e
    rw [walkLines, List.foldl_cons]
    refine ih _ ?_
    have hother (hk : l ≠ k) : s.line l = none ∨ ∃ cl, (l, some cl) ∈ es :=
      h.imp_right fun ⟨cl, hcl⟩ => ⟨cl, by simpa [hk] using hcl⟩
    split
    next hctl =>
      cases v with
      | none => exact h.imp_right fun ⟨cl, hcl⟩ => ⟨cl, by simpa using hcl⟩
      | some cl =>
        dsimp only [State.line]
        rw [evictLine_lines, mapGet_set]
        by_cases hk : l = k
        · exact .inl (if_pos hk)
        · rw [if_neg hk]
          exact hother hk
    next hctl => exact hother fun hk => hctl (hk ▸ hl)

theorem walkFlush_line (s : State) {d c l : Nat} (hl : ofCtl d c l) : (s.walkFlush d c).line l = none := by
  rw [walkFlush_eq]
  refine walkLines_line hl _ s ?_
  rcases hv : s.line l with _ | cl
  · exact .inl rfl
  · refine .inr ⟨cl, ?_⟩
    have h := mapGet_default_or_mem (fun _ => none) l s.dram.lines
    rw [show mapGet (fun _ => none) l s.dram.lines = some cl from hv] at h
    exact h.resolve_left (by simp)

/-! ### the answer to DIE_FLUSH -/

/-- A register below BAR4 that is no summary is no part of an answer of a die. -/
theorem d2hPush_reg (s : State) (d w : Nat) {a : Nat} (hlt : a < bar4Base) (hs : ∀ b, a ∉ sumRegs b) :
    (s.d2hPush d w).reg a = s.reg a := by
  have hbox (r : Nat) : a ≠ bar4Base + r := by omega
  have hstat : a ≠ D2H_STAT d := by unfold D2H_STAT; rw [Nat.add_assoc, Nat.add_assoc]; exact hbox _
  have hdata : a ≠ D2H_DATA d := by unfold D2H_DATA; rw [Nat.add_assoc, Nat.add_assoc]; exact hbox _
  have htiming : a ≠ H2D_STAT d := by unfold H2D_STAT; rw [Nat.add_assoc, Nat.add_assoc]; exact hbox _
  have event (t : State) (f : Fld) : (t.raise MBX_EVENT f).reg a = t.reg a := raise_reg t f (hs _) (hbox _)
  have hput (t : State) : (t.d2hPut d w).reg a = t.reg a := by
    have hfull : ((t.setReg (D2H_DATA d) w).setFlag (D2H_STAT d) D2H_STAT_FULL true).reg a = t.reg a :=
      (reg_setFlag_other _ hstat _ _).trans (reg_setReg_other t hdata w)
    unfold State.d2hPut
    dsimp only
    split
    · split
      · exact hfull
      · exact (fire_reg _ (by decide) (pba_sum (hs 0))).trans hfull
    · split
      · exact reg_setFld_other _ hstat _ _
      · exact (event _ _).trans (reg_setFlag_other _ hstat _ _)
  unfold State.d2hPush
  split
  · exact (event _ _).trans (reg_setFld_other _ (hbox _) _ _)
  · exact (hput _).trans (reg_setFlag_other s htiming _ _)

theorem dieFlushAnswer_kept (s : State) (d : Nat) : (s.dieFlushAnswer d).dram = s.dram ∧ (s.dieFlushAnswer d).pending = s.pending ∧
    ∀ a, a < bar4Base → (∀ b, a ∉ sumRegs b) → (s.dieFlushAnswer d).reg a = s.reg a := by
  unfold State.dieFlushAnswer State.dieAnswer
  split
  · refine List.foldlRecOn _ _ (motive := fun (t : State) => t.dram = s.dram ∧ t.pending = s.pending ∧
      ∀ a, a < bar4Base → (∀ b, a ∉ sumRegs b) → t.reg a = s.reg a) ⟨rfl, rfl, fun _ _ _ => rfl⟩ fun t ⟨hdram, hpend, hreg⟩ _ _ => ?_
    have hpush := (HeldDropped.d2hPush t d (ansWord stAccepted 0)).rest
    refine ⟨?_, ?_, fun a hlt hs => (d2hPush_reg t d _ hlt hs).trans (hreg a hlt hs)⟩
    · rw [hpush]
      exact hdram
    · rw [hpush]
      exact hpend
  · exact ⟨rfl, rfl, fun _ _ _ => rfl⟩

/-- A flag reads 0, and walk n is no more. -/
def flushEnded (s : State) (a n : Nat) : State :=
  let t := s.setFlag a DC_CTRL_FLUSH false
  { t with dram := { t.dram with flush := setErase n t.dram.flush } }

theorem flushEnded_pending (s : State) (a n : Nat) : (flushEnded s a n).pending = s.pending := rfl
theorem flushEnded_line (s : State) (a n l : Nat) : (flushEnded s a n).line l = s.line l := rfl
theorem flushEnded_flag (s : State) (a n : Nat) : (flushEnded s a n).flag a DC_CTRL_FLUSH = false :=
  flag_setFlag_same s _ false (by decide) rfl
theorem flushEnded_flush (s : State) (a n : Nat) : n ∉ (flushEnded s a n).dram.flush :=
  fun h => by simpa using (List.mem_filter.1 h).2

/-- A flag reads 1, and walk n runs. -/
def flushBegun (s : State) (a n : Nat) : State :=
  let t := s.setFlag a DC_CTRL_FLUSH true
  { t with dram := { t.dram with flush := setInsert n t.dram.flush } }

theorem walkFlush_pending (s : State) (d c : Nat) : (s.walkFlush d c).pending = s.pending := by
  rw [walkFlush_eq, walkLines_only d c s.dram.lines s]

theorem exec_dcFlushDone {s : State} (hon : s.boot.on = true) {d : DieIx} {c : CtlIx} (hmem : 8 * d.val + c.val ∈ s.dram.flush)
    (hcool : s.tstate d.val ≠ 3) :
    Machine.exec (.dcFlushDone d c) s = .next ((flushEnded (s.walkFlush d.val c.val) (DC_CTRL d.val c.val) (8 * d.val + c.val)).dieFlushAnswer d.val) := by
  change done s (if s.dram.flush.contains (8 * d.val + c.val) && s.tstate d.val != 3 then
    (flushEnded (s.walkFlush d.val c.val) (DC_CTRL d.val c.val) (8 * d.val + c.val)).dieFlushAnswer d.val else s) = _
  rw [if_pos (by simp [hmem, hcool])]
  refine done_kept hon ?_
  rw [(dieFlushAnswer_kept _ _).2.1, flushEnded_pending, walkFlush_pending]

theorem flushBegun_shows (s : State) (a n : Nat) : (flushBegun s a n).flag a DC_CTRL_FLUSH = true ∧ n ∈ (flushBegun s a n).dram.flush ∧
    (flushBegun s a n).mem = s.mem ∧ (flushBegun s a n).pending = s.pending ∧ regsKept s (flushBegun s a n) [a] :=
  ⟨flag_setFlag_same s _ true (by decide) rfl, mem_setInsert.2 (.inl rfl), rfl, rfl, regsKept_setReg s List.mem_cons_self _⟩
theorem startFlush_eq (s : State) (d c : Nat) : s.startFlush d c = flushBegun s (DC_CTRL d c) (8 * d + c) := rfl

/-- The word of DC_CTRL is written, and the walk starts. -/
theorem flushWritten_shows (s : State) (a n v : Nat) :
    let t := flushBegun (s.setReg a v) a n
    t.flag a DC_CTRL_FLUSH = true ∧ n ∈ t.dram.flush ∧ t.mem = s.mem ∧ t.pending = s.pending ∧ regsKept s t [a] := by
  obtain ⟨hflag, hflush, hmem, hpend, hregs⟩ := flushBegun_shows (s.setReg a v) a n
  exact ⟨hflag, hflush, hmem, hpend, regsKept_trans (regsKept_setReg s List.mem_cons_self _) hregs⟩

/-- Settles O33: FLUSH is a bit of its controller's word, and the walk drops each line that was resident. -/
theorem aFlushLeavesNoLineOfItsController : Obligations.AFlushLeavesNoLineOfItsController := by
  unfold Obligations.AFlushLeavesNoLineOfItsController
  intro s d c hon
  refine ⟨fun q hq hreg => ?_, fun hmem hcool => ?_⟩
  · obtain ⟨hflag, hflush, hmem, hpend, hregs⟩ := flushWritten_shows s (DC_CTRL d.val c.val) (8 * d.val + c.val)
      (maskWrite (2 ^ 8) (s.reg (DC_CTRL d.val c.val)) (2 ^ 8))
    have hwritten := (dcFlush_written hq d.isLt c.isLt hreg).trans (startFlush_eq _ _ _)
    exact ⟨_, (congrArg (done s) hwritten).trans (done_kept hon hpend), hflag, hflush, hmem, hregs⟩
  · obtain ⟨hdram, -, hkept⟩ := dieFlushAnswer_kept (flushEnded (s.walkFlush d.val c.val) (DC_CTRL d.val c.val) (8 * d.val + c.val)) d.val
    have hreg := hkept (DC_CTRL d.val c.val) (by unfold DC_CTRL dieBase bar4Base; omega)
      (ctlReg_notMem_sumRegs d.isLt c.isLt (r := 0x100) (by decide))
    refine ⟨_, exec_dcFlushDone hon hmem hcool, (flag_of_reg hreg _).trans (flushEnded_flag _ _ _), ?_, fun l hd hc => ?_⟩
    · rw [hdram]
      exact flushEnded_flush _ _ _
    · have hline : (flushEnded (s.walkFlush d.val c.val) (DC_CTRL d.val c.val) (8 * d.val + c.val)).line l = none :=
        (flushEnded_line _ _ _ l).trans (walkFlush_line s ⟨hd, hc⟩)
      rw [State.line, hdram]
      exact hline

end Sys2Proof.Flush
end

section
/-! Reads of a line of the die cache (R219, R221, R222), and O28. -/

namespace Sys2Proof.CacheLines

open Sys2Proof Sys2Proof.Machine Sys2Proof.Laws Sys2Proof.StepRun

/-! ### a miss with room -/

/-- A way is free for a line, and a KEEP fill that finds no room for its mark has told so. -/
def wayMade (s : State) (l : Nat) (keep : Bool) : State :=
  if keep && !(keep && (s.makeWay l).keepRoom l) then
    (s.makeWay l).raise (MC_EVENT (stackOf (gchan (l * 256))) (ctlOf (gchan (l * 256)))) MC_EVENT_KEEP_DENY
  else s.makeWay l

theorem fillLine_eq (s : State) (l : Nat) (keep : Bool) : s.fillLine l keep =
    (wayMade s l keep).useTick.2.loadLine256 l (keep && (s.makeWay l).keepRoom l) (wayMade s l keep).dram.tick := rfl

theorem wayMade_onlyRegs (s : State) (l : Nat) (keep : Bool) : onlyRegs (s.makeWay l) (wayMade s l keep) :=
  onlyRegs_ite (onlyRegs_raiseMask _ _ _) (onlyRegs_refl _)

/-- A way is free while the set has one that holds no line. -/
theorem makeWay_room {s : State} {l : Nat} (h : (s.setLines l).length < 16) : s.makeWay l = s := by
  have hv : s.victim l = none := if_pos h
  rw [State.makeWay, hv]

theorem fillLine_mem (s : State) (l : Nat) (keep : Bool) : (s.fillLine l keep).mem = s.mem := by
  rw [fillLine_eq, loadLine256_mem]
  exact (onlyRegs_mem (wayMade_onlyRegs s l keep)).trans (LineRead.makeWay s l).mem

theorem fillLine_line (s : State) (l : Nat) (keep : Bool) : ((s.fillLine l keep).line l).isSome = true := by
  rw [fillLine_eq]
  obtain ⟨c, hlines, -, -⟩ := loadLine256_line (wayMade s l keep).useTick.2 l (keep && (s.makeWay l).keepRoom l)
    (wayMade s l keep).dram.tick
  rw [State.line, hlines]
  exact congrArg Option.isSome ((line_setLine _ l (some c) l).trans (if_pos rfl))

theorem fillLine_beats {s : State} {l : Nat} (h : (s.setLines l).length < 16) (keep : Bool) : BeatsRead s (s.fillLine l keep) := by
  have hway : BeatsKept s (wayMade s l keep).useTick.2 := by
    have hregs := wayMade_onlyRegs s l keep
    rw [makeWay_room h] at hregs
    exact (BeatsKept.of_onlyRegs hregs).trans (.useTick _)
  intro b
  rw [fillLine_eq, loadLine256_beats, hway.beatBad]

/-! ### what a read returns -/

/-- What a slice does with a read of a resident line. -/
def readHit (s : State) (hint a : Nat) (c : CLine) : State :=
  if hint = 3 then (s.countHit a).dropLine (a / 256) c else (s.countHit a).touchLine (a / 256) hint
/-- What it does with one that misses. -/
def readMiss (s : State) (hint a : Nat) : State :=
  if hint = 2 ∨ hint = 3 then (s.countMiss a).burst a else (s.countMiss a).fillLine (a / 256) (hint = 1)

section
variable {s : State} {a n : Nat}

theorem dcRange_dram (h : dcRange a n = true) : regionOf a = .dram := by
  simp only [dcRange, Bool.and_eq_true, decide_eq_true_eq] at h
  obtain ⟨⟨hn, hle⟩, -⟩ := h
  exact if_pos (by omega)

/-- A served read of DRAM returns what memory holds. -/
theorem memRead_served (ha : regionOf a = .dram) (h : s.served a n = true) : s.memRead a n = (getBytes s.mem a n, s.beatBad a n) := by
  have hpage : s.pageBad a n = false := by
    rw [State.pageBad, ha]
    rfl
  rw [State.memRead, h, hpage, Bool.not_true, Bool.false_or, Bool.or_false]

theorem countHit_onlyRegs (s : State) (a : Nat) : onlyRegs s (s.countHit a) := onlyRegs_bump s _ 1
theorem countMiss_onlyRegs (s : State) (a : Nat) : onlyRegs s (s.countMiss a) := onlyRegs_bump s _ 1
theorem countHit_lineRead (s : State) (a : Nat) : LineRead s (s.countHit a) := .counted s a (.inl rfl)
theorem countMiss_lineRead (s : State) (a : Nat) : LineRead s (s.countMiss a) := .counted s a (.inr rfl)

theorem onlyRegs_line {t : State} (h : onlyRegs s t) (l : Nat) : t.line l = s.line l := by
  rw [State.line, onlyRegs_dram h, State.line]

/-- Counting an access leaves what it returns. -/
theorem memRead_counted {t : State} (ho : onlyRegs s t) (hr : LineRead s t) (ha : regionOf a = .dram) (h : s.served a n = true) :
    t.memRead a n = (getBytes s.mem a n, s.beatBad a n) := by
  have hserved : t.served a n = true := by
    rw [served_dram ha] at h ⊢
    rw [Bool.and_eq_true, List.all_eq_true] at h ⊢
    exact ⟨h.1, fun g hg => (hr.chans _ (Nat.mod_lt _ (by decide))).trans (h.2 g hg)⟩
  rw [memRead_served ha hserved, onlyRegs_mem ho, (BeatsKept.of_onlyRegs ho).beatBad]

theorem dcLook_hit (ha : regionOf a = .dram) (h : s.served a n = true) {c : CLine} (hc : s.line (a / 256) = some c) (hint : Nat) :
    s.dcLook hint a n .none = ((getBytes s.mem a n, s.beatBad a n), readHit s hint a c) := by
  have hline := (onlyRegs_line (countHit_onlyRegs s a) (a / 256)).trans hc
  have hread := memRead_counted (countHit_onlyRegs s a) (countHit_lineRead s a) ha h
  unfold State.dcLook readHit
  simp only [hc, State.lineError, hline, hread]

theorem dcLook_miss (ha : regionOf a = .dram) (h : s.served a n = true) (hc : s.line (a / 256) = none) (hint : Nat) :
    s.dcLook hint a n .none = ((getBytes s.mem a n, s.beatBad a n), readMiss s hint a) := by
  have hread := memRead_counted (countMiss_onlyRegs s a) (countMiss_lineRead s a) ha h
  unfold State.dcLook readMiss
  simp only [hc, hread]

/-- A miss takes its own burst, and at most that of a victim. -/
theorem missBursts_le (s : State) (l : Nat) (fill : Bool) : s.missBursts l fill ≤ 2 := by
  unfold State.missBursts
  split
  next c _ => cases c.dirty <;> decide
  next => decide

theorem burstSpent_false {m k : Nat} (h : s.burstSpent a k = false) (hm : m ≤ k) : s.burstSpent a m = false := by
  unfold State.burstSpent at h ⊢
  simp only [Bool.and_eq_false_imp, decide_eq_false_iff_not] at h ⊢
  intro hcap
  have := h hcap
  omega

/-- A request that need not wait is served. -/
theorem dcRead_served (h : s.served a n = true) (hroom : (s.line (a / 256)).isSome = true ∨ s.burstSpent a 2 = false) (hint : Nat) :
    s.dcRead hint a n .none = (s.dcLook hint a n .none).2.emit (.memData (s.dcLook hint a n .none).1.1 (s.dcLook hint a n .none).1.2) := by
  have hwait : ((s.line (a / 256)).isNone && s.burstSpent a (s.missBursts (a / 256) (hint < 2))) = false := by
    rcases hroom with hline | hspent
    · rw [Option.isNone_eq_false_iff.2 hline, Bool.false_and]
    · rw [burstSpent_false hspent (missBursts_le s _ _), Bool.and_false]
  rw [State.dcRead, h, hwait]
  rfl

/-- What a read of a resident line leaves. -/
theorem readHit_shows (c : CLine) (hint : Nat) :
    let t := readHit s hint a c
    (hint = 3 → t.line (a / 256) = none) ∧ (hint ≠ 3 → t.mem = s.mem ∧ BeatsKept s t) := by
  have hcount := countHit_onlyRegs s a
  unfold readHit
  refine ⟨fun h3 => ?_, fun h3 => ?_⟩
  · rw [if_pos h3, State.line, dropLine_lines, mapGet_set_same]
  · rw [if_neg h3]
    exact ⟨(touchLine_mem _ _ _).trans (onlyRegs_mem hcount), (BeatsKept.of_onlyRegs hcount).trans (.touchLine _ _ _)⟩

/-- What a read that misses leaves, once it is counted. -/
theorem missed_shows {t : State} (ho : onlyRegs s t) (hc : s.line (a / 256) = none) {hint : Nat} (h4 : hint < 4) :
    let u := if hint = 2 ∨ hint = 3 then t.burst a else t.fillLine (a / 256) (hint = 1)
    (hint = 3 → u.line (a / 256) = none) ∧ (hint < 2 → (u.line (a / 256)).isSome = true) ∧ u.mem = s.mem ∧
      ((s.setLines (a / 256)).length < 16 → BeatsRead s u) := by
  have hkept := BeatsKept.of_onlyRegs ho
  dsimp only
  split
  next hpass =>
    have hburst := hkept.trans (.burst t a)
    have hnone : (t.burst a).line (a / 256) = none := by
      rw [State.line, burst_lines]
      exact (onlyRegs_line ho _).trans hc
    exact ⟨fun _ => hnone, fun h2 => by omega, (burst_mem t a).trans (onlyRegs_mem ho), fun _ b => hburst.beatBad _ _⟩
  next hfill =>
    have hsets : t.setLines (a / 256) = s.setLines (a / 256) := by
      rw [State.setLines, onlyRegs_dram ho, State.setLines]
    refine ⟨fun h3 => absurd (.inr h3) hfill, fun _ => fillLine_line _ _ _, (fillLine_mem _ _ _).trans (onlyRegs_mem ho), fun hroom b => ?_⟩
    rw [← hsets] at hroom
    rw [fillLine_beats hroom, hkept.beatBad]

/-- What any read of a line leaves, by its hint. -/
theorem dcLook_shows (ha : regionOf a = .dram) (h : s.served a n = true) {hint : Nat} (h4 : hint < 4) :
    let t := (s.dcLook hint a n .none).2
    (hint = 3 → t.line (a / 256) = none) ∧ (hint < 2 → (t.line (a / 256)).isSome = true) ∧
      (hint ≠ 3 → t.mem = s.mem ∧ ((s.line (a / 256)).isSome = true ∨ (s.setLines (a / 256)).length < 16 → BeatsRead s t)) := by
  rcases hc : s.line (a / 256) with _ | c
  · obtain ⟨hdrop, hfill, hmem, hbeats⟩ := missed_shows (countMiss_onlyRegs s a) hc h4
    rw [dcLook_miss ha h hc]
    exact ⟨hdrop, hfill, fun _ => ⟨hmem, fun hroom => hbeats (hroom.resolve_left (by simp))⟩⟩
  · obtain ⟨hdrop, hkeep⟩ := readHit_shows (s := s) (a := a) c hint
    rw [dcLook_hit ha h hc]
    refine ⟨hdrop, fun h2 => ?_, fun h3 => ⟨(hkeep h3).1, fun _ b => (hkeep h3).2.beatBad _ _⟩⟩
    have hheld := (hkeep (by omega)).2.held (a / 256)
    rw [hc] at hheld
    exact Option.isNone_eq_false_iff.1 hheld

end

/-- A read instruction of a hint, as every one of the four is. -/
theorem read_shows {s : State} {a n hint : Nat} {c : Instr} (hon : s.boot.on = true) (hrange : dcRange a n = true)
    (h : s.served a n = true) (hroom : (s.line (a / 256)).isSome = true ∨ s.burstSpent a 2 = false) (h4 : hint < 4)
    (hexec : Machine.exec c s = done s (if dcRange a n then s.dcRead hint a n .none else s)) :
    ∃ t, Machine.exec c s = .next t ∧ t.out.head? = some (.memData (getBytes s.mem a n) (s.beatBad a n)) ∧
      (hint = 3 → t.line (a / 256) = none) ∧ (hint < 2 → (t.line (a / 256)).isSome = true) ∧
      (hint ≠ 3 → t.mem = s.mem ∧ ((s.line (a / 256)).isSome = true ∨ (s.setLines (a / 256)).length < 16 →
        ∀ b, t.beatBad (64 * b) 64 = s.beatBad (64 * b) 64)) := by
  have ha := dcRange_dram hrange
  have hpend := (MemSide.dcLook s hint a n).pending
  have hvalue : (s.dcLook hint a n .none).1 = (getBytes s.mem a n, s.beatBad a n) := by
    rcases hc : s.line (a / 256) with _ | cl
    · rw [dcLook_miss ha h hc]
    · rw [dcLook_hit ha h hc]
  have hshows := dcLook_shows ha h h4
  rw [if_pos hrange, dcRead_served h hroom, hvalue] at hexec
  generalize (s.dcLook hint a n .none).2 = t at hexec hpend hshows
  exact ⟨_, hexec.trans (done_kept hon hpend), rfl, hshows⟩

/-- Settles O28: the four reads are one, with their hints 0 to 3. -/
theorem cachedReadsReturnWhatMemoryHolds : Obligations.CachedReadsReturnWhatMemoryHolds := by
  unfold Obligations.CachedReadsReturnWhatMemoryHolds
  intro s a n c hon hrange h hroom hc
  simp only [List.mem_cons, List.not_mem_nil, or_false] at hc
  rcases hc with rfl | rfl | rfl | rfl
  · obtain ⟨t, hexec, hout, -, hfill, hkeep⟩ := read_shows hon hrange h hroom (hint := 0) (c := .dcReadNormal a n .none) (by decide) rfl
    exact ⟨t, hexec, hout, fun he => (nomatch he), fun _ => hfill (by decide), fun _ => hkeep (by decide)⟩
  · obtain ⟨t, hexec, hout, -, hfill, hkeep⟩ := read_shows hon hrange h hroom (hint := 1) (c := .dcReadKeep a n .none) (by decide) rfl
    exact ⟨t, hexec, hout, fun he => (nomatch he), fun _ => hfill (by decide), fun _ => hkeep (by decide)⟩
  · obtain ⟨t, hexec, hout, -, -, hkeep⟩ := read_shows hon hrange h hroom (hint := 2) (c := .dcReadStream a n .none) (by decide) rfl
    exact ⟨t, hexec, hout, fun he => (nomatch he), fun he => (nomatch he), fun _ => hkeep (by decide)⟩
  · obtain ⟨t, hexec, hout, hdrop, -, -⟩ := read_shows hon hrange h hroom (hint := 3) (c := .dcReadLastuse a n .none) (by decide) rfl
    exact ⟨t, hexec, hout, fun _ => hdrop rfl, fun he => (nomatch he), fun he => absurd rfl he⟩

end Sys2Proof.CacheLines
end

section
/-! Writes of a line of the die cache (R214, R217, R221, R222), and O29. -/

namespace Sys2Proof.CacheLines

open Sys2Proof Sys2Proof.Machine Sys2Proof.Laws Sys2Proof.StepRun

section
variable {s : State} {a n : Nat}

theorem beatLost_kept {t : State} (h : BeatsKept s t) : t.beatLost a n = s.beatLost a n := by
  rw [State.beatLost, State.beatLost, funext h.lostAt]

/-- A write over no lost beat merges with nothing that is gone. -/
theorem mergeLost_none (h : s.beatLost a n = false) : s.mergeLost a n = s := by
  have hnone : (blocksOf 64 a n).filter s.lostAt = [] :=
    List.filter_eq_nil_iff.2 fun b hb => List.any_eq_false.1 h b hb
  unfold State.mergeLost
  split
  · rfl
  · rw [hnone]
    rfl

/-- What a slice does before the bytes of a write are stored changes no byte. -/
theorem dcTake_mem {hint : Nat} (h : hint = 2 → s.beatLost a n = false) : (s.dcTake hint a n .none).mem = s.mem := by
  have hhit := onlyRegs_mem (countHit_onlyRegs s a)
  have hmiss := countMiss_onlyRegs s a
  unfold State.dcTake
  dsimp only
  split
  · exact (touchLine_mem _ _ _).trans ((dirtyLine_mem _ _).trans hhit)
  · split
    next h2 =>
      have hlost : (s.countMiss a).beatLost a n = false := (beatLost_kept (.of_onlyRegs hmiss)).trans (h h2)
      rw [mergeLost_none hlost, burst_mem]
      exact onlyRegs_mem hmiss
    next => exact (dirtyLine_mem _ _).trans ((fillLine_mem _ _ _).trans (onlyRegs_mem hmiss))

/-- A poisoned write leaves its beats poisoned. -/
theorem memPut_beatBad (s : State) {v : List Byte} (hv : 0 < v.length) : (s.memPut a v true).beatBad a v.length = true := by
  have hbeat : a / 64 ∈ blocksOf 64 a v.length := mem_blocksOf.2 ⟨by omega, Nat.le_refl _, Nat.div_le_div_right (by omega)⟩
  refine List.any_eq_true.2 ⟨a / 64, hbeat, ?_⟩
  have hpoison : (s.memPut a v true).poison = (blocksOf 64 a v.length).foldl (fun p b => setInsert b p) (s.overLost a v.length).poison := rfl
  rw [hpoison, List.contains_iff_mem.2 ((mem_foldl_setInsert _).2 (.inl hbeat)), Bool.true_or]

/-- A request that need not wait is served. -/
theorem dcWrite_served {v : List Byte} (h : s.served a v.length = true)
    (hroom : (s.line (a / 256)).isSome = true ∨ s.burstSpent a 2 = false) (hint : Nat) (bad : Bool) :
    s.dcWrite hint a v bad .none = s.dcStore hint a v bad .none := by
  have hwait : ((s.line (a / 256)).isNone && s.burstSpent a (s.missBursts (a / 256) (hint != 2))) = false := by
    rcases hroom with hline | hspent
    · rw [Option.isNone_eq_false_iff.2 hline, Bool.false_and]
    · rw [burstSpent_false hspent (missBursts_le s _ _), Bool.and_false]
  rw [State.dcWrite, h, hwait]
  rfl

end

/-- A write instruction of a hint, as every one of the four is. -/
theorem write_shows {s : State} {a hint : Nat} {v : List Byte} {bad : Bool} {c : Instr} (hon : s.boot.on = true)
    (hrange : dcRange a v.length = true) (h : s.served a v.length = true)
    (hroom : (s.line (a / 256)).isSome = true ∨ s.burstSpent a 2 = false) (hlost : hint = 2 → s.beatLost a v.length = false)
    (hexec : Machine.exec c s = done s (if dcRange a v.length then s.dcWrite hint a v bad .none else s)) :
    ∃ t, Machine.exec c s = .next t ∧ getBytes t.mem a v.length = v ∧ bytesKept s t a v.length ∧
      (Memory.wf s.mem = true → Memory.wf t.mem = true) ∧ (bad = true → t.beatBad a v.length = true) := by
  have hpos : 0 < v.length := by
    simp only [dcRange, Bool.and_eq_true, decide_eq_true_eq] at hrange
    exact hrange.1.1
  have hmem : (s.dcStore hint a v bad .none).mem = setBytes v a s.mem := (memPut_mem _ _ _ _).trans (congrArg _ (dcTake_mem hlost))
  rw [if_pos hrange, dcWrite_served h hroom] at hexec
  refine ⟨_, hexec.trans (done_kept hon (MemSide.dcStore s hint a v bad).pending), ?_, fun x hx => ?_, dcStore_wf s hint a v bad .none, fun hbad => ?_⟩
  · rw [hmem, getBytes_setBytes]
  · rw [byteAt, hmem]
    exact getByte_setBytes_other v a x s.mem hx
  · subst hbad
    exact memPut_beatBad _ hpos

/-- Settles O29: the four writes are one, LASTUSE being handled as NORMAL. -/
theorem cachedWritesStoreTheirBytesOnly : Obligations.CachedWritesStoreTheirBytesOnly := by
  unfold Obligations.CachedWritesStoreTheirBytesOnly
  intro s a v bad c hon hrange h hroom hstream hc
  simp only [List.mem_cons, List.not_mem_nil, or_false] at hc
  rcases hc with rfl | rfl | rfl | rfl
  · exact write_shows hon hrange h hroom (hint := 0) (fun he => absurd he (by decide)) rfl
  · exact write_shows hon hrange h hroom (hint := 1) (fun he => absurd he (by decide)) rfl
  · exact write_shows hon hrange h hroom (hint := 2) (fun _ => hstream rfl) rfl
  · exact write_shows hon hrange h hroom (hint := 0) (fun he => absurd he (by decide)) rfl

end Sys2Proof.CacheLines
end

section
/-! SUPPORT. What a link's counters, its receiver and its state keep while it leaves UP (R271, R278 to R280). -/

namespace Sys2Proof.Laws
open Sys2Proof Sys2Proof.Machine

/-- The register at offset o of link l's block (R271, R294). -/
def linkReg (l o : Nat) : Nat := ldBase (l / 32) + 0x10000 + l % 32 * 0x100 + o

theorem linkReg_add (l o p : Nat) : linkReg l o + p = linkReg l (o + p) := Nat.add_assoc _ o p
theorem lnkCe_eq (l : Nat) : LNK_CE_LO (l / 32) (l % 32) = linkReg l 0x10 := by rw [LNK_CE_LO, linkReg]
theorem lnkRetry_eq (l : Nat) : LNK_RETRY_LO (l / 32) (l % 32) = linkReg l 0x18 := by rw [LNK_RETRY_LO, linkReg]
theorem lnkFlits_eq (l : Nat) : LNK_FLITS_LO (l / 32) (l % 32) = linkReg l 0x28 := by rw [LNK_FLITS_LO, linkReg]
theorem lnkRetrains_eq (l : Nat) : LNK_RETRAINS (l / 32) (l % 32) = linkReg l 0x20 := by rw [LNK_RETRAINS, linkReg]
theorem lnkCtrl_eq (l : Nat) : lnkCtrl l = linkReg l 0 := by rw [lnkCtrl, LNK_CTRL, linkReg]
theorem lnkStat_eq (l : Nat) : lnkStat l = linkReg l 4 := by rw [lnkStat, LNK_STAT, linkReg]
theorem lnkEvent_eq (l : Nat) : lnkEvent l = linkReg l 8 := by rw [lnkEvent, LNK_EVENT, linkReg]
theorem linkReg_ne {l o p : Nat} (h : o ≠ p) : linkReg l o ≠ linkReg l p := by unfold linkReg; omega
/-- Registers of two links at offsets of which the second's is no counter pair of the first's. -/
theorem linkReg_ne_linkReg {l m o p : Nat} (ho : o < 0x100) (hp : p < 0x100) (h : o ≠ p) : linkReg l o ≠ linkReg m p := by
  unfold linkReg ldBase; omega
theorem linkReg_ne_die {l o k p : Nat} (hp : p < 0x10000) (ho : o < 0x100) : linkReg l o ≠ ldBase k + p := by unfold linkReg ldBase; omega
theorem linkReg_ne_boot (l o : Nat) : linkReg l o ≠ AON_BOOT_STAT := by unfold linkReg ldBase AON_BOOT_STAT; omega
theorem linkReg_notMem_sumRegs {l o : Nat} (hl : l < 128) (ho : o < 0x100) (b : Nat) : linkReg l o ∉ sumRegs b :=
  Stepping.notMem_sumRegs (by unfold linkReg ldBase bar4Base; omega) (by unfold linkReg ldBase; omega) b

/-- The receiver of link l has accepted the same, and its counters of corrected words and retries stand as they were. -/
structure LinkKept (l : Nat) (s t : State) : Prop where
  pending : t.pending = s.pending
  rxAck : (t.link l).rxAck = (s.link l).rxAck
  inbox : (t.link l).inbox = (s.link l).inbox
  counts : ∀ o, 0x10 ≤ o → o < 0x20 → t.reg (linkReg l o) = s.reg (linkReg l o)

/-- `LinkKept`, the link's state as well. -/
structure LinkSide (l : Nat) (s t : State) : Prop extends LinkKept l s t where
  stat : t.reg (lnkStat l) = s.reg (lnkStat l)

namespace LinkKept
variable {l : Nat} {s t u : State}

theorem trans (h : LinkKept l s t) (g : LinkKept l t u) : LinkKept l s u :=
  ⟨g.pending.trans h.pending, g.rxAck.trans h.rxAck, g.inbox.trans h.inbox, fun o ho ho' => (g.counts o ho ho').trans (h.counts o ho ho')⟩
theorem pair (h : LinkKept l s t) {o : Nat} (ho : 0x10 ≤ o) (ho' : o < 0x1C) : t.pair (linkReg l o) = s.pair (linkReg l o) :=
  pair_of_reg (h.counts o ho (by omega)) (by rw [linkReg_add]; exact h.counts _ (by omega) (by omega))
theorem corrected (h : LinkKept l s t) : t.pair (LNK_CE_LO (l / 32) (l % 32)) = s.pair (LNK_CE_LO (l / 32) (l % 32)) := by
  rw [lnkCe_eq, h.pair (by decide) (by decide)]
theorem retries (h : LinkKept l s t) : t.pair (LNK_RETRY_LO (l / 32) (l % 32)) = s.pair (LNK_RETRY_LO (l / 32) (l % 32)) := by
  rw [lnkRetry_eq, h.pair (by decide) (by decide)]
theorem of_onlyRegs (h : onlyRegs s t) (hr : ∀ o, 0x10 ≤ o → o < 0x20 → t.reg (linkReg l o) = s.reg (linkReg l o)) : LinkKept l s t := by
  have hlink : t.link l = s.link l := by rw [State.link, onlyRegs_fab h, State.link]
  exact ⟨onlyRegs_pending h, congrArg Link.rxAck hlink, congrArg Link.inbox hlink, hr⟩
theorem setStat (s : State) (l v : Nat) : LinkKept l s (s.setFld (lnkStat l) LNK_STAT_STATE v) := by
  rw [lnkStat_eq]
  exact of_onlyRegs (onlyRegs_setFld _ _ _ _) fun _ ho _ => reg_setFld_other s (linkReg_ne (by omega)) _ v

end LinkKept

namespace LinkSide
variable {l : Nat} {s t u : State}

theorem refl (l : Nat) (s : State) : LinkSide l s s := ⟨⟨rfl, rfl, rfl, fun _ _ _ => rfl⟩, rfl⟩
theorem trans (h : LinkSide l s t) (g : LinkSide l t u) : LinkSide l s u := ⟨h.toLinkKept.trans g.toLinkKept, g.stat.trans h.stat⟩
theorem lstate (h : LinkSide l s t) : t.lstate l = s.lstate l := fld_of_reg h.stat _
theorem ite {p : Prop} [Decidable p] (h : p → LinkSide l s t) (g : ¬p → LinkSide l s u) : LinkSide l s (if p then t else u) := by
  split
  · exact h ‹_›
  · exact g ‹_›
theorem foldl {α : Type} {f : State → α → State} (hf : ∀ s a, LinkSide l s (f s a)) (xs : List α) (s : State) :
    LinkSide l s (xs.foldl f s) := by
  induction xs generalizing s with
  | nil => exact refl l s
  | cons x xs ih => exact (hf s x).trans (ih _)

/-- Nothing of the registers or of the links' own records changes. -/
theorem note (hp : t.pending = s.pending) (hl : t.fab.links = s.fab.links) (hr : t.regs = s.regs) : LinkSide l s t := by
  have hlink : t.link l = s.link l := by rw [State.link, hl, State.link]
  have hreg (a : Nat) : t.reg a = s.reg a := congrArg (fun r => (mapGet regReset a r).toNat) hr
  exact ⟨⟨hp, congrArg Link.rxAck hlink, congrArg Link.inbox hlink, fun _ _ _ => hreg _⟩, hreg _⟩

/-- What the router keeps of failed links, and its next tag. -/
theorem noteRouter (s : State) (n : Nat) (r : List (Nat × List Life)) (q : List (Nat × List Packet)) :
    LinkSide l s { s with fab := { s.fab with nextTag := n, resync := r, resend := q } } := note rfl rfl rfl

/-- A write of registers none of which is the link's state or counter. -/
theorem of_onlyRegs (h : onlyRegs s t) (hr : ∀ o, o = 4 ∨ 0x10 ≤ o → o < 0x20 → t.reg (linkReg l o) = s.reg (linkReg l o)) : LinkSide l s t :=
  ⟨.of_onlyRegs h fun o ho => hr o (.inr ho), by rw [lnkStat_eq]; exact hr 4 (.inl rfl) (by decide)⟩

theorem setReg (s : State) {a : Nat} (h : ∀ o, o = 4 ∨ 0x10 ≤ o → o < 0x20 → linkReg l o ≠ a) (v : Nat) : LinkSide l s (s.setReg a v) :=
  of_onlyRegs rfl fun o ho ho' => reg_setReg_other s (h o ho ho') v
/-- A register of any link at an offset that is neither. -/
theorem setLinkReg (s : State) (m : Nat) {p : Nat} (h : p ≠ 4 ∧ (p < 0x10 ∨ 0x20 ≤ p ∧ p < 0x100)) (v : Nat) :
    LinkSide l s (s.setReg (linkReg m p) v) :=
  setReg s (fun o ho ho' => linkReg_ne_linkReg (by omega) (by omega) (by omega)) v
/-- A register of a link die itself. -/
theorem setDieReg (s : State) (k : Nat) {p : Nat} (h : p < 0x10000) (v : Nat) : LinkSide l s (s.setReg (ldBase k + p) v) :=
  setReg s (fun _ _ _ => linkReg_ne_die h (by omega)) v
theorem raiseMask (hl : l < 128) (s : State) {a : Nat} (h : ∀ o, o = 4 ∨ 0x10 ≤ o → o < 0x20 → linkReg l o ≠ a) (m : Nat) :
    LinkSide l s (s.raiseMask a m) :=
  of_onlyRegs (onlyRegs_raiseMask s a m) fun o ho ho' => raiseMask_reg s m (linkReg_notMem_sumRegs hl (by omega) _) (h o ho ho')
theorem raiseLink (hl : l < 128) (s : State) (f : Fld) : LinkSide l s (s.raise (lnkEvent l) f) :=
  raiseMask hl s (fun _ _ _ => by rw [lnkEvent_eq]; exact linkReg_ne (by omega)) _
theorem raiseDie (hl : l < 128) (s : State) (k m : Nat) : LinkSide l s (s.raiseMask (LD_EVENT k) m) :=
  raiseMask hl s (fun _ _ _ => linkReg_ne_die (by decide) (by omega)) m

/-- A link's record is replaced by one that has accepted the same. -/
theorem setLink (s : State) (m : Nat) {x : Link} (hr : x.rxAck = (s.link m).rxAck) (hi : x.inbox = (s.link m).inbox) :
    LinkSide l s (s.setLink m x) := by
  have hget : (s.setLink m x).link l = if l = m then x else s.link l := mapGet_set _ l m x _
  refine ⟨⟨rfl, ?_, ?_, fun _ _ _ => rfl⟩, rfl⟩ <;> rw [hget] <;> split
  · subst ‹l = m›; exact hr
  · rfl
  · subst ‹l = m›; exact hi
  · rfl

theorem emit (s : State) (o : Output) : LinkSide l s (s.emit o) := note rfl rfl rfl
theorem sendLctl (s : State) (m : Nat) (nak : Bool) : LinkSide l s (s.sendLctl m nak) :=
  (emit s (.lctl m (s.link m).rxAck nak (s.link m).freed)).trans (setLink _ m rfl rfl)
theorem bump (s : State) (m : Nat) {p : Nat} (h : 0x20 ≤ p ∧ p < 0x80) (n : Nat) : LinkSide l s (s.bump (linkReg m p) n) := by
  rw [State.bump, State.setPair, linkReg_add]
  refine LinkSide.trans ?_ (setLinkReg _ m (p := p + 4) (by omega) _)
  exact setLinkReg s m (by omega) _
theorem countFlits (s : State) (m n : Nat) : LinkSide l s (s.bump (LNK_FLITS_LO (m / 32) (m % 32)) n) := by
  rw [lnkFlits_eq]
  exact bump s m (by decide) n
theorem noteQueue (s : State) (g i o : Nat) : LinkSide l s (s.noteQueue g i o) := note rfl rfl rfl
theorem sendOn (s : State) (m v : Nat) (p : Packet) : LinkSide l s (s.sendOn m v p) := by
  unfold State.sendOn
  dsimp only
  have hfirst : LinkSide l s (if 128 ≤ (s.link m).slots + pktFlits p then s.sendLctl m false else s) :=
    ite (fun _ => sendLctl s m false) (fun _ => refl l s)
  generalize (if 128 ≤ (s.link m).slots + pktFlits p then s.sendLctl m false else s) = t at hfirst ⊢
  refine hfirst.trans (LinkSide.trans ?_ (emit _ _))
  refine LinkSide.trans ?_ (countFlits _ m _)
  refine LinkSide.trans ?_ (noteQueue _ _ _ _)
  exact setLink t m rfl rfl

theorem resendPump (s : State) (t : Nat) : LinkSide l s (s.resendPump t) := by
  unfold State.resendPump
  dsimp only
  generalize mapGet (fun _ => ([] : List Packet)) t s.fab.resend = ps
  refine LinkSide.trans (t := (List.foldl _ (s, []) ps).1) ?_ (note rfl rfl rfl)
  suffices ∀ a : State × List Packet, LinkSide l s a.1 → LinkSide l s (List.foldl _ a ps).1 from this (s, []) (refl l s)
  induction ps with
  | nil => exact fun _ h => h
  | cons p ps ih =>
    refine fun a h => ih _ ?_
    dsimp only
    split
    · exact h.trans (sendOn _ _ _ _)
    · exact h

theorem lose (s : State) (p : Packet) (st : Nat) : LinkSide l s (s.lose p st) := emit s _
theorem forgetEnds (s : State) (t : Nat) : LinkSide l s (s.forgetEnds t) := foldl (f := fun s x => s.setLink x { s.link x with ends := [], asked := [], early := false })
  (fun s x => setLink s x rfl rfl) _ s
theorem askResyncs (due : List (Nat × Life)) (s : State) : LinkSide l s (due.foldr (fun x (s : State) => s.askResync x.1 x.2.tag) s) := by
  induction due with
  | nil => exact refl l s
  | cons x due ih => exact ih.trans (note rfl rfl rfl)
theorem linksStage (s : State) : LinkSide l s s.linksStage :=
  ite (fun _ => setReg s (fun _ _ _ => linkReg_ne_boot l _) _) (fun _ => refl l s)

end LinkSide

/-- The number of UP links that the dies show for a trunk. -/
theorem LinkSide.showTrunk {l : Nat} {t : Nat} (ht : ¬ 6 ≤ t) (u : Nat) (s : State) :
    LinkSide l s ((List.range 4).foldl (fun s k =>
      (s.setFld (LD_TRUNK k t) LD_TRUNK_UP u).setFlag (LD_TRUNK k t) LD_TRUNK_DOWN (u == 0)) s) := by
  refine LinkSide.foldl (fun v k => ?_) _ _
  have hdie (v : State) (n : Nat) : LinkSide l v (v.setReg (LD_TRUNK k t) n) :=
    LinkSide.setReg v (fun o _ ho => by unfold linkReg LD_TRUNK ldBase; omega) n
  exact (hdie _ _).trans (hdie _ _)

/-- Leaving or entering a state: it is shown, and the link's receiver and counters stay. -/
theorem putLstate_shows (s : State) (l st : Nat) : LinkKept l s (s.putLstate l st) ∧ (s.putLstate l st).lstate l = st % 8 := by
  have hside : LinkSide l (s.setFld (lnkStat l) LNK_STAT_STATE st) (s.putLstate l st) := by
    unfold State.putLstate
    dsimp only
    refine (LinkSide.linksStage _).trans ?_
    generalize (s.setFld (lnkStat l) LNK_STAT_STATE st).linksStage = t
    have hretrain : LinkSide l t (if (st = lsTrain ∨ st = lsRetrain) ∨ (!t.flag (lnkCtrl l) LNK_CTRL_RETRAIN) = true then t
        else t.setFlag (lnkCtrl l) LNK_CTRL_RETRAIN false) :=
      LinkSide.ite (fun _ => LinkSide.refl l t) fun _ => by rw [lnkCtrl_eq]; exact LinkSide.setLinkReg t l (by decide) _
    refine hretrain.trans ?_
    generalize (if (st = lsTrain ∨ st = lsRetrain) ∨ (!t.flag (lnkCtrl l) LNK_CTRL_RETRAIN) = true then t
      else t.setFlag (lnkCtrl l) LNK_CTRL_RETRAIN false) = u
    generalize ((List.range 32).filter (fun j => u.lstate (32 * (l / 32) + j) == lsUp)).length = n
    refine LinkSide.trans (t := u.setFld (LD_STAT (l / 32)) LD_STAT_LINKS_UP n) (LinkSide.setDieReg u (l / 32) (by decide) _) ?_
    generalize u.setFld (LD_STAT (l / 32)) LD_STAT_LINKS_UP n = v
    refine LinkSide.ite (fun _ => LinkSide.refl l _) fun ht => LinkSide.trans ?_ (LinkSide.showTrunk ht _ _)
    exact LinkSide.ite (fun _ => LinkSide.refl l _) fun _ => LinkSide.note rfl rfl rfl
  exact ⟨(LinkKept.setStat s l st).trans hside.toLinkKept, hside.lstate.trans (fld_setFld_same s _ _ st (by decide))⟩

/-- A link that leaves UP for another state, or enters one from another, ends in it. -/
theorem leaveUp_shows (s : State) {l : Nat} (hl : l < 128) (st : Nat) :
    LinkKept l s (s.leaveUp l st) ∧ (s.leaveUp l st).lstate l = st % 8 := by
  obtain ⟨hkept, hstate⟩ := putLstate_shows s l st
  unfold State.leaveUp
  split
  · exact ⟨hkept, hstate⟩
  dsimp only
  have hended : LinkSide l (s.putLstate l st)
      (((s.putLstate l st).raise (lnkEvent l) LNK_EVENT_DOWN).setLink l (s.link l).ended) := by
    have hraise := LinkSide.raiseLink hl (s.putLstate l st) LNK_EVENT_DOWN
    exact hraise.trans (LinkSide.setLink _ l (hraise.rxAck.trans hkept.rxAck).symm (hraise.inbox.trans hkept.inbox).symm)
  generalize ((s.putLstate l st).raise (lnkEvent l) LNK_EVENT_DOWN).setLink l (s.link l).ended = t at hended ⊢
  suffices hside : LinkSide l t _ from ⟨hkept.trans (hended.trans hside).toLinkKept, (hended.trans hside).lstate.trans hstate⟩
  refine LinkSide.ite (fun _ => ?_) fun _ => ?_
  · refine LinkSide.trans ?_ (LinkSide.foldl (fun s p => LinkSide.lose s p 3) _ _)
    have hdown := (LinkSide.forgetEnds (l := l) t (s.lport l)).trans
      (LinkSide.raiseDie hl _ (l / 32) (2 ^ LD_EVENT_LINK_DOWN.lo + 2 ^ LD_EVENT_TRUNK_DOWN.lo))
    generalize (t.forgetEnds (s.lport l)).raiseMask _ _ = u at hdown ⊢
    exact hdown.trans (LinkSide.noteRouter u _ _ _)
  · refine LinkSide.trans ?_ (LinkSide.resendPump _ _)
    refine LinkSide.trans ?_ (LinkSide.askResyncs _ _)
    have hdown : LinkSide l t (t.raise (LD_EVENT (l / 32)) LD_EVENT_LINK_DOWN) := LinkSide.raiseDie hl t (l / 32) _
    generalize t.raise (LD_EVENT (l / 32)) LD_EVENT_LINK_DOWN = u at hdown ⊢
    exact hdown.trans (LinkSide.noteRouter u _ _ _)

/-- A retrain ends in RETRAIN or DISABLED, not in UP. -/
theorem retrain_shows (s : State) {l : Nat} (hl : l < 128) : LinkKept l s (s.retrain l) ∧ (s.retrain l).lstate l ≠ lsUp := by
  have hcount (t : State) (f : Fld) : LinkSide l t (t.bumpSat (LNK_RETRAINS (l / 32) (l % 32)) f 1) := by
    rw [lnkRetrains_eq]
    exact LinkSide.setLinkReg t l (by decide) _
  have hcounts := (hcount s LNK_RETRAINS_COUNT).trans (hcount _ LNK_RETRAINS_HOUR)
  unfold State.retrain
  dsimp only
  generalize (s.bumpSat (LNK_RETRAINS (l / 32) (l % 32)) LNK_RETRAINS_COUNT 1).bumpSat _ LNK_RETRAINS_HOUR 1 = t at hcounts ⊢
  have left {st : Nat} {u : State} (hst : st % 8 ≠ lsUp) (h : LinkSide l (t.leaveUp l st) u) : LinkKept l s u ∧ u.lstate l ≠ lsUp := by
    obtain ⟨hkept, hstate⟩ := leaveUp_shows t hl st
    exact ⟨hcounts.toLinkKept.trans (hkept.trans h.toLinkKept), fun he => hst (hstate.symm.trans (h.lstate.symm.trans he))⟩
  split
  · exact left (st := lsDisabled) (by decide) (LinkSide.raiseLink hl _ _)
  · refine left (st := lsRetrain) (by decide) ((LinkSide.raiseLink hl _ LNK_EVENT_RETRAIN).trans ?_)
    rw [lnkCtrl_eq]
    exact LinkSide.setLinkReg _ l (by decide) _

end Sys2Proof.Laws
end

section
/-! Flits taken in order or asked for again, control flits sent and taken (R276 to R280), and O41. -/

namespace Sys2Proof.Flits
open Sys2Proof Sys2Proof.Machine Sys2Proof.Laws

/-! ### counters and control flits -/

theorem reg_bump_other (s : State) {a b : Nat} (h : b ≠ a) (h4 : b ≠ a + 4) (n : Nat) : (s.bump a n).reg b = s.reg b :=
  (reg_setReg_other _ h4 _).trans (reg_setReg_other s h _)
theorem pair_bump_same (s : State) (a n : Nat) : (s.bump a n).pair a = (s.pair a + n) % 2 ^ 64 :=
  pair_setPair_same s a (Nat.mod_lt _ (by decide))

/-- A counter pair of a link moves, and nothing else of what the link shows. -/
theorem linkCount (s : State) (l : Nat) {p : Nat} (h : 0x10 ≤ p ∧ p < 0x1C) (n : Nat) :
    (s.bump (linkReg l p) n).pair (linkReg l p) = (s.pair (linkReg l p) + n) % 2 ^ 64 ∧
      (∀ o, o ≠ p → o + 4 ≠ p → o ≠ p + 4 → (s.bump (linkReg l p) n).pair (linkReg l o) = s.pair (linkReg l o)) ∧
      (s.bump (linkReg l p) n).reg (lnkStat l) = s.reg (lnkStat l) ∧ (s.bump (linkReg l p) n).link l = s.link l := by
  have hreg (o : Nat) (h0 : o ≠ p) (h4 : o ≠ p + 4) : (s.bump (linkReg l p) n).reg (linkReg l o) = s.reg (linkReg l o) :=
    reg_bump_other s (linkReg_ne h0) (by rw [linkReg_add]; exact linkReg_ne h4) n
  refine ⟨pair_bump_same s _ n, fun o h0 h4 h5 => pair_of_reg (hreg o h0 h5) ?_, ?_, ?_⟩
  · rw [linkReg_add]; exact hreg _ h4 (by omega)
  · rw [lnkStat_eq]; exact hreg 4 (by omega) (by omega)
  · rw [State.link, onlyRegs_fab (onlyRegs_bump s _ n), State.link]

theorem link_setLink (s : State) (l : Nat) (x : Link) : (s.setLink l x).link l = x := mapGet_set_same _ l x _
theorem reg_setLink (s : State) (l : Nat) (x : Link) (a : Nat) : (s.setLink l x).reg a = s.reg a := rfl
theorem reg_sendLctl (s : State) (l : Nat) (nak : Bool) (a : Nat) : (s.sendLctl l nak).reg a = s.reg a := rfl
theorem sendLctl_out (s : State) (l : Nat) (nak : Bool) :
    (s.sendLctl l nak).out = .lctl l (s.link l).rxAck nak (s.link l).freed :: s.out := rfl
theorem sendLctl_link (s : State) (l : Nat) (nak : Bool) :
    (s.sendLctl l nak).link l = { s.link l with owed := List.replicate 9 0, slots := 0 } := link_setLink _ l _

/-- The counts of corrected words of a flit that arrives. -/
def corrected (s : State) (l : Nat) (errs : List Nat) : State := s.bump (LNK_CE_LO (l / 32) (l % 32)) (corrWords errs)

section
variable (s : State) (l : Nat) (errs : List Nat)

theorem corrected_onlyRegs : onlyRegs s (corrected s l errs) := onlyRegs_bump s _ _
theorem corrected_out : (corrected s l errs).out = s.out := State.bump_out s _ _
theorem corrected_link : (corrected s l errs).link l = s.link l := by
  rw [corrected, lnkCe_eq]; exact (linkCount s l (by decide) _).2.2.2
theorem corrected_stat : (corrected s l errs).reg (lnkStat l) = s.reg (lnkStat l) := by
  rw [corrected, lnkCe_eq]; exact (linkCount s l (by decide) _).2.2.1
theorem corrected_pair : (corrected s l errs).pair (LNK_CE_LO (l / 32) (l % 32)) =
    (s.pair (LNK_CE_LO (l / 32) (l % 32)) + corrWords errs) % 2 ^ 64 := pair_bump_same s _ _
theorem corrected_retries : (corrected s l errs).pair (LNK_RETRY_LO (l / 32) (l % 32)) = s.pair (LNK_RETRY_LO (l / 32) (l % 32)) := by
  rw [corrected, lnkCe_eq, lnkRetry_eq]; exact (linkCount s l (by decide) _).2.1 _ (by decide) (by decide) (by decide)

end

/-! ### a flit is asked for again (R278) -/

/-- A NAK goes out and is counted; the eighth for one flit takes the link from UP. -/
theorem sendNak_shows (s : State) {l : Nat} (hl : l < 128) :
    let t := s.sendNak l
    let k := s.link l
    (t.pending = s.pending ∧ t.pair (LNK_CE_LO (l / 32) (l % 32)) = s.pair (LNK_CE_LO (l / 32) (l % 32))) ∧
      t.pair (LNK_RETRY_LO (l / 32) (l % 32)) = (s.pair (LNK_RETRY_LO (l / 32) (l % 32)) + 1) % 2 ^ 64 ∧
      (t.link l).rxAck = k.rxAck ∧ (t.link l).inbox = k.inbox ∧
      (k.naks < 7 → t.out.head? = some (.lctl l k.rxAck true k.freed) ∧ (t.link l).naking = true ∧ t.lstate l = s.lstate l) ∧
      (7 ≤ k.naks → t.lstate l ≠ lsUp) := by
  dsimp only
  generalize hk : ({ s.link l with naking := true, naks := (s.link l).naks + 1, retries := (s.link l).retries + 1 } : Link) = k
  have hout := State.setLink_out s l k
  have hpend := State.setLink_pending s l k
  have hreg := reg_setLink s l k
  have hlink := link_setLink s l k
  have hnak : s.sendNak l = if 8 ≤ (s.link l).naks + 1 then (((s.setLink l k).bump (linkReg l 0x18) 1).sendLctl l true).retrain l
      else ((s.setLink l k).bump (linkReg l 0x18) 1).sendLctl l true := by
    rw [← hk, ← lnkRetry_eq]
    unfold State.sendNak
    dsimp only
  generalize s.setLink l k = u at *
  obtain ⟨hretry, hother, hstat, hbump⟩ := linkCount u l (p := 0x18) (by decide) 1
  have hce := hother 0x10 (by decide) (by decide) (by decide)
  have hvout := (State.bump_out u (linkReg l 0x18) 1).trans hout
  have hvpend := (onlyRegs_pending (onlyRegs_bump u (linkReg l 0x18) 1)).trans hpend
  rw [hlink] at hbump
  generalize u.bump (linkReg l 0x18) 1 = v at *
  have hwlink := sendLctl_link v l true
  have hwout := sendLctl_out v l true
  have hwreg := reg_sendLctl v l true
  have hwpend := (LinkSide.sendLctl (l := l) v l true).pending.trans hvpend
  rw [hbump, ← hk] at hwlink hwout
  generalize v.sendLctl l true = w at *
  have hpair (a : Nat) : w.pair a = v.pair a := pair_of_reg (hwreg a) (hwreg _)
  have hpair' (a : Nat) : u.pair a = s.pair a := pair_of_reg (hreg a) (hreg _)
  rw [← hpair, hpair', ← lnkRetry_eq] at hretry
  rw [← hpair, hpair', ← lnkCe_eq] at hce
  have hstate : w.lstate l = s.lstate l := fld_of_reg ((hwreg _).trans (hstat.trans (hreg _))) _
  rw [hnak]
  split
  · obtain ⟨hkept, hdown⟩ := retrain_shows w hl
    exact ⟨⟨hkept.pending.trans hwpend, hkept.corrected.trans hce⟩, hkept.retries.trans hretry, by rw [hkept.rxAck, hwlink],
      by rw [hkept.inbox, hwlink], fun h => absurd h (by omega), fun _ => hdown⟩
  · exact ⟨⟨hwpend, hce⟩, hretry, by rw [hwlink], by rw [hwlink], fun _ => ⟨by rw [hwout]; rfl, by rw [hwlink], hstate⟩,
      fun h => absurd h (by omega)⟩

/-! ### a flit is taken (R276, R278) -/

/-- An accepted flit joins its packet, which waits for the router once it is whole. -/
theorem takeFlit_shows (s : State) (l v : Nat) (b : List Byte) (bad : Bool) :
    let t := s.takeFlit l v b bad
    let got := mapGet (fun _ => []) v (s.link l).part ++ b
    t.pending = s.pending ∧ t.regs = s.regs ∧ t.out = s.out ∧ (t.link l).rxAck = (s.link l).rxAck ∧ (t.link l).naking = (s.link l).naking ∧
      (got.length < 32 * (1 + headerLen got) → mapGet (fun _ => []) v (t.link l).part = got ∧ (t.link l).inbox = (s.link l).inbox) ∧
      (32 * (1 + headerLen got) ≤ got.length → mapGet (fun _ => []) v (t.link l).part = [] ∧
        ∃ bad, (t.link l).inbox = (s.link l).inbox ++ [packetOf got bad]) := by
  unfold State.takeFlit
  dsimp only
  split
  · rw [link_setLink]
    exact ⟨rfl, rfl, rfl, rfl, rfl, fun _ => ⟨mapGet_set_same _ _ _ _, rfl⟩, fun h => absurd h (by omega)⟩
  · rw [link_setLink]
    exact ⟨rfl, rfl, rfl, rfl, rfl, fun h => absurd h (by omega), fun _ => ⟨mapGet_set_same (fun _ => []) v [] (s.link l).part, _, rfl⟩⟩

/-! ### a control flit is heard (R277, R278, R280) -/

/-- A link's record after the credits, the ACK and the NAK of a control flit. -/
def heardLink (k : Link) (ack : Nat) (nak : Bool) (cred : List Nat) : Link :=
  { k with credit := (List.range 9).map (fun v => k.credit.getD v 0 + (cred.getD v 0 % 256 + 256 - k.rxCred.getD v 0) % 256),
           rxCred := (List.range 9).map (fun v => cred.getD v 0 % 256), replay := k.replay.filter (fun e => !seqAcked ack e.1),
           nakAck := ack, nakIn := (if k.nakAck = ack then k.nakIn else 0) + b2n nak }

theorem heardLink_credit (k : Link) (ack : Nat) (nak : Bool) (cred : List Nat) {v : Nat} (hv : v < 9) :
    (heardLink k ack nak cred).credit.getD v 0 = k.credit.getD v 0 + (cred.getD v 0 % 256 + 256 - k.rxCred.getD v 0) % 256 := by
  rw [heardLink, List.getD_eq_getElem?_getD, List.getElem?_map, List.getElem?_range hv]
  rfl

/-- With nothing to go on over a trunk, a pump of it changes nothing that the links or the outside show. -/
theorem resendPump_idle (s : State) {t : Nat} (h : mapGet (fun _ => []) t s.fab.resend = []) :
    (s.resendPump t).pending = s.pending ∧ (s.resendPump t).regs = s.regs ∧ (s.resendPump t).out = s.out ∧
      (s.resendPump t).fab.links = s.fab.links := by
  rw [State.resendPump, h]
  exact ⟨rfl, rfl, rfl, rfl⟩

section
variable (s : State) (l kind ack : Nat) (nak : Bool) (cred errs : List Nat)

theorem ctlBody_bad (h : badWords errs = true ∨ poisonWords errs = true) :
    s.ctlBody l kind ack nak cred errs = (corrected s l errs).sendLctl l false := by
  have hbad : (badWords errs || poisonWords errs) = true := Bool.or_eq_true_iff.2 h
  unfold State.ctlBody
  dsimp only
  rw [if_pos hbad, corrected]

theorem ctlBody_unknown (hb : badWords errs = false) (hp : poisonWords errs = false) (hk : 1 < kind) :
    s.ctlBody l kind ack nak cred errs = corrected s l errs := by
  unfold State.ctlBody
  dsimp only
  rw [hb, hp, Bool.or_false, if_neg Bool.false_ne_true, if_pos hk, corrected]

/-- The link after the counters of a control flit, before its NAK is answered. -/
def heard : State :=
  let u := (corrected s l errs).setLink l (heardLink (s.link l) ack nak cred)
  u.resendPump (u.lport l)

theorem ctlBody_heard (hb : badWords errs = false) (hp : poisonWords errs = false) (hk : kind ≤ 1) :
    s.ctlBody l kind ack nak cred errs = if !nak then heard s l ack nak cred errs
      else if 8 ≤ (if (s.link l).nakAck = ack then (s.link l).nakIn else 0) + b2n nak then
        ((heard s l ack nak cred errs).emit (.replay l ((ack + 1) % 4096))).retrain l
      else (heard s l ack nak cred errs).emit (.replay l ((ack + 1) % 4096)) := by
  unfold State.ctlBody heard
  dsimp only
  rw [hb, hp, Bool.or_false, if_neg Bool.false_ne_true, if_neg (by omega), ← corrected, corrected_link, ← heardLink]

end

theorem corrected_pending (s : State) (l : Nat) (errs : List Nat) : (corrected s l errs).pending = s.pending :=
  onlyRegs_pending (corrected_onlyRegs s l errs)
theorem corrected_lstate (s : State) (l : Nat) (errs : List Nat) : (corrected s l errs).lstate l = s.lstate l :=
  fld_of_reg (corrected_stat s l errs) _

theorem resend_setLink (s : State) (l : Nat) (x : Link) : (s.setLink l x).fab.resend = s.fab.resend := rfl

/-- What the device shows once a control flit is heard over a trunk with nothing to go on. -/
theorem heard_shows (s : State) (l ack : Nat) (nak : Bool) (cred errs : List Nat)
    (hidle : mapGet (fun _ => []) (s.lport l) s.fab.resend = []) :
    (heard s l ack nak cred errs).out = s.out ∧ (heard s l ack nak cred errs).link l = heardLink (s.link l) ack nak cred := by
  have hport : ((corrected s l errs).setLink l (heardLink (s.link l) ack nak cred)).lport l = s.lport l :=
    fld_of_reg ((reg_setLink _ l _ _).trans (corrected_stat s l errs)) _
  have hout := (State.setLink_out _ l (heardLink (s.link l) ack nak cred)).trans (corrected_out s l errs)
  have hlink := link_setLink (corrected s l errs) l (heardLink (s.link l) ack nak cred)
  have hwait : ((corrected s l errs).setLink l (heardLink (s.link l) ack nak cred)).fab.resend = s.fab.resend :=
    (resend_setLink _ l _).trans (congrArg Fabric.resend (onlyRegs_fab (corrected_onlyRegs s l errs)))
  unfold heard
  dsimp only
  generalize (corrected s l errs).setLink l (heardLink (s.link l) ack nak cred) = u at *
  obtain ⟨-, -, hout', hlinks⟩ := resendPump_idle u (t := u.lport l) (by rw [hport, hwait, hidle])
  exact ⟨hout'.trans hout, by rw [State.link, hlinks, ← State.link, hlink]⟩

theorem heard_kept (s : State) (l ack : Nat) (nak : Bool) (cred errs : List Nat) :
    LinkKept l (corrected s l errs) (heard s l ack nak cred errs) := by
  refine LinkKept.trans (LinkSide.setLink _ l ?_ ?_).toLinkKept (LinkSide.resendPump _ _).toLinkKept <;> rw [corrected_link] <;> rfl

/-- A control flit moves its corrected words' counter alone of the link's counters, whatever else it does. -/
theorem ctlBody_kept (s : State) {l : Nat} (hl : l < 128) (kind ack : Nat) (nak : Bool) (cred errs : List Nat) :
    LinkKept l (corrected s l errs) (s.ctlBody l kind ack nak cred errs) := by
  have hheard := heard_kept s l ack nak cred errs
  have hreplay := hheard.trans (LinkSide.emit (heard s l ack nak cred errs) (.replay l ((ack + 1) % 4096))).toLinkKept
  by_cases hbad : badWords errs = true ∨ poisonWords errs = true
  · rw [ctlBody_bad s l kind ack nak cred errs hbad]
    exact (LinkSide.sendLctl _ l false).toLinkKept
  obtain ⟨hb, hp⟩ := not_or.1 hbad
  rw [Bool.not_eq_true] at hb hp
  by_cases hk : 1 < kind
  · rw [ctlBody_unknown s l kind ack nak cred errs hb hp hk]
    exact (LinkSide.refl l _).toLinkKept
  · rw [ctlBody_heard s l kind ack nak cred errs hb hp (by omega)]
    generalize (if (s.link l).nakAck = ack then (s.link l).nakIn else 0) + b2n nak = n
    split
    · exact hheard
    split
    · exact hreplay.trans (retrain_shows _ hl).1
    · exact hreplay

/-- A sequenced flit of an UP link. -/
theorem seqBody_shows (s : State) {l : Nat} (hl : l < 128) (hup : s.lstate l = lsUp) (v : Nat) (b : List Byte) (q : Nat) (errs : List Nat) :
    let k := s.link l
    let t := s.seqBody l v b q errs
    let want := (k.rxAck + 1) % 4096
    let ce := LNK_CE_LO (l / 32) (l % 32)
    let retry := LNK_RETRY_LO (l / 32) (l % 32)
    t.pending = s.pending ∧ t.pair ce = (s.pair ce + corrWords errs) % 2 ^ 64 ∧
      (q % 16 = want % 16 → badWords errs = false →
        let got := mapGet (fun _ => []) v k.part ++ b
        (t.link l).rxAck = want ∧ (t.link l).naking = false ∧ t.out = s.out ∧ t.lstate l = lsUp ∧
        (got.length < 32 * (1 + headerLen got) → mapGet (fun _ => []) v (t.link l).part = got ∧ (t.link l).inbox = k.inbox) ∧
        (32 * (1 + headerLen got) ≤ got.length → mapGet (fun _ => []) v (t.link l).part = [] ∧
          ∃ bad, (t.link l).inbox = k.inbox ++ [packetOf got bad])) ∧
      (q % 16 ≠ want % 16 → k.naking = true → t.link l = k ∧ t.out = s.out) ∧
      ((q % 16 ≠ want % 16 ∧ k.naking = false) ∨ (q % 16 = want % 16 ∧ badWords errs = true) →
        t.pair retry = (s.pair retry + 1) % 2 ^ 64 ∧ (t.link l).rxAck = k.rxAck ∧ (t.link l).inbox = k.inbox ∧
        (k.naks < 7 → t.out.head? = some (.lctl l k.rxAck true k.freed) ∧ (t.link l).naking = true ∧ t.lstate l = lsUp) ∧
        (7 ≤ k.naks → t.lstate l ≠ lsUp)) := by
  have hlink := corrected_link s l errs
  have hce := corrected_pair s l errs
  have hretry := corrected_retries s l errs
  have hpend := corrected_pending s l errs
  have hout := corrected_out s l errs
  have hstate := (corrected_lstate s l errs).trans hup
  unfold State.seqBody
  dsimp only
  rw [← corrected]
  generalize corrected s l errs = u at *
  rw [hlink]
  split
  case isTrue hgood =>
    obtain ⟨hseq, hbad⟩ := hgood
    rw [Bool.not_eq_true'] at hbad
    generalize hk : ({ s.link l with rxAck := ((s.link l).rxAck + 1) % 4096, naking := false, naks := 0 } : Link) = k
    have hset := link_setLink u l k
    have hwant : k.rxAck = ((s.link l).rxAck + 1) % 4096 := by rw [← hk]
    have hpart : k.part = (s.link l).part := by rw [← hk]
    have hin : k.inbox = (s.link l).inbox := by rw [← hk]
    have hcalm : k.naking = false := by rw [← hk]
    obtain ⟨hp, hr, ho, hack, hnaking, hshort, hlong⟩ := takeFlit_shows (u.setLink l k) l v b (poisonWords errs)
    rw [hset] at hack hnaking hshort hlong
    rw [hpart, hin] at hshort hlong
    have hreg (a : Nat) : ((u.setLink l k).takeFlit l v b (poisonWords errs)).reg a = u.reg a := by
      rw [State.reg, hr, ← State.reg, reg_setLink]
    refine ⟨hp.trans ((State.setLink_pending u l k).trans hpend), (pair_of_reg (hreg _) (hreg _)).trans hce, fun _ _ => ?_,
      fun h => absurd hseq h, fun h => ?_⟩
    · exact ⟨hack.trans hwant, hnaking.trans hcalm, ho.trans ((State.setLink_out u l k).trans hout), (fld_of_reg (hreg _) _).trans hstate, hshort, hlong⟩
    · exact h.elim (fun hn => absurd hseq hn.1) fun hs => absurd (hbad.symm.trans hs.2) (by decide)
  case isFalse hbad =>
    split
    case isTrue hwait =>
      obtain ⟨hnaking, hseq⟩ := hwait
      refine ⟨hpend, hce, fun h => absurd h hseq, fun _ _ => ⟨hlink, hout⟩, fun h => ?_⟩
      exact h.elim (fun hn => absurd (hnaking.symm.trans hn.2) (by decide)) fun hs => absurd hs.1 hseq
    case isFalse hnew =>
      obtain ⟨⟨hp, hpair⟩, hcount, hack, hin, hfew, hmany⟩ := sendNak_shows u hl
      rw [hlink] at hack hin hfew hmany
      rw [hstate] at hfew
      refine ⟨hp.trans hpend, hpair.trans hce, fun hs hb => absurd ⟨hs, by rw [hb]; rfl⟩ hbad, fun hs hn => absurd ⟨hn, hs⟩ hnew, fun _ => ?_⟩
      exact ⟨by rw [hcount, hretry], hack, hin, hfew, hmany⟩

/-! ### O41 -/

/-- An instruction of an UP link leaves no command behind, so its step is what it does. -/
theorem ctlBody_done {s : State} (hon : s.boot.on = true) {l : Nat} (hl : l < 128) (kind ack : Nat) (nak : Bool) (cred errs : List Nat) :
    done s (s.ctlBody l kind ack nak cred errs) = .next (s.ctlBody l kind ack nak cred errs) :=
  done_kept hon ((ctlBody_kept s hl kind ack nak cred errs).pending.trans (corrected_pending s l errs))

/-- What a control flit that is heard, unknown or bad leaves. -/
theorem ctlBody_shows (s : State) {l : Nat} (hl : l < 128) (kind ack : Nat) (nak : Bool) (cred errs : List Nat) :
    let k := s.link l
    let t := s.ctlBody l kind ack nak cred errs
    let ce := LNK_CE_LO (l / 32) (l % 32)
    let naks := (if k.nakAck = ack then k.nakIn else 0) + b2n nak
    t.pair ce = (s.pair ce + corrWords errs) % 2 ^ 64 ∧
      (badWords errs = false → poisonWords errs = false → kind ≤ 1 → mapGet (fun _ => []) (s.lport l) s.fab.resend = [] →
        (nak = false ∨ naks < 8 → (t.link l).replay = k.replay.filter (fun e => !seqAcked ack e.1) ∧
          (∀ v, v < 9 → (t.link l).credit.getD v 0 = k.credit.getD v 0 + (cred.getD v 0 % 256 + 256 - k.rxCred.getD v 0) % 256) ∧
          t.out = (if nak then [.replay l ((ack + 1) % 4096)] else []) ++ s.out) ∧
        (nak = true → 8 ≤ naks → t.lstate l ≠ lsUp)) ∧
      (badWords errs = false → poisonWords errs = false → 1 < kind → t.link l = k ∧ t.out = s.out) ∧
      (badWords errs = true ∨ poisonWords errs = true → t.out = .lctl l k.rxAck false k.freed :: s.out) := by
  refine ⟨(ctlBody_kept s hl kind ack nak cred errs).corrected.trans (corrected_pair s l errs), fun hb hp hk hidle => ?_, fun hb hp hk => ?_,
    fun hbad => ?_⟩
  · obtain ⟨hout, hlink⟩ := heard_shows s l ack nak cred errs hidle
    rw [ctlBody_heard s l kind ack nak cred errs hb hp hk]
    generalize (if (s.link l).nakAck = ack then (s.link l).nakIn else 0) + b2n nak = n
    generalize heard s l ack nak cred errs = u at *
    have hcredit {v : Nat} (hv : v < 9) := heardLink_credit (s.link l) ack nak cred hv
    cases nak with
    | false =>
      refine ⟨fun _ => ?_, fun h => (nomatch h)⟩
      rw [Bool.not_false, if_pos rfl, if_neg Bool.false_ne_true, hlink]
      exact ⟨rfl, fun v hv => hcredit hv, hout⟩
    | true =>
      rw [Bool.not_true, if_neg Bool.false_ne_true]
      refine ⟨fun h => ?_, fun _ h8 => ?_⟩
      · have hn : ¬ 8 ≤ n := Nat.not_le.2 (h.resolve_left (by decide))
        rw [if_neg hn, if_pos rfl, show (u.emit (.replay l ((ack + 1) % 4096))).link l = u.link l from rfl, hlink]
        exact ⟨rfl, fun v hv => hcredit hv, congrArg _ hout⟩
      · rw [if_pos h8]
        exact (retrain_shows _ hl).2
  · rw [ctlBody_unknown s l kind ack nak cred errs hb hp hk]
    exact ⟨corrected_link s l errs, corrected_out s l errs⟩
  · rw [ctlBody_bad s l kind ack nak cred errs hbad, sendLctl_out, corrected_link, corrected_out]

/-- Settles O41: each flit is one of `seqBody` or `ctlBody`, on an UP link. -/
theorem flitsAreTakenInOrderOrAskedForAgain : Obligations.FlitsAreTakenInOrderOrAskedForAgain := by
  unfold Obligations.FlitsAreTakenInOrderOrAskedForAgain
  intro s l hon
  have hl : l.val < 128 := l.isLt
  dsimp only
  refine ⟨fun hdown vc b q ack kind nak cred errs c hc => ?_, fun hup => ⟨fun vc b q errs hseq => ?_, fun vc b q errs hctl => ?_,
    fun hnaking hfew => ?_, fun hnaking => ?_, ?_, fun kind ack nak cred errs hctl => ?_⟩⟩
  · simp only [List.mem_cons, List.not_mem_nil, or_false] at hc
    rcases hc with rfl | rfl | rfl | rfl
    · change done s (if s.lstate l.val = lsUp then s.seqFlit l.val vc.val b q.val errs else s) = _
      rw [if_neg hdown, done_self]
    · change done s (if s.lstate l.val = lsUp then s.lctlIn l.val kind.val ack.val nak cred errs else s) = _
      rw [if_neg hdown, done_self]
    · change done s (if s.lstate l.val = lsUp then s.sendLctl l.val false else s) = _
      rw [if_neg hdown, done_self]
    · change done s (if s.lstate l.val = lsUp ∧ (s.link l.val).naking then s.sendNak l.val else s) = _
      rw [if_neg (fun h => hdown h.1), done_self]
  · obtain ⟨hp, hshows⟩ := seqBody_shows s hl hup vc.val b q.val errs
    have hexec : Machine.exec (.seqFlitReceive l vc b q errs) s = done s (s.seqBody l.val vc.val b q.val errs) := by
      change done s (if s.lstate l.val = lsUp then s.seqFlit l.val vc.val b q.val errs else s) = _
      rw [if_pos hup, State.seqFlit, hseq, if_neg Bool.false_ne_true]
    exact ⟨_, hexec.trans (done_kept hon hp), hshows⟩
  · change done s (if s.lstate l.val = lsUp then s.seqFlit l.val vc.val b q.val errs else s) = _
    rw [if_pos hup, State.seqFlit, if_pos hctl, done_on hon]
  · obtain ⟨⟨hp, -⟩, hcount, -, -, hnak, -⟩ := sendNak_shows s hl
    refine ⟨s.sendNak l.val, ?_, (hnak hfew).1, hcount⟩
    change done s (if s.lstate l.val = lsUp ∧ (s.link l.val).naking then s.sendNak l.val else s) = _
    rw [if_pos ⟨hup, hnaking⟩, done_kept hon hp]
  · change done s (if s.lstate l.val = lsUp ∧ (s.link l.val).naking then s.sendNak l.val else s) = _
    rw [if_neg (by simp [hnaking]), done_self]
  · refine ⟨s.sendLctl l.val false, ?_, sendLctl_out s _ _, rfl, sendLctl_link s _ _⟩
    change done s (if s.lstate l.val = lsUp then s.sendLctl l.val false else s) = _
    rw [if_pos hup, done_kept hon (LinkSide.sendLctl (l := l.val) s l.val false).pending]
  · have hexec : Machine.exec (.lctlReceive l kind ack nak cred errs) s = done s (s.ctlBody l.val kind.val ack.val nak cred (errs.drop 1)) := by
      change done s (if s.lstate l.val = lsUp then s.lctlIn l.val kind.val ack.val nak cred errs else s) = _
      rw [if_pos hup, State.lctlIn, hctl, if_pos rfl]
    exact ⟨_, hexec.trans (ctlBody_done hon hl _ _ _ _ _), ctlBody_shows s hl _ _ _ _ _⟩

end Sys2Proof.Flits
end

section
/-! SUPPORT. What a full reset keeps, and what the ROM's choice shows (R388, R391, R394, R398). -/

namespace Sys2Proof.Resets
open Sys2Proof Sys2Proof.Machine Sys2Proof.Laws

/-! ### the ROM (R398) -/

/-- The ROM's choice as it shows: the slot it starts in stage FW, or the stop with FAIL 1. -/
def romShown (f : Fuses) (m : List Host.Cell) (t : State) : Prop :=
  t.boot.chosen = (fwOrder f m).find? (fwSigned m) ∧
    (∀ k, t.boot.chosen = some k → t.stage = 1 ∧ t.fld AON_BOOT_STAT AON_BOOT_STAT_FAIL = 0 ∧
      t.reg AON_FW_VER = fwVersion m k % 2 ^ 32 ∧ t.boot.fwSvn = fwSvn m k) ∧
    (t.boot.chosen = none → t.stage = 15 ∧ t.fld AON_BOOT_STAT AON_BOOT_STAT_FAIL = 1 ∧ t.obs.faultN = true)

/-- The registers that the ROM writes. -/
def romRegs : List Nat := [AON_EVENT, AON_BOOT_STAT, AON_FW_VER] ++ sumRegs AON_EVENT

/-- What the ROM leaves: its registers, its record of the choice and FAULT_N apart, everything; of the events only BOOT_ALT may be raised. -/
structure RomKept (s t : State) : Prop where
  pending : t.pending = s.pending
  mem : t.mem = s.mem
  log : t.obs.log = s.obs.log
  boot : t.boot = { s.boot with chosen := t.boot.chosen, fwSvn := t.boot.fwSvn, fwMeas := t.boot.fwMeas }
  regs : regsKept s t romRegs
  events : ∀ f : Fld, 8 < f.lo → f.w = 1 → t.flag AON_EVENT f = s.flag AON_EVENT f

theorem aonEvent_notMem : AON_EVENT ∉ sumRegs AON_EVENT := pkg_notMem_sumRegs (by decide) (by decide) _
theorem bootStat_notMem : AON_BOOT_STAT ∉ sumRegs AON_EVENT := pkg_notMem_sumRegs (by decide) (by decide) _

namespace RomKept
variable {s t u : State}

theorem trans (h : RomKept s t) (g : RomKept t u) : RomKept s u where
  pending := g.pending.trans h.pending
  mem := g.mem.trans h.mem
  log := g.log.trans h.log
  boot := by rw [g.boot, h.boot]
  regs := regsKept_trans h.regs g.regs
  events := fun f h8 h1 => (g.events f h8 h1).trans (h.events f h8 h1)
theorem of_onlyRegs (h : onlyRegs s t) (hr : regsKept s t romRegs)
    (he : ∀ f : Fld, 8 < f.lo → f.w = 1 → t.flag AON_EVENT f = s.flag AON_EVENT f) :
    RomKept s t where
  pending := onlyRegs_pending h
  mem := onlyRegs_mem h
  log := congrArg Observe.log (onlyRegs_obs h)
  boot := by rw [onlyRegs_boot h]
  regs := hr
  events := he
theorem setReg (s : State) {a : Nat} (ha : a ∈ romRegs) (hne : AON_EVENT ≠ a) (v : Nat) : RomKept s (s.setReg a v) :=
  of_onlyRegs (onlyRegs_setReg s a v) (regsKept_setReg s ha v) fun f _ _ => flag_of_reg (reg_setReg_other s hne v) f
theorem setStat (s : State) (f : Fld) (v : Nat) : RomKept s (s.setFld AON_BOOT_STAT f v) := setReg s (by decide) (by decide) _
theorem raiseAlt (s : State) : RomKept s (s.raise AON_EVENT AON_EVENT_BOOT_ALT) := by
  refine of_onlyRegs (onlyRegs_raiseMask s _ _) (fun a ha => ?_) fun f h8 h1 => ?_
  · exact raise_reg s _ (fun h => ha (List.mem_append_right _ h)) (fun h => ha (List.mem_append_left _ (h ▸ List.mem_cons_self)))
  · rw [State.raise, raiseMask_flag s _ aonEvent_notMem (by decide) (by decide) (by omega) h1,
      Nat.testBit_two_pow_of_ne (by simpa using by omega), Bool.or_false]

end RomKept

theorem RomKept.note (s : State) (o : List Output) (b : Boot) (x : Observe) (hl : x.log = s.obs.log)
    (hb : b = { s.boot with chosen := b.chosen, fwSvn := b.fwSvn, fwMeas := b.fwMeas }) :
    RomKept s { s with out := o, boot := b, obs := x } := ⟨rfl, rfl, hl, hb, fun _ _ => rfl, fun _ _ _ => rfl⟩

/-- Stage and FAIL as they are shown together. -/
theorem bootStat_shows (s : State) (st fl : Nat) :
    RomKept s ((s.setFld AON_BOOT_STAT AON_BOOT_STAT_STAGE st).setFld AON_BOOT_STAT AON_BOOT_STAT_FAIL fl) ∧
      ((s.setFld AON_BOOT_STAT AON_BOOT_STAT_STAGE st).setFld AON_BOOT_STAT AON_BOOT_STAT_FAIL fl).stage = st % 16 ∧
      ((s.setFld AON_BOOT_STAT AON_BOOT_STAT_STAGE st).setFld AON_BOOT_STAT AON_BOOT_STAT_FAIL fl).fld AON_BOOT_STAT AON_BOOT_STAT_FAIL =
        fl % 16 :=
  ⟨(RomKept.setStat s _ st).trans (RomKept.setStat _ _ fl),
    (fld_setFld_other _ _ _ (by decide) (by decide)).trans (fld_setFld_same s _ _ st (by decide)), fld_setFld_same _ _ _ fl (by decide)⟩

/-- The ROM's choice. -/
theorem romChoose_shows (s : State) : RomKept s s.romChoose ∧ (s.boot.chosen = none → romShown s.boot.fuses s.boot.nvm s.romChoose) := by
  unfold State.romChoose
  dsimp only
  split
  case h_1 hnone =>
    obtain ⟨hkept, hstage, hfail⟩ := bootStat_shows s 15 1
    have hboot := onlyRegs_boot (onlyRegs_trans (onlyRegs_setFld s AON_BOOT_STAT AON_BOOT_STAT_STAGE 15)
      (onlyRegs_setFld _ AON_BOOT_STAT AON_BOOT_STAT_FAIL 1))
    generalize (s.setFld AON_BOOT_STAT AON_BOOT_STAT_STAGE 15).setFld AON_BOOT_STAT AON_BOOT_STAT_FAIL 1 = u at *
    have hchosen (t : State) (hb : t.boot = u.boot) (hr : t.reg AON_BOOT_STAT = u.reg AON_BOOT_STAT) (hf : t.obs.faultN = true)
        (h : s.boot.chosen = none) : romShown s.boot.fuses s.boot.nvm t := by
      have hc : t.boot.chosen = none := by rw [hb, hboot, h]
      exact ⟨hc.trans hnone.symm, fun k hk => absurd (hc.symm.trans hk) (by simp), fun _ =>
        ⟨(fld_of_reg hr _).trans hstage, (fld_of_reg hr _).trans hfail, hf⟩⟩
    split
    case isTrue hf => exact ⟨hkept, hchosen u rfl rfl hf⟩
    case isFalse => exact ⟨hkept.trans (.note u _ _ _ rfl rfl), hchosen _ rfl rfl rfl⟩
  case h_2 slot hsome =>
    have hslot := (RomKept.setStat s AON_BOOT_STAT_FW_SLOT slot).trans (RomKept.setStat _ AON_BOOT_STAT_KEY_SLOT (fwKeySlot s.boot.nvm slot))
    generalize (s.setFld AON_BOOT_STAT AON_BOOT_STAT_FW_SLOT slot).setFld AON_BOOT_STAT AON_BOOT_STAT_KEY_SLOT _ = u at *
    obtain ⟨hkept, hstage, hfail⟩ := bootStat_shows u 1 0
    generalize (u.setFld AON_BOOT_STAT AON_BOOT_STAT_STAGE 1).setFld AON_BOOT_STAT AON_BOOT_STAT_FAIL 0 = v at *
    have hver := RomKept.setReg v (a := AON_FW_VER) (by decide) (by decide) (fwVersion s.boot.nvm slot)
    have hreg := reg_setReg_same v AON_FW_VER (fwVersion s.boot.nvm slot)
    have hstat := reg_setReg_other v (a := AON_FW_VER) (b := AON_BOOT_STAT) (by decide) (fwVersion s.boot.nvm slot)
    generalize v.setReg AON_FW_VER (fwVersion s.boot.nvm slot) = w at *
    have halt : RomKept w (if (fwOrder s.boot.fuses s.boot.nvm).head? = some slot then w else w.raise AON_EVENT AON_EVENT_BOOT_ALT) ∧
        ∀ a ∈ [AON_BOOT_STAT, AON_FW_VER],
          (if (fwOrder s.boot.fuses s.boot.nvm).head? = some slot then w else w.raise AON_EVENT AON_EVENT_BOOT_ALT).reg a = w.reg a := by
      split
      · exact ⟨.of_onlyRegs rfl (regsKept_refl w _) fun _ _ _ => rfl, fun _ _ => rfl⟩
      · exact ⟨.raiseAlt w, by simp only [List.forall_mem_cons]; exact
          ⟨raise_reg w _ bootStat_notMem (by decide), raise_reg w _ (pkg_notMem_sumRegs (by decide) (by decide) _) (by decide), by simp⟩⟩
    generalize (if (fwOrder s.boot.fuses s.boot.nvm).head? = some slot then w else w.raise AON_EVENT AON_EVENT_BOOT_ALT) = z at *
    obtain ⟨hz, hshown⟩ := halt
    have hstat' : z.reg AON_BOOT_STAT = v.reg AON_BOOT_STAT := (hshown _ (by simp)).trans hstat
    refine ⟨hslot.trans (hkept.trans (hver.trans (hz.trans (.note z _ _ _ rfl rfl)))),
      fun _ => ⟨hsome.symm, fun k hk => ?_, fun h => (nomatch h)⟩⟩
    obtain rfl : slot = k := Option.some.inj hk
    exact ⟨(fld_of_reg hstat' _).trans hstage, (fld_of_reg hstat' _).trans hfail, (hshown AON_FW_VER (by simp)).trans hreg, rfl⟩

/-! ### a full reset (R388) -/

/-- What lies behind the host window stays over a reset, and nothing else of memory. -/
theorem hostCells_get (m : List Host.Cell) (a : Nat) :
    mapGet (fun _ => (0 : Byte)) a (hostCells m) = if a < hwBase then 0 else mapGet (fun _ => 0) a m := by
  unfold hostCells
  split
  case isTrue h =>
    refine mapGet_unlisted _ a _ fun e he => ?_
    have hk := of_decide_eq_true (List.mem_filter.1 he).2
    omega
  case isFalse h => exact mapGet_filter_key _ _ m fun _ => decide_eq_true (by omega)

/-- Every domain reset, before anything is written anew. -/
def coldState (s : State) (b : Boot) (keep : List (Nat × Word)) (log : List FaultRec) : State :=
  { State.reset with
    pending := s.pending, out := s.out, freeN := s.freeN, mem := hostCells s.mem, poison := hostBeats s.poison,
    regs := keep, boot := b, obs := { log := log } }

/-- The cause and the fuses shown. -/
def coldShown (s : State) (b : Boot) (keep : List (Nat × Word)) (log : List FaultRec) (cause : Nat) : State :=
  ((coldState s b keep log).setFld AON_RST_CAUSE AON_RST_CAUSE_CAUSE cause).showFuses

/-- The registers that a full reset leaves otherwise than at their reset values. -/
def coldRegs : List Nat := [AON_RST_CAUSE, AON_EVENT, AON_BOOT_STAT, AON_FW_VER, AON_FUSE_KEYS, AON_FUSE_SEC] ++ sumRegs AON_EVENT

theorem romRegs_subset : romRegs ⊆ coldRegs := by
  intro a ha
  simp only [romRegs, coldRegs, List.mem_append, List.mem_cons, List.not_mem_nil, or_false] at ha ⊢
  tauto

section
variable (s : State) (b : Boot) (keep : List (Nat × Word)) (log : List FaultRec) (cause : Nat)

theorem coldReset_eq : s.coldReset b keep log cause =
    if b.perst then coldShown s b keep log cause else (coldShown s b keep log cause).romChoose := rfl

theorem coldShown_onlyRegs : onlyRegs (coldState s b keep log) (coldShown s b keep log cause) :=
  onlyRegs_trans (onlyRegs_setFld _ _ _ _) (onlyRegs_trans (onlyRegs_setReg _ _ _) (onlyRegs_setReg _ _ _))

theorem showFuses_reg (t : State) {a : Nat} (hk : a ≠ AON_FUSE_KEYS) (hs : a ≠ AON_FUSE_SEC) : t.showFuses.reg a = t.reg a :=
  (reg_setReg_other _ hs _).trans (reg_setReg_other t hk _)

theorem coldShown_reg {a : Nat} (hc : a ≠ AON_RST_CAUSE) (hk : a ≠ AON_FUSE_KEYS) (hs : a ≠ AON_FUSE_SEC) :
    (coldShown s b keep log cause).reg a = (mapGet regReset a keep).toNat :=
  (showFuses_reg _ hk hs).trans (reg_setFld_other _ hc _ _)

theorem coldShown_cause (f : Fld) :
    (coldShown s b keep log cause).fld AON_RST_CAUSE AON_RST_CAUSE_CAUSE = cause % 4 ∧
      (2 ≤ f.lo → (coldShown s b keep log cause).fld AON_RST_CAUSE f = (coldState s b keep log).fld AON_RST_CAUSE f) := by
  have hreg := showFuses_reg ((coldState s b keep log).setFld AON_RST_CAUSE AON_RST_CAUSE_CAUSE cause) (a := AON_RST_CAUSE) (by decide) (by decide)
  exact ⟨(fld_of_reg hreg _).trans (fld_setFld_same _ _ _ cause (by decide)),
    fun h2 => (fld_of_reg hreg f).trans (fld_setFld_other _ _ cause (by decide) (.inl h2))⟩

/-- What a full reset leaves. -/
theorem coldReset_kept : RomKept (coldShown s b keep log cause) (s.coldReset b keep log cause) ∧
    (b.perst = true → s.coldReset b keep log cause = coldShown s b keep log cause) ∧
    (b.perst = false → b.chosen = none → romShown b.fuses b.nvm (s.coldReset b keep log cause)) := by
  rw [coldReset_eq]
  have hboot : (coldShown s b keep log cause).boot = b := onlyRegs_boot (coldShown_onlyRegs s b keep log cause)
  generalize coldShown s b keep log cause = t at *
  obtain ⟨hkept, hrom⟩ := romChoose_shows t
  rw [hboot] at hrom
  split
  · exact ⟨.of_onlyRegs rfl (regsKept_refl t _) fun _ _ _ => rfl, fun _ => rfl, fun h => absurd (h.symm.trans ‹b.perst = true›) (by decide)⟩
  · exact ⟨hkept, fun h => absurd h ‹¬b.perst = true›, fun _ => hrom⟩

end

/-- What every full reset keeps: the fuses, the NVM and what lies behind the host window. -/
def fullKept (s t : State) : Prop :=
  t.pending = s.pending ∧ t.boot.on = true ∧ t.boot.fuses = s.boot.fuses ∧ t.boot.nvm = s.boot.nvm ∧
    t.boot.cfg = [] ∧ t.boot.pcie = false ∧ (∀ a, byteAt t a = if a < hwBase then 0 else byteAt s a) ∧
    (∀ a, a ∉ coldRegs → t.reg a = (regReset a).toNat)

/-- A full reset with a boot record of its own, which keeps at most the cause and the events. -/
theorem coldReset_full (s : State) (perst : Bool) (keep : List (Nat × Word)) (log : List FaultRec) (cause : Nat)
    (hkeep : ∀ a, a ∉ coldRegs → mapGet regReset a keep = regReset a) :
    let b : Boot := { fuses := s.boot.fuses, nvm := s.boot.nvm, scan := s.boot.scan, perst := perst }
    let t := s.coldReset b keep log cause
    fullKept s t ∧ t.boot.perst = perst ∧ t.obs.log = log ∧
      (perst = true → t.stage = bits (mapGet regReset AON_BOOT_STAT keep).toNat 0 4 ∧ t.boot.chosen = none) ∧
      (perst = false → romShown s.boot.fuses s.boot.nvm t) ∧ t.fld AON_RST_CAUSE AON_RST_CAUSE_CAUSE = cause % 4 ∧
      t.fld AON_RST_CAUSE AON_RST_CAUSE_WARMS = bits (mapGet regReset AON_RST_CAUSE keep).toNat 8 8 ∧
      (∀ f : Fld, 8 < f.lo → f.w = 1 → t.flag AON_EVENT f = (bits (mapGet regReset AON_EVENT keep).toNat f.lo f.w != 0)) := by
  dsimp only
  generalize hb : ({ fuses := s.boot.fuses, nvm := s.boot.nvm, scan := s.boot.scan, perst := perst } : Boot) = b
  obtain ⟨hkept, hheld, hrom⟩ := coldReset_kept s b keep log cause
  have honly := coldShown_onlyRegs s b keep log cause
  have hcause := hkept.regs AON_RST_CAUSE (by decide)
  obtain ⟨hc, hw⟩ := coldShown_cause s b keep log cause AON_RST_CAUSE_WARMS
  have hpend := hkept.pending.trans (onlyRegs_pending honly)
  have hmem := hkept.mem.trans (onlyRegs_mem honly)
  have hlog := hkept.log.trans (congrArg Observe.log (onlyRegs_obs honly))
  have hboot := hkept.boot
  rw [onlyRegs_boot honly] at hboot
  change _ = { b with chosen := _, fwSvn := _, fwMeas := _ } at hboot
  have hperst : b.perst = perst := by rw [← hb]
  refine ⟨⟨hpend, ?_, ?_, ?_, ?_, ?_, fun a => ?_, fun a ha => ?_⟩, ?_, hlog, fun hp => ?_, fun hp => ?_, (fld_of_reg hcause _).trans hc,
    (fld_of_reg hcause _).trans (hw (by decide)), fun f h8 h1 => ?_⟩
  · rw [hboot, ← hb]
  · rw [hboot, ← hb]
  · rw [hboot, ← hb]
  · rw [hboot, ← hb]
  · rw [hboot, ← hb]
  · rw [byteAt, hmem]; exact hostCells_get s.mem a
  · have hne {r : Nat} (hr : r ∈ coldRegs) : a ≠ r := fun h => ha (h ▸ hr)
    rw [hkept.regs a fun h => ha (romRegs_subset h),
      coldShown_reg s b keep log cause (hne (by decide)) (hne (by decide)) (hne (by decide)), hkeep a ha]
  · rw [hboot]; exact hperst
  · rw [hheld (hperst.trans hp)]
    exact ⟨congrArg (fun v => bits v 0 4) (coldShown_reg s b keep log cause (by decide) (by decide) (by decide)), by
      rw [onlyRegs_boot honly, coldState, ← hb]⟩
  · subst hb
    exact hrom hp rfl
  · exact (hkept.events f h8 h1).trans (congrArg (fun v => bits v f.lo f.w != 0)
      (coldShown_reg s b keep log cause (by decide) (by decide) (by decide)))

theorem doneAlways_kept {s t : State} (hp : t.pending = s.pending) : doneAlways s t = .next t := by rw [doneAlways, ← hp]

/-- POWER-ON. -/
theorem powerOn_shows (s : State) : ∃ t, Machine.exec .powerOnReset s = .next t ∧ fullKept s t ∧ t.boot.perst = true ∧ t.obs.log = [] ∧
    t.stage = 0 ∧ t.boot.chosen = none ∧ t.fld AON_RST_CAUSE AON_RST_CAUSE_CAUSE = 0 := by
  obtain ⟨hfull, hperst, hlog, hheld, -, hcause, -, -⟩ := coldReset_full s true [] [] 0 fun _ _ => rfl
  obtain ⟨hstage, hchosen⟩ := hheld rfl
  exact ⟨_, doneAlways_kept hfull.1, hfull, hperst, hlog, hstage.trans (by decide), hchosen, hcause⟩

/-- FUNDAMENTAL, by PERST_N or over the link. -/
theorem fundReset_shows {s : State} (hon : s.boot.on = true) (hot : Bool) (hlink : hot = true → s.flag HIF_STAT HIF_STAT_LINK_UP = true) :
    ∃ t, Machine.exec (.fundamentalReset hot) s = .next t ∧ fullKept s t ∧ t.boot.perst = (s.boot.perst || !hot) ∧
      (t.boot.perst = true → t.stage = 0 ∧ t.boot.chosen = none) ∧ (t.boot.perst = false → romShown s.boot.fuses s.boot.nvm t) ∧
      t.obs.log = s.obs.log ∧ t.fld AON_RST_CAUSE AON_RST_CAUSE_CAUSE = (if hot then 2 else 1) ∧
      t.fld AON_RST_CAUSE AON_RST_CAUSE_WARMS = s.fld AON_RST_CAUSE AON_RST_CAUSE_WARMS ∧
      (∀ f : Fld, 8 < f.lo → f.w = 1 → t.flag AON_EVENT f = s.flag AON_EVENT f) := by
  generalize hk : s.regs.filter (fun e => e.1 == AON_RST_CAUSE || e.1 == AON_EVENT) = keep
  have hlost (a : Nat) (hc : a ≠ AON_RST_CAUSE) (he : a ≠ AON_EVENT) : mapGet regReset a keep = regReset a := by
    refine mapGet_unlisted _ a _ fun e hmem => ?_
    have hkey := (List.mem_filter.1 (hk ▸ hmem)).2
    rw [Bool.or_eq_true, beq_iff_eq, beq_iff_eq] at hkey
    exact fun h => hkey.elim (fun g => hc (h.symm.trans g)) fun g => he (h.symm.trans g)
  have hstays (a : Nat) (h : a = AON_RST_CAUSE ∨ a = AON_EVENT) : mapGet regReset a keep = mapGet regReset a s.regs := by
    rw [← hk]
    exact mapGet_filter_key _ _ _ fun _ => by rw [Bool.or_eq_true, beq_iff_eq, beq_iff_eq]; exact h
  obtain ⟨hfull, hperst, hlog, hheld, hrom, hcause, hwarms, hevents⟩ := coldReset_full s (if hot then s.boot.perst else true) keep s.obs.log
    (if hot then 2 else 1) fun a ha => hlost a (fun h => ha (h ▸ by decide)) (fun h => ha (h ▸ by decide))
  rw [hlost AON_BOOT_STAT (by decide) (by decide)] at hheld
  rw [hstays _ (.inl rfl)] at hwarms
  rw [hstays _ (.inr rfl)] at hevents
  have hexec : Machine.exec (.fundamentalReset hot) s = done s (s.fundReset hot) := by
    change done s (if (hot && !s.flag HIF_STAT HIF_STAT_LINK_UP) = true then s else s.fundReset hot) = _
    rw [if_neg]
    cases hot with
    | false => exact Bool.false_ne_true
    | true => rw [hlink rfl]; decide
  rw [State.fundReset, hk] at hexec
  refine ⟨_, hexec.trans (done_kept hon hfull.1), hfull, ?_, ?_, ?_, hlog, ?_, hwarms, hevents⟩
  · rw [hperst]; cases hot <;> simp
  · exact fun h => ⟨(hheld (hperst.symm.trans h)).1.trans (by decide), (hheld (hperst.symm.trans h)).2⟩
  · exact fun h => hrom (hperst.symm.trans h)
  · rw [hcause]; cases hot <;> rfl

/-- PERST_N deasserted, before the ROM runs. -/
def perstHigh (s : State) : State := { s with boot := { s.boot with perst := false } }

theorem perstUp_eq {s : State} (hp : s.boot.perst = true) :
    s.perstUp = if s.stage = 0 ∧ s.boot.chosen.isNone then (perstHigh s).romChoose else perstHigh s := by
  rw [State.perstUp, hp, if_neg (by decide)]
  rfl

/-- PERST_N is deasserted. -/
theorem perstUp_shows {s : State} (hon : s.boot.on = true) (hp : s.boot.perst = true) :
    ∃ t, Machine.exec .perstNDeassert s = .next t ∧ t.boot.perst = false ∧ t.mem = s.mem ∧
      (s.stage = 0 → s.boot.chosen = none → romShown s.boot.fuses s.boot.nvm t) ∧
      (s.stage ≠ 0 ∨ s.boot.chosen ≠ none → t = { s with boot := { s.boot with perst := false } }) := by
  have hexec : Machine.exec .perstNDeassert s = done s s.perstUp := rfl
  rw [perstUp_eq hp] at hexec
  by_cases hrun : s.stage = 0 ∧ s.boot.chosen = none
  · obtain ⟨hkept, hrom⟩ := romChoose_shows (perstHigh s)
    rw [if_pos (by rwa [Option.isNone_iff_eq_none])] at hexec
    exact ⟨_, hexec.trans (done_kept hon hkept.pending), by rw [hkept.boot, perstHigh], hkept.mem, fun _ hc => hrom hc,
      fun h => absurd hrun (by tauto)⟩
  · rw [if_neg (by rwa [Option.isNone_iff_eq_none])] at hexec
    exact ⟨_, hexec.trans (done_kept hon rfl), rfl, rfl, fun h1 h2 => absurd ⟨h1, h2⟩ hrun, fun _ => rfl⟩

end Sys2Proof.Resets
end

section
/-! SUPPORT. What reading the configuration, and the journal's work with it, leave of the device (R390, R400 to R405). -/

namespace Sys2Proof.Resets
open Sys2Proof Sys2Proof.Machine Sys2Proof.Laws

/-! ### answers of the Foreman (R378, R382) -/

/-- A register below BAR4 that is no summary is no part of an answer of the Foreman. -/
theorem f2hPush_reg (s : State) (m w : Nat) {a : Nat} (hlt : a < bar4Base) (hs : ∀ b, a ∉ sumRegs b) :
    (s.f2hPush m w).reg a = s.reg a := by
  have hbox (r : Nat) : a ≠ bar4Base + r := by omega
  have hstat : a ≠ F2H_STAT m := by unfold F2H_STAT; rw [Nat.add_assoc]; exact hbox _
  have hdata : a ≠ F2H_DATA m := by unfold F2H_DATA; rw [Nat.add_assoc]; exact hbox _
  have htiming : a ≠ H2F_STAT m := by unfold H2F_STAT; rw [Nat.add_assoc]; exact hbox _
  have event (t : State) (f : Fld) : (t.raise MBX_EVENT f).reg a = t.reg a := raise_reg t f (hs _) (hbox _)
  have hfull (t : State) : (t.f2hFull m true).reg a = t.reg a := by
    refine f2hFull_regs t m true a fun h => ?_
    rcases List.mem_cons.1 h with h | h
    · exact hstat h
    · exact (List.mem_cons.1 h).elim (hbox _) (pba_sum (hs 0))
  have hput (t : State) : (t.f2hPut m w).reg a = t.reg a := by
    unfold State.f2hPut
    dsimp only
    split
    · exact (hfull _).trans (reg_setReg_other t hdata w)
    · split
      · exact reg_setFld_other _ hstat _ _
      · exact (event _ _).trans (reg_setFlag_other _ hstat _ _)
  unfold State.f2hPush
  split
  · exact (event _ _).trans (reg_setFld_other _ (hbox _) _ _)
  · exact (hput _).trans (reg_setFlag_other s htiming _ _)

/-! ### the frame -/

/-- The registers of start-up that the configuration does not touch. -/
def startRegs : List Nat := [AON_RST_CAUSE, AON_BOOT_STAT, PKG_PD_STAT 0]

/-- The records of start-up and of the journal that the configuration's reading writes. -/
def Boot.like (b c : Boot) : Prop :=
  c = { b with nvm := c.nvm, cfg := c.cfg, ideReq := c.ideReq, erase := c.erase, compact := c.compact, held := c.held,
               mustCompact := c.mustCompact }

theorem Boot.like_refl (b : Boot) : Boot.like b b := rfl
theorem Boot.like_trans {b c e : Boot} (h : Boot.like b c) (g : Boot.like c e) : Boot.like b e := by
  unfold Boot.like at *
  rw [g, h]

/-- What the configuration leaves: of the device's records only those of the journal, the mailboxes and the fabric's tags differ; the cause
of the reset, the stage, the domains and whether a step runs show as before, and no event of the AON unit is taken back. -/
structure ConfSide (s t : State) : Prop where
  rest : t = { s with regs := t.regs, out := t.out, freeN := t.freeN, hif := t.hif, fab := t.fab, boot := t.boot }
  boot : Boot.like s.boot t.boot
  regs : ∀ a ∈ startRegs, t.reg a = s.reg a
  running : t.running = s.running
  events : ∀ f : Fld, 8 ≤ f.lo → f.w = 1 → s.flag AON_EVENT f = true → t.flag AON_EVENT f = true

namespace ConfSide
variable {s t u : State}

theorem refl (s : State) : ConfSide s s := ⟨rfl, rfl, fun _ _ => rfl, rfl, fun _ _ _ h => h⟩
theorem trans (h : ConfSide s t) (g : ConfSide t u) : ConfSide s u where
  rest := by rw [g.rest, h.rest]
  boot := Boot.like_trans h.boot g.boot
  regs := fun a ha => (g.regs a ha).trans (h.regs a ha)
  running := g.running.trans h.running
  events := fun f h8 h1 hf => g.events f h8 h1 (h.events f h8 h1 hf)
theorem ite {p : Prop} [Decidable p] (h : p → ConfSide s t) (g : ¬p → ConfSide s u) : ConfSide s (if p then t else u) := by
  split
  · exact h ‹_›
  · exact g ‹_›
theorem foldl {α : Type} {f : State → α → State} (hf : ∀ s a, ConfSide s (f s a)) (xs : List α) (s : State) :
    ConfSide s (xs.foldl f s) := by
  induction xs generalizing s with
  | nil => exact refl s
  | cons x xs ih => exact (hf s x).trans (ih _)

theorem pending (h : ConfSide s t) : t.pending = s.pending := by rw [h.rest]
theorem mem (h : ConfSide s t) : t.mem = s.mem := by rw [h.rest]
theorem stage (h : ConfSide s t) : t.stage = s.stage := fld_of_reg (h.regs _ (by decide)) _

theorem of_onlyRegs (h : onlyRegs s t) (hr : ∀ a ∈ startRegs, t.reg a = s.reg a) (hrun : t.running = s.running)
    (he : ∀ f : Fld, 8 ≤ f.lo → f.w = 1 → s.flag AON_EVENT f = true → t.flag AON_EVENT f = true) : ConfSide s t where
  rest := by unfold onlyRegs at h; rw [h]
  boot := by rw [onlyRegs_boot h]; exact Boot.like_refl _
  regs := hr
  running := hrun
  events := he

/-- Every register but those written reads as before, and those are none that the frame speaks of. -/
theorem of_quiet (hr : t = { s with regs := t.regs, out := t.out, freeN := t.freeN, hif := t.hif, fab := t.fab, boot := t.boot })
    (hb : Boot.like s.boot t.boot) (h : ∀ a ∈ STEP_STAT :: AON_EVENT :: startRegs, t.reg a = s.reg a) : ConfSide s t where
  rest := hr
  boot := hb
  regs := fun a ha => h a (List.mem_cons_of_mem _ (List.mem_cons_of_mem _ ha))
  running := flag_of_reg (h _ List.mem_cons_self) _
  events := fun f _ _ hf => (flag_of_reg (h _ (List.mem_cons_of_mem _ List.mem_cons_self)) f).trans hf

theorem setReg (s : State) {a : Nat} (h : a ∉ STEP_STAT :: AON_EVENT :: startRegs) (v : Nat) : ConfSide s (s.setReg a v) :=
  of_quiet rfl rfl fun _ hb => reg_setReg_other s (ne_of_mem_of_not_mem hb h) v

/-- The outside, the free numbers, the mailboxes, the fabric's tags and the journal. -/
theorem note (s : State) (o : List Output) (n : Nat) (h : HostIf) (f : Fabric) {b : Boot} (hb : Boot.like s.boot b) :
    ConfSide s { s with out := o, freeN := n, hif := h, fab := f, boot := b } := of_quiet rfl hb fun _ _ => rfl
theorem journal (s : State) {b : Boot} (hb : Boot.like s.boot b) : ConfSide s { s with boot := b } := note s _ _ _ _ hb

theorem low {a : Nat} (h : a ∈ STEP_STAT :: AON_EVENT :: startRegs) : a < 0x1000000 ∧ a ≠ PKG_EVENT_SUM := by
  revert a; decide
theorem high {a : Nat} (h : 0x1000000 ≤ a) : a ∉ STEP_STAT :: AON_EVENT :: startRegs := fun ha => by have := (low ha).1; omega

theorem raiseAon (s : State) {f : Fld} (h8 : 8 ≤ f.lo) (hl : f.lo < 32) : ConfSide s (s.raise AON_EVENT f) := by
  have honly := onlyRegs_raiseMask s AON_EVENT (2 ^ f.lo)
  have hreg {a : Nat} (ha : a ∈ STEP_STAT :: AON_EVENT :: startRegs) (hne : a ≠ AON_EVENT) : (s.raise AON_EVENT f).reg a = s.reg a :=
    raise_reg s f (pkg_notMem_sumRegs (low ha).1 (low ha).2 _) hne
  have hm : 2 ^ f.lo % 256 = 0 := by
    obtain ⟨k, hk⟩ := Nat.exists_eq_add_of_le h8
    rw [hk, pow_add]; exact Nat.mul_mod_right 256 _
  refine of_onlyRegs honly (fun a ha => ?_) (flag_of_reg (hreg (by decide) (by decide)) _) fun g hg8 hg1 hg => ?_
  · exact hreg (List.mem_cons_of_mem _ (List.mem_cons_of_mem _ ha)) (ne_of_mem_of_not_mem ha (by decide))
  · rw [State.raise, raiseMask_flag s _ aonEvent_notMem hm (Nat.pow_lt_pow_right (by decide) hl) hg8 hg1, hg, Bool.true_or]

theorem send (s : State) (p : Packet) (u : TagUse) : ConfSide s (s.send p u) := note s _ _ _ _ rfl
theorem f2hPush (s : State) (m w : Nat) : ConfSide s (s.f2hPush m w) := by
  obtain ⟨h, ho⟩ := StepRun.f2hPush_rest s m w
  have hreg {a : Nat} (ha : a ∈ STEP_STAT :: AON_EVENT :: startRegs) : (s.f2hPush m w).reg a = s.reg a :=
    f2hPush_reg s m w (by have := (low ha).1; unfold bar4Base; omega) fun b => pkg_notMem_sumRegs (low ha).1 (low ha).2 b
  generalize s.f2hPush m w = t at *
  exact of_quiet (by unfold onlyRegs at ho; rw [ho]) (by rw [onlyRegs_boot ho]; rfl) fun _ => hreg
theorem answer (s : State) (m : Nat) (src : CmdSrc) (w : Nat) : ConfSide s (s.answer m src w) := by
  cases src with
  | own v => exact f2hPush s m w
  | forwarded c => exact send s _ _
  | sideband v => exact note s _ _ _ _ rfl

end ConfSide

namespace ConfSide

/-! ### the journal (R403 to R405) -/

theorem programImage (s : State) (c : Compaction) : ConfSide s (s.programImage c) := journal s rfl
theorem cfgStat (s : State) (f : Fld) (v : Nat) : ConfSide s (s.setFld AON_CFG_STAT f v) := setReg s (by decide) _
theorem startCompact (s : State) (image : List Byte) (target : Nat) (src : Option CmdSrc) : ConfSide s (s.startCompact image target src) := by
  unfold State.startCompact
  dsimp only
  refine (cfgStat s AON_CFG_STAT_COMPACTING (b2n true)).trans (ite (fun _ => ?_) fun _ => programImage _ _)
  exact journal _ rfl
theorem compactNow (s : State) : ConfSide s s.compactNow := ite (fun _ => refl s) fun _ => startCompact s _ _ _
theorem holdAppend (s : State) (a : Append) : ConfSide s (s.holdAppend a) := by
  refine trans ?_ (cfgStat _ _ _)
  exact journal s rfl
theorem append (s : State) (x : Append) : ConfSide s (s.append x) := by
  unfold State.append
  dsimp only
  refine ite (fun _ => (holdAppend s x).trans (compactNow _)) fun _ => ite (fun _ => ?_) fun _ => ?_
  · refine trans ?_ (ite (fun _ => compactNow _) fun _ => refl _)
    refine trans ?_ (answer _ _ _ _)
    refine trans ?_ (setReg _ (by decide) _)
    refine trans ?_ (cfgStat _ _ _)
    exact journal s rfl
  · refine trans ?_ (compactNow _)
    refine trans ?_ (answer _ _ _ _)
    refine trans ?_ (raiseAon _ (by decide) (by decide))
    refine trans ?_ (cfgStat _ _ _)
    exact note s s.out (s.freeN + 1) s.hif s.fab rfl
theorem writeOne (s : State) (a : Append) : ConfSide s (s.writeOne a) :=
  ite (fun _ => holdAppend s a) fun _ => ite (fun _ => answer s _ _ _) fun _ => append s a
theorem writeHeld (s : State) : ConfSide s s.writeHeld := by
  refine trans ?_ (foldl writeOne _ _)
  refine trans ?_ (cfgStat _ _ _)
  exact journal s rfl
theorem abandonCompact (s : State) : ConfSide s s.abandonCompact := by
  unfold State.abandonCompact
  split
  case h_1 => exact refl s
  case h_2 c _ =>
    have hraise : ConfSide s (State.raise { s with boot := { s.boot with compact := none } } AON_EVENT AON_EVENT_COMPACT_ABANDONED) := by
      refine trans ?_ (raiseAon _ (by decide) (by decide))
      exact journal s rfl
    dsimp only
    split
    · exact hraise.trans (answer _ _ _ _)
    · exact hraise

/-! ### the configuration (R390, R400) -/

theorem applyPorts (s : State) : ConfSide s s.applyPorts := by
  unfold State.applyPorts
  refine (foldl (fun t l => setReg t ?_ _) _ s).trans (foldl (fun t k => foldl (fun u i => setReg u ?_ _) _ t) _ _)
  · exact high (by unfold lnkStat LNK_STAT ldBase; omega)
  · exact high (by unfold LD_TRUNK ldBase; omega)
theorem updHold (s : State) : ConfSide s s.updHold := by
  refine ite (fun _ => refl s) fun _ => ?_
  have hreg {a : Nat} (ha : a ∈ AON_EVENT :: startRegs) (b : Bool) : (s.setFlag STEP_STAT STEP_STAT_HOLD b).reg a = s.reg a :=
    reg_setFlag_other s (ne_of_mem_of_not_mem ha (by decide)) _ b
  have honly (b : Bool) := onlyRegs_setFlag s STEP_STAT STEP_STAT_HOLD b
  exact of_onlyRegs (honly _) (fun a ha => hreg (List.mem_cons_of_mem _ ha) _) (flag_setFld_other s _ _ (by decide) (by decide))
    fun f _ _ hf => (flag_of_reg (hreg List.mem_cons_self _) f).trans hf
theorem setHostPath (s : State) : ConfSide s s.setHostPath := (setReg s (by decide) _).trans (updHold _)
theorem applyCfg (s : State) : ConfSide s s.applyCfg := by
  unfold State.applyCfg
  dsimp only
  refine trans ?_ (setHostPath _)
  refine trans ?_ (journal _ rfl)
  refine trans ?_ (applyPorts _)
  refine trans ?_ (setReg _ (by decide) _)
  refine trans ?_ (setReg _ (by decide) _)
  refine trans ?_ (foldl (fun t k => trans (setReg t ?_ _) (setReg _ ?_ _)) _ _)
  · exact (setReg s (a := PKG_ROLE) (by decide) _).trans (setReg _ (by decide) _)
  · exact high (by unfold LD_DEVID ldBase; omega)
  · exact high (by unfold LD_GEOM ldBase; omega)

end ConfSide

/-! ### the configuration read (R400, R402) -/

theorem applyPorts_onlyRegs (s : State) : onlyRegs s s.applyPorts :=
  onlyRegs_trans (onlyRegs_foldl (fun t _ => onlyRegs_setFld t _ _ _) _ s)
    (onlyRegs_foldl (fun t _ => onlyRegs_foldl (fun u _ => onlyRegs_setReg u _ _) _ t) _ _)
theorem setHostPath_onlyRegs (s : State) : onlyRegs s s.setHostPath :=
  onlyRegs_trans (onlyRegs_setFlag s _ _ _) (onlyRegs_ite (onlyRegs_refl _) (onlyRegs_setFlag _ _ _ _))

/-- The fields of the configuration in their registers, the ports apart. -/
def cfgShown (s : State) : State :=
  let w := s.cfgWord 0x20
  let s := (s.setFld PKG_ROLE PKG_ROLE_ROLE (bits w 0 2)).setFld PKG_ROLE PKG_ROLE_DEVID (bits w 2 12)
  let s := (List.range 4).foldl (fun s k =>
    (s.setReg (LD_DEVID k) (bits w 2 12 + bits w 14 12 * 2 ^ 12 + bits w 26 1 * 2 ^ 24)).setReg (LD_GEOM k) (s.cfgWord 0x24 % 2 ^ 15)) s
  (s.setReg PLC_SPILL01 (spillBits (s.cfgWord 0x28))).setReg PLC_SPILL23 (spillBits (s.cfgWord 0x2C))
/-- IDE_REQ in effect. -/
def withIde (s : State) (i : Bool) : State := { s with boot := { s.boot with ideReq := i } }

theorem applyCfg_eq (s : State) : s.applyCfg = (withIde (cfgShown s).applyPorts (bit ((cfgShown s).applyPorts.cfgWord 0x34) 0)).setHostPath := rfl

theorem cfgShown_onlyRegs (s : State) : onlyRegs s (cfgShown s) := by
  refine onlyRegs_trans ?_ (onlyRegs_setReg _ _ _)
  refine onlyRegs_trans ?_ (onlyRegs_setReg _ _ _)
  refine onlyRegs_trans ?_ (onlyRegs_foldl (fun t _ => onlyRegs_trans (onlyRegs_setReg t _ _) (onlyRegs_setReg _ _ _)) _ _)
  exact onlyRegs_trans (onlyRegs_setFld s _ _ _) (onlyRegs_setFld _ _ _ _)

/-- The image in effect and the journal's standing stay while the fields reach their registers. -/
theorem applyCfg_boot (s : State) : ∃ i, s.applyCfg.boot = { s.boot with ideReq := i } := by
  have hboot := onlyRegs_boot (onlyRegs_trans (cfgShown_onlyRegs s) (applyPorts_onlyRegs _))
  rw [applyCfg_eq, onlyRegs_boot (setHostPath_onlyRegs _), ← hboot]
  exact ⟨_, rfl⟩

theorem compactNow_cfg (s : State) : s.compactNow.boot.cfg = s.boot.cfg ∧ s.compactNow.boot.mustCompact = s.boot.mustCompact := by
  unfold State.compactNow
  split
  · exact ⟨rfl, rfl⟩
  unfold State.startCompact State.programImage
  dsimp only
  rw [← onlyRegs_boot (onlyRegs_setFlag s AON_CFG_STAT AON_CFG_STAT_COMPACTING true)]
  generalize s.setFlag AON_CFG_STAT AON_CFG_STAT_COMPACTING true = t
  split <;> exact ⟨rfl, rfl⟩

/-- The configuration image taken. -/
def takeCfg (s : State) (c : List Byte) : State := { s with boot := { s.boot with cfg := c } }
theorem takeCfg_side (s : State) (c : List Byte) : ConfSide s (takeCfg s c) := .journal s rfl

/-- The events of a bank that fails its check. -/
def bankNoted (s : State) : State := if bankBad s.boot.nvm then s.raise AON_EVENT AON_EVENT_CFG_BANK_BAD else s
theorem bankNoted_side (s : State) : ConfSide s (bankNoted s) := .ite (fun _ => .raiseAon s (by decide) (by decide)) fun _ => .refl s
theorem bankNoted_boot (s : State) : (bankNoted s).boot = s.boot :=
  onlyRegs_boot (onlyRegs_ite (onlyRegs_raiseMask s _ _) (onlyRegs_refl s))
theorem bankNoted_flag {s : State} (h : bankBad s.boot.nvm = true) : (bankNoted s).flag AON_EVENT AON_EVENT_CFG_BANK_BAD = true := by
  rw [bankNoted, if_pos h]
  exact raise_flag_self s _ aonEvent_notMem (by decide) (by decide) rfl

/-- No bank is in use: the defaults. -/
def readDefaults (s : State) (c : List Byte) : State :=
  (((((takeCfg s c).setReg AON_CFG_STAT 1).raise AON_EVENT AON_EVENT_CFG_DEFAULTS).setReg AON_CFG_GEN 0).setReg AON_CFG_SEQ 0).applyCfg

/-- A bank's registers and its journal's standing. -/
def bankShown (s : State) (c : List Byte) (b : Nat) (r : Replay) : State :=
  let t := (((takeCfg s c).setReg AON_CFG_STAT (b * 2 + r.count * 16)).setReg AON_CFG_GEN (bankGen s.boot.nvm b)).setReg AON_CFG_SEQ r.last
  { t with boot := { t.boot with mustCompact := r.trunc } }
/-- A bank in use: its image after replay. -/
def readBank (s : State) (c : List Byte) (b : Nat) (r : Replay) : State :=
  let t := (if r.trunc then (bankShown s c b r).raise AON_EVENT AON_EVENT_JOURNAL_TRUNC else bankShown s c b r).applyCfg
  if r.trunc ∨ 36864 < r.count then t.compactNow else t

theorem readConfig_defaults {s : State} (h : bankChoice s.boot.nvm = none) (warm : Bool) :
    s.readConfig warm = readDefaults (bankNoted s) (if warm then warmCfg s.boot.cfg defaultCfg else defaultCfg) := by
  unfold State.readConfig readDefaults takeCfg
  dsimp only
  rw [← bankNoted]
  split
  case h_1 => rfl
  case h_2 hb => exact absurd (h.symm.trans hb) (by simp)

theorem readConfig_bank {s : State} {b : Nat} (h : bankChoice s.boot.nvm = some b) (warm : Bool) :
    s.readConfig warm = readBank (bankNoted s)
      (if warm then warmCfg s.boot.cfg (bankReplay s.boot.nvm b).image else (bankReplay s.boot.nvm b).image) b (bankReplay s.boot.nvm b) := by
  have hnvm : (bankNoted s).boot.nvm = s.boot.nvm := congrArg Boot.nvm (bankNoted_boot s)
  unfold State.readConfig readBank bankShown takeCfg
  dsimp only
  rw [← bankNoted, hnvm]
  split
  case h_1 hb => exact absurd (h.symm.trans hb) (by simp)
  case h_2 c hb =>
    obtain rfl : c = b := Option.some.inj (hb.symm.trans h)
    rfl

theorem readDefaults_side (s : State) (c : List Byte) : ConfSide s (readDefaults s c) := by
  refine (takeCfg_side s c).trans ?_
  refine .trans ?_ (.applyCfg _)
  refine .trans ?_ (.setReg _ (by decide) _)
  refine .trans ?_ (.setReg _ (by decide) _)
  exact .trans (.setReg _ (by decide) _) (.raiseAon _ (by decide) (by decide))

theorem readBank_side (s : State) (c : List Byte) (b : Nat) (r : Replay) : ConfSide s (readBank s c b r) := by
  have hshown : ConfSide s (bankShown s c b r) := by
    refine (takeCfg_side s c).trans ?_
    refine .trans ?_ (.journal _ rfl)
    refine .trans ?_ (.setReg _ (by decide) _)
    exact .trans (.setReg _ (by decide) _) (.setReg _ (by decide) _)
  refine .trans ?_ (.ite (fun _ => .compactNow _) fun _ => .refl _)
  refine .trans ?_ (.applyCfg _)
  exact .ite (fun _ => hshown.trans (.raiseAon _ (by decide) (by decide))) fun _ => hshown

theorem readConfig_noted {s : State} (warm : Bool) : ConfSide (bankNoted s) (s.readConfig warm) := by
  cases h : bankChoice s.boot.nvm with
  | none => rw [readConfig_defaults h]; exact readDefaults_side _ _
  | some b => rw [readConfig_bank h]; exact readBank_side _ _ _ _
theorem readConfig_side (s : State) (warm : Bool) : ConfSide s (s.readConfig warm) := (bankNoted_side s).trans (readConfig_noted warm)

/-- Without a bank the defaults are in effect, and the event says so. -/
theorem readDefaults_shows (s : State) (c : List Byte) :
    (readDefaults s c).boot.cfg = c ∧ (readDefaults s c).flag AON_EVENT AON_EVENT_CFG_DEFAULTS = true := by
  unfold readDefaults
  have htake : (takeCfg s c).boot.cfg = c := rfl
  have hraised := raise_flag_self ((takeCfg s c).setReg AON_CFG_STAT 1) AON_EVENT_CFG_DEFAULTS aonEvent_notMem (by decide) (by decide) rfl
  have honly := onlyRegs_trans (onlyRegs_setReg (takeCfg s c) AON_CFG_STAT 1) (onlyRegs_raiseMask _ AON_EVENT (2 ^ AON_EVENT_CFG_DEFAULTS.lo))
  rw [← State.raise] at honly
  generalize ((takeCfg s c).setReg AON_CFG_STAT 1).raise AON_EVENT AON_EVENT_CFG_DEFAULTS = t at *
  have hcount : onlyRegs t ((t.setReg AON_CFG_GEN 0).setReg AON_CFG_SEQ 0) := onlyRegs_trans (onlyRegs_setReg _ _ _) (onlyRegs_setReg _ _ _)
  have hside : ConfSide t ((t.setReg AON_CFG_GEN 0).setReg AON_CFG_SEQ 0) := .trans (.setReg _ (by decide) _) (.setReg _ (by decide) _)
  obtain ⟨i, hi⟩ := applyCfg_boot ((t.setReg AON_CFG_GEN 0).setReg AON_CFG_SEQ 0)
  exact ⟨by rw [hi, onlyRegs_boot hcount, onlyRegs_boot honly, htake],
    (hside.trans (.applyCfg _)).events _ (by decide) rfl hraised⟩

/-- A bank's image is in effect, and a truncated journal is to be compacted. -/
theorem readBank_shows (s : State) (c : List Byte) (b : Nat) (r : Replay) :
    (readBank s c b r).boot.cfg = c ∧ (readBank s c b r).boot.mustCompact = r.trunc := by
  have hshown : (bankShown s c b r).boot.cfg = c ∧ (bankShown s c b r).boot.mustCompact = r.trunc := by
    unfold bankShown
    have honly := onlyRegs_trans (onlyRegs_trans (onlyRegs_setReg (takeCfg s c) AON_CFG_STAT (b * 2 + r.count * 16))
      (onlyRegs_setReg _ AON_CFG_GEN (bankGen s.boot.nvm b))) (onlyRegs_setReg _ AON_CFG_SEQ r.last)
    have htake : (takeCfg s c).boot.cfg = c := rfl
    generalize
      (((takeCfg s c).setReg AON_CFG_STAT (b * 2 + r.count * 16)).setReg AON_CFG_GEN (bankGen s.boot.nvm b)).setReg AON_CFG_SEQ r.last = t at *
    exact ⟨(congrArg Boot.cfg (onlyRegs_boot honly)).trans htake, rfl⟩
  unfold readBank
  dsimp only
  have hraise : (if r.trunc = true then (bankShown s c b r).raise AON_EVENT AON_EVENT_JOURNAL_TRUNC else bankShown s c b r).boot =
      (bankShown s c b r).boot := onlyRegs_boot (onlyRegs_ite (onlyRegs_raiseMask _ _ _) (onlyRegs_refl _))
  generalize (if r.trunc = true then (bankShown s c b r).raise AON_EVENT AON_EVENT_JOURNAL_TRUNC else bankShown s c b r) = t at *
  obtain ⟨i, hi⟩ := applyCfg_boot t
  have happlied : t.applyCfg.boot.cfg = c ∧ t.applyCfg.boot.mustCompact = r.trunc := by rw [hi, hraise]; exact hshown
  obtain ⟨hcfg, hmust⟩ := compactNow_cfg t.applyCfg
  split
  · exact ⟨hcfg.trans happlied.1, hmust.trans happlied.2⟩
  · exact happlied

/-! ### the firmware starts (R391, R392, R400) -/

theorem setStage_stage (s : State) (n : Nat) : (s.setStage n).stage = n % 16 := fld_setFld_same s _ _ n (by decide)
theorem setStage_onlyRegs (s : State) (n : Nat) : onlyRegs s (s.setStage n) := onlyRegs_setFld s _ _ n
theorem setStage_reg (s : State) (n : Nat) {a : Nat} (h : a ≠ AON_BOOT_STAT) : (s.setStage n).reg a = s.reg a := reg_setFld_other s h _ n
theorem setPowerQ_reg (s : State) (l : List Nat) (a : Nat) : (s.setPowerQ l).reg a = s.reg a := rfl

theorem firmwareStart_waits {s : State} (h : s.boot.perst = true ∨ s.boot.chosen = none ∨ s.stage ≠ 1) :
    Machine.exec .firmwareStart s = .next s := by
  change done s s.fwStart = _
  rw [State.fwStart, if_pos (by rwa [Option.isNone_iff_eq_none]), done_self]

theorem firmwareStart_shows {s : State} (hon : s.boot.on = true) (hp : s.boot.perst = false) (hc : s.boot.chosen ≠ none) (h1 : s.stage = 1) :
    ∃ t, Machine.exec .firmwareStart s = .next t ∧ t.stage = 2 ∧ t.boot.powerQ = [3, 5, 7, 9, 2] ∧
      (bankChoice s.boot.nvm = none → t.boot.cfg = defaultCfg ∧ t.flag AON_EVENT AON_EVENT_CFG_DEFAULTS = true) ∧
      (∀ b, bankChoice s.boot.nvm = some b → t.boot.cfg = (bankReplay s.boot.nvm b).image ∧
        t.boot.mustCompact = (bankReplay s.boot.nvm b).trunc) ∧
      (bankBad s.boot.nvm = true → t.flag AON_EVENT AON_EVENT_CFG_BANK_BAD = true) := by
  have hexec : Machine.exec .firmwareStart s = done s s.fwStart := rfl
  rw [State.fwStart, if_neg (by rw [hp, Option.isNone_iff_eq_none]; tauto)] at hexec
  have hstage := setStage_stage s 2
  have honly := setStage_onlyRegs s 2
  have hnvm := congrArg Boot.nvm (onlyRegs_boot honly)
  rw [← hnvm]
  generalize s.setStage 2 = u at *
  have hside := readConfig_side u false
  have hnoted := (readConfig_noted (s := u) false).events
  have hdefaults (h : bankChoice u.boot.nvm = none) :
      (u.readConfig false).boot.cfg = defaultCfg ∧ (u.readConfig false).flag AON_EVENT AON_EVENT_CFG_DEFAULTS = true := by
    rw [readConfig_defaults h]; exact readDefaults_shows _ _
  have hbank (b : Nat) (h : bankChoice u.boot.nvm = some b) : (u.readConfig false).boot.cfg = (bankReplay u.boot.nvm b).image ∧
      (u.readConfig false).boot.mustCompact = (bankReplay u.boot.nvm b).trunc := by
    rw [readConfig_bank h]; exact readBank_shows _ _ _ _
  generalize u.readConfig false = v at *
  exact ⟨_, hexec.trans (done_kept hon (hside.pending.trans (onlyRegs_pending honly))), hside.stage.trans hstage, rfl, hdefaults, hbank,
    fun h => hnoted _ (by decide) rfl (bankNoted_flag h)⟩

end Sys2Proof.Resets
end

section
/-! SUPPORT. A warm reset: what PD2 to PD122 lose, and what the configuration's reading leaves of it (R389, R390). -/

namespace Sys2Proof.Resets
open Sys2Proof Sys2Proof.Machine Sys2Proof.Laws

/-! ### a warm reset (R389) -/

/-- The records that PD2 to PD122 lose, before any register is written. -/
def warmLost (s : State) : State :=
  { s with
    regs := s.regs.filter (fun e => warmKeeps e.1), parStop := s.parStop.filter warmKeeps,
    mem := hostCells s.mem, poison := hostBeats s.poison,
    eng := {}, dies := [], faces := [], strms := [], benches := [], cru := {}, dram := {}, plc := {}, fab := {},
    hif := { s.hif with d2hQ := [], dieCmd := [], peer := [], late := s.hif.late.filter (fun m => m < 16),
                        fwdIn := s.hif.fwdIn.filter (fun e => match e.2 with
                          | some c => !(needsBlk e.1 (wCode c.word) && (c.blk.isNone || c.more))
                          | none => true) },
    obs := { s.obs with fifo := [], dump := none, dumpHeld := [], dumpLost := 0, marks := [] }, queues := [],
    pwr := { s.pwr with up := none, quiet := 0 } }

/-- The domains' states shown: PD0 and PD1 alone are powered. -/
def domainsCut (s : State) : State :=
  (((s.setReg (PKG_PD_STAT 0) 3).setReg (PKG_PD_STAT 1) 0).setReg (PKG_PD_STAT 2) 0).setReg (PKG_PD_STAT 3) 0
/-- The governor's and the trace unit's status after it. -/
def statusCut (s : State) : State :=
  let t := ((s.setFld PWR_STAT PWR_STAT_POINT 2).setFld PWR_STAT PWR_STAT_DUTY 16).setFlag PWR_STAT PWR_STAT_TRANS false
  ((t.setFlag TRC_STAT TRC_STAT_LINK false).setFlag TRC_STAT TRC_STAT_DUMPING false).setFld TRC_STAT TRC_STAT_FIFO 0

theorem warmClear_eq (s : State) : s.warmClear = statusCut (domainsCut (warmLost s)) := rfl

theorem domainsCut_onlyRegs (s : State) : onlyRegs s (domainsCut s) :=
  onlyRegs_trans (onlyRegs_trans (onlyRegs_trans (onlyRegs_setReg s _ _) (onlyRegs_setReg _ _ _)) (onlyRegs_setReg _ _ _)) (onlyRegs_setReg _ _ _)
theorem domainsCut_regs (s : State) : regsKept s (domainsCut s) [PKG_PD_STAT 0, PKG_PD_STAT 1, PKG_PD_STAT 2, PKG_PD_STAT 3] :=
  regsKept_trans (regsKept_trans (regsKept_trans (regsKept_setReg s (by decide) _) (regsKept_setReg _ (by decide) _))
    (regsKept_setReg _ (by decide) _)) (regsKept_setReg _ (by decide) _)
theorem domainsCut_pd (s : State) : (domainsCut s).reg (PKG_PD_STAT 0) = 3 := by
  unfold domainsCut
  rw [reg_setReg_other _ (by decide), reg_setReg_other _ (by decide), reg_setReg_other _ (by decide), reg_setReg_same]
  rfl
theorem statusCut_onlyRegs (s : State) : onlyRegs s (statusCut s) := by
  unfold statusCut
  refine onlyRegs_trans (onlyRegs_trans (onlyRegs_trans ?_ (onlyRegs_setFlag _ _ _ _)) (onlyRegs_setFlag _ _ _ _)) (onlyRegs_setFld _ _ _ _)
  exact onlyRegs_trans (onlyRegs_trans (onlyRegs_setFld s _ _ _) (onlyRegs_setFld _ _ _ _)) (onlyRegs_setFlag _ _ _ _)
theorem statusCut_regs (s : State) : regsKept s (statusCut s) [PWR_STAT, TRC_STAT] := by
  unfold statusCut
  refine regsKept_trans (regsKept_trans (regsKept_trans ?_ (regsKept_setReg _ (by decide) _)) (regsKept_setReg _ (by decide) _))
    (regsKept_setReg _ (by decide) _)
  exact regsKept_trans (regsKept_trans (regsKept_setReg s (by decide) _) (regsKept_setReg _ (by decide) _)) (regsKept_setReg _ (by decide) _)

theorem warmLost_reg_kept (s : State) {a : Nat} (h : warmKeeps a = true) : (warmLost s).reg a = s.reg a :=
  congrArg BitVec.toNat (mapGet_filter_key _ _ _ fun _ => h)
theorem warmLost_reg_lost (s : State) {a : Nat} (h : warmKeeps a = false) : (warmLost s).reg a = (regReset a).toNat := by
  refine congrArg BitVec.toNat (mapGet_unlisted _ a _ fun e he hk => ?_)
  have := (List.mem_filter.1 he).2
  rw [hk, h] at this
  exact Bool.false_ne_true this

/-- What a warm reset leaves of the device, before the configuration is read again. -/
theorem warmClear_shows (s : State) : onlyRegs (warmLost s) s.warmClear ∧ s.warmClear.reg (PKG_PD_STAT 0) = 3 ∧ s.warmClear.running = false ∧
    s.warmClear.reg AON_RST_CAUSE = s.reg AON_RST_CAUSE ∧ s.warmClear.reg AON_BOOT_STAT = s.reg AON_BOOT_STAT := by
  rw [warmClear_eq]
  have hkeep {a : Nat} (hd : a ∉ [PKG_PD_STAT 0, PKG_PD_STAT 1, PKG_PD_STAT 2, PKG_PD_STAT 3]) (hs : a ∉ [PWR_STAT, TRC_STAT]) :
      (statusCut (domainsCut (warmLost s))).reg a = (warmLost s).reg a := (statusCut_regs _ a hs).trans (domainsCut_regs _ a hd)
  refine ⟨onlyRegs_trans (domainsCut_onlyRegs _) (statusCut_onlyRegs _), (statusCut_regs _ _ (by decide)).trans (domainsCut_pd _), ?_,
    (hkeep (by decide) (by decide)).trans (warmLost_reg_kept s (by decide)),
    (hkeep (by decide) (by decide)).trans (warmLost_reg_kept s (by decide))⟩
  have hstep := (hkeep (a := STEP_STAT) (by decide) (by decide)).trans (warmLost_reg_lost s (by decide))
  generalize statusCut (domainsCut (warmLost s)) = t at hstep ⊢
  rw [State.running, State.flag, State.fld, hstep]
  decide

/-- The cause, the stage and the domains of a warm reset that begins. -/
def warmBegun (s : State) : State :=
  let t := ((s.setFld AON_RST_CAUSE AON_RST_CAUSE_CAUSE 3).bumpSat AON_RST_CAUSE AON_RST_CAUSE_WARMS 1).setFld AON_BOOT_STAT AON_BOOT_STAT_STAGE 2
  { t with boot := { t.boot with warming := true, powerQ := [3, 5, 7, 9, 2], trained := [] } }

theorem warmReset_ignored {s : State} (h : s.stage ≤ 1 ∨ s.stage = 15 ∨ s.boot.warming = true) : s.warmReset = s := by
  unfold State.warmReset
  exact if_pos h
theorem warmReset_runs {s : State} (h1 : 1 < s.stage) (h15 : s.stage ≠ 15) (hw : s.boot.warming = false) :
    s.warmReset = ((warmBegun s.abandonCompact.warmClear).readConfig true).writeHeld := by
  have hrun : ¬ (s.stage ≤ 1 ∨ s.stage = 15 ∨ s.boot.warming = true) := by
    rw [hw]; exact fun h => h.elim (fun g => by omega) fun g => g.elim h15 Bool.false_ne_true
  unfold State.warmReset
  exact if_neg hrun

theorem satAdd_lt (w a b : Nat) : satAdd w a b < 2 ^ w := by
  have := Nat.two_pow_pos w
  unfold satAdd
  split <;> omega

/-- The registers of a warm reset that begins. -/
def warmMarked (s : State) : State :=
  ((s.setFld AON_RST_CAUSE AON_RST_CAUSE_CAUSE 3).bumpSat AON_RST_CAUSE AON_RST_CAUSE_WARMS 1).setFld AON_BOOT_STAT AON_BOOT_STAT_STAGE 2

theorem warmMarked_onlyRegs (s : State) : onlyRegs s (warmMarked s) :=
  onlyRegs_trans (onlyRegs_trans (onlyRegs_setFld s _ _ _) (onlyRegs_setFld _ _ _ _)) (onlyRegs_setFld _ _ _ _)
theorem warmMarked_reg (s : State) {a : Nat} (hc : a ≠ AON_RST_CAUSE) (hb : a ≠ AON_BOOT_STAT) : (warmMarked s).reg a = s.reg a :=
  (reg_setFld_other _ hb _ _).trans ((reg_setFld_other _ hc _ _).trans (reg_setFld_other s hc _ _))
theorem warmMarked_stage (s : State) : (warmMarked s).stage = 2 := fld_setFld_same _ _ _ 2 (by decide)
theorem warmMarked_cause (s : State) : (warmMarked s).fld AON_RST_CAUSE AON_RST_CAUSE_CAUSE = 3 :=
  (fld_setFld_apart _ 2 (by decide) (.inl (by decide))).trans <|
    (fld_setFld_other _ _ _ (by decide) (.inr (by decide))).trans (fld_setFld_same s _ _ 3 (by decide))
theorem warmMarked_warms (s : State) :
    (warmMarked s).fld AON_RST_CAUSE AON_RST_CAUSE_WARMS = satAdd 8 (s.fld AON_RST_CAUSE AON_RST_CAUSE_WARMS) 1 := by
  refine (fld_setFld_apart _ 2 (by decide) (.inl (by decide))).trans ((fld_setFld_same _ _ _ _ (by decide)).trans ?_)
  rw [fld_setFld_other s _ 3 (by decide) (.inl (by decide)), Nat.mod_eq_of_lt (satAdd_lt 8 _ 1)]

theorem warmBegun_eq (s : State) : warmBegun s =
    { warmMarked s with boot := { (warmMarked s).boot with warming := true, powerQ := [3, 5, 7, 9, 2], trained := [] } } := rfl

/-- A warm reset that runs. -/
theorem warmReset_shows {s : State} (h1 : 1 < s.stage) (h15 : s.stage ≠ 15) (hw : s.boot.warming = false) :
    let t := s.warmReset
    t.pending = s.pending ∧ t.fld AON_RST_CAUSE AON_RST_CAUSE_CAUSE = 3 ∧
      t.fld AON_RST_CAUSE AON_RST_CAUSE_WARMS = satAdd 8 (s.fld AON_RST_CAUSE AON_RST_CAUSE_WARMS) 1 ∧
      t.stage = 2 ∧ t.boot.powerQ = [3, 5, 7, 9, 2] ∧ t.boot.warming = true ∧ t.running = false ∧ t.eng = {} ∧ t.plc = {} ∧
      t.cru = {} ∧ t.boot.pcie = s.boot.pcie ∧ t.reg (PKG_PD_STAT 0) = 3 ∧ t.obs.log = s.obs.log ∧ t.boot.fuses = s.boot.fuses ∧
      t.mem = hostCells s.mem := by
  dsimp only
  rw [warmReset_runs h1 h15 hw]
  have hleft := ConfSide.abandonCompact s
  generalize s.abandonCompact = a at *
  obtain ⟨honly, hpd, hrun, hcause, -⟩ := warmClear_shows a
  obtain ⟨heng, hplc, hcru, hmem, hlog, hboot', hpend⟩ : (warmLost a).eng = {} ∧ (warmLost a).plc = {} ∧ (warmLost a).cru = {} ∧
      (warmLost a).mem = hostCells a.mem ∧ (warmLost a).obs.log = a.obs.log ∧ (warmLost a).boot = a.boot ∧
      (warmLost a).pending = a.pending := ⟨rfl, rfl, rfl, rfl, rfl, rfl, rfl⟩
  generalize warmLost a = b at *
  generalize a.warmClear = c at *
  rw [warmBegun_eq]
  have hm := warmMarked_onlyRegs c
  have hmreg {r : Nat} (h1 : r ≠ AON_RST_CAUSE) (h2 : r ≠ AON_BOOT_STAT) := warmMarked_reg c h1 h2
  have hmstage := warmMarked_stage c
  have hmcause := warmMarked_cause c
  have hmwarms := warmMarked_warms c
  generalize warmMarked c = m at *
  have hboot : m.boot = a.boot := (onlyRegs_boot hm).trans ((onlyRegs_boot honly).trans hboot')
  have hside : ConfSide { m with boot := { m.boot with warming := true, powerQ := [3, 5, 7, 9, 2], trained := [] } }
      ((State.readConfig { m with boot := { m.boot with warming := true, powerQ := [3, 5, 7, 9, 2], trained := [] } } true).writeHeld) :=
    (readConfig_side _ true).trans (.writeHeld _)
  generalize (State.readConfig { m with boot := { m.boot with warming := true, powerQ := [3, 5, 7, 9, 2], trained := [] } } true).writeHeld = t at *
  have hreg {r : Nat} (hr : r ∈ startRegs) : t.reg r = m.reg r := hside.regs r hr
  have hbt : Boot.like { m.boot with warming := true, powerQ := [3, 5, 7, 9, 2], trained := [] } t.boot := hside.boot
  rw [hboot] at hbt
  have hal := hleft.boot
  unfold Boot.like at hbt hal
  refine ⟨hside.pending.trans ((onlyRegs_pending hm).trans ((onlyRegs_pending honly).trans (hpend.trans hleft.pending))),
    (fld_of_reg (hreg (by decide)) _).trans hmcause, ?_, hside.stage.trans hmstage, ?_, ?_, ?_, ?_, ?_, ?_, ?_, ?_, ?_, ?_, ?_⟩
  · rw [fld_of_reg (hreg (by decide)), hmwarms, fld_of_reg hcause, fld_of_reg (hleft.regs AON_RST_CAUSE (by decide))]
  · rw [hbt]
  · rw [hbt]
  · exact hside.running.trans ((flag_of_reg (hmreg (by decide) (by decide)) _).trans hrun)
  · rw [hside.rest, onlyRegs_eng hm, onlyRegs_eng honly, heng]
  · rw [hside.rest, onlyRegs_plc hm, onlyRegs_plc honly, hplc]
  · rw [hside.rest, onlyRegs_cru hm, onlyRegs_cru honly, hcru]
  · rw [hbt, hal]
  · exact (hreg (by decide)).trans ((hmreg (by decide) (by decide)).trans hpd)
  · rw [hside.rest, onlyRegs_obs hm, onlyRegs_obs honly, hlog, hleft.rest]
  · rw [hbt, hal]
  · rw [hside.mem, onlyRegs_mem hm, onlyRegs_mem honly, hmem, hleft.mem]

/-- The complement of a half with WARM 1, at AON_RST_CTRL + 4. -/
theorem warmReset_exec {s : State} {q : Requester} {x v : Word} (hq : arrives s q) (hpd : s.pdOn 0 = true)
    (hothers : s.openOthers (reqNo q) AON_RST_CTRL = []) (hhalf : s.half (reqNo q) = some (AON_RST_CTRL, x.toNat))
    (hv : v.toNat = 0xFFFFFFFF - x.toNat) (hx : bit x.toNat 0 = true) :
    Machine.exec (.warmReset q v) s = done s (s.setHalf (reqNo q) none).warmReset := by
  have hregOn : s.regOn (AON_RST_CTRL + 4) = true := hpd
  have hsq : isSQ (AON_RST_CTRL + 4) = false := by decide +kernel
  have hwg : isWG (AON_RST_CTRL + 4) = false := by decide +kernel
  have hctl : isWG AON_RST_CTRL = true := by decide +kernel
  have hput : s.rowPut q (AON_RST_CTRL + 4) v.toNat = s.guardSecond q AON_RST_CTRL v.toNat := by
    rw [State.rowPut, Control.onBus_arrives hq, if_neg (by decide), State.regPut, hregOn, hsq, hwg]
    rw [if_neg (by decide), if_neg (by decide), if_neg (by decide), if_pos ⟨by decide, hctl⟩]
    rfl
  change done s (s.rowPut q (AON_RST_CTRL + 4) v.toNat) = _
  rw [hput, State.guardSecond, hothers, hhalf]
  dsimp only
  rw [if_neg (by decide), if_neg (by decide), if_neg (not_not.2 hv), State.guardTaken, if_pos rfl, if_pos hx]

end Sys2Proof.Resets
end

section
/-! The stages of start-up: domains, channels, the ledger (R236, R391 to R394), and O57. -/

namespace Sys2Proof.Resets
open Sys2Proof Sys2Proof.Machine Sys2Proof.Laws

/-! ### domains turn on (R392) -/

/-- The registers of the domains' states. -/
def pdReg (pd : Nat) : Nat := PKG_PD_STAT (pd / 32)
theorem pdReg_low {pd : Nat} (h : pd < 123) : pdReg pd < 0x1000 ∧ pdReg pd ≠ PKG_EVENT_SUM := by
  unfold pdReg PKG_PD_STAT PKG_EVENT_SUM; omega

/-- What the end of a stage leaves: the domains and memory. -/
structure StageSide (s t : State) : Prop where
  pending : t.pending = s.pending
  mem : t.mem = s.mem
  domains : ∀ pd, pd < 123 → t.reg (pdReg pd) = s.reg (pdReg pd)

namespace StageSide
variable {s t u : State}

theorem refl (s : State) : StageSide s s := ⟨rfl, rfl, fun _ _ => rfl⟩
theorem trans (h : StageSide s t) (g : StageSide t u) : StageSide s u :=
  ⟨g.pending.trans h.pending, g.mem.trans h.mem, fun pd hp => (g.domains pd hp).trans (h.domains pd hp)⟩
theorem ite {p : Prop} [Decidable p] (h : p → StageSide s t) (g : ¬p → StageSide s u) : StageSide s (if p then t else u) := by
  split
  · exact h ‹_›
  · exact g ‹_›
theorem foldl {α : Type} {f : State → α → State} (hf : ∀ s a, StageSide s (f s a)) (xs : List α) (s : State) :
    StageSide s (xs.foldl f s) := by
  induction xs generalizing s with
  | nil => exact refl s
  | cons x xs ih => exact (hf s x).trans (ih _)
theorem of_onlyRegs (h : onlyRegs s t) (hr : ∀ pd, pd < 123 → t.reg (pdReg pd) = s.reg (pdReg pd)) : StageSide s t :=
  ⟨onlyRegs_pending h, onlyRegs_mem h, hr⟩
theorem setReg (s : State) {a : Nat} (h : 0x1000 ≤ a) (v : Nat) : StageSide s (s.setReg a v) :=
  of_onlyRegs (onlyRegs_setReg s a v) fun _ hp => reg_setReg_other s (Nat.ne_of_lt ((pdReg_low hp).1.trans_le h)) v
theorem raise (s : State) {a : Nat} (h : 0x1000 ≤ a) (f : Fld) : StageSide s (s.raise a f) :=
  of_onlyRegs (onlyRegs_raiseMask s a _) fun _ hp =>
    raise_reg s f (pkg_notMem_sumRegs ((pdReg_low hp).1.trans (by decide)) (pdReg_low hp).2 _) (Nat.ne_of_lt ((pdReg_low hp).1.trans_le h))
theorem setStage (s : State) (n : Nat) : StageSide s (s.setStage n) := setReg s (by decide) _
theorem setPowerQ (s : State) (l : List Nat) : StageSide s (s.setPowerQ l) := ⟨rfl, rfl, fun _ _ => rfl⟩

theorem linksStage (s : State) : StageSide s s.linksStage := ite (fun _ => setReg s (by decide) _) fun _ => refl s
theorem startLinks (s : State) : StageSide s s.startLinks := by
  unfold State.startLinks
  refine ite (fun _ => (raise s (by decide) _).trans (setStage _ 7)) fun _ => ?_
  dsimp only
  refine trans (trans (foldl (fun t l => setReg t ?_ _) _ s) (foldl (fun t k => setReg t ?_ _) _ _)) (linksStage _)
  · unfold lnkStat LNK_STAT ldBase; omega
  · unfold LD_STAT ldBase; omega
theorem startPcie (s : State) : StageSide s s.startPcie := by
  refine trans ?_ (setStage _ 3)
  exact ⟨rfl, rfl, fun _ _ => rfl⟩
theorem powerStageDone (s : State) : StageSide s s.powerStageDone := by
  unfold State.powerStageDone
  refine ite (fun _ => trans (ite (fun _ => setStage s 4) fun _ => startPcie s) (setPowerQ _ _)) fun _ => ?_
  exact ite (fun _ => setStage s 5) fun _ => ite (fun _ => startLinks s) fun _ => refl s

end StageSide

/-- A domain on, and those still to turn on. -/
def domainOn (s : State) (pd : Nat) (rest : List Nat) : State :=
  let t := (s.setPd pd true).setPowerQ rest
  if t.stage = 3 then t.setStage 4 else t

theorem powerGood_eq {s : State} {pd : Nat} {rest : List Nat} (h : s.boot.powerQ = pd :: rest) :
    s.powerGood pd = if rest.isEmpty then (domainOn s pd rest).powerStageDone else domainOn s pd rest := by
  rw [State.powerGood, h]
  exact if_neg (not_not.2 rfl)

theorem domainOn_shows (s : State) {pd : Nat} (hp : pd < 123) (rest : List Nat) :
    (domainOn s pd rest).pdOn pd = true ∧ (domainOn s pd rest).mem = s.mem ∧ (domainOn s pd rest).pending = s.pending ∧
      (domainOn s pd rest).boot = { s.boot with powerQ := rest } ∧ (domainOn s pd rest).stage = if s.stage = 3 then 4 else s.stage := by
  have honly := onlyRegs_setPd s pd true
  have hpd := setPd_same s pd true
  have hstat : (s.setPd pd true).reg AON_BOOT_STAT = s.reg AON_BOOT_STAT := by
    refine reg_setFlag_other s (Ne.symm (Nat.ne_of_lt ((pdReg_low hp).1.trans (by decide)))) _ true
  unfold domainOn
  dsimp only
  generalize s.setPd pd true = u at *
  have hstage : (u.setPowerQ rest).stage = s.stage := fld_of_reg hstat _
  have hboot : (u.setPowerQ rest).boot = { s.boot with powerQ := rest } := by rw [← onlyRegs_boot honly]; rfl
  have hside := StageSide.setPowerQ u rest
  have hmem := hside.mem.trans (onlyRegs_mem honly)
  have hpend := hside.pending.trans (onlyRegs_pending honly)
  have hon : (u.setPowerQ rest).pdOn pd = true := hpd
  generalize u.setPowerQ rest = v at *
  rw [hstage]
  split
  · have hnext := StageSide.setStage v 4
    refine ⟨?_, hnext.mem.trans hmem, hnext.pending.trans hpend, (onlyRegs_boot (setStage_onlyRegs v 4)).trans hboot, setStage_stage v 4⟩
    exact (congrArg (fun w => bit w (pd % 32)) (hnext.domains pd hp)).trans hon
  · exact ⟨hon, hmem, hpend, hboot, hstage⟩

/-- The stages that end with the last of their domains. -/
theorem powerStageDone_shows (s : State) :
    (s.stage = 2 → s.powerStageDone.boot.powerQ = siteDomains ∧ s.powerStageDone.stage = (if s.boot.warming then 4 else 3) ∧
      (s.boot.warming = false → s.powerStageDone.boot.pcie = true)) ∧
    (s.stage = 4 → s.powerStageDone.boot.powerQ = s.boot.powerQ ∧ s.powerStageDone.stage = 5) := by
  refine ⟨fun h => ?_, fun h => ?_⟩
  · rw [State.powerStageDone, if_pos h]
    by_cases hw : s.boot.warming = true
    · rw [if_pos hw, if_pos hw]
      exact ⟨rfl, setStage_stage s 4, fun hn => absurd (hn.symm.trans hw) Bool.false_ne_true⟩
    · rw [if_neg hw, if_neg hw]
      refine ⟨rfl, setStage_stage _ 3, fun _ => ?_⟩
      exact congrArg Boot.pcie (onlyRegs_boot (setStage_onlyRegs { s with boot := { s.boot with pcie := true } } 3))
  · rw [State.powerStageDone, if_neg (by omega), if_pos h]
    exact ⟨congrArg Boot.powerQ (onlyRegs_boot (setStage_onlyRegs s 5)), setStage_stage s 5⟩

theorem domain_waits {s : State} {pd : Fin 123} (h : s.boot.powerQ.head? ≠ some pd.val) :
    Machine.exec (.domainPowerGood pd) s = .next s ∧ Machine.exec (.powerGoodTimeout pd) s = .next s := by
  constructor
  · change done s (s.powerGood pd.val) = _
    rw [State.powerGood]
    cases hq : s.boot.powerQ with
    | nil => exact done_self s
    | cons j rest =>
      have hne : j ≠ pd.val := fun he => h (by rw [hq, he]; rfl)
      dsimp only
      rw [if_pos hne, done_self]
  · change done s (s.powerBad pd.val) = _
    rw [State.powerBad, if_neg h, done_self]

theorem domainPowerGood_shows {s : State} (hon : s.boot.on = true) (pd : Fin 123) {rest : List Nat} (h : s.boot.powerQ = pd.val :: rest) :
    ∃ t, Machine.exec (.domainPowerGood pd) s = .next t ∧ t.pdOn pd.val = true ∧ t.mem = s.mem ∧
      (rest ≠ [] → t.boot.powerQ = rest ∧ t.stage = if s.stage = 3 then 4 else s.stage) ∧
      (rest = [] → s.stage = 2 → t.boot.powerQ = siteDomains ∧ t.stage = (if s.boot.warming then 4 else 3) ∧
        (s.boot.warming = false → t.boot.pcie = true)) ∧
      (rest = [] → s.stage = 4 → t.boot.powerQ = [] ∧ t.stage = 5) := by
  have hexec : Machine.exec (.domainPowerGood pd) s = done s (s.powerGood pd.val) := rfl
  rw [powerGood_eq h] at hexec
  obtain ⟨hpd, hmem, hpend, hboot, hstage⟩ := domainOn_shows s pd.isLt rest
  generalize domainOn s pd.val rest = u at *
  by_cases hr : rest = []
  · rw [if_pos (List.isEmpty_iff.2 hr)] at hexec
    obtain ⟨h2, h4⟩ := powerStageDone_shows u
    have hside := StageSide.powerStageDone u
    have hq : u.boot.powerQ = rest := by rw [hboot]
    have hw : u.boot.warming = s.boot.warming := by rw [hboot]
    refine ⟨_, hexec.trans (done_kept hon (hside.pending.trans hpend)), ?_, hside.mem.trans hmem, fun hn => absurd hr hn, fun _ hs => ?_,
      fun _ hs => ?_⟩
    · exact (congrArg (fun w => bit w (pd.val % 32)) (hside.domains _ pd.isLt)).trans hpd
    · rw [hw] at h2
      exact h2 (by rw [hstage, hs]; rfl)
    · obtain ⟨hq4, hs4⟩ := h4 (by rw [hstage, hs]; rfl)
      exact ⟨hq4.trans (hq.trans hr), hs4⟩
  · rw [if_neg (fun he => hr (List.isEmpty_iff.1 he))] at hexec
    exact ⟨_, hexec.trans (done_kept hon hpend), hpd, hmem, fun _ => ⟨by rw [hboot], hstage⟩, fun he => absurd he hr, fun he => absurd he hr⟩

/-- No power good in time (R394). -/
theorem powerGoodTimeout_shows {s : State} (hon : s.boot.on = true) (pd : Fin 123) {rest : List Nat} (h : s.boot.powerQ = pd.val :: rest) :
    ∃ t, Machine.exec (.powerGoodTimeout pd) s = .next t ∧ t.stage = 15 ∧ t.fld AON_BOOT_STAT AON_BOOT_STAT_FAIL = 2 ∧
      t.boot.powerQ = [] ∧ newestFault t 4 0x0503 pd.val ∧ t.obs.faultN = true := by
  have hexec : Machine.exec (.powerGoodTimeout pd) s = done s (s.powerBad pd.val) := rfl
  rw [State.powerBad, if_pos (by rw [h]; rfl)] at hexec
  dsimp only at hexec
  obtain ⟨hkept, hstage, hfail⟩ := bootStat_shows s 15 2
  rw [← State.setStage] at hkept hstage hfail
  generalize (s.setStage 15).setFld AON_BOOT_STAT AON_BOOT_STAT_FAIL 2 = u at *
  have hq : (u.setPowerQ []).boot.powerQ = [] := rfl
  have hpend : (u.setPowerQ []).pending = s.pending := hkept.pending
  have hreg := setPowerQ_reg u [] AON_BOOT_STAT
  generalize u.setPowerQ [] = v at *
  have hstat : (v.fault 4 0x0503 0 pd.val).reg AON_BOOT_STAT = u.reg AON_BOOT_STAT := (fault_reg v 4 0x0503 0 pd.val (by decide)).trans hreg
  exact ⟨_, hexec.trans (done_kept hon ((fault_pending v _ _ _ _).trans hpend)), (fld_of_reg hstat _).trans hstage,
    (fld_of_reg hstat _).trans hfail, (congrArg Boot.powerQ (fault_logged v 4 0x0503 0 pd.val).boot).trans hq, fault_newest v _ _ _ _, fault_fatal_faultN v _ _ _⟩

/-! ### channels train (R236) -/

theorem length_setInsert_le (k : Nat) (l : List Nat) : (setInsert k l).length ≤ l.length + 1 := by
  induction l with
  | nil => exact Nat.le_refl _
  | cons j l ih =>
    unfold setInsert
    split
    · exact Nat.le_refl _
    · split
      · exact Nat.le_succ _
      · exact Nat.succ_le_succ ih

/-- A channel whose training has ended. -/
def channelNoted (s : State) (g : Nat) : State := { s with boot := { s.boot with trained := setInsert g s.boot.trained } }
/-- The channel's READY, or the fault. -/
def channelMarked (s : State) (d ch : Nat) (passed : Bool) : State :=
  if passed then s.setFld (MC_STAT d (ch / 4)) MC_STAT_READY (s.fld (MC_STAT d (ch / 4)) MC_STAT_READY ||| 2 ^ (ch % 4))
  else s.fault 4 0x0501 0 (d * 256 + ch)

theorem channelTrained_waits {s : State} {d ch : Nat} (h : s.stage ≠ 5 ∨ s.boot.trained.contains (32 * d + ch) = true) (passed : Bool) :
    s.channelTrained d ch passed = s := by
  rw [State.channelTrained]
  exact if_pos h

theorem channelMarked_boot (s : State) (d ch : Nat) (passed : Bool) : (channelMarked s d ch passed).boot = s.boot := by
  unfold channelMarked
  split
  · exact onlyRegs_boot (onlyRegs_setFld s _ _ _)
  · exact (fault_logged s _ _ _ _).boot

theorem channelTrained_eq {s : State} {d ch : Nat} (h5 : s.stage = 5) (hnew : s.boot.trained.contains (32 * d + ch) = false)
    (hlen : s.boot.trained.length < 511) (passed : Bool) :
    s.channelTrained d ch passed = channelMarked (channelNoted s (32 * d + ch)) d ch passed := by
  have hfew : (channelMarked (channelNoted s (32 * d + ch)) d ch passed).boot.trained.length < 512 := by
    rw [channelMarked_boot]
    have := length_setInsert_le (32 * d + ch) s.boot.trained
    exact Nat.lt_of_le_of_lt this (by omega)
  unfold State.channelTrained
  rw [if_neg (by rw [hnew]; exact fun h => h.elim (fun g => g h5) Bool.false_ne_true)]
  dsimp only
  rw [← channelNoted, ← channelMarked]
  exact if_pos hfew

theorem readyBit (v : Nat) {k : Nat} (hk : k < 4) : bit ((v ||| 2 ^ k) % 2 ^ 4) k = true := by
  rw [bit_eq_testBit, Nat.testBit_mod_two_pow, Nat.testBit_or, Nat.testBit_two_pow_self, Bool.or_true, decide_eq_true hk, Bool.true_and]

theorem channelMarked_shows (s : State) (d ch : Nat) (passed : Bool) :
    (channelMarked s d ch passed).pending = s.pending ∧ (channelMarked s d ch passed).stage = s.stage ∧
      (passed = true → bit ((channelMarked s d ch passed).fld (MC_STAT d (ch / 4)) MC_STAT_READY) (ch % 4) = true ∧
        regsKept s (channelMarked s d ch passed) [MC_STAT d (ch / 4)]) ∧
      (passed = false → newestFault (channelMarked s d ch passed) 4 0x0501 (d * 256 + ch) ∧ (channelMarked s d ch passed).obs.faultN = true) := by
  cases passed with
  | true =>
    rw [channelMarked, if_pos rfl]
    have hne : AON_BOOT_STAT ≠ MC_STAT d (ch / 4) := by unfold AON_BOOT_STAT MC_STAT dieBase; omega
    generalize MC_STAT d (ch / 4) = a at *
    generalize s.fld a MC_STAT_READY = v
    refine ⟨onlyRegs_pending (onlyRegs_setFld s _ _ _), fld_of_reg (reg_setFld_other s hne _ _) _, fun _ => ⟨?_, ?_⟩, fun h => (nomatch h)⟩
    · rw [fld_setFld_same _ _ _ _ (by decide)]
      exact readyBit v (Nat.mod_lt _ (by decide))
    · exact regsKept_setReg s List.mem_cons_self _
  | false =>
    rw [channelMarked, if_neg Bool.false_ne_true]
    exact ⟨fault_pending s _ _ _ _, fld_of_reg (fault_reg s 4 0x0501 0 (d * 256 + ch) (by decide)) _, fun h => (nomatch h),
      fun _ => ⟨fault_newest s _ _ _ _, fault_fatal_faultN s _ _ _⟩⟩

theorem dramChannelTrained_shows {s : State} (hon : s.boot.on = true) (d : DieIx) (ch : ChanIx) (passed : Bool) :
    (s.stage ≠ 5 ∨ s.boot.trained.contains (32 * d.val + ch.val) = true → Machine.exec (.dramChannelTrained d ch passed) s = .next s) ∧
    (s.stage = 5 → s.boot.trained.contains (32 * d.val + ch.val) = false → s.boot.trained.length < 511 →
      ∃ t, Machine.exec (.dramChannelTrained d ch passed) s = .next t ∧ t.stage = 5 ∧
        (passed = true → bit (t.fld (MC_STAT d.val (ch.val / 4)) MC_STAT_READY) (ch.val % 4) = true ∧
          regsKept s t [MC_STAT d.val (ch.val / 4)]) ∧
        (passed = false → newestFault t 4 0x0501 (d.val * 256 + ch.val) ∧ t.obs.faultN = true)) := by
  have hexec : Machine.exec (.dramChannelTrained d ch passed) s = done s (s.channelTrained d.val ch.val passed) := rfl
  refine ⟨fun h => ?_, fun h5 hnew hlen => ?_⟩
  · rw [hexec, channelTrained_waits h, done_self]
  · rw [channelTrained_eq h5 hnew hlen] at hexec
    obtain ⟨hpend, hstage, hready, hfail⟩ := channelMarked_shows (channelNoted s (32 * d.val + ch.val)) d.val ch.val passed
    exact ⟨_, hexec.trans (done_kept hon hpend), hstage.trans h5, hready, hfail⟩

/-! ### the ledger is laid out (R245, R246, R391) -/

/-- Cells put one by one into a map. -/
def layCells (cells rest : List Host.Cell) : List Host.Cell := cells.foldr (fun c m => mapInsert c.1 c.2 m) rest

theorem mem_layCells (cells rest : List Host.Cell) (e : Host.Cell) : e ∈ layCells cells rest ↔ e ∈ cells ∨ e ∈ rest := by
  induction cells with
  | nil => simp [layCells]
  | cons c cells ih =>
    change e ∈ mapInsert c.1 c.2 (layCells cells rest) ↔ _
    rw [mem_mapInsert, ih, List.mem_cons, or_assoc]

/-- A key that no cell has reads as before. -/
theorem layCells_other {cells rest : List Host.Cell} {a : Nat} (h : ∀ c ∈ cells, c.1 ≠ a) :
    mapGet (fun _ => (0 : Byte)) a (layCells cells rest) = mapGet (fun _ => 0) a rest := by
  induction cells with
  | nil => rfl
  | cons c cells ih =>
    exact (mapInsert_other _ (h c List.mem_cons_self).symm _ _).trans (ih fun e he => h e (List.mem_cons_of_mem _ he))

/-- A listed key reads as one of its entries. -/
theorem mapGet_mem_of_key {d : Nat → Byte} {k : Nat} {l : List Host.Cell} (h : ∃ e ∈ l, e.1 = k) : (k, mapGet d k l) ∈ l := by
  induction l with
  | nil => simp at h
  | cons e l ih =>
    obtain ⟨j, v⟩ := e
    rw [mapGet_cons]
    split
    case isTrue hj => rw [hj]; exact List.mem_cons_self
    case isFalse hj =>
      obtain ⟨e, he, hk⟩ := h
      exact List.mem_cons_of_mem _ (ih ⟨e, (List.mem_cons.1 he).resolve_left fun h => hj (by rw [← hk, h]), hk⟩)

/-- The cells of every group's frames outside the pool. -/
def allNopool : List Host.Cell := (List.range 512).flatMap nopoolCells

theorem mem_allNopool {e : Host.Cell} : e ∈ allNopool ↔ ∃ g, g < 512 ∧ ∃ i, i < 65536 - poolFrames g ∧
    e = (fmAddr (g * 65536 + poolFrames g + i) + 7, 0x80) := by
  unfold allNopool nopoolCells
  simp only [List.mem_flatMap, List.mem_range, List.mem_map, eq_comm]

theorem poolFrames_le (g : Nat) : poolFrames g ≤ 65496 ∧ 65494 ≤ poolFrames g := by unfold poolFrames; split <;> omega

/-- The map entry of a frame lies in the placement area. -/
theorem fmAddr_inPlacement {g f : Nat} (hg : g < 512) (hf : f < 65536) : inPlacement (fmAddr (g * 65536 + f) + 7) = true := by
  have h1 : (g * 65536 + f) / 65536 = g := by omega
  have h2 : (g * 65536 + f) % 65536 = f := by omega
  unfold inPlacement fmAddr
  rw [h1, h2, Bool.and_eq_true, Bool.or_eq_true]
  refine ⟨decide_eq_true (by omega), .inl (decide_eq_true ?_)⟩
  rw [show g * 2 ^ 32 + 0xFFD80000 + 8 * f + 7 = 0xFFD80000 + 8 * f + 7 + g * 2 ^ 32 by omega,
    Nat.add_mul_mod_self_right, Nat.mod_eq_of_lt (by omega)]
  omega

theorem nopool_inPlacement {e : Host.Cell} (h : e ∈ allNopool) : inPlacement e.1 = true ∧ e.2 = 0x80 := by
  obtain ⟨g, hg, i, hi, rfl⟩ := mem_allNopool.1 h
  exact ⟨by rw [Nat.add_assoc (g * 65536)]; exact fmAddr_inPlacement hg (by omega), rfl⟩

/-- Memory once the placement area is laid out. -/
def laidOut (m : List Host.Cell) : List Host.Cell := layCells allNopool (m.filter (fun c => !inPlacement c.1))

theorem laidOut_outside (m : List Host.Cell) {a : Nat} (h : inPlacement a = false) :
    mapGet (fun _ => (0 : Byte)) a (laidOut m) = mapGet (fun _ => 0) a m := by
  refine (layCells_other fun c hc he => ?_).trans (mapGet_filter_key _ _ m fun _ => by simp [h])
  exact absurd ((nopool_inPlacement hc).1.symm.trans (he ▸ h)) (by decide)

theorem laidOut_nopool (m : List Host.Cell) {g f : Nat} (hg : g < 512) (hp : poolFrames g ≤ f) (hf : f < 65536) :
    mapGet (fun _ => (0 : Byte)) (fmAddr (g * 65536 + f) + 7) (laidOut m) = 0x80 := by
  have hcell : (fmAddr (g * 65536 + f) + 7, (0x80 : Byte)) ∈ allNopool :=
    mem_allNopool.2 ⟨g, hg, f - poolFrames g, by omega, by rw [Nat.add_assoc (g * 65536), Nat.add_sub_cancel' hp]⟩
  have hin := fmAddr_inPlacement hg hf
  generalize fmAddr (g * 65536 + f) + 7 = a at *
  have hmem := mapGet_mem_of_key (d := fun _ => 0) (k := a)
    ⟨(a, 0x80), (mem_layCells _ (m.filter (fun c => !inPlacement c.1)) _).2 (.inl hcell), rfl⟩
  rw [← laidOut] at hmem
  generalize mapGet (fun _ => (0 : Byte)) a (laidOut m) = v at hmem ⊢
  rcases (mem_layCells _ _ _).1 hmem with h | h
  · exact (nopool_inPlacement h).2
  · have hout := (List.mem_filter.1 h).2
    rw [hin] at hout
    exact absurd hout (by decide)

/-- The configured point is requested, and a recorded cap acted on: only the governor's registers and records change. -/
structure PowerSide (s t : State) : Prop where
  pending : t.pending = s.pending
  mem : t.mem = s.mem
  boot : t.boot = s.boot
  regs : regsKept s t (PWR_REQ :: Governor.steerRegs)

theorem powerReady_side (s : State) : PowerSide s s.powerReady := by
  unfold State.powerReady
  dsimp only
  have honly := onlyRegs_setFld s PWR_REQ PWR_REQ_POINT (bits (s.cfgWord 0x30) 0 2)
  have hregs : regsKept s (s.setFld PWR_REQ PWR_REQ_POINT (bits (s.cfgWord 0x30) 0 2)) (PWR_REQ :: Governor.steerRegs) :=
    regsKept_setReg s List.mem_cons_self _
  generalize s.setFld PWR_REQ PWR_REQ_POINT (bits (s.cfgWord 0x30) 0 2) = u at *
  split
  · have hcap := Governor.steered_capAct { u with pwr := { u.pwr with capRun := true } }
    have hboot : (State.capAct { u with pwr := { u.pwr with capRun := true } }).boot = u.boot := by rw [hcap.rest]
    have hpend : (State.capAct { u with pwr := { u.pwr with capRun := true } }).pending = u.pending := hcap.pending
    have hmem : (State.capAct { u with pwr := { u.pwr with capRun := true } }).mem = u.mem := hcap.mem
    exact ⟨hpend.trans (onlyRegs_pending honly), hmem.trans (onlyRegs_mem honly), hboot.trans (onlyRegs_boot honly),
      regsKept_trans hregs fun a ha => hcap.reg fun h => ha (List.mem_cons_of_mem _ h)⟩
  · exact ⟨onlyRegs_pending honly, onlyRegs_mem honly, onlyRegs_boot honly, hregs⟩

/-- The pool free and READY shown. -/
def poolShown (s : State) : State := (s.setFld PLC_FREE PLC_FREE_FRAMES 33533950).setFlag PLC_STAT PLC_STAT_READY true
/-- The warm reset is over. -/
def warmOver (s : State) : State := { s with boot := { s.boot with warming := false } }
theorem warmOver_mem (s : State) : (warmOver s).mem = s.mem := rfl
theorem warmOver_pending (s : State) : (warmOver s).pending = s.pending := rfl
theorem warmOver_warming (s : State) : (warmOver s).boot.warming = false := rfl
theorem warmOver_reg (s : State) (a : Nat) : (warmOver s).reg a = s.reg a := rfl

/-- The ledger's area laid out, the pool free, the warm reset over. -/
def ledgerLaid (s : State) : State := warmOver (poolShown { s with mem := laidOut s.mem })

theorem ledgerCleared_eq {s : State} (h : s.stage = 7) : s.ledgerCleared = ((ledgerLaid s).setStage 8).powerReady := by
  unfold State.ledgerCleared ledgerLaid warmOver poolShown laidOut layCells allNopool
  dsimp only
  rw [if_neg (not_not.2 h)]

theorem ledgerLaid_shows (s : State) : (ledgerLaid s).pending = s.pending ∧ (ledgerLaid s).mem = laidOut s.mem ∧
    (ledgerLaid s).boot.warming = false ∧ (ledgerLaid s).fld PLC_FREE PLC_FREE_FRAMES = 33533950 ∧
    (ledgerLaid s).flag PLC_STAT PLC_STAT_READY = true := by
  unfold ledgerLaid
  generalize hu : ({ s with mem := laidOut s.mem } : State) = u
  have hmem : u.mem = laidOut s.mem := by rw [← hu]
  have hpend : u.pending = s.pending := by rw [← hu]
  have honly : onlyRegs u (poolShown u) := onlyRegs_trans (onlyRegs_setFld u _ _ _) (onlyRegs_setFlag _ _ _ _)
  have hfree : (poolShown u).fld PLC_FREE PLC_FREE_FRAMES = 33533950 := by
    unfold poolShown
    refine (fld_of_reg (reg_setFlag_other _ (by decide) _ _) _).trans ((fld_setFld_same u _ _ _ (by decide)).trans ?_)
    decide
  have hready : (poolShown u).flag PLC_STAT PLC_STAT_READY = true := flag_setFlag_same _ _ true (by decide) rfl
  generalize poolShown u = v at *
  exact ⟨(warmOver_pending v).trans ((onlyRegs_pending honly).trans hpend), (warmOver_mem v).trans ((onlyRegs_mem honly).trans hmem),
    warmOver_warming v, (fld_of_reg (warmOver_reg v _) _).trans hfree,
    (flag_of_reg (warmOver_reg v _) _).trans hready⟩

theorem ledgerClearDone_shows {s : State} (hon : s.boot.on = true) (h : s.stage = 7) :
    ∃ t, Machine.exec .ledgerClearDone s = .next t ∧ t.stage = 8 ∧ t.fld PLC_FREE PLC_FREE_FRAMES = 33533950 ∧
      t.flag PLC_STAT PLC_STAT_READY = true ∧ t.boot.warming = false ∧ (∀ a, inPlacement a = false → byteAt t a = byteAt s a) ∧
      (∀ g f, g < 512 → poolFrames g ≤ f → f < 65536 → byteAt t (fmAddr (g * 65536 + f) + 7) = 0x80) := by
  have hexec : Machine.exec .ledgerClearDone s = done s s.ledgerCleared := rfl
  rw [ledgerCleared_eq h] at hexec
  obtain ⟨hpend, hmem, hwarm, hfree, hready⟩ := ledgerLaid_shows s
  generalize ledgerLaid s = u at *
  have honly := setStage_onlyRegs u 8
  have hstage := setStage_stage u 8
  have hreg {a : Nat} (ha : a ≠ AON_BOOT_STAT) := setStage_reg u 8 ha
  generalize u.setStage 8 = v at *
  have hside := powerReady_side v
  generalize v.powerReady = t at *
  have hbyte (a : Nat) : byteAt t a = mapGet (fun _ => (0 : Byte)) a (laidOut s.mem) := by
    rw [byteAt, hside.mem, onlyRegs_mem honly, hmem]
  have hplc {a : Nat} (ha : a ∉ PWR_REQ :: Governor.steerRegs) (hb : a ≠ AON_BOOT_STAT) : t.reg a = u.reg a := (hside.regs a ha).trans (hreg hb)
  refine ⟨t, hexec.trans (done_kept hon (hside.pending.trans ((onlyRegs_pending honly).trans hpend))),
    (fld_of_reg (hside.regs _ (by decide)) _).trans hstage, (fld_of_reg (hplc (by decide) (by decide)) _).trans hfree,
    (flag_of_reg (hplc (by decide) (by decide)) _).trans hready, ?_, fun a ha => ?_, fun g f hg hp hf => ?_⟩
  · rw [hside.boot, onlyRegs_boot honly, hwarm]
  · rw [hbyte, laidOut_outside s.mem ha, byteAt]
  · rw [hbyte, laidOut_nopool s.mem hg hp hf]

/-! ### the readiness limit (R347) -/

theorem pcieReadyDeadline_shows {s : State} (hon : s.boot.on = true) :
    (s.boot.perst = true ∨ s.isMember = true → Machine.exec .pcieReadyDeadline s = .next s) ∧
    (s.boot.perst = false → s.isMember = false → s.boot.pcie = true →
      Machine.exec .pcieReadyDeadline s = .next { s with boot := { s.boot with cfgHeld := true } }) ∧
    (s.boot.perst = false → s.isMember = false → s.boot.pcie = false →
      ∃ t, Machine.exec .pcieReadyDeadline s = .next t ∧ newestFault t 4 0x0504 0 ∧ t.obs.faultN = true) := by
  have hexec : Machine.exec .pcieReadyDeadline s = done s (if s.boot.perst || s.isMember then s
      else if !s.boot.pcie then s.fault 4 0x0504 0 0 else { s with boot := { s.boot with cfgHeld := true } }) := rfl
  rw [hexec]
  refine ⟨fun h => ?_, fun hp hm hpcie => ?_, fun hp hm hpcie => ?_⟩
  · rw [if_pos (Bool.or_eq_true_iff.2 h), done_self]
  · rw [hp, hm, hpcie, if_neg (by decide), if_neg (by decide)]
    exact done_kept hon rfl
  · rw [hp, hm, hpcie, if_neg (by decide), if_pos (by decide)]
    exact ⟨_, done_kept hon (fault_pending s _ _ _ _), fault_newest s _ _ _ _, fault_fatal_faultN s _ _ _⟩

/-! ### O57 -/

theorem warmReset_settles {s : State} (hon : s.boot.on = true) {q : Requester} {x v : Word} (hq : arrives s q) (hpd : s.pdOn 0 = true)
    (hothers : s.openOthers (reqNo q) AON_RST_CTRL = []) (hhalf : s.half (reqNo q) = some (AON_RST_CTRL, x.toNat))
    (hv : v.toNat = 0xFFFFFFFF - x.toNat) (hx : bit x.toNat 0 = true) :
    (s.stage ≤ 1 ∨ s.stage = 15 ∨ s.boot.warming = true →
      ∃ t, Machine.exec (.warmReset q v) s = .next t ∧ t.regs = s.regs ∧ t.mem = s.mem) ∧
    (1 < s.stage → s.stage ≠ 15 → s.boot.warming = false → ∃ t, Machine.exec (.warmReset q v) s = .next t ∧
      t.fld AON_RST_CAUSE AON_RST_CAUSE_CAUSE = 3 ∧
      t.fld AON_RST_CAUSE AON_RST_CAUSE_WARMS = satAdd 8 (s.fld AON_RST_CAUSE AON_RST_CAUSE_WARMS) 1 ∧
      t.stage = 2 ∧ t.boot.powerQ = [3, 5, 7, 9, 2] ∧ t.boot.warming = true ∧ t.running = false ∧ t.eng = {} ∧ t.plc = {} ∧
      t.cru = {} ∧ t.boot.pcie = s.boot.pcie ∧ t.reg (PKG_PD_STAT 0) = 3 ∧ t.obs.log = s.obs.log ∧ t.boot.fuses = s.boot.fuses ∧
      (∀ a, byteAt t a = if a < hwBase then 0 else byteAt s a)) := by
  have hexec := warmReset_exec hq hpd hothers hhalf hv hx
  refine ⟨fun h => ?_, fun h1 h15 hw => ?_⟩
  · rw [warmReset_ignored (s := s.setHalf (reqNo q) none) h] at hexec
    exact ⟨_, hexec.trans (done_kept hon rfl), rfl, rfl⟩
  · obtain ⟨hpend, hcause, hwarms, hstage, hpq, hwarm, hrun, heng, hplc, hcru, hpcie, hpdStat, hlog, hfuses, hmem⟩ :=
      warmReset_shows (s := s.setHalf (reqNo q) none) h1 h15 hw
    refine ⟨_, hexec.trans (done_kept hon hpend), hcause, hwarms, hstage, hpq, hwarm, hrun, heng, hplc, hcru, hpcie, hpdStat, hlog, hfuses,
      fun a => ?_⟩
    rw [byteAt, hmem]
    exact hostCells_get s.mem a

/-- Settles O57: each reset and each stage of start-up by its own lemma. -/
theorem resetsAndStartUpFollowTheirStages : Obligations.ResetsAndStartUpFollowTheirStages := by
  unfold Obligations.ResetsAndStartUpFollowTheirStages
  refine ⟨fun s => ⟨powerOn_shows s, ⟨_, rfl, rfl⟩, fun hot hon hlink => ?_, fun hon hp => perstUp_shows hon hp⟩, fun s hon =>
    ⟨fun q x v hq hpd hothers hhalf hv hx => warmReset_settles hon hq hpd hothers hhalf hv hx, fun hp => ?_, firmwareStart_waits,
      firmwareStart_shows hon, fun pd => domain_waits, fun pd rest h => ⟨domainPowerGood_shows hon pd h, powerGoodTimeout_shows hon pd h⟩,
      fun d ch passed => dramChannelTrained_shows hon d ch passed, fun h => ?_, ledgerClearDone_shows hon, pcieReadyDeadline_shows hon⟩⟩
  · obtain ⟨t, hexec, hfull, hperst, hheld, hrom, hlog, hcause, hwarms, hevents⟩ := fundReset_shows hon hot hlink
    refine ⟨t, hexec, hfull, hperst, hheld, hrom, hlog, hcause, hwarms, fun f hf => ?_⟩
    simp only [List.mem_cons, List.not_mem_nil, or_false] at hf
    rcases hf with rfl | rfl | rfl | rfl <;> exact hevents _ (by decide) rfl
  · change done s s.perstUp = _
    rw [State.perstUp, hp, if_pos (by decide), done_self]
  · change done s s.ledgerCleared = _
    rw [State.ledgerCleared, if_pos h, done_self]

end Sys2Proof.Resets
end
